-- ==== Sys2Proof/Word.lean ====
section
/-! DEFINITION. Words, bytes and the finite map the state's sparse data is held in. -/
namespace Sys2Proof

/-- One byte. -/
abbrev Byte := BitVec 8
/-- A 16-bit word: an error code, a cairn reference, a phase. -/
abbrev W16 := BitVec 16
/-- A 32-bit word. -/
abbrev W32 := BitVec 32
/-- A 64-bit word. -/
abbrev W64 := BitVec 64

/-- Sparse data by number: pairs with strictly rising keys. -/
abbrev NMap (α : Type) := List (Nat × α)

/-- The value listed for `k`, if any. -/
def NMap.get? {α : Type} : NMap α → Nat → Option α
  | [], _ => none
  | (a, b) :: m, k => if a = k then some b else NMap.get? m k

/-- The value listed for `k`, or `d` when none is. -/
def NMap.getD {α : Type} (m : NMap α) (k : Nat) (d : α) : α := (NMap.get? m k).getD d

/-- List `v` for `k`, keeping the keys rising. -/
def NMap.put {α : Type} : NMap α → Nat → α → NMap α
  | [], k, v => [(k, v)]
  | (a, b) :: m, k, v =>
    if k < a then (k, v) :: (a, b) :: m
    else if a = k then (k, v) :: m
    else (a, b) :: NMap.put m k v

/-- Unlist `k`. -/
def NMap.del {α : Type} (m : NMap α) (k : Nat) : NMap α := m.filter (fun e => decide (e.1 ≠ k))

/-- The keys rise strictly. -/
def NMap.sorted {α : Type} : NMap α → Bool
  | [] => true
  | [_] => true
  | (a, _) :: (b, y) :: m => decide (a < b) && NMap.sorted ((b, y) :: m)

end Sys2Proof
end

