-- ==== Sys2Proof/Machine/Operands.lean ====
section
/-! DEFINITION. The operand forms of the commands that are more than numbers: register access paths, scheduled items,
waiters, and what a command brings from outside the part. -/
namespace Sys2Proof.Machine

/-- Register access paths (R6, R577): each PCIe function (0 is PF0, 1 to 8 are VF 1 to VF 8), the I2C target and JTAG
DEBUG. -/
inductive Path where
  | fn (f : Fin 9)
  | i2c
  | jtag
  deriving DecidableEq, Repr

/-- An item scheduled against the step phase (R61), named as CAD_LAST_LATE_SRC names it (Table 2.6); a Scaler item is
an entry of a partition's plan on its fetch stream. -/
inductive Item where
  | tileCtx (t : Fin 24) (c : Fin 4)
  | dmaCh (d : Fin 4) (n : Fin 64)
  | scaler (p : Fin 8) (entry : Nat)
  | update (u : Fin 8)
  | coll (entry : Nat)
  | intake (p : Fin 8) (job : Nat)
  deriving DecidableEq, Repr

/-- Who waits on a cairn (CRN_LAST_TMO_WAITER kinds, Table 10.8). -/
inductive Waiter where
  | tileCtx (t c : Nat)
  | dmaCh (d n : Nat)
  | update (u : Nat)
  | hostWatch (h : Nat)
  | coll (entry : Nat)
  deriving DecidableEq, Repr

/-- What the error protection meets during an access (R110): nothing, an error it corrects, or one it cannot. -/
inductive Ecc where
  | clean
  | corrected
  | uncorrectable (addr : Nat)
  | poison
  deriving DecidableEq, Repr

/-- Bytes that lie outside the device, given with the command: from host memory at SRC, at DST (COMPARE), and for the
index list. -/
structure Ext where
  src : List Byte := []
  dst : List Byte := []
  idx : List Byte := []
  deriving DecidableEq, Repr

/-- How a data access fails (R110, Table 4.8). -/
inductive Fail where
  | uncorrectable
  | poison
  | timeout
  | linkDown
  | revoked
  deriving DecidableEq, Repr

/-- The code of a failure (Table 4.8). -/
def Fail.code : Fail → Nat
  | .uncorrectable => 0x0303
  | .poison => 0x0304
  | .timeout => 0x0305
  | .linkDown => 0x0306
  | .revoked => 0x0307

/-- What enumeration meets of one namespace. -/
structure FoundNs where
  nsid : Nat
  lba : Nat
  metadata : Nat
  cap : Nat
  deriving DecidableEq, Repr

/-- What enumeration meets of one controller, in the order of the walk. -/
structure FoundCtrl where
  /-- every step completes within CAP.TO -/
  ok : Bool
  /-- I/O queue pairs granted -/
  granted : Nat
  link : Nat
  nss : List FoundNs
  deriving DecidableEq, Repr

end Sys2Proof.Machine
end

