-- ==== Sys2Proof/Syntax.lean ====
section
/-! DEFINITION. The commands of the part: one constructor per row of the table of operations and events. A `p : Path` is the access
path of a register access; `raced` are the bits that hardware or a later path changes in the same clk (R13); `ext` are
bytes that lie outside the part (host memory, flash); `ecc` is what the error protection meets. -/
namespace Sys2Proof

open Machine

/-- The commands, in the order of the table. -/
inductive Instr where
  /-- REGISTER_WRITE (R8) -/
  | registerWrite (p : Path) (off size : Nat) (v raced : W64)
  /-- RC_READ (R8) -/
  | rcRead (p : Path) (off size : Nat)
  /-- LOWER_HALF_READ (R6) -/
  | lowerHalfRead (p : Path) (off : Nat)
  /-- UPPER_HALF_READ (R6) -/
  | upperHalfRead (p : Path) (off : Nat)
  /-- LOWER_HALF_WRITE (R6) -/
  | lowerHalfWrite (p : Path) (off : Nat) (v : W32)
  /-- UPPER_HALF_WRITE (R6) -/
  | upperHalfWrite (p : Path) (off : Nat) (v : W32) (raced : W64)
  /-- PHASE_ADVANCE (R41) -/
  | phaseAdvance (n : Nat)
  /-- STEP_WRAP (R41) -/
  | stepWrap
  /-- PHASE_POINT_REACHED (R61) -/
  | phasePointReached (item : Item)
  /-- ITEM_START (R32) -/
  | itemStart (item : Item)
  /-- DEADLINE_REACHED (R62) -/
  | deadlineReached (item : Item) (units : Nat) (ext : Ext)
  /-- PHASE_FRAME_RECEIVE (R38) -/
  | phaseFrameReceive (frame : List Byte) (codeOk : Bool)
  /-- FRAME_REPEAT (R44) -/
  | frameRepeat
  /-- PHASE_FRAME_SEND (R37) -/
  | phaseFrameSend
  /-- FRAME_LOSS_TIMEOUT (R48) -/
  | frameLossTimeout
  /-- BACKOFF_EXPIRY (R48) -/
  | backoffExpiry
  /-- CADENCE_LOST (R60) -/
  | cadenceLost
  /-- CAD_ENABLE (R48) -/
  | cadEnable (p : Path)
  /-- CAD_DISABLE (R38) -/
  | cadDisable (p : Path)
  /-- SW_HOLD (R66) -/
  | swHold (p : Path) (on : Bool)
  /-- RANK_WRITE (R55) -/
  | rankWrite (p : Path) (rank : Fin 8)
  /-- MASTER_RUN (R53) -/
  | masterRun (p : Path)
  /-- MASTER_STOP (R53) -/
  | masterStop (p : Path)
  /-- MASTER_PERIOD_WRITE (R52) -/
  | masterPeriodWrite (p : Path) (v : W32)
  /-- HOLD_N_FALL (R68) -/
  | holdNFall
  /-- HOLD_N_RISE (R70) -/
  | holdNRise
  /-- HOLD_TIMEOUT (R72) -/
  | holdTimeout (item : Item)
  /-- LOAD_FULL (R80) -/
  | loadFull (p : Path)
  /-- LOAD_PARTIAL (R96) -/
  | loadPartial (p : Path) (force : Bool)
  /-- VERIFY_ONLY (R80) -/
  | verifyOnly (p : Path)
  /-- UNLOAD (R478) -/
  | unload (p : Path)
  /-- ABORT (R95) -/
  | abort (p : Path)
  /-- LOAD_FLASH (R515) -/
  | loadFlash (p : Path)
  /-- IMAGE_READ_COMPLETE (R80) -/
  | imageReadComplete (ext : List Byte)
  /-- IMAGE_SOURCE_TIMEOUT (R95) -/
  | imageSourceTimeout
  /-- IMAGE_VERIFY_COMPLETE (R95) -/
  | imageVerifyComplete
  /-- PARTIAL_COMMIT (R97) -/
  | partialCommit
  /-- RELOAD_TIMEOUT (R101) -/
  | reloadTimeout
  /-- KEY_PROGRAM (R78) -/
  | keyProgram (p : Path) (slot : Fin 4) (ext : List Byte)
  /-- KEY_REVOKE (R78) -/
  | keyRevoke (p : Path) (slot : Fin 4)
  /-- SV_FLOOR_WRITE (R79) -/
  | svFloorWrite (p : Path) (v : W32)
  /-- PATROL_SCRUB (R111) -/
  | patrolScrub (stack : Fin 8) (ecc : Ecc)
  /-- GRANULE_ZERO (R120) -/
  | granuleZero (base : Nat)
  /-- ALLOC_RETRY (R127) -/
  | allocRetry
  /-- MOVE_COMPLETE (R117) -/
  | moveComplete (d : Fin 4) (n : Fin 64) (ext : List Byte)
  /-- TIER_RETRY (R134) -/
  | tierRetry (d : Fin 4) (n : Fin 64) (again : Option Fail)
  /-- SUBMIT (R142) -/
  | submit (p : Path) (part : Fin 8) (ext : List Byte)
  /-- WITHDRAW (R143) -/
  | withdraw (p : Path) (part : Fin 8)
  /-- DRY_RUN (R142) -/
  | dryRun (p : Path) (part : Fin 8) (ext : List Byte)
  /-- PLANNING_PASS_END (R150) -/
  | planningPassEnd (part : Fin 8)
  /-- EVICTION_ROUTE_DONE (R157) -/
  | evictionRouteDone (d : Fin 4) (fail : Option Fail) (ext : List Byte)
  /-- STREAM_CFG_WRITE (R217) -/
  | streamCfgWrite (p : Path) (stream : Fin 64) (v : W64)
  /-- OUTBOUND_LEG_COMPLETE (R167) -/
  | outboundLegComplete (part : Fin 8) (entry : Nat) (ext : Ext) (ecc : Ecc)
  /-- FETCH_BACK_START (R168) -/
  | fetchBackStart (part : Fin 8) (entry : Nat)
  /-- FETCH_BACK_COMPLETE (R168) -/
  | fetchBackComplete (part : Fin 8) (entry : Nat) (ext : Ext) (ecc : Ecc)
  /-- REGROW_START (R173) -/
  | regrowStart (part : Fin 8) (entry : Nat)
  /-- REGROW_COMPLETE (R173) -/
  | regrowComplete (part : Fin 8) (entry : Nat)
  /-- PARK_MOVE_START (R185) -/
  | parkMoveStart (part : Fin 8) (req : Nat)
  /-- RESUME_COMPLETE (R187) -/
  | resumeComplete (part : Fin 8) (req : Nat)
  /-- SLOT_GRANT (R204) -/
  | slotGrant (d : Fin 4)
  /-- DMA_CH_GO (R216) -/
  | dmaChGo (p : Path) (d : Fin 4) (n : Fin 64)
  /-- DMA_CH_ABORT (R231) -/
  | dmaChAbort (p : Path) (d : Fin 4) (n : Fin 64)
  /-- DMA_CH_CLEAR (R230) -/
  | dmaChClear (p : Path) (d : Fin 4) (n : Fin 64)
  /-- DESCRIPTOR_FETCH (R218) -/
  | descriptorFetch (d : Fin 4) (n : Fin 64) (ext : List Byte) (ecc : Ecc)
  /-- DESCRIPTOR_START (R220) -/
  | descriptorStart (d : Fin 4)
  /-- COPY (R223) -/
  | copy (d : Fin 4) (n : Fin 64) (ext : Ext) (ecc : Ecc)
  /-- FILL (R223) -/
  | fill (d : Fin 4) (n : Fin 64)
  /-- COMPARE (R223) -/
  | compare (d : Fin 4) (n : Fin 64) (ext : Ext) (ecc : Ecc)
  /-- MOVE (R116) -/
  | move (d : Fin 4) (n : Fin 64) (ext : Ext) (ecc : Ecc)
  /-- PACK (R196) -/
  | pack (d : Fin 4) (n : Fin 64) (ext : Ext) (ecc : Ecc)
  /-- UNPACK (R209) -/
  | unpack (d : Fin 4) (n : Fin 64) (ext : Ext) (ecc : Ecc)
  /-- TRANSPOSE (R223) -/
  | transpose (d : Fin 4) (n : Fin 64) (ext : Ext) (ecc : Ecc)
  /-- GATHER (R224) -/
  | gather (d : Fin 4) (n : Fin 64) (ext : Ext) (ecc : Ecc)
  /-- SCATTER (R224) -/
  | scatter (d : Fin 4) (n : Fin 64) (ext : Ext) (ecc : Ecc)
  /-- DESCRIPTOR_COMPLETE (R226) -/
  | descriptorComplete (d : Fin 4) (n : Fin 64)
  /-- DMA_READ_TIMEOUT (R235) -/
  | dmaReadTimeout (d : Fin 4) (n : Fin 64) (addr units : Nat) (ext : Ext)
  /-- TRANSFER_FAILURE (R236) -/
  | transferFailure (d : Fin 4) (n : Fin 64) (f : Fail) (addr units : Nat) (ext : Ext)
  /-- WLOAD (R243) -/
  | wload (t : Fin 24) (c : Fin 4) (ecc : Ecc)
  /-- MMPASS (R244) -/
  | mmpass (t : Fin 24) (c : Fin 4) (ecc : Ecc)
  /-- ACCOUT (R254) -/
  | accout (t : Fin 24) (c : Fin 4)
  /-- ACCDUMP (R257) -/
  | accdump (t : Fin 24) (c : Fin 4)
  /-- ACCIN (R257) -/
  | accin (t : Fin 24) (c : Fin 4) (ecc : Ecc)
  /-- ADD (R258) -/
  | add (t : Fin 24) (c : Fin 4)
  /-- SUB (R258) -/
  | sub (t : Fin 24) (c : Fin 4)
  /-- MUL (R258) -/
  | mul (t : Fin 24) (c : Fin 4)
  /-- FMA (R258) -/
  | fma (t : Fin 24) (c : Fin 4)
  /-- MIN (R258) -/
  | min (t : Fin 24) (c : Fin 4)
  /-- MAX (R258) -/
  | max (t : Fin 24) (c : Fin 4)
  /-- RCP (R258) -/
  | rcp (t : Fin 24) (c : Fin 4)
  /-- RSQRT (R258) -/
  | rsqrt (t : Fin 24) (c : Fin 4)
  /-- SQRT (R258) -/
  | sqrt (t : Fin 24) (c : Fin 4)
  /-- EXP2 (R258) -/
  | exp2 (t : Fin 24) (c : Fin 4)
  /-- LOG2 (R258) -/
  | log2 (t : Fin 24) (c : Fin 4)
  /-- CVT (R259) -/
  | cvt (t : Fin 24) (c : Fin 4)
  /-- RAND (R261) -/
  | rand (t : Fin 24) (c : Fin 4)
  /-- DROP (R262) -/
  | drop (t : Fin 24) (c : Fin 4)
  /-- RSUM (R258) -/
  | rsum (t : Fin 24) (c : Fin 4)
  /-- SEL (R258) -/
  | sel (t : Fin 24) (c : Fin 4)
  /-- VLD (R242) -/
  | vld (t : Fin 24) (c : Fin 4) (ecc : Ecc)
  /-- VST (R259) -/
  | vst (t : Fin 24) (c : Fin 4)
  /-- KEYSET (R262) -/
  | keyset (t : Fin 24) (c : Fin 4)
  /-- SRSET (R261) -/
  | srset (t : Fin 24) (c : Fin 4)
  /-- DMAGO (R216) -/
  | dmago (t : Fin 24) (c : Fin 4)
  /-- END (R264) -/
  | endOp (t : Fin 24) (c : Fin 4)
  /-- TIL_CTX_GO (R264) -/
  | tilCtxGo (p : Path) (t : Fin 24) (c : Fin 4)
  /-- TIL_CTX_STOP (R264) -/
  | tilCtxStop (p : Path) (t : Fin 24) (c : Fin 4)
  /-- TIL_CTX_CLEAR (R264) -/
  | tilCtxClear (p : Path) (t : Fin 24) (c : Fin 4)
  /-- CSIG (R282) -/
  | csig (t : Fin 24) (c : Fin 4)
  /-- CWAIT (R283) -/
  | cwait (t : Fin 24) (c : Fin 4)
  /-- FENCE (R270) -/
  | fence (t : Fin 24) (c : Fin 4)
  /-- PHASE (R286) -/
  | phase (t : Fin 24) (c : Fin 4)
  /-- OWN (R285) -/
  | own (t : Fin 24) (c : Fin 4)
  /-- CAIRN_WAIT_COMPLETE (R281) -/
  | cairnWaitComplete (w : Waiter)
  /-- WAIT_TIMEOUT (R288) -/
  | waitTimeout (w : Waiter)
  /-- CRN_HC_ADD (R290) -/
  | crnHcAdd (p : Path) (h : Fin 64) (v : W32)
  /-- CRN_HC_SET (R278) -/
  | crnHcSet (p : Path) (h : Fin 64) (v : W32) (raced : Bool)
  /-- HOST_WATCH_ARM (R291) -/
  | hostWatchArm (p : Path) (h : Fin 64) (v : W32)
  /-- HOST_WATCH_FIRE (R291) -/
  | hostWatchFire (h : Fin 64)
  /-- CRN_DEBUG_SET (R296) -/
  | crnDebugSet (p : Path) (v : W32)
  /-- REMOTE_SIGNAL_TIMEOUT (R294) -/
  | remoteSignalTimeout (rtag : Nat)
  /-- ARM (R299) -/
  | arm (p : Path) (unit : Fin 8)
  /-- DISARM (R299) -/
  | disarm (p : Path) (unit : Fin 8)
  /-- JOB_ELIGIBLE (R302) -/
  | jobEligible (unit : Fin 8)
  /-- CHECK_PASS_END (R316) -/
  | checkPassEnd (unit : Fin 8) (bad : Option Nat)
  /-- APPLY_PASS_END (R309) -/
  | applyPassEnd (unit : Fin 8) (bad : Option Nat)
  /-- LS_EXP_WRITE (R321) -/
  | lsExpWrite (p : Path) (part : Fin 8) (v : W32) (raced : W32)
  /-- LINK_FRAME_RECEIVE (R332) -/
  | linkFrameReceive (port : Fin 14) (frame : List Byte)
  /-- LINK_FRAME_SEND (R334) -/
  | linkFrameSend (port : Fin 14)
  /-- LINK_RESEND (R333) -/
  | linkResend (port : Fin 14)
  /-- RETRAIN (R335) -/
  | retrain (p : Option Path) (port : Fin 14)
  /-- TRAINING_RESULT (R335) -/
  | trainingResult (port : Fin 14) (machine : Nat) (peerId : Fin 64) (peerPort : Fin 14)
  /-- TRAINING_TIMEOUT (R335) -/
  | trainingTimeout (port : Fin 14)
  /-- LOSS_OF_LOCK (R341) -/
  | lossOfLock (port : Fin 14)
  /-- PORT_ENABLE (R335) -/
  | portEnable (p : Path) (port : Fin 14) (on : Bool)
  /-- NYN_FAILED_WRITE (R335) -/
  | nynFailedWrite (p : Path) (v : W64)
  /-- NOTICE (R337) -/
  | notice (near : Fin 14) (dev : Fin 64) (port : Fin 14) (up : Bool)
  /-- READ_REQ (R339) -/
  | readReq (port : Fin 14)
  /-- READ_DATA (R339) -/
  | readData (port : Fin 14)
  /-- WRITE (R339) -/
  | write (port : Fin 14)
  /-- WRITE_ACK (R339) -/
  | writeAck (port : Fin 14)
  /-- SIGNAL (R294) -/
  | signal (port : Fin 14)
  /-- SIGNAL_ACK (R294) -/
  | signalAck (port : Fin 14)
  /-- COLL_DATA (R345) -/
  | collData (port : Fin 14)
  /-- COLL_ACK (R350) -/
  | collAck (port : Fin 14)
  /-- RESERVE (R116) -/
  | reserve (port : Fin 14)
  /-- RESERVE_ACK (R116) -/
  | reserveAck (port : Fin 14)
  /-- FAIL (R352) -/
  | fail (port : Fin 14)
  /-- BOUNCE (R340) -/
  | bounce (port : Fin 14)
  /-- E2E_RESEND (R340) -/
  | e2eResend (rtag : Nat)
  /-- NYN_COLL_ARM (R342) -/
  | nynCollArm (p : Path)
  /-- NYN_COLL_DISARM (R342) -/
  | nynCollDisarm (p : Path)
  /-- COLL_ENTRY_START (R347) -/
  | collEntryStart (entry : Nat)
  /-- COLL_DEADLINE (R350) -/
  | collDeadline (entry : Nat)
  /-- REPLACE_WAIT_EXPIRY (R352) -/
  | replaceWaitExpiry (entry : Nat)
  /-- COLL_GRACE_EXPIRY (R353) -/
  | collGraceExpiry (entry : Nat)
  /-- DEFINE (R366) -/
  | define (p : Path) (part : Fin 8) (model : Fin 16) (rec pieces : List Byte)
  /-- UNDEFINE (R367) -/
  | undefine (p : Path) (part : Fin 8) (model : Fin 16)
  /-- SWAP_IN (R368) -/
  | swapIn (p : Path) (part : Fin 8) (model : Fin 16)
  /-- SWAP_OUT (R368) -/
  | swapOut (p : Path) (part : Fin 8) (model : Fin 16)
  /-- SWAP_START (R368) -/
  | swapStart (part : Fin 8)
  /-- SWAP_PIECE_DONE (R370) -/
  | swapPieceDone (d : Fin 4) (n : Fin 64) (ext : List Byte) (ecc : Ecc)
  /-- PART_ONLINE_WRITE (R361) -/
  | partOnlineWrite (p : Path) (part : Fin 8) (on : Bool)
  /-- SRV_SLOTS_WRITE (R362) -/
  | srvSlotsWrite (p : Path) (part : Fin 8) (v : W32)
  /-- PREFILL_CHUNK_DONE (R374) -/
  | prefillChunkDone (part : Fin 8)
  /-- HANDOVER_MOVE_DONE (R375) -/
  | handoverMoveDone (d : Fin 4) (n : Fin 64) (ecc : Ecc)
  /-- SAMPLER_SERVE (R402) -/
  | samplerServe (part : Fin 8)
  /-- WALK_COMPLETE (R397) -/
  | walkComplete (ext : List Byte)
  /-- INSERTION (R398) -/
  | insertion (part : Fin 8) (ext : List Byte)
  /-- INIT (R396) -/
  | init (p : Path) (part : Fin 8) (model : Fin 16)
  /-- FLUSH (R399) -/
  | flush (p : Path) (part : Fin 8) (model : Fin 16)
  /-- NOP (R479) -/
  | nop (f : Fin 9)
  /-- ALLOC (R122) -/
  | alloc (f : Fin 9)
  /-- RELEASE (R119) -/
  | release (f : Fin 9)
  /-- CMD_MOVE (R116) -/
  | cmdMove (f : Fin 9)
  /-- TOUCH (R124) -/
  | touch (f : Fin 9)
  /-- DMA_GO (R216) -/
  | dmaGo (f : Fin 9)
  /-- DMA_ABORT (R231) -/
  | dmaAbort (f : Fin 9)
  /-- DMA_CLEAR (R230) -/
  | dmaClear (f : Fin 9)
  /-- CTX_GO (R264) -/
  | ctxGo (f : Fin 9)
  /-- CTX_STOP (R264) -/
  | ctxStop (f : Fin 9)
  /-- CTX_CLEAR (R264) -/
  | ctxClear (f : Fin 9)
  /-- CMD_SUBMIT (R480) -/
  | cmdSubmit (f : Fin 9) (ext : List Byte)
  /-- CANCEL (R382) -/
  | cancel (f : Fin 9)
  /-- PAUSE (R406) -/
  | pause (f : Fin 9)
  /-- RESUME (R412) -/
  | resume (f : Fin 9)
  /-- GRANT (R487) -/
  | grant (f : Fin 9)
  /-- REVOKE (R488) -/
  | revoke (f : Fin 9)
  /-- REVOKE_COMPLETE (R488) -/
  | revokeComplete (window : Nat)
  /-- ADMISSION_EVALUATION (R415) -/
  | admissionEvaluation
  /-- KV_LIMIT_WRITE (R411) -/
  | kvLimitWrite (p : Path) (part : Fin 8) (v : W32)
  /-- ACCT_RESET (R419) -/
  | acctReset (p : Path) (part : Fin 8)
  /-- RESCAN (R431) -/
  | rescan (p : Path)
  /-- ENUMERATION (R432) -/
  | enumeration (found : List FoundCtrl) (excess : Bool) (links : Nat)
  /-- NS_OWNER_WRITE (R434) -/
  | nsOwnerWrite (p : Path) (v : W32)
  /-- PORT_BIFURCATE_WRITE (R430) -/
  | portBifurcateWrite (p : Path) (v : W32)
  /-- CONTROLLER_FATAL (R436) -/
  | controllerFatal (c : Fin 16)
  /-- INTAKE_LINK_DOWN (R450) -/
  | intakeLinkDown (link : Fin 4)
  /-- CONTROLLER_RESET_END (R436) -/
  | controllerResetEnd (c : Fin 16) (ok : Bool)
  /-- ASYNC_EVENT (R433) -/
  | asyncEvent (c : Fin 16)
  /-- JOB_TAKE (R437) -/
  | jobTake (part : Fin 8)
  /-- DECODE_ENGINE_START (R448) -/
  | decodeEngineStart (kind : Fin 4)
  /-- NVME_COMPLETION (R450) -/
  | nvmeCompletion (part : Fin 8) (job read : Nat) (sct sc : Nat) (dnr : Bool) (data : List Byte)
  /-- NVME_CMD_TIMEOUT (R450) -/
  | nvmeCmdTimeout (part : Fin 8) (job read : Nat)
  /-- INTAKE_RETRY (R450) -/
  | intakeRetry (part : Fin 8) (job read : Nat)
  /-- STREAM_FAULT (R451) -/
  | streamFault (part : Fin 8) (job : Nat)
  /-- INTAKE_JOB_END (R438) -/
  | intakeJobEnd (part : Fin 8) (job : Nat)
  /-- RING_ENABLE_WRITE (R441) -/
  | ringEnableWrite (p : Path) (part : Fin 8) (v : W32)
  /-- START (R453) -/
  | start (p : Path) (g : Fin 4)
  /-- STOP (R457) -/
  | stop (p : Path) (g : Fin 4)
  /-- TICK_START (R454) -/
  | tickStart (g : Fin 4)
  /-- TICK_END (R455) -/
  | tickEnd (g : Fin 4)
  /-- ACCESS_FAILED (R464) -/
  | accessFailed (g : Fin 4) (f : Fail) (addr parts : Nat)
  /-- HIF_DB_CMD (R472) -/
  | hifDbCmd (f : Fin 9) (v : W32)
  /-- HIF_DB_CPL (R473) -/
  | hifDbCpl (f : Fin 9) (v : W32)
  /-- HIF_DB_STR (R475) -/
  | hifDbStr (f : Fin 9) (v : W32)
  /-- COMMAND_TAKE (R472) -/
  | commandTake (f : Fin 9) (entry : List Byte)
  /-- COMPLETION_WRITE (R473) -/
  | completionWrite (f : Fin 9)
  /-- RING_CTRL_WRITE (R471) -/
  | ringCtrlWrite (p : Path) (f : Fin 9) (v : W32)
  /-- APERTURE_ACCESS (R467) -/
  | apertureAccess (f : Fin 9) (off size : Nat) (data : Option (List Byte)) (ecc : Ecc)
  /-- FUNCTION_LEVEL_RESET (R469) -/
  | functionLevelReset (f : Fin 9)
  /-- PWR_CMD_RUN (R502) -/
  | pwrCmdRun (p : Path)
  /-- PWR_CMD_IDLE (R499) -/
  | pwrCmdIdle (p : Path)
  /-- PWR_CMD_DOZE (R499) -/
  | pwrCmdDoze (p : Path)
  /-- PWR_CMD_KEEP (R500) -/
  | pwrCmdKeep (p : Path)
  /-- HOST_L2_ENTRY (R500) -/
  | hostL2Entry
  /-- KEEP_L2_TIMEOUT (R500) -/
  | keepL2Timeout
  /-- DOMAIN_POWER_ON (R490) -/
  | domainPowerOn (dom : Fin 56) (found : Option Nat)
  /-- MAIN_LOST (R501) -/
  | mainLost
  /-- RAIL_FAULT (R494) -/
  | railFault
  /-- THERMAL_SAMPLE (R495) -/
  | thermalSample (sensor : Fin 40) (temp : Int)
  /-- COMPARATOR_WINDOW (R505) -/
  | comparatorWindow (main : Bool) (mv : Nat)
  /-- SSC_WRITE (R497) -/
  | sscWrite (p : Path) (group : Fin 3) (v : W32)
  /-- PERST_ASSERT (R508) -/
  | perstAssert
  /-- PERST_RELEASE (R512) -/
  | perstRelease (straps : Nat)
  /-- SELF_TEST_COMPLETE (R513) -/
  | selfTestComplete (bad fault : Nat)
  /-- STACK_TRAINING_END (R518) -/
  | stackTrainingEnd (bad : Nat)
  /-- LINKS_STAGE_END (R519) -/
  | linksStageEnd
  /-- LOG_WRITER_DRAIN (R527) -/
  | logWriterDrain
  /-- TALLY_FLUSH (R534) -/
  | tallyFlush
  /-- TEMPERATURE_SAMPLE (R536) -/
  | temperatureSample
  /-- LOG_READ_SEQ (R538) -/
  | logReadSeq (p : Path) (v : W64)
  /-- LOG_TIME_SET (R530) -/
  | logTimeSet (p : Path) (v : W64)
  /-- I2C_READ (R554) -/
  | i2cRead (off : Nat) (whole : Bool)
  /-- I2C_WRITE (R555) -/
  | i2cWrite (off : Nat) (v : W32) (whole : Bool)
  /-- BYPASS (R556) -/
  | bypass (tdi : Bool)
  /-- IDCODE (R556) -/
  | idcode
  /-- SAMPLE_PRELOAD (R556) -/
  | samplePreload (pins cells : BitVec 26)
  /-- EXTEST (R556) -/
  | extest (pins cells : BitVec 26)
  /-- HIGHZ (R556) -/
  | highz (tdi : Bool)
  /-- CLAMP (R556) -/
  | clamp (tdi : Bool)
  /-- DEBUG (R556) -/
  | debug (addr : Nat) (v : W32) (write : Bool)
  /-- HOST_LINK_UP (R510) -/
  | hostLinkUp (rate width : Nat)
  /-- HOST_LINK_DOWN (R133) -/
  | hostLinkDown
  /-- FOOTHILL_LINK_DOWN (R134) -/
  | foothillLinkDown (port : Fin 2)
  deriving DecidableEq, Repr

end Sys2Proof
end

