-- ==== Sys2Proof/Config.lean ====
section
/-! DEFINITION. What one die or board fixes, and the values the spec leaves open. Constants without a body are free:
nothing can be proved of their values. -/
namespace Sys2Proof.Config

/-- HIF_SERIAL, fixed at manufacture per die (Table 0.7). -/
opaque serial : W64
/-- The 48 bytes of Afmond's key hash in slot 0 (R78). -/
opaque afmondKeyHash : Nat → Byte
/-- The resampler coefficients INT_RS_COEF, whose values the spec does not list (Table 16.12). -/
opaque rsCoef : Nat → W32
/-- A byte that the outside returns and no operand gives: the first argument tells apart uses, the second counts bytes. -/
opaque outsideByte : Nat → Nat → Byte
/-- A number the spec leaves open, per use. -/
opaque freeNat : Nat → Nat
/-- Element type that KV_DTYPE gives for the pages of a model (Table 14.1): the spec names no source of it. -/
opaque kvDtype : Nat → Nat

/-- What a media decoder makes of an elementary stream (R442, R443, R449, R451): what its headers say, the leading part
that decodes, and where it stops. -/
structure Decoded where
  /-- stream offset of the unit that shows the stream to be unsupported -/
  unsupported : Option Nat := none
  /-- stream offset of the unit in which a stream fault was found -/
  fault : Option Nat := none
  chroma : Nat := 0
  depth : Nat := 0
  width : Nat := 0
  height : Nat := 0
  progressive : Bool := false
  /-- pictures in output order, as planes of samples row by row -/
  pictures : List (List (List Nat)) := []
  /-- leading image rows that are decoded (JPEG) -/
  rows : Nat := 0
  channels : Nat := 0
  rate : Nat := 0
  /-- samples of each channel as signed integers of `depth` bits -/
  samples : List (List Int) := []
  /-- STREAMINFO holds an MD5 that the samples do not match -/
  md5Bad : Bool := false
  deriving DecidableEq, Repr, Inhabited

/-- The standards' decoding processes (R443) for JPEG, HEVC, AV1 and FLAC streams, by CODEC and NO_GRAIN. -/
opaque decode : Nat → Bool → List Byte → Decoded

end Sys2Proof.Config
end

