-- ==== Sys2Proof/Machine/Regs.lean ====
section
/-! DEFINITION. The register window: every register of the 17 block windows (Table 23.2, Table 23.3), one row each,
with its place, width, access code, reset value, writable bits, domain and the rights class of Table 18.3. -/
namespace Sys2Proof.Machine

/-- The registers of the register window, one name per register of the spec's register tables (an array of registers,
such as DMA_CH_CFG of every channel, is one name). -/
inductive RegName where
  | hifIdent | hifIdentRsv | hifSerial | hifCapCompute | hifCapMemory | hifCapPorts | hifCapIntake | hifPciId 
  | hifLink | hifEvent | hifLastErr | hifEvtVec | hifBlockEvent | hifBootStatus | hifBootFault | hifBadTiles 
  | hifBadStacks | hifResumeStep | hifBootTime | hifLinksDown | hifBootRom | hifWinFunc | hifWinSize | hifWinBus 
  | hifRingCtrl | hifRingSize | hifCmdBase | hifCplBase | hifStrBase | hifStrLen | hifRingVec | hifCmdHead 
  | hifCplTail | hifStrTail | hifRingStatus | hifAptBase | hifCmdTaken | hifStreamWaits | hifAptErrs | imgCmd 
  | imgStatus | imgSrcAddr | imgSrcLen | imgLastErr | imgRejectInfo | imgWaitMax | imgDigest | imgVersion 
  | imgSvFloor | imgKeyStatus | imgKeyCmd | imgFsmNotrans | imgEvent | imgPartVer | cadCtrl | cadStatus | cadEvent 
  | cadLastErr | cadPhase | cadPeriod | cadInLink | cadRootDelay | cadFlyMax | cadHoldMax | cadSlipLimit 
  | cadMasterStart | cadMasterPeriod | cadMasterCmd | cadLateCount | cadSlipCount | cadFrameErr | cadHoldCount 
  | cadLastLate | cadLastLateSrc | pwrStatus | pwrCmd | pwrEvent | pwrLastErr | pwrDomains | pwrSsc | pwrTempMax 
  | pwrTempPeak | pwrTempWarn | pwrVbak | pwrKeepTime | pwrRailFaults | pwrPadEdge | pwrPadTerm | pwrStraps 
  | logCap | logCfg | logHead | logOldest | logReadSeq | logReadStatus | logStaged | logEpoch | logTime 
  | logTimeSet | logEntry | tlyCap | tlySel | tlyVal | sclLedgerCmd | sclLedgerAddr | sclLedgerStatus 
  | sclLedgerActive | sclPlanLastErr | sclPlanInfo | sclPlanPart | sclPlanPeak | sclPlanKeep | sclPlanPack 
  | sclPlanSend | sclPlanSendpack | sclPlanRegrow | sclPlanOverrides | sclPlanSel | sclPlanWord | sclPlanRatio 
  | sclPlanMargin | sclRegrowCap | sclOverrideCount | sclEvictFail | sclLedgerEvent | sclPlanBudget | sclRunEvent 
  | sclRunLastErr | sclRunInfo | sclFetchCount | sclRegrowCount | sclAdaptCount | sclDamageRegrow | sclFetchFail 
  | sclSlackMin | sclInflight | sclStreamCfg | sclStreamMode | sclKvWin | sclKvTtl | sclKvCfg | sclParked 
  | sclParkPages | sclParkExpired | sclParkFail | sclPoolCap | sclPoolFree | sclFhCap | sclTierRetry | sclScrubCtrl 
  | sclPartUse | sclHoldSel | sclHoldInfo | sclHoldBase | sclHoldSize | sclTierEvent | sclTierLastErr | sclEccCorr 
  | sclEccUncorr | sclTierRetries | sclEvictCount | sclHoldCount | sclLastEccAddr | crnCap | crnWaitTmo 
  | crnRemoteTmo | crnEvent | crnLastErr | crnLastTmoWaiter | crnLastTmoVal | crnTimeouts | crnRefused 
  | crnRemoteAdds | crnDebugRef | crnDebugSet | crnReadRef | crnReadVal | crnHcValue | crnHcAdd | crnHcSet 
  | crnHcTarget | crnHcWcfg | crnHcWstat | crnHcMirror | crnRemote | srvPartCtrl | srvSlots | srvReqMax | srvActive 
  | srvModelAddr | srvModelCmd | srvSwapCfg | srvModelState | srvGlistAddr | srvPlistAddr | srvPlistLen 
  | srvHandoverCfg | srvListCairns | srvEvent | srvLastErr | srvReqInfo | srvCancels | srvServed | srvSwaps 
  | srvTokens | srvTreeAddr | srvTreeNodes | srvTreeCfg | srvTreeCmd | srvTreeUsed | srvTreePages | srvWalkHits 
  | srvSpecMax | srvLogitsAddr | srvSampleCairns | srvSpecDrafted | srvSpecAccepted | srvPenOverflow | srvTreeSkips 
  | srvGenEvent | srvCap | srvSamplerCap | admQdepth | admNoticeGap | admKvLimit | admKvCommitted | admPeriod 
  | admQuantum | admAccounts | admAcctSel | admAcctRate | admAcctBurst | admAcctHard | admAcctBalance 
  | admAcctSpent | admAcctDeficit | admAcctStatus | admAcctAdmitted | admAcctDelayed | admAcctRefused | admAcctCmd 
  | admReqSel | admReqInfo | admPromptTokens | admChunk | admEvent | admLastErr | admAdmits | admDelays 
  | admRefusals | tilInfo | tilArrayOwner | tilPasses | tilFaults | tilCtxCtrl | tilCtxStatus | tilCtxPc 
  | tilCtxCfg | tilCtxErr | tilCtxErrPc | tilCtxFlags | tilCtxKeysel | tilCtxCtr | tilCtxErrCairn | tilKey 
  | tilSrSeed | tilCap | dmaCap | dmaHopLimit | dmaReadTimeout | dmaLastErr | dmaStopEvent | dmaOccupancy 
  | dmaStopCount | dmaDescCount | dmaGrantWait | dmaBytesRead | dmaBytesWritten | dmaTimeouts | dmaChCfg 
  | dmaChCtrl | dmaChHead | dmaChStatus | dmaChErr | dmaChErrAddr | dmaChCur | dmaChDone | dmaChCmp | dmaChFault 
  | dmaChHops | dmaChErrCairn | xpcEvent | xpcLastErr | xpcLastInfo | xpcLastObj | xpcSlotsBusy | xpcSlotWait 
  | xpcRawBytes | xpcCodedBytes | xpcBlocksCoded | xpcBlocksRaw | xpcBlocksDecoded | xpcDamaged | xpcCap | updCtrl 
  | updCfg | updTableAddr | updTableCount | updStatus | updLastErr | updErrJob | updErrElem | updRunDone 
  | updRunSkip | updLastNorm | updSkips | updJobs | updElems | updLsCfg | updLsExp | updLsRange | updLsClean 
  | updLsMirror | updLsCairn | updFaultCairn | updB1 | updB2 | updPow1 | updPow2 | updEvent | updStepFault 
  | updGrid | updNf | updHpLr | updHpEps | updHpWd | updHpClip | updKeyRotate | updCap | nynPortCtrl | nynPortCmd 
  | nynPortStatus | nynPortFec | nynPortRetry | nynPortDowns | nynPortBounces | nynIdent | nynMachineId 
  | nynMembers | nynFailed | nynReach | nynEvent | nynLastErr | nynLastInfo | nynE2eCfg | nynRetrainGap 
  | nynResends | nynCollCtrl | nynCollCfg | nynCollTable | nynCollCount | nynCollStatus | nynCollMiss 
  | nynReplaceWait | nynCollGrace | nynCkptStep | nynSkipped | nynCarried | intCap | intPortCfg | intPortCmd 
  | intPortStatus | intEvent | intLastErr | intRetry | intCmdTimeout | intTmoLimit | intCtrlState | intNsSel 
  | intNsInfo | intNsCap | intNsOwner | intReadBytes | intJobs | intDriveErrs | intCorrupt | intRetries 
  | intRingCfg | intRingBase | intResultBase | intRingLen | intRingStatus | intRingCairns | intJobsTaken | intCscM 
  | intCscO | intRsCoef | alnCap | alnEvent | alnLastErr | alnGCtrl | alnGCfg | alnGAddr | alnGCairns | alnGStatus 
  | alnGTicks | alnGStale | alnGSel | alnGShift | alnGRefines 
  deriving DecidableEq, Repr

/-- Access codes of Table 0.4. -/
inductive Acc where
  | ro | rw | w1c | wo | rc
  deriving DecidableEq, Repr

/-- The power domain a register lies in (Table 23.2); an indexed one is that of the register's first index. -/
inductive RegDom where
  | spine | hif | tile | dma | stack | port | anyPort | intake | align
  deriving DecidableEq, Repr

/-- The row of Table 18.3 that gives the rights of each function to a register (R470, R539). -/
inductive RegOwn where
  | ident | pf0 | func | logRd | logPf0 | tile | ctx | chan | unit | group | part | ledgerCmd | hostCairn | dev | devRw
  deriving DecidableEq, Repr

/-- One row of the register tables. `base` is the window offset of the first instance; instance (i, j) lies at
`base + i * s1 + j * s2`, with `i < c1` and `j < c2`. `mask` has a 1 for every bit that is not reserved. -/
structure RegRow where
  base : Nat
  w64 : Bool
  acc : Acc
  reset : Nat
  mask : Nat
  dom : RegDom
  own : RegOwn
  s1 : Nat := 0
  c1 : Nat := 1
  s2 : Nat := 0
  c2 : Nat := 1
  deriving DecidableEq, Repr

/-- The register tables of the spec, row by row (Tables 0.7, 1.6, 2.6, 3.14, 4.10, 5.12, 6.5, 7.9, 8.7, 8.8, 9.7, 9.8,
10.8, 10.9, 11.4 to 11.6, 12.8, 12.9, 13.10, 13.11, 14.5, 14.6, 15.7, 16.10 to 16.12, 17.4, 17.5, 18.10, 18.11, 19.6,
20.5, 21.6, 21.7, 22.9). A reset that is not one number for all instances stands in `RegName.resetOf`. -/
def RegName.row : RegName → RegRow
  | .hifIdent => { base := 0x0, w64 := false, acc := .ro, reset := 0x1A642101, mask := 0xFFFFFFFF, dom := .hif, own := .ident }
  | .hifIdentRsv => { base := 0x4, w64 := false, acc := .ro, reset := 0x0, mask := 0x0, dom := .hif, own := .ident }
  | .hifSerial => { base := 0x8, w64 := true, acc := .ro, reset := 0x0, mask := 0xFFFFFFFFFFFFFFFF, dom := .hif, own := .ident }
  | .hifCapCompute => { base := 0x10, w64 := false, acc := .ro, reset := 0x10100818, mask := 0xFFFFFFFF, dom := .hif, own := .ident }
  | .hifCapMemory => { base := 0x14, w64 := false, acc := .ro, reset := 0x8300100, mask := 0xFFFFFFFF, dom := .hif, own := .ident }
  | .hifCapPorts => { base := 0x18, w64 := false, acc := .ro, reset := 0x480E2108, mask := 0xFFFFFFFF, dom := .hif, own := .ident }
  | .hifCapIntake => { base := 0x1C, w64 := false, acc := .ro, reset := 0x10401020, mask := 0xFFFFFFFF, dom := .hif, own := .ident }
  | .hifPciId => { base := 0x20, w64 := false, acc := .ro, reset := 0x1A641F2E, mask := 0xFFFFFFFF, dom := .hif, own := .pf0 }
  | .hifLink => { base := 0x24, w64 := false, acc := .ro, reset := 0x0, mask := 0x1FF, dom := .hif, own := .pf0 }
  | .hifEvent => { base := 0x28, w64 := false, acc := .w1c, reset := 0x0, mask := 0xF, dom := .hif, own := .pf0 }
  | .hifLastErr => { base := 0x2C, w64 := false, acc := .ro, reset := 0x0, mask := 0xF000FFFF, dom := .hif, own := .pf0 }
  | .hifEvtVec => { base := 0x30, w64 := false, acc := .rw, reset := 0x0, mask := 0xFFF, dom := .hif, own := .pf0 }
  | .hifBlockEvent => { base := 0x34, w64 := false, acc := .ro, reset := 0x0, mask := 0x1FFF, dom := .hif, own := .pf0 }
  | .hifBootStatus => { base := 0x40, w64 := false, acc := .ro, reset := 0x0, mask := 0xFFFF07FF, dom := .hif, own := .pf0 }
  | .hifBootFault => { base := 0x44, w64 := false, acc := .ro, reset := 0x0, mask := 0xFF, dom := .hif, own := .pf0 }
  | .hifBadTiles => { base := 0x48, w64 := false, acc := .ro, reset := 0x0, mask := 0xFFFFFF, dom := .hif, own := .pf0 }
  | .hifBadStacks => { base := 0x4C, w64 := false, acc := .ro, reset := 0x0, mask := 0xFF, dom := .hif, own := .pf0 }
  | .hifResumeStep => { base := 0x50, w64 := true, acc := .ro, reset := 0x0, mask := 0xFFFFFFFFFFFFFFFF, dom := .hif, own := .pf0 }
  | .hifBootTime => { base := 0x58, w64 := false, acc := .ro, reset := 0x0, mask := 0xFFFFFFFF, dom := .hif, own := .pf0 }
  | .hifLinksDown => { base := 0x5C, w64 := false, acc := .ro, reset := 0x0, mask := 0xFFFF, dom := .hif, own := .pf0 }
  | .hifBootRom => { base := 0x60, w64 := false, acc := .ro, reset := 0x10000, mask := 0xFFFFFFFF, dom := .hif, own := .pf0 }
  | .hifWinFunc => { base := 0x400, w64 := false, acc := .rw, reset := 0xF, mask := 0xF, dom := .hif, own := .pf0, s1 := 0x10, c1 := 64 }
  | .hifWinSize => { base := 0x404, w64 := false, acc := .ro, reset := 0x0, mask := 0xFFFFFFFF, dom := .hif, own := .pf0, s1 := 0x10, c1 := 64 }
  | .hifWinBus => { base := 0x408, w64 := true, acc := .ro, reset := 0x0, mask := 0xFFFFFFFFFFFFFFFF, dom := .hif, own := .pf0, s1 := 0x10, c1 := 64 }
  | .hifRingCtrl => { base := 0x1000, w64 := false, acc := .rw, reset := 0x0, mask := 0x7, dom := .hif, own := .func, s1 := 0x100, c1 := 9 }
  | .hifRingSize => { base := 0x1004, w64 := false, acc := .rw, reset := 0x0, mask := 0xFF, dom := .hif, own := .func, s1 := 0x100, c1 := 9 }
  | .hifCmdBase => { base := 0x1008, w64 := true, acc := .rw, reset := 0x0, mask := 0xFFFFFFFFFFFFFFFF, dom := .hif, own := .func, s1 := 0x100, c1 := 9 }
  | .hifCplBase => { base := 0x1010, w64 := true, acc := .rw, reset := 0x0, mask := 0xFFFFFFFFFFFFFFFF, dom := .hif, own := .func, s1 := 0x100, c1 := 9 }
  | .hifStrBase => { base := 0x1018, w64 := true, acc := .rw, reset := 0x0, mask := 0xFFFFFFFFFFFFFFFF, dom := .hif, own := .func, s1 := 0x100, c1 := 9 }
  | .hifStrLen => { base := 0x1020, w64 := false, acc := .rw, reset := 0x1, mask := 0xFFFFFFFF, dom := .hif, own := .func, s1 := 0x100, c1 := 9 }
  | .hifRingVec => { base := 0x1024, w64 := false, acc := .rw, reset := 0x0, mask := 0x87FF87FF, dom := .hif, own := .func, s1 := 0x100, c1 := 9 }
  | .hifCmdHead => { base := 0x1028, w64 := false, acc := .ro, reset := 0x0, mask := 0xFFFF, dom := .hif, own := .func, s1 := 0x100, c1 := 9 }
  | .hifCplTail => { base := 0x102C, w64 := false, acc := .ro, reset := 0x0, mask := 0xFFFF, dom := .hif, own := .func, s1 := 0x100, c1 := 9 }
  | .hifStrTail => { base := 0x1030, w64 := false, acc := .ro, reset := 0x0, mask := 0xFFFFFFFF, dom := .hif, own := .func, s1 := 0x100, c1 := 9 }
  | .hifRingStatus => { base := 0x1034, w64 := false, acc := .ro, reset := 0x0, mask := 0xFFFF0007, dom := .hif, own := .func, s1 := 0x100, c1 := 9 }
  | .hifAptBase => { base := 0x1038, w64 := true, acc := .rw, reset := 0x0, mask := 0xFFFFFFFFFFFFFFFF, dom := .hif, own := .func, s1 := 0x100, c1 := 9 }
  | .hifCmdTaken => { base := 0x1040, w64 := false, acc := .rc, reset := 0x0, mask := 0xFFFFFFFF, dom := .hif, own := .func, s1 := 0x100, c1 := 9 }
  | .hifStreamWaits => { base := 0x1044, w64 := false, acc := .rc, reset := 0x0, mask := 0xFFFFFFFF, dom := .hif, own := .func, s1 := 0x100, c1 := 9 }
  | .hifAptErrs => { base := 0x1048, w64 := false, acc := .rc, reset := 0x0, mask := 0xFFFFFFFF, dom := .hif, own := .func, s1 := 0x100, c1 := 9 }
  | .imgCmd => { base := 0x100000, w64 := false, acc := .wo, reset := 0x0, mask := 0x1F, dom := .spine, own := .pf0 }
  | .imgStatus => { base := 0x100004, w64 := false, acc := .ro, reset := 0x0, mask := 0xF7, dom := .spine, own := .pf0 }
  | .imgSrcAddr => { base := 0x100008, w64 := true, acc := .rw, reset := 0x0, mask := 0xFFFFFFFFFFFFFFFF, dom := .spine, own := .pf0 }
  | .imgSrcLen => { base := 0x100010, w64 := false, acc := .rw, reset := 0x0, mask := 0xFFFFFFFF, dom := .spine, own := .pf0 }
  | .imgLastErr => { base := 0x100014, w64 := false, acc := .ro, reset := 0x0, mask := 0xFFFF, dom := .spine, own := .pf0 }
  | .imgRejectInfo => { base := 0x100018, w64 := false, acc := .ro, reset := 0xFFFFFFFF, mask := 0xFFFFFFFF, dom := .spine, own := .pf0 }
  | .imgWaitMax => { base := 0x10001C, w64 := false, acc := .rw, reset := 0xF4240, mask := 0xFFFFFFFF, dom := .spine, own := .pf0 }
  | .imgDigest => { base := 0x100020, w64 := true, acc := .ro, reset := 0x0, mask := 0xFFFFFFFFFFFFFFFF, dom := .spine, own := .pf0 }
  | .imgVersion => { base := 0x100028, w64 := false, acc := .ro, reset := 0x0, mask := 0xFFFFFFFF, dom := .spine, own := .pf0 }
  | .imgSvFloor => { base := 0x10002C, w64 := false, acc := .rw, reset := 0x0, mask := 0xFFFFFFFF, dom := .spine, own := .pf0 }
  | .imgKeyStatus => { base := 0x100030, w64 := false, acc := .ro, reset := 0x1, mask := 0xFF, dom := .spine, own := .pf0 }
  | .imgKeyCmd => { base := 0x100034, w64 := false, acc := .wo, reset := 0x0, mask := 0xF, dom := .spine, own := .pf0 }
  | .imgFsmNotrans => { base := 0x100038, w64 := false, acc := .rc, reset := 0x0, mask := 0xFFFFFFFF, dom := .spine, own := .pf0 }
  | .imgEvent => { base := 0x10003C, w64 := false, acc := .w1c, reset := 0x0, mask := 0xF, dom := .spine, own := .pf0 }
  | .imgPartVer => { base := 0x100040, w64 := false, acc := .ro, reset := 0x0, mask := 0xFFFFFFFF, dom := .spine, own := .pf0, s1 := 0x4, c1 := 8 }
  | .cadCtrl => { base := 0x200000, w64 := false, acc := .rw, reset := 0x0, mask := 0x7F, dom := .spine, own := .pf0 }
  | .cadStatus => { base := 0x200004, w64 := false, acc := .ro, reset := 0x0, mask := 0xFFF, dom := .spine, own := .pf0 }
  | .cadEvent => { base := 0x200008, w64 := false, acc := .w1c, reset := 0x0, mask := 0xFF, dom := .spine, own := .pf0 }
  | .cadLastErr => { base := 0x20000C, w64 := false, acc := .ro, reset := 0x0, mask := 0xFFFF, dom := .spine, own := .pf0 }
  | .cadPhase => { base := 0x200010, w64 := true, acc := .ro, reset := 0x0, mask := 0xFFFFFFFFFFFFFFFF, dom := .spine, own := .pf0 }
  | .cadPeriod => { base := 0x200018, w64 := false, acc := .ro, reset := 0x0, mask := 0xFFFFFF, dom := .spine, own := .pf0 }
  | .cadInLink => { base := 0x20001C, w64 := false, acc := .rw, reset := 0x0, mask := 0xFFFF, dom := .spine, own := .pf0 }
  | .cadRootDelay => { base := 0x200020, w64 := false, acc := .rw, reset := 0x0, mask := 0xFFFF, dom := .spine, own := .pf0 }
  | .cadFlyMax => { base := 0x200024, w64 := false, acc := .rw, reset := 0x3E8, mask := 0xFFFFFFFF, dom := .spine, own := .pf0 }
  | .cadHoldMax => { base := 0x200028, w64 := false, acc := .rw, reset := 0x186A0, mask := 0xFFFFFFFF, dom := .spine, own := .pf0 }
  | .cadSlipLimit => { base := 0x20002C, w64 := false, acc := .rw, reset := 0x7D0, mask := 0xFFFFFFFF, dom := .spine, own := .pf0 }
  | .cadMasterStart => { base := 0x200030, w64 := true, acc := .rw, reset := 0x0, mask := 0xFFFFFFFFFFFF, dom := .spine, own := .pf0 }
  | .cadMasterPeriod => { base := 0x200038, w64 := false, acc := .rw, reset := 0x47869, mask := 0xFFFFFF, dom := .spine, own := .pf0 }
  | .cadMasterCmd => { base := 0x20003C, w64 := false, acc := .wo, reset := 0x0, mask := 0x3, dom := .spine, own := .pf0 }
  | .cadLateCount => { base := 0x200040, w64 := false, acc := .rc, reset := 0x0, mask := 0xFFFFFFFF, dom := .spine, own := .pf0 }
  | .cadSlipCount => { base := 0x200044, w64 := false, acc := .rc, reset := 0x0, mask := 0xFFFFFFFF, dom := .spine, own := .pf0 }
  | .cadFrameErr => { base := 0x200048, w64 := false, acc := .rc, reset := 0x0, mask := 0xFFFFFFFF, dom := .spine, own := .pf0 }
  | .cadHoldCount => { base := 0x20004C, w64 := false, acc := .rc, reset := 0x0, mask := 0xFFFFFFFF, dom := .spine, own := .pf0 }
  | .cadLastLate => { base := 0x200050, w64 := true, acc := .ro, reset := 0x0, mask := 0xFFFFFFFFFFFFFFFF, dom := .spine, own := .pf0 }
  | .cadLastLateSrc => { base := 0x200058, w64 := false, acc := .ro, reset := 0x0, mask := 0xFFFFFFFF, dom := .spine, own := .pf0 }
  | .pwrStatus => { base := 0x300000, w64 := false, acc := .ro, reset := 0x0, mask := 0xF7, dom := .spine, own := .pf0 }
  | .pwrCmd => { base := 0x300004, w64 := false, acc := .wo, reset := 0x0, mask := 0x3, dom := .spine, own := .pf0 }
  | .pwrEvent => { base := 0x300008, w64 := false, acc := .w1c, reset := 0x0, mask := 0x1F, dom := .spine, own := .pf0 }
  | .pwrLastErr => { base := 0x30000C, w64 := false, acc := .ro, reset := 0x0, mask := 0xFFFF, dom := .spine, own := .pf0 }
  | .pwrDomains => { base := 0x300010, w64 := true, acc := .ro, reset := 0x1000000000000, mask := 0xFFFFFFFFFFFFFFFF, dom := .spine, own := .pf0 }
  | .pwrSsc => { base := 0x300018, w64 := false, acc := .rw, reset := 0x3F0A, mask := 0xFF1F, dom := .spine, own := .pf0, s1 := 0x4, c1 := 3 }
  | .pwrTempMax => { base := 0x300030, w64 := false, acc := .ro, reset := 0x0, mask := 0x3FFFFF, dom := .spine, own := .pf0 }
  | .pwrTempPeak => { base := 0x300034, w64 := false, acc := .rc, reset := 0x0, mask := 0xFFFFFFFF, dom := .spine, own := .pf0 }
  | .pwrTempWarn => { base := 0x300038, w64 := false, acc := .rw, reset := 0x690, mask := 0xFFFF, dom := .spine, own := .pf0 }
  | .pwrVbak => { base := 0x30003C, w64 := false, acc := .ro, reset := 0x0, mask := 0x1FFFF, dom := .spine, own := .pf0 }
  | .pwrKeepTime => { base := 0x300040, w64 := false, acc := .ro, reset := 0x0, mask := 0xFFFFFFFF, dom := .spine, own := .pf0 }
  | .pwrRailFaults => { base := 0x300044, w64 := false, acc := .rc, reset := 0x0, mask := 0xFFFFFFFF, dom := .spine, own := .pf0 }
  | .pwrPadEdge => { base := 0x300080, w64 := false, acc := .rw, reset := 0x4, mask := 0x3FF, dom := .spine, own := .pf0 }
  | .pwrPadTerm => { base := 0x300084, w64 := false, acc := .rw, reset := 0x1, mask := 0x1, dom := .spine, own := .pf0 }
  | .pwrStraps => { base := 0x300088, w64 := false, acc := .ro, reset := 0x0, mask := 0xE7F, dom := .spine, own := .pf0 }
  | .logCap => { base := 0x400000, w64 := false, acc := .ro, reset := 0x20000, mask := 0xFFFFFFFF, dom := .spine, own := .logRd }
  | .logCfg => { base := 0x400004, w64 := false, acc := .rw, reset := 0x0, mask := 0x1, dom := .spine, own := .logPf0 }
  | .logHead => { base := 0x400008, w64 := true, acc := .ro, reset := 0x0, mask := 0xFFFFFFFFFFFFFFFF, dom := .spine, own := .logRd }
  | .logOldest => { base := 0x400010, w64 := true, acc := .ro, reset := 0x0, mask := 0xFFFFFFFFFFFFFFFF, dom := .spine, own := .logRd }
  | .logReadSeq => { base := 0x400018, w64 := true, acc := .rw, reset := 0x0, mask := 0xFFFFFFFFFFFFFFFF, dom := .spine, own := .logRd }
  | .logReadStatus => { base := 0x400020, w64 := false, acc := .ro, reset := 0x2, mask := 0x7, dom := .spine, own := .logRd }
  | .logStaged => { base := 0x400024, w64 := false, acc := .ro, reset := 0x0, mask := 0x1FFF, dom := .spine, own := .logRd }
  | .logEpoch => { base := 0x400028, w64 := true, acc := .rw, reset := 0x0, mask := 0xFFFFFFFFFFFFFFFF, dom := .spine, own := .logPf0 }
  | .logTime => { base := 0x400030, w64 := true, acc := .ro, reset := 0x0, mask := 0xFFFFFFFFFFFFFFFF, dom := .spine, own := .logRd }
  | .logTimeSet => { base := 0x400038, w64 := true, acc := .wo, reset := 0x0, mask := 0xFFFFFFFFFFFFFFFF, dom := .spine, own := .logPf0 }
  | .logEntry => { base := 0x400040, w64 := false, acc := .ro, reset := 0x0, mask := 0xFFFFFFFF, dom := .spine, own := .logRd, s1 := 0x4, c1 := 16 }
  | .tlyCap => { base := 0x500000, w64 := false, acc := .ro, reset := 0x100020, mask := 0xFFFFFFFF, dom := .spine, own := .logRd }
  | .tlySel => { base := 0x500004, w64 := false, acc := .rw, reset := 0x0, mask := 0xFFFF, dom := .spine, own := .logRd }
  | .tlyVal => { base := 0x500008, w64 := true, acc := .ro, reset := 0x0, mask := 0xFFFFFFFFFFFFFFFF, dom := .spine, own := .logRd }
  | .sclLedgerCmd => { base := 0x600000, w64 := false, acc := .wo, reset := 0x0, mask := 0x7F, dom := .spine, own := .ledgerCmd }
  | .sclLedgerAddr => { base := 0x600008, w64 := true, acc := .rw, reset := 0x0, mask := 0xFFFFFFFFFFFFFFFF, dom := .spine, own := .devRw }
  | .sclLedgerStatus => { base := 0x600010, w64 := false, acc := .ro, reset := 0x0, mask := 0xFFFFFFFF, dom := .spine, own := .dev }
  | .sclLedgerActive => { base := 0x600014, w64 := false, acc := .ro, reset := 0x0, mask := 0xFF, dom := .spine, own := .dev }
  | .sclPlanLastErr => { base := 0x600018, w64 := false, acc := .ro, reset := 0x0, mask := 0xFFFF, dom := .spine, own := .dev }
  | .sclPlanInfo => { base := 0x60001C, w64 := false, acc := .ro, reset := 0x0, mask := 0xC0FFFFFF, dom := .spine, own := .dev }
  | .sclPlanPart => { base := 0x600020, w64 := false, acc := .rw, reset := 0x0, mask := 0x7, dom := .spine, own := .dev }
  | .sclPlanPeak => { base := 0x600024, w64 := false, acc := .ro, reset := 0x0, mask := 0xFFFFFFFF, dom := .spine, own := .dev }
  | .sclPlanKeep => { base := 0x600028, w64 := false, acc := .ro, reset := 0x0, mask := 0xFFFFFFFF, dom := .spine, own := .dev }
  | .sclPlanPack => { base := 0x60002C, w64 := false, acc := .ro, reset := 0x0, mask := 0xFFFFFFFF, dom := .spine, own := .dev }
  | .sclPlanSend => { base := 0x600030, w64 := false, acc := .ro, reset := 0x0, mask := 0xFFFFFFFF, dom := .spine, own := .dev }
  | .sclPlanSendpack => { base := 0x600034, w64 := false, acc := .ro, reset := 0x0, mask := 0xFFFFFFFF, dom := .spine, own := .dev }
  | .sclPlanRegrow => { base := 0x600038, w64 := false, acc := .ro, reset := 0x0, mask := 0xFFFFFFFF, dom := .spine, own := .dev }
  | .sclPlanOverrides => { base := 0x60003C, w64 := false, acc := .ro, reset := 0x0, mask := 0xFFFFFFFF, dom := .spine, own := .dev }
  | .sclPlanSel => { base := 0x600040, w64 := false, acc := .rw, reset := 0x0, mask := 0xFFFF, dom := .spine, own := .dev }
  | .sclPlanWord => { base := 0x600044, w64 := false, acc := .ro, reset := 0x0, mask := 0xFF00FFFF, dom := .spine, own := .dev }
  | .sclPlanRatio => { base := 0x600048, w64 := false, acc := .rw, reset := 0xD7B3CD00, mask := 0xFFFFFF00, dom := .spine, own := .dev }
  | .sclPlanMargin => { base := 0x60004C, w64 := false, acc := .rw, reset := 0x100, mask := 0xFFFF, dom := .spine, own := .dev }
  | .sclRegrowCap => { base := 0x600050, w64 := false, acc := .rw, reset := 0x400, mask := 0xFFFF, dom := .spine, own := .dev }
  | .sclOverrideCount => { base := 0x600054, w64 := false, acc := .rc, reset := 0x0, mask := 0xFFFFFFFF, dom := .spine, own := .dev }
  | .sclEvictFail => { base := 0x600058, w64 := false, acc := .rc, reset := 0x0, mask := 0xFFFFFFFF, dom := .spine, own := .dev }
  | .sclLedgerEvent => { base := 0x60005C, w64 := false, acc := .w1c, reset := 0x0, mask := 0xF, dom := .spine, own := .dev }
  | .sclPlanBudget => { base := 0x600060, w64 := false, acc := .rw, reset := 0x0, mask := 0xFFFFFFFF, dom := .spine, own := .part, s1 := 0x4, c1 := 8 }
  | .sclRunEvent => { base := 0x600100, w64 := false, acc := .w1c, reset := 0x0, mask := 0x1FF, dom := .spine, own := .dev }
  | .sclRunLastErr => { base := 0x600104, w64 := false, acc := .ro, reset := 0x0, mask := 0xFFFFFFFF, dom := .spine, own := .dev }
  | .sclRunInfo => { base := 0x600108, w64 := false, acc := .ro, reset := 0x0, mask := 0xFFC0FFFF, dom := .spine, own := .dev }
  | .sclFetchCount => { base := 0x60010C, w64 := false, acc := .rc, reset := 0x0, mask := 0xFFFFFFFF, dom := .spine, own := .dev }
  | .sclRegrowCount => { base := 0x600110, w64 := false, acc := .rc, reset := 0x0, mask := 0xFFFFFFFF, dom := .spine, own := .dev }
  | .sclAdaptCount => { base := 0x600114, w64 := false, acc := .rc, reset := 0x0, mask := 0xFFFFFFFF, dom := .spine, own := .dev }
  | .sclDamageRegrow => { base := 0x600118, w64 := false, acc := .rc, reset := 0x0, mask := 0xFFFFFFFF, dom := .spine, own := .dev }
  | .sclFetchFail => { base := 0x60011C, w64 := false, acc := .rc, reset := 0x0, mask := 0xFFFFFFFF, dom := .spine, own := .dev }
  | .sclSlackMin => { base := 0x600120, w64 := false, acc := .rc, reset := 0xFFFF, mask := 0xFFFF, dom := .spine, own := .dev }
  | .sclInflight => { base := 0x600124, w64 := false, acc := .ro, reset := 0x0, mask := 0xFFFFFFFF, dom := .spine, own := .dev }
  | .sclStreamCfg => { base := 0x600200, w64 := true, acc := .rw, reset := 0x0, mask := 0xFFFF0000FFFFFFFF, dom := .spine, own := .dev, s1 := 0x8, c1 := 64 }
  | .sclStreamMode => { base := 0x600400, w64 := true, acc := .ro, reset := 0x0, mask := 0xFFFFFFFFFFFFFFFF, dom := .spine, own := .dev }
  | .sclKvWin => { base := 0x600480, w64 := false, acc := .rw, reset := 0x0, mask := 0xFFFFFFFF, dom := .spine, own := .part, s1 := 0x4, c1 := 8 }
  | .sclKvTtl => { base := 0x6004A0, w64 := false, acc := .rw, reset := 0xC350, mask := 0xFFFFFFFF, dom := .spine, own := .part, s1 := 0x4, c1 := 8 }
  | .sclKvCfg => { base := 0x6004C0, w64 := false, acc := .rw, reset := 0x0, mask := 0xFF, dom := .spine, own := .part, s1 := 0x4, c1 := 8 }
  | .sclParked => { base := 0x6004E0, w64 := false, acc := .ro, reset := 0x0, mask := 0xFFFFFFFF, dom := .spine, own := .dev }
  | .sclParkPages => { base := 0x6004E4, w64 := false, acc := .ro, reset := 0x0, mask := 0xFFFFFFFF, dom := .spine, own := .dev }
  | .sclParkExpired => { base := 0x6004E8, w64 := false, acc := .rc, reset := 0x0, mask := 0xFFFFFFFF, dom := .spine, own := .dev }
  | .sclParkFail => { base := 0x6004EC, w64 := false, acc := .rc, reset := 0x0, mask := 0xFFFFFFFF, dom := .spine, own := .dev }
  | .sclPoolCap => { base := 0x600800, w64 := false, acc := .ro, reset := 0x60034, mask := 0xFFFFFFFF, dom := .spine, own := .dev }
  | .sclPoolFree => { base := 0x600804, w64 := false, acc := .ro, reset := 0x60034, mask := 0xFFFFFFFF, dom := .spine, own := .dev }
  | .sclFhCap => { base := 0x600808, w64 := false, acc := .ro, reset := 0x0, mask := 0xFFFFFFFF, dom := .spine, own := .dev }
  | .sclTierRetry => { base := 0x60080C, w64 := false, acc := .rw, reset := 0x100014, mask := 0xFFFFFF, dom := .spine, own := .dev }
  | .sclScrubCtrl => { base := 0x600810, w64 := false, acc := .rw, reset := 0x1, mask := 0x1, dom := .spine, own := .dev }
  | .sclPartUse => { base := 0x600814, w64 := false, acc := .ro, reset := 0x0, mask := 0xFFFFFFFF, dom := .spine, own := .part, s1 := 0x4, c1 := 8 }
  | .sclHoldSel => { base := 0x600834, w64 := false, acc := .rw, reset := 0x0, mask := 0x1FFFF, dom := .spine, own := .dev }
  | .sclHoldInfo => { base := 0x600838, w64 := true, acc := .ro, reset := 0x0, mask := 0xFFF00000FFFFFFFF, dom := .spine, own := .dev }
  | .sclHoldBase => { base := 0x600840, w64 := true, acc := .ro, reset := 0x0, mask := 0xFFFFFFFFFFFFFFFF, dom := .spine, own := .dev }
  | .sclHoldSize => { base := 0x600848, w64 := false, acc := .ro, reset := 0x0, mask := 0xFFFFFFFF, dom := .spine, own := .dev }
  | .sclTierEvent => { base := 0x60084C, w64 := false, acc := .w1c, reset := 0x0, mask := 0x1FF, dom := .spine, own := .dev }
  | .sclTierLastErr => { base := 0x600850, w64 := false, acc := .ro, reset := 0x0, mask := 0xFFFF, dom := .spine, own := .dev }
  | .sclEccCorr => { base := 0x600854, w64 := false, acc := .rc, reset := 0x0, mask := 0xFFFFFFFF, dom := .spine, own := .dev }
  | .sclEccUncorr => { base := 0x600858, w64 := false, acc := .rc, reset := 0x0, mask := 0xFFFFFFFF, dom := .spine, own := .dev }
  | .sclTierRetries => { base := 0x60085C, w64 := false, acc := .rc, reset := 0x0, mask := 0xFFFFFFFF, dom := .spine, own := .dev }
  | .sclEvictCount => { base := 0x600860, w64 := false, acc := .rc, reset := 0x0, mask := 0xFFFFFFFF, dom := .spine, own := .dev }
  | .sclHoldCount => { base := 0x600864, w64 := false, acc := .ro, reset := 0x0, mask := 0xFFFFFFFF, dom := .spine, own := .dev }
  | .sclLastEccAddr => { base := 0x600868, w64 := true, acc := .ro, reset := 0x0, mask := 0xFFFFFFFFFFFFFFFF, dom := .spine, own := .dev }
  | .crnCap => { base := 0x700000, w64 := false, acc := .ro, reset := 0x30404040, mask := 0xFFFFFFFF, dom := .spine, own := .dev }
  | .crnWaitTmo => { base := 0x700004, w64 := false, acc := .rw, reset := 0xF4240, mask := 0xFFFFFFFF, dom := .spine, own := .dev }
  | .crnRemoteTmo => { base := 0x700008, w64 := false, acc := .rw, reset := 0x32, mask := 0xFFFFFFFF, dom := .spine, own := .dev }
  | .crnEvent => { base := 0x70000C, w64 := false, acc := .w1c, reset := 0x0, mask := 0xF, dom := .spine, own := .dev }
  | .crnLastErr => { base := 0x700010, w64 := false, acc := .ro, reset := 0x0, mask := 0xFFFF, dom := .spine, own := .dev }
  | .crnLastTmoWaiter => { base := 0x700014, w64 := false, acc := .ro, reset := 0x0, mask := 0xFFFFFFFF, dom := .spine, own := .dev }
  | .crnLastTmoVal => { base := 0x700018, w64 := true, acc := .ro, reset := 0x0, mask := 0xFFFFFFFFFFFFFFFF, dom := .spine, own := .dev }
  | .crnTimeouts => { base := 0x700020, w64 := false, acc := .rc, reset := 0x0, mask := 0xFFFFFFFF, dom := .spine, own := .dev }
  | .crnRefused => { base := 0x700024, w64 := false, acc := .rc, reset := 0x0, mask := 0xFFFFFFFF, dom := .spine, own := .dev }
  | .crnRemoteAdds => { base := 0x700028, w64 := false, acc := .rc, reset := 0x0, mask := 0xFFFFFFFF, dom := .spine, own := .dev }
  | .crnDebugRef => { base := 0x70002C, w64 := false, acc := .rw, reset := 0x0, mask := 0xFFFF, dom := .spine, own := .pf0 }
  | .crnDebugSet => { base := 0x700030, w64 := false, acc := .wo, reset := 0x0, mask := 0xFFFFFFFF, dom := .spine, own := .pf0 }
  | .crnReadRef => { base := 0x700034, w64 := false, acc := .rw, reset := 0x0, mask := 0xFFFF, dom := .spine, own := .devRw }
  | .crnReadVal => { base := 0x700038, w64 := false, acc := .ro, reset := 0x0, mask := 0xFFFFFFFF, dom := .spine, own := .dev }
  | .crnHcValue => { base := 0x701000, w64 := false, acc := .ro, reset := 0x0, mask := 0xFFFFFFFF, dom := .spine, own := .hostCairn, s1 := 0x20, c1 := 64 }
  | .crnHcAdd => { base := 0x701004, w64 := false, acc := .wo, reset := 0x0, mask := 0xFFFFFFFF, dom := .spine, own := .hostCairn, s1 := 0x20, c1 := 64 }
  | .crnHcSet => { base := 0x701008, w64 := false, acc := .wo, reset := 0x0, mask := 0xFFFFFFFF, dom := .spine, own := .hostCairn, s1 := 0x20, c1 := 64 }
  | .crnHcTarget => { base := 0x70100C, w64 := false, acc := .rw, reset := 0x0, mask := 0xFFFFFFFF, dom := .spine, own := .hostCairn, s1 := 0x20, c1 := 64 }
  | .crnHcWcfg => { base := 0x701010, w64 := false, acc := .rw, reset := 0x0, mask := 0x307FF, dom := .spine, own := .hostCairn, s1 := 0x20, c1 := 64 }
  | .crnHcWstat => { base := 0x701014, w64 := false, acc := .w1c, reset := 0x0, mask := 0x3, dom := .spine, own := .hostCairn, s1 := 0x20, c1 := 64 }
  | .crnHcMirror => { base := 0x701018, w64 := true, acc := .rw, reset := 0x0, mask := 0xFFFFFFFFFFFFFFFF, dom := .spine, own := .hostCairn, s1 := 0x20, c1 := 64 }
  | .crnRemote => { base := 0x702000, w64 := false, acc := .rw, reset := 0x0, mask := 0xFFF807FF, dom := .spine, own := .dev, s1 := 0x4, c1 := 1024 }
  | .srvPartCtrl => { base := 0x800000, w64 := false, acc := .rw, reset := 0x0, mask := 0x1, dom := .spine, own := .part, s1 := 0x100, c1 := 8 }
  | .srvSlots => { base := 0x800004, w64 := false, acc := .rw, reset := 0x0, mask := 0x7FF, dom := .spine, own := .part, s1 := 0x100, c1 := 8 }
  | .srvReqMax => { base := 0x800008, w64 := false, acc := .rw, reset := 0x0, mask := 0xFFFF, dom := .spine, own := .part, s1 := 0x100, c1 := 8 }
  | .srvActive => { base := 0x80000C, w64 := false, acc := .ro, reset := 0x0, mask := 0xFFFF07FF, dom := .spine, own := .part, s1 := 0x100, c1 := 8 }
  | .srvModelAddr => { base := 0x800010, w64 := true, acc := .rw, reset := 0x0, mask := 0xFFFFFFFFFFFFFFFF, dom := .spine, own := .part, s1 := 0x100, c1 := 8 }
  | .srvModelCmd => { base := 0x800018, w64 := false, acc := .wo, reset := 0x0, mask := 0xF7, dom := .spine, own := .part, s1 := 0x100, c1 := 8 }
  | .srvSwapCfg => { base := 0x80001C, w64 := false, acc := .rw, reset := 0x0, mask := 0xBFBF, dom := .spine, own := .part, s1 := 0x100, c1 := 8 }
  | .srvModelState => { base := 0x800020, w64 := true, acc := .ro, reset := 0x0, mask := 0xFFFFFFFFFFFFFFFF, dom := .spine, own := .part, s1 := 0x100, c1 := 8 }
  | .srvGlistAddr => { base := 0x800028, w64 := true, acc := .rw, reset := 0x0, mask := 0xFFFFFFFFFFFFFFFF, dom := .spine, own := .part, s1 := 0x100, c1 := 8 }
  | .srvPlistAddr => { base := 0x800030, w64 := true, acc := .rw, reset := 0x0, mask := 0xFFFFFFFFFFFFFFFF, dom := .spine, own := .part, s1 := 0x100, c1 := 8 }
  | .srvPlistLen => { base := 0x800038, w64 := false, acc := .rw, reset := 0x40, mask := 0xFFFF, dom := .spine, own := .part, s1 := 0x100, c1 := 8 }
  | .srvHandoverCfg => { base := 0x80003C, w64 := false, acc := .rw, reset := 0x0, mask := 0x7F, dom := .spine, own := .part, s1 := 0x100, c1 := 8 }
  | .srvListCairns => { base := 0x800040, w64 := true, acc := .rw, reset := 0x0, mask := 0xFFFFFFFFFFFF, dom := .spine, own := .part, s1 := 0x100, c1 := 8 }
  | .srvEvent => { base := 0x800048, w64 := false, acc := .w1c, reset := 0x0, mask := 0x7, dom := .spine, own := .part, s1 := 0x100, c1 := 8 }
  | .srvLastErr => { base := 0x80004C, w64 := false, acc := .ro, reset := 0x0, mask := 0xFFFF, dom := .spine, own := .part, s1 := 0x100, c1 := 8 }
  | .srvReqInfo => { base := 0x800050, w64 := false, acc := .ro, reset := 0x0, mask := 0xFFFF, dom := .spine, own := .part, s1 := 0x100, c1 := 8 }
  | .srvCancels => { base := 0x800054, w64 := false, acc := .rc, reset := 0x0, mask := 0xFFFFFFFF, dom := .spine, own := .part, s1 := 0x100, c1 := 8 }
  | .srvServed => { base := 0x800058, w64 := false, acc := .rc, reset := 0x0, mask := 0xFFFFFFFF, dom := .spine, own := .part, s1 := 0x100, c1 := 8 }
  | .srvSwaps => { base := 0x80005C, w64 := false, acc := .rc, reset := 0x0, mask := 0xFFFFFFFF, dom := .spine, own := .part, s1 := 0x100, c1 := 8 }
  | .srvTokens => { base := 0x800060, w64 := true, acc := .rc, reset := 0x0, mask := 0xFFFFFFFFFFFFFFFF, dom := .spine, own := .part, s1 := 0x100, c1 := 8 }
  | .srvTreeAddr => { base := 0x800070, w64 := true, acc := .rw, reset := 0x0, mask := 0xFFFFFFFFFFFFFFFF, dom := .spine, own := .part, s1 := 0x100, c1 := 8 }
  | .srvTreeNodes => { base := 0x800078, w64 := false, acc := .rw, reset := 0x0, mask := 0xFFFFFFFF, dom := .spine, own := .part, s1 := 0x100, c1 := 8 }
  | .srvTreeCfg => { base := 0x80007C, w64 := false, acc := .rw, reset := 0x0, mask := 0x3, dom := .spine, own := .part, s1 := 0x100, c1 := 8 }
  | .srvTreeCmd => { base := 0x800080, w64 := false, acc := .wo, reset := 0x0, mask := 0xF3, dom := .spine, own := .part, s1 := 0x100, c1 := 8 }
  | .srvTreeUsed => { base := 0x800084, w64 := false, acc := .ro, reset := 0x0, mask := 0xFFFFFFFF, dom := .spine, own := .part, s1 := 0x100, c1 := 8 }
  | .srvTreePages => { base := 0x800088, w64 := false, acc := .ro, reset := 0x0, mask := 0xFFFFFFFF, dom := .spine, own := .part, s1 := 0x100, c1 := 8 }
  | .srvWalkHits => { base := 0x80008C, w64 := false, acc := .rc, reset := 0x0, mask := 0xFFFFFFFF, dom := .spine, own := .part, s1 := 0x100, c1 := 8 }
  | .srvSpecMax => { base := 0x800090, w64 := false, acc := .rw, reset := 0x0, mask := 0xF, dom := .spine, own := .part, s1 := 0x100, c1 := 8 }
  | .srvLogitsAddr => { base := 0x800098, w64 := true, acc := .rw, reset := 0x0, mask := 0xFFFFFFFFFFFFFFFF, dom := .spine, own := .part, s1 := 0x100, c1 := 8 }
  | .srvSampleCairns => { base := 0x8000A0, w64 := false, acc := .rw, reset := 0x0, mask := 0xFFFFFFFF, dom := .spine, own := .part, s1 := 0x100, c1 := 8 }
  | .srvSpecDrafted => { base := 0x8000A4, w64 := false, acc := .rc, reset := 0x0, mask := 0xFFFFFFFF, dom := .spine, own := .part, s1 := 0x100, c1 := 8 }
  | .srvSpecAccepted => { base := 0x8000A8, w64 := false, acc := .rc, reset := 0x0, mask := 0xFFFFFFFF, dom := .spine, own := .part, s1 := 0x100, c1 := 8 }
  | .srvPenOverflow => { base := 0x8000AC, w64 := false, acc := .rc, reset := 0x0, mask := 0xFFFFFFFF, dom := .spine, own := .part, s1 := 0x100, c1 := 8 }
  | .srvTreeSkips => { base := 0x8000B0, w64 := false, acc := .rc, reset := 0x0, mask := 0xFFFFFFFF, dom := .spine, own := .part, s1 := 0x100, c1 := 8 }
  | .srvGenEvent => { base := 0x8000B4, w64 := false, acc := .w1c, reset := 0x0, mask := 0x3, dom := .spine, own := .part, s1 := 0x100, c1 := 8 }
  | .srvCap => { base := 0x800800, w64 := false, acc := .ro, reset := 0x80001000, mask := 0xFFFFFFFF, dom := .spine, own := .dev }
  | .srvSamplerCap => { base := 0x800804, w64 := false, acc := .ro, reset := 0x1000040, mask := 0xFFFFFFFF, dom := .spine, own := .dev }
  | .admQdepth => { base := 0x900000, w64 := false, acc := .rw, reset := 0x100, mask := 0xFFFF, dom := .spine, own := .part, s1 := 0x100, c1 := 8 }
  | .admNoticeGap => { base := 0x900004, w64 := false, acc := .rw, reset := 0xA0, mask := 0xFFFF, dom := .spine, own := .part, s1 := 0x100, c1 := 8 }
  | .admKvLimit => { base := 0x900008, w64 := false, acc := .rw, reset := 0x0, mask := 0xFFFFFFFF, dom := .spine, own := .part, s1 := 0x100, c1 := 8 }
  | .admKvCommitted => { base := 0x90000C, w64 := false, acc := .ro, reset := 0x0, mask := 0xFFFFFFFF, dom := .spine, own := .part, s1 := 0x100, c1 := 8 }
  | .admPeriod => { base := 0x900010, w64 := false, acc := .rw, reset := 0x0, mask := 0xFFFFFFFF, dom := .spine, own := .part, s1 := 0x100, c1 := 8 }
  | .admQuantum => { base := 0x900014, w64 := false, acc := .rw, reset := 0x400, mask := 0xFFFFFFFF, dom := .spine, own := .part, s1 := 0x100, c1 := 8 }
  | .admAccounts => { base := 0x900018, w64 := false, acc := .rw, reset := 0x1, mask := 0x1FFF, dom := .spine, own := .part, s1 := 0x100, c1 := 8 }
  | .admAcctSel => { base := 0x90001C, w64 := false, acc := .rw, reset := 0x0, mask := 0xFFF, dom := .spine, own := .part, s1 := 0x100, c1 := 8 }
  | .admAcctRate => { base := 0x900020, w64 := false, acc := .rw, reset := 0x0, mask := 0xFFFFFFFF, dom := .spine, own := .part, s1 := 0x100, c1 := 8 }
  | .admAcctBurst => { base := 0x900024, w64 := false, acc := .rw, reset := 0x0, mask := 0xFFFFFFFF, dom := .spine, own := .part, s1 := 0x100, c1 := 8 }
  | .admAcctHard => { base := 0x900028, w64 := true, acc := .rw, reset := 0x0, mask := 0xFFFFFFFFFFFFFFFF, dom := .spine, own := .part, s1 := 0x100, c1 := 8 }
  | .admAcctBalance => { base := 0x900030, w64 := true, acc := .rw, reset := 0x0, mask := 0xFFFFFFFFFFFFFFFF, dom := .spine, own := .part, s1 := 0x100, c1 := 8 }
  | .admAcctSpent => { base := 0x900038, w64 := true, acc := .ro, reset := 0x0, mask := 0xFFFFFFFFFFFFFFFF, dom := .spine, own := .part, s1 := 0x100, c1 := 8 }
  | .admAcctDeficit => { base := 0x900040, w64 := false, acc := .ro, reset := 0x0, mask := 0xFFFFFFFF, dom := .spine, own := .part, s1 := 0x100, c1 := 8 }
  | .admAcctStatus => { base := 0x900044, w64 := false, acc := .ro, reset := 0x0, mask := 0xFFFF00FF, dom := .spine, own := .part, s1 := 0x100, c1 := 8 }
  | .admAcctAdmitted => { base := 0x900048, w64 := false, acc := .ro, reset := 0x0, mask := 0xFFFFFFFF, dom := .spine, own := .part, s1 := 0x100, c1 := 8 }
  | .admAcctDelayed => { base := 0x90004C, w64 := false, acc := .ro, reset := 0x0, mask := 0xFFFFFFFF, dom := .spine, own := .part, s1 := 0x100, c1 := 8 }
  | .admAcctRefused => { base := 0x900050, w64 := false, acc := .ro, reset := 0x0, mask := 0xFFFFFFFF, dom := .spine, own := .part, s1 := 0x100, c1 := 8 }
  | .admAcctCmd => { base := 0x900054, w64 := false, acc := .wo, reset := 0x0, mask := 0x1, dom := .spine, own := .part, s1 := 0x100, c1 := 8 }
  | .admReqSel => { base := 0x900058, w64 := false, acc := .rw, reset := 0x0, mask := 0x7FFF, dom := .spine, own := .part, s1 := 0x100, c1 := 8 }
  | .admReqInfo => { base := 0x900060, w64 := true, acc := .ro, reset := 0x0, mask := 0xFFFFFFFF0FFF00FF, dom := .spine, own := .part, s1 := 0x100, c1 := 8 }
  | .admPromptTokens => { base := 0x900068, w64 := false, acc := .rw, reset := 0x1000, mask := 0xFFFFFFFF, dom := .spine, own := .part, s1 := 0x100, c1 := 8 }
  | .admChunk => { base := 0x90006C, w64 := false, acc := .rw, reset := 0x280, mask := 0xFFFFFFFF, dom := .spine, own := .part, s1 := 0x100, c1 := 8 }
  | .admEvent => { base := 0x900070, w64 := false, acc := .w1c, reset := 0x0, mask := 0xF, dom := .spine, own := .part, s1 := 0x100, c1 := 8 }
  | .admLastErr => { base := 0x900074, w64 := false, acc := .ro, reset := 0x0, mask := 0xFFFF, dom := .spine, own := .part, s1 := 0x100, c1 := 8 }
  | .admAdmits => { base := 0x900078, w64 := false, acc := .rc, reset := 0x0, mask := 0xFFFFFFFF, dom := .spine, own := .part, s1 := 0x100, c1 := 8 }
  | .admDelays => { base := 0x90007C, w64 := false, acc := .rc, reset := 0x0, mask := 0xFFFFFFFF, dom := .spine, own := .part, s1 := 0x100, c1 := 8 }
  | .admRefusals => { base := 0x900080, w64 := false, acc := .rc, reset := 0x0, mask := 0xFFFFFFFF, dom := .spine, own := .part, s1 := 0x100, c1 := 8 }
  | .tilInfo => { base := 0xA00000, w64 := false, acc := .ro, reset := 0x0, mask := 0x11F, dom := .tile, own := .tile, s1 := 0x1000, c1 := 24 }
  | .tilArrayOwner => { base := 0xA00004, w64 := false, acc := .rw, reset := 0x0, mask := 0x7, dom := .tile, own := .tile, s1 := 0x1000, c1 := 24 }
  | .tilPasses => { base := 0xA00008, w64 := false, acc := .rc, reset := 0x0, mask := 0xFFFFFFFF, dom := .tile, own := .tile, s1 := 0x1000, c1 := 24 }
  | .tilFaults => { base := 0xA0000C, w64 := false, acc := .rc, reset := 0x0, mask := 0xFFFFFFFF, dom := .tile, own := .tile, s1 := 0x1000, c1 := 24 }
  | .tilCtxCtrl => { base := 0xA00100, w64 := false, acc := .wo, reset := 0x0, mask := 0x7, dom := .tile, own := .ctx, s1 := 0x1000, c1 := 24, s2 := 0x40, c2 := 4 }
  | .tilCtxStatus => { base := 0xA00104, w64 := false, acc := .ro, reset := 0x0, mask := 0x1F, dom := .tile, own := .ctx, s1 := 0x1000, c1 := 24, s2 := 0x40, c2 := 4 }
  | .tilCtxPc => { base := 0xA00108, w64 := true, acc := .rw, reset := 0x0, mask := 0xFFFFFFFFFFFFFFFF, dom := .tile, own := .ctx, s1 := 0x1000, c1 := 24, s2 := 0x40, c2 := 4 }
  | .tilCtxCfg => { base := 0xA00110, w64 := false, acc := .rw, reset := 0x0, mask := 0x6, dom := .tile, own := .ctx, s1 := 0x1000, c1 := 24, s2 := 0x40, c2 := 4 }
  | .tilCtxErr => { base := 0xA00114, w64 := false, acc := .ro, reset := 0x0, mask := 0xFFFF, dom := .tile, own := .ctx, s1 := 0x1000, c1 := 24, s2 := 0x40, c2 := 4 }
  | .tilCtxErrPc => { base := 0xA00118, w64 := true, acc := .ro, reset := 0x0, mask := 0xFFFFFFFFFFFFFFFF, dom := .tile, own := .ctx, s1 := 0x1000, c1 := 24, s2 := 0x40, c2 := 4 }
  | .tilCtxFlags => { base := 0xA00120, w64 := false, acc := .w1c, reset := 0x0, mask := 0x7, dom := .tile, own := .ctx, s1 := 0x1000, c1 := 24, s2 := 0x40, c2 := 4 }
  | .tilCtxKeysel => { base := 0xA00124, w64 := false, acc := .ro, reset := 0x0, mask := 0xF, dom := .tile, own := .ctx, s1 := 0x1000, c1 := 24, s2 := 0x40, c2 := 4 }
  | .tilCtxCtr => { base := 0xA00128, w64 := false, acc := .ro, reset := 0x0, mask := 0xFFFFFFFF, dom := .tile, own := .ctx, s1 := 0x1000, c1 := 24, s2 := 0x40, c2 := 4 }
  | .tilCtxErrCairn => { base := 0xA0012C, w64 := false, acc := .rw, reset := 0x0, mask := 0x1FFFF, dom := .tile, own := .ctx, s1 := 0x1000, c1 := 24, s2 := 0x40, c2 := 4 }
  | .tilKey => { base := 0xA18000, w64 := false, acc := .rw, reset := 0x0, mask := 0xFFFFFFFF, dom := .spine, own := .dev, s1 := 0x4, c1 := 16 }
  | .tilSrSeed => { base := 0xA18040, w64 := false, acc := .rw, reset := 0x0, mask := 0xFFFFFFFF, dom := .spine, own := .dev }
  | .tilCap => { base := 0xA18044, w64 := false, acc := .ro, reset := 0x4304010, mask := 0xFFFFFFFF, dom := .spine, own := .dev }
  | .dmaCap => { base := 0xB00000, w64 := false, acc := .ro, reset := 0x40208010, mask := 0xFFFFFFFF, dom := .dma, own := .dev, s1 := 0x4000, c1 := 4 }
  | .dmaHopLimit => { base := 0xB00004, w64 := false, acc := .rw, reset := 0x1000, mask := 0xFFFF, dom := .dma, own := .dev, s1 := 0x4000, c1 := 4 }
  | .dmaReadTimeout => { base := 0xB00008, w64 := false, acc := .rw, reset := 0x32, mask := 0xFFFFFFFF, dom := .dma, own := .dev, s1 := 0x4000, c1 := 4 }
  | .dmaLastErr => { base := 0xB0000C, w64 := false, acc := .ro, reset := 0x0, mask := 0x3FFFFF, dom := .dma, own := .dev, s1 := 0x4000, c1 := 4 }
  | .dmaStopEvent => { base := 0xB00010, w64 := true, acc := .w1c, reset := 0x0, mask := 0xFFFFFFFFFFFFFFFF, dom := .dma, own := .dev, s1 := 0x4000, c1 := 4 }
  | .dmaOccupancy => { base := 0xB00018, w64 := false, acc := .ro, reset := 0x80, mask := 0x3FFF, dom := .dma, own := .dev, s1 := 0x4000, c1 := 4 }
  | .dmaStopCount => { base := 0xB0001C, w64 := false, acc := .rc, reset := 0x0, mask := 0xFFFFFFFF, dom := .dma, own := .dev, s1 := 0x4000, c1 := 4 }
  | .dmaDescCount => { base := 0xB00020, w64 := false, acc := .rc, reset := 0x0, mask := 0xFFFFFFFF, dom := .dma, own := .dev, s1 := 0x4000, c1 := 4 }
  | .dmaGrantWait => { base := 0xB00024, w64 := false, acc := .rc, reset := 0x0, mask := 0xFFFFFFFF, dom := .dma, own := .dev, s1 := 0x4000, c1 := 4 }
  | .dmaBytesRead => { base := 0xB00028, w64 := true, acc := .rc, reset := 0x0, mask := 0xFFFFFFFFFFFFFFFF, dom := .dma, own := .dev, s1 := 0x4000, c1 := 4 }
  | .dmaBytesWritten => { base := 0xB00030, w64 := true, acc := .rc, reset := 0x0, mask := 0xFFFFFFFFFFFFFFFF, dom := .dma, own := .dev, s1 := 0x4000, c1 := 4 }
  | .dmaTimeouts => { base := 0xB00038, w64 := false, acc := .rc, reset := 0x0, mask := 0xFFFFFFFF, dom := .dma, own := .dev, s1 := 0x4000, c1 := 4 }
  | .dmaChCfg => { base := 0xB02000, w64 := false, acc := .rw, reset := 0x0, mask := 0x6, dom := .dma, own := .chan, s1 := 0x4000, c1 := 4, s2 := 0x80, c2 := 64 }
  | .dmaChCtrl => { base := 0xB02004, w64 := false, acc := .wo, reset := 0x0, mask := 0x7, dom := .dma, own := .chan, s1 := 0x4000, c1 := 4, s2 := 0x80, c2 := 64 }
  | .dmaChHead => { base := 0xB02008, w64 := true, acc := .rw, reset := 0x0, mask := 0xFFFFFFFFFFFFFFFF, dom := .dma, own := .chan, s1 := 0x4000, c1 := 4, s2 := 0x80, c2 := 64 }
  | .dmaChStatus => { base := 0xB02010, w64 := false, acc := .ro, reset := 0x0, mask := 0x3F, dom := .dma, own := .chan, s1 := 0x4000, c1 := 4, s2 := 0x80, c2 := 64 }
  | .dmaChErr => { base := 0xB02014, w64 := false, acc := .ro, reset := 0x0, mask := 0xFFFF, dom := .dma, own := .chan, s1 := 0x4000, c1 := 4, s2 := 0x80, c2 := 64 }
  | .dmaChErrAddr => { base := 0xB02018, w64 := true, acc := .ro, reset := 0x0, mask := 0xFFFFFFFFFFFFFFFF, dom := .dma, own := .chan, s1 := 0x4000, c1 := 4, s2 := 0x80, c2 := 64 }
  | .dmaChCur => { base := 0xB02020, w64 := true, acc := .ro, reset := 0x0, mask := 0xFFFFFFFFFFFFFFFF, dom := .dma, own := .chan, s1 := 0x4000, c1 := 4, s2 := 0x80, c2 := 64 }
  | .dmaChDone => { base := 0xB02028, w64 := true, acc := .ro, reset := 0x0, mask := 0xFFFFFFFFFFFFFFFF, dom := .dma, own := .chan, s1 := 0x4000, c1 := 4, s2 := 0x80, c2 := 64 }
  | .dmaChCmp => { base := 0xB02030, w64 := true, acc := .ro, reset := 0xFFFFFFFFFFFFFFFF, mask := 0xFFFFFFFFFFFFFFFF, dom := .dma, own := .chan, s1 := 0x4000, c1 := 4, s2 := 0x80, c2 := 64 }
  | .dmaChFault => { base := 0xB02038, w64 := true, acc := .ro, reset := 0x0, mask := 0xFFFFFFFFFFFFFFFF, dom := .dma, own := .chan, s1 := 0x4000, c1 := 4, s2 := 0x80, c2 := 64 }
  | .dmaChHops => { base := 0xB02040, w64 := false, acc := .ro, reset := 0x0, mask := 0xFFFF, dom := .dma, own := .chan, s1 := 0x4000, c1 := 4, s2 := 0x80, c2 := 64 }
  | .dmaChErrCairn => { base := 0xB02044, w64 := false, acc := .rw, reset := 0x0, mask := 0x1FFFF, dom := .dma, own := .chan, s1 := 0x4000, c1 := 4, s2 := 0x80, c2 := 64 }
  | .xpcEvent => { base := 0xC00000, w64 := false, acc := .w1c, reset := 0x0, mask := 0xFF, dom := .dma, own := .dev, s1 := 0x100, c1 := 4 }
  | .xpcLastErr => { base := 0xC00004, w64 := false, acc := .ro, reset := 0x0, mask := 0xFFFF, dom := .dma, own := .dev, s1 := 0x100, c1 := 4 }
  | .xpcLastInfo => { base := 0xC00008, w64 := false, acc := .ro, reset := 0x0, mask := 0xFFFFFFFF, dom := .dma, own := .dev, s1 := 0x100, c1 := 4 }
  | .xpcLastObj => { base := 0xC00010, w64 := true, acc := .ro, reset := 0x0, mask := 0xFFFFFFFFFFFFFFFF, dom := .dma, own := .dev, s1 := 0x100, c1 := 4 }
  | .xpcSlotsBusy => { base := 0xC00018, w64 := false, acc := .ro, reset := 0x0, mask := 0x3F, dom := .dma, own := .dev, s1 := 0x100, c1 := 4 }
  | .xpcSlotWait => { base := 0xC0001C, w64 := false, acc := .rc, reset := 0x0, mask := 0xFFFFFFFF, dom := .dma, own := .dev, s1 := 0x100, c1 := 4 }
  | .xpcRawBytes => { base := 0xC00020, w64 := true, acc := .rc, reset := 0x0, mask := 0xFFFFFFFFFFFFFFFF, dom := .dma, own := .dev, s1 := 0x100, c1 := 4 }
  | .xpcCodedBytes => { base := 0xC00028, w64 := true, acc := .rc, reset := 0x0, mask := 0xFFFFFFFFFFFFFFFF, dom := .dma, own := .dev, s1 := 0x100, c1 := 4 }
  | .xpcBlocksCoded => { base := 0xC00030, w64 := false, acc := .rc, reset := 0x0, mask := 0xFFFFFFFF, dom := .dma, own := .dev, s1 := 0x100, c1 := 4 }
  | .xpcBlocksRaw => { base := 0xC00034, w64 := false, acc := .rc, reset := 0x0, mask := 0xFFFFFFFF, dom := .dma, own := .dev, s1 := 0x100, c1 := 4 }
  | .xpcBlocksDecoded => { base := 0xC00038, w64 := false, acc := .rc, reset := 0x0, mask := 0xFFFFFFFF, dom := .dma, own := .dev, s1 := 0x100, c1 := 4 }
  | .xpcDamaged => { base := 0xC0003C, w64 := false, acc := .rc, reset := 0x0, mask := 0xFFFFFFFF, dom := .dma, own := .dev, s1 := 0x100, c1 := 4 }
  | .xpcCap => { base := 0xC00400, w64 := false, acc := .ro, reset := 0x402010F4, mask := 0xFFFFFFFF, dom := .spine, own := .dev }
  | .updCtrl => { base := 0xD00000, w64 := false, acc := .wo, reset := 0x0, mask := 0x3, dom := .stack, own := .unit, s1 := 0x100, c1 := 8 }
  | .updCfg => { base := 0xD00004, w64 := false, acc := .rw, reset := 0x4, mask := 0x6, dom := .stack, own := .unit, s1 := 0x100, c1 := 8 }
  | .updTableAddr => { base := 0xD00008, w64 := true, acc := .rw, reset := 0x0, mask := 0xFFFFFFFFFFFFFFFF, dom := .stack, own := .unit, s1 := 0x100, c1 := 8 }
  | .updTableCount => { base := 0xD00010, w64 := false, acc := .rw, reset := 0x1, mask := 0x1FFF, dom := .stack, own := .unit, s1 := 0x100, c1 := 8 }
  | .updStatus => { base := 0xD00014, w64 := false, acc := .ro, reset := 0x0, mask := 0xFFFF000F, dom := .stack, own := .unit, s1 := 0x100, c1 := 8 }
  | .updLastErr => { base := 0xD00018, w64 := false, acc := .ro, reset := 0x0, mask := 0xFFFF, dom := .stack, own := .unit, s1 := 0x100, c1 := 8 }
  | .updErrJob => { base := 0xD0001C, w64 := false, acc := .ro, reset := 0x0, mask := 0xFFF, dom := .stack, own := .unit, s1 := 0x100, c1 := 8 }
  | .updErrElem => { base := 0xD00020, w64 := false, acc := .ro, reset := 0x0, mask := 0xFFFFFFFF, dom := .stack, own := .unit, s1 := 0x100, c1 := 8 }
  | .updRunDone => { base := 0xD00024, w64 := false, acc := .ro, reset := 0x0, mask := 0xFFFFFFFF, dom := .stack, own := .unit, s1 := 0x100, c1 := 8 }
  | .updRunSkip => { base := 0xD00028, w64 := false, acc := .ro, reset := 0x0, mask := 0xFFFFFFFF, dom := .stack, own := .unit, s1 := 0x100, c1 := 8 }
  | .updLastNorm => { base := 0xD0002C, w64 := false, acc := .ro, reset := 0x0, mask := 0xFFFFFFFF, dom := .stack, own := .unit, s1 := 0x100, c1 := 8 }
  | .updSkips => { base := 0xD00030, w64 := false, acc := .rc, reset := 0x0, mask := 0xFFFFFFFF, dom := .stack, own := .unit, s1 := 0x100, c1 := 8 }
  | .updJobs => { base := 0xD00034, w64 := false, acc := .rc, reset := 0x0, mask := 0xFFFFFFFF, dom := .stack, own := .unit, s1 := 0x100, c1 := 8 }
  | .updElems => { base := 0xD00038, w64 := true, acc := .rc, reset := 0x0, mask := 0xFFFFFFFFFFFFFFFF, dom := .stack, own := .unit, s1 := 0x100, c1 := 8 }
  | .updLsCfg => { base := 0xD01000, w64 := false, acc := .rw, reset := 0x10, mask := 0xF1, dom := .spine, own := .part, s1 := 0x200, c1 := 8 }
  | .updLsExp => { base := 0xD01004, w64 := false, acc := .rw, reset := 0x10, mask := 0xFF, dom := .spine, own := .part, s1 := 0x200, c1 := 8 }
  | .updLsRange => { base := 0xD01008, w64 := false, acc := .rw, reset := 0x1800, mask := 0xFFFF, dom := .spine, own := .part, s1 := 0x200, c1 := 8 }
  | .updLsClean => { base := 0xD0100C, w64 := false, acc := .ro, reset := 0x0, mask := 0xFFFFFFFF, dom := .spine, own := .part, s1 := 0x200, c1 := 8 }
  | .updLsMirror => { base := 0xD01010, w64 := true, acc := .rw, reset := 0x0, mask := 0xFFFFFFFFFFFFFFFF, dom := .spine, own := .part, s1 := 0x200, c1 := 8 }
  | .updLsCairn => { base := 0xD01018, w64 := false, acc := .rw, reset := 0x0, mask := 0x1FFFF, dom := .spine, own := .part, s1 := 0x200, c1 := 8 }
  | .updFaultCairn => { base := 0xD0101C, w64 := false, acc := .rw, reset := 0x0, mask := 0x1FFFF, dom := .spine, own := .part, s1 := 0x200, c1 := 8 }
  | .updB1 => { base := 0xD01020, w64 := false, acc := .rw, reset := 0x3F666666, mask := 0xFFFFFFFF, dom := .spine, own := .part, s1 := 0x200, c1 := 8 }
  | .updB2 => { base := 0xD01024, w64 := false, acc := .rw, reset := 0x3F7FBE77, mask := 0xFFFFFFFF, dom := .spine, own := .part, s1 := 0x200, c1 := 8 }
  | .updPow1 => { base := 0xD01028, w64 := false, acc := .rw, reset := 0x3F800000, mask := 0xFFFFFFFF, dom := .spine, own := .part, s1 := 0x200, c1 := 8 }
  | .updPow2 => { base := 0xD0102C, w64 := false, acc := .rw, reset := 0x3F800000, mask := 0xFFFFFFFF, dom := .spine, own := .part, s1 := 0x200, c1 := 8 }
  | .updEvent => { base := 0xD01030, w64 := false, acc := .w1c, reset := 0x0, mask := 0x3F, dom := .spine, own := .part, s1 := 0x200, c1 := 8 }
  | .updStepFault => { base := 0xD01034, w64 := false, acc := .ro, reset := 0x0, mask := 0xFFFF, dom := .spine, own := .part, s1 := 0x200, c1 := 8 }
  | .updGrid => { base := 0xD01038, w64 := false, acc := .rw, reset := 0x0, mask := 0xFFFF, dom := .spine, own := .part, s1 := 0x200, c1 := 8 }
  | .updNf => { base := 0xD0103C, w64 := false, acc := .ro, reset := 0x0, mask := 0x1, dom := .spine, own := .part, s1 := 0x200, c1 := 8 }
  | .updHpLr => { base := 0xD01100, w64 := false, acc := .rw, reset := 0x0, mask := 0xFFFFFFFF, dom := .spine, own := .part, s1 := 0x200, c1 := 8, s2 := 0x10, c2 := 16 }
  | .updHpEps => { base := 0xD01104, w64 := false, acc := .rw, reset := 0x0, mask := 0xFFFFFFFF, dom := .spine, own := .part, s1 := 0x200, c1 := 8, s2 := 0x10, c2 := 16 }
  | .updHpWd => { base := 0xD01108, w64 := false, acc := .rw, reset := 0x0, mask := 0xFFFFFFFF, dom := .spine, own := .part, s1 := 0x200, c1 := 8, s2 := 0x10, c2 := 16 }
  | .updHpClip => { base := 0xD0110C, w64 := false, acc := .rw, reset := 0x0, mask := 0xFFFFFFFF, dom := .spine, own := .part, s1 := 0x200, c1 := 8, s2 := 0x10, c2 := 16 }
  | .updKeyRotate => { base := 0xD02000, w64 := false, acc := .rw, reset := 0x0, mask := 0xFFFF, dom := .spine, own := .dev }
  | .updCap => { base := 0xD02004, w64 := false, acc := .ro, reset := 0x8204040, mask := 0xFFFFFFFF, dom := .spine, own := .dev }
  | .nynPortCtrl => { base := 0xE00000, w64 := false, acc := .rw, reset := 0x1, mask := 0x1, dom := .port, own := .pf0, s1 := 0x40, c1 := 14 }
  | .nynPortCmd => { base := 0xE00004, w64 := false, acc := .wo, reset := 0x0, mask := 0x1, dom := .port, own := .pf0, s1 := 0x40, c1 := 14 }
  | .nynPortStatus => { base := 0xE00008, w64 := false, acc := .ro, reset := 0x0, mask := 0xFFF00017, dom := .port, own := .pf0, s1 := 0x40, c1 := 14 }
  | .nynPortFec => { base := 0xE0000C, w64 := false, acc := .rc, reset := 0x0, mask := 0xFFFFFFFF, dom := .port, own := .pf0, s1 := 0x40, c1 := 14 }
  | .nynPortRetry => { base := 0xE00010, w64 := false, acc := .rc, reset := 0x0, mask := 0xFFFFFFFF, dom := .port, own := .pf0, s1 := 0x40, c1 := 14 }
  | .nynPortDowns => { base := 0xE00014, w64 := false, acc := .rc, reset := 0x0, mask := 0xFFFFFFFF, dom := .port, own := .pf0, s1 := 0x40, c1 := 14 }
  | .nynPortBounces => { base := 0xE00018, w64 := false, acc := .rc, reset := 0x0, mask := 0xFFFFFFFF, dom := .port, own := .pf0, s1 := 0x40, c1 := 14 }
  | .nynIdent => { base := 0xE00400, w64 := false, acc := .ro, reset := 0x0, mask := 0xF70FF3F, dom := .spine, own := .pf0 }
  | .nynMachineId => { base := 0xE00408, w64 := true, acc := .ro, reset := 0x0, mask := 0xFFFFFFFFFFFFFFFF, dom := .spine, own := .pf0 }
  | .nynMembers => { base := 0xE00410, w64 := true, acc := .ro, reset := 0x0, mask := 0xFFFFFFFFFFFFFFFF, dom := .spine, own := .pf0 }
  | .nynFailed => { base := 0xE00418, w64 := true, acc := .rw, reset := 0x0, mask := 0xFFFFFFFFFFFFFFFF, dom := .spine, own := .pf0 }
  | .nynReach => { base := 0xE00420, w64 := true, acc := .ro, reset := 0x0, mask := 0xFFFFFFFFFFFFFFFF, dom := .spine, own := .pf0 }
  | .nynEvent => { base := 0xE00428, w64 := false, acc := .w1c, reset := 0x0, mask := 0xFF, dom := .spine, own := .pf0 }
  | .nynLastErr => { base := 0xE0042C, w64 := false, acc := .ro, reset := 0x0, mask := 0xFFFF, dom := .spine, own := .pf0 }
  | .nynLastInfo => { base := 0xE00430, w64 := false, acc := .ro, reset := 0x0, mask := 0xFFFF000F, dom := .spine, own := .pf0 }
  | .nynE2eCfg => { base := 0xE00434, w64 := false, acc := .rw, reset := 0x8000A, mask := 0xFFFFFF, dom := .spine, own := .pf0 }
  | .nynRetrainGap => { base := 0xE00438, w64 := false, acc := .rw, reset := 0x3E8, mask := 0xFFFFFFFF, dom := .spine, own := .pf0 }
  | .nynResends => { base := 0xE0043C, w64 := false, acc := .rc, reset := 0x0, mask := 0xFFFFFFFF, dom := .spine, own := .pf0 }
  | .nynCollCtrl => { base := 0xE00440, w64 := false, acc := .wo, reset := 0x0, mask := 0x3, dom := .anyPort, own := .pf0 }
  | .nynCollCfg => { base := 0xE00444, w64 := false, acc := .rw, reset := 0x0, mask := 0x70, dom := .anyPort, own := .pf0 }
  | .nynCollTable => { base := 0xE00448, w64 := true, acc := .rw, reset := 0x0, mask := 0xFFFFFFFFFFFFFFFF, dom := .anyPort, own := .pf0 }
  | .nynCollCount => { base := 0xE00450, w64 := false, acc := .rw, reset := 0x1, mask := 0x1FF, dom := .anyPort, own := .pf0 }
  | .nynCollStatus => { base := 0xE00454, w64 := false, acc := .ro, reset := 0x0, mask := 0xFFFF0007, dom := .anyPort, own := .pf0 }
  | .nynCollMiss => { base := 0xE00458, w64 := true, acc := .rc, reset := 0x0, mask := 0xFFFFFFFFFFFFFFFF, dom := .anyPort, own := .pf0 }
  | .nynReplaceWait => { base := 0xE00460, w64 := false, acc := .rw, reset := 0x7D0, mask := 0xFFFFFFFF, dom := .anyPort, own := .pf0 }
  | .nynCollGrace => { base := 0xE00464, w64 := false, acc := .rw, reset := 0x1388, mask := 0xFFFFFFFF, dom := .anyPort, own := .pf0 }
  | .nynCkptStep => { base := 0xE00468, w64 := true, acc := .rw, reset := 0x0, mask := 0xFFFFFFFFFFFF, dom := .anyPort, own := .pf0 }
  | .nynSkipped => { base := 0xE00470, w64 := false, acc := .rc, reset := 0x0, mask := 0xFFFFFFFF, dom := .anyPort, own := .pf0 }
  | .nynCarried => { base := 0xE00474, w64 := false, acc := .rc, reset := 0x0, mask := 0xFFFFFFFF, dom := .anyPort, own := .pf0 }
  | .intCap => { base := 0xF00000, w64 := false, acc := .ro, reset := 0x10400842, mask := 0xFFFFFFFF, dom := .intake, own := .pf0 }
  | .intPortCfg => { base := 0xF00004, w64 := false, acc := .rw, reset := 0x0, mask := 0x3, dom := .intake, own := .pf0 }
  | .intPortCmd => { base := 0xF00008, w64 := false, acc := .wo, reset := 0x0, mask := 0x1, dom := .intake, own := .pf0 }
  | .intPortStatus => { base := 0xF0000C, w64 := false, acc := .ro, reset := 0x0, mask := 0xFFFFF, dom := .intake, own := .pf0 }
  | .intEvent => { base := 0xF00010, w64 := false, acc := .w1c, reset := 0x0, mask := 0x3F, dom := .intake, own := .pf0 }
  | .intLastErr => { base := 0xF00014, w64 := false, acc := .ro, reset := 0x0, mask := 0x7FFFFFF, dom := .intake, own := .pf0 }
  | .intRetry => { base := 0xF00018, w64 := false, acc := .rw, reset := 0x30064, mask := 0xFFFFFF, dom := .intake, own := .pf0 }
  | .intCmdTimeout => { base := 0xF0001C, w64 := false, acc := .rw, reset := 0x1388, mask := 0xFFFFFFFF, dom := .intake, own := .pf0 }
  | .intTmoLimit => { base := 0xF00020, w64 := false, acc := .rw, reset := 0x3, mask := 0xFFFFFFFF, dom := .intake, own := .pf0 }
  | .intCtrlState => { base := 0xF00028, w64 := true, acc := .ro, reset := 0x0, mask := 0xFFFFFFFFFFFFFFFF, dom := .intake, own := .pf0 }
  | .intNsSel => { base := 0xF00030, w64 := false, acc := .rw, reset := 0x0, mask := 0x3F, dom := .intake, own := .pf0 }
  | .intNsInfo => { base := 0xF00038, w64 := true, acc := .ro, reset := 0x0, mask := 0xFC000000FFFFFFFF, dom := .intake, own := .pf0 }
  | .intNsCap => { base := 0xF00040, w64 := true, acc := .ro, reset := 0x0, mask := 0xFFFFFFFFFFFFFFFF, dom := .intake, own := .pf0 }
  | .intNsOwner => { base := 0xF00048, w64 := false, acc := .rw, reset := 0x0, mask := 0x3FFF, dom := .intake, own := .pf0 }
  | .intReadBytes => { base := 0xF000C0, w64 := true, acc := .rc, reset := 0x0, mask := 0xFFFFFFFFFFFFFFFF, dom := .intake, own := .pf0 }
  | .intJobs => { base := 0xF000C8, w64 := false, acc := .rc, reset := 0x0, mask := 0xFFFFFFFF, dom := .intake, own := .pf0 }
  | .intDriveErrs => { base := 0xF000CC, w64 := false, acc := .rc, reset := 0x0, mask := 0xFFFFFFFF, dom := .intake, own := .pf0 }
  | .intCorrupt => { base := 0xF000D0, w64 := false, acc := .rc, reset := 0x0, mask := 0xFFFFFFFF, dom := .intake, own := .pf0 }
  | .intRetries => { base := 0xF000D4, w64 := false, acc := .rc, reset := 0x0, mask := 0xFFFFFFFF, dom := .intake, own := .pf0 }
  | .intRingCfg => { base := 0xF01000, w64 := false, acc := .rw, reset := 0x0, mask := 0x3, dom := .intake, own := .part, s1 := 0x80, c1 := 8 }
  | .intRingBase => { base := 0xF01008, w64 := true, acc := .rw, reset := 0x0, mask := 0xFFFFFFFFFFFFFFFF, dom := .intake, own := .part, s1 := 0x80, c1 := 8 }
  | .intResultBase => { base := 0xF01010, w64 := true, acc := .rw, reset := 0x0, mask := 0xFFFFFFFFFFFFFFFF, dom := .intake, own := .part, s1 := 0x80, c1 := 8 }
  | .intRingLen => { base := 0xF01018, w64 := false, acc := .rw, reset := 0x40, mask := 0xFFFF, dom := .intake, own := .part, s1 := 0x80, c1 := 8 }
  | .intRingStatus => { base := 0xF0101C, w64 := false, acc := .ro, reset := 0x0, mask := 0x1F, dom := .intake, own := .part, s1 := 0x80, c1 := 8 }
  | .intRingCairns => { base := 0xF01020, w64 := true, acc := .rw, reset := 0x0, mask := 0x1FFFFFFFFFFFF, dom := .intake, own := .part, s1 := 0x80, c1 := 8 }
  | .intJobsTaken => { base := 0xF01028, w64 := false, acc := .ro, reset := 0x0, mask := 0xFFFFFFFF, dom := .intake, own := .part, s1 := 0x80, c1 := 8 }
  | .intCscM => { base := 0xF01030, w64 := false, acc := .rw, reset := 0x0, mask := 0xFFFFFFFF, dom := .intake, own := .part, s1 := 0x80, c1 := 8, s2 := 0x4, c2 := 9 }
  | .intCscO => { base := 0xF01054, w64 := false, acc := .rw, reset := 0x0, mask := 0xFFFFFFFF, dom := .intake, own := .part, s1 := 0x80, c1 := 8, s2 := 0x4, c2 := 3 }
  | .intRsCoef => { base := 0xF10000, w64 := false, acc := .ro, reset := 0x0, mask := 0xFFFFFFFF, dom := .intake, own := .pf0, s1 := 0x4, c1 := 16384 }
  | .alnCap => { base := 0x1000000, w64 := false, acc := .ro, reset := 0x4100080, mask := 0xFFFFFFFF, dom := .align, own := .dev }
  | .alnEvent => { base := 0x1000004, w64 := false, acc := .w1c, reset := 0x0, mask := 0xF, dom := .align, own := .dev }
  | .alnLastErr => { base := 0x1000008, w64 := false, acc := .ro, reset := 0x0, mask := 0xFFFFFFFF, dom := .align, own := .dev }
  | .alnGCtrl => { base := 0x1000100, w64 := false, acc := .wo, reset := 0x0, mask := 0x3, dom := .align, own := .group, s1 := 0x40, c1 := 4 }
  | .alnGCfg => { base := 0x1000104, w64 := false, acc := .rw, reset := 0x0, mask := 0x7, dom := .align, own := .group, s1 := 0x40, c1 := 4 }
  | .alnGAddr => { base := 0x1000108, w64 := true, acc := .rw, reset := 0x0, mask := 0xFFFFFFFFFFFFFFFF, dom := .align, own := .group, s1 := 0x40, c1 := 4 }
  | .alnGCairns => { base := 0x1000110, w64 := true, acc := .rw, reset := 0x0, mask := 0x1FFFFFFFFFFFF, dom := .align, own := .group, s1 := 0x40, c1 := 4 }
  | .alnGStatus => { base := 0x1000118, w64 := false, acc := .ro, reset := 0x0, mask := 0x3, dom := .align, own := .group, s1 := 0x40, c1 := 4 }
  | .alnGTicks => { base := 0x100011C, w64 := false, acc := .ro, reset := 0x0, mask := 0xFFFFFFFF, dom := .align, own := .group, s1 := 0x40, c1 := 4 }
  | .alnGStale => { base := 0x1000120, w64 := false, acc := .rc, reset := 0x0, mask := 0xFFFFFFFF, dom := .align, own := .group, s1 := 0x40, c1 := 4 }
  | .alnGSel => { base := 0x1000124, w64 := false, acc := .rw, reset := 0x0, mask := 0xF, dom := .align, own := .group, s1 := 0x40, c1 := 4 }
  | .alnGShift => { base := 0x1000128, w64 := false, acc := .ro, reset := 0x0, mask := 0xFFFFFFFF, dom := .align, own := .group, s1 := 0x40, c1 := 4 }
  | .alnGRefines => { base := 0x100012C, w64 := false, acc := .rc, reset := 0x0, mask := 0xFFFFFFFF, dom := .align, own := .group, s1 := 0x40, c1 := 4 }

/-- The registers of the HIF window. -/
def regsOfHIF : List RegName :=
  [.hifIdent, .hifIdentRsv, .hifSerial, .hifCapCompute, .hifCapMemory, .hifCapPorts, .hifCapIntake, .hifPciId, .hifLink, .hifEvent, .hifLastErr, .hifEvtVec, .hifBlockEvent, .hifBootStatus, .hifBootFault, .hifBadTiles, .hifBadStacks, .hifResumeStep, .hifBootTime, .hifLinksDown, .hifBootRom, .hifWinFunc, .hifWinSize, .hifWinBus, .hifRingCtrl, .hifRingSize, .hifCmdBase, .hifCplBase, .hifStrBase, .hifStrLen] ++
  [.hifRingVec, .hifCmdHead, .hifCplTail, .hifStrTail, .hifRingStatus, .hifAptBase, .hifCmdTaken, .hifStreamWaits, .hifAptErrs]

/-- The registers of the IMG window. -/
def regsOfIMG : List RegName :=
  [.imgCmd, .imgStatus, .imgSrcAddr, .imgSrcLen, .imgLastErr, .imgRejectInfo, .imgWaitMax, .imgDigest, .imgVersion, .imgSvFloor, .imgKeyStatus, .imgKeyCmd, .imgFsmNotrans, .imgEvent, .imgPartVer]

/-- The registers of the CAD window. -/
def regsOfCAD : List RegName :=
  [.cadCtrl, .cadStatus, .cadEvent, .cadLastErr, .cadPhase, .cadPeriod, .cadInLink, .cadRootDelay, .cadFlyMax, .cadHoldMax, .cadSlipLimit, .cadMasterStart, .cadMasterPeriod, .cadMasterCmd, .cadLateCount, .cadSlipCount, .cadFrameErr, .cadHoldCount, .cadLastLate, .cadLastLateSrc]

/-- The registers of the PWR window. -/
def regsOfPWR : List RegName :=
  [.pwrStatus, .pwrCmd, .pwrEvent, .pwrLastErr, .pwrDomains, .pwrSsc, .pwrTempMax, .pwrTempPeak, .pwrTempWarn, .pwrVbak, .pwrKeepTime, .pwrRailFaults, .pwrPadEdge, .pwrPadTerm, .pwrStraps]

/-- The registers of the LOG window. -/
def regsOfLOG : List RegName :=
  [.logCap, .logCfg, .logHead, .logOldest, .logReadSeq, .logReadStatus, .logStaged, .logEpoch, .logTime, .logTimeSet, .logEntry]

/-- The registers of the TLY window. -/
def regsOfTLY : List RegName :=
  [.tlyCap, .tlySel, .tlyVal]

/-- The registers of the SCL window. -/
def regsOfSCL : List RegName :=
  [.sclLedgerCmd, .sclLedgerAddr, .sclLedgerStatus, .sclLedgerActive, .sclPlanLastErr, .sclPlanInfo, .sclPlanPart, .sclPlanPeak, .sclPlanKeep, .sclPlanPack, .sclPlanSend, .sclPlanSendpack, .sclPlanRegrow, .sclPlanOverrides, .sclPlanSel, .sclPlanWord, .sclPlanRatio, .sclPlanMargin, .sclRegrowCap, .sclOverrideCount, .sclEvictFail, .sclLedgerEvent, .sclPlanBudget, .sclRunEvent, .sclRunLastErr, .sclRunInfo, .sclFetchCount, .sclRegrowCount, .sclAdaptCount, .sclDamageRegrow] ++
  [.sclFetchFail, .sclSlackMin, .sclInflight, .sclStreamCfg, .sclStreamMode, .sclKvWin, .sclKvTtl, .sclKvCfg, .sclParked, .sclParkPages, .sclParkExpired, .sclParkFail, .sclPoolCap, .sclPoolFree, .sclFhCap, .sclTierRetry, .sclScrubCtrl, .sclPartUse, .sclHoldSel, .sclHoldInfo, .sclHoldBase, .sclHoldSize, .sclTierEvent, .sclTierLastErr, .sclEccCorr, .sclEccUncorr, .sclTierRetries, .sclEvictCount, .sclHoldCount, .sclLastEccAddr]

/-- The registers of the CRN window. -/
def regsOfCRN : List RegName :=
  [.crnCap, .crnWaitTmo, .crnRemoteTmo, .crnEvent, .crnLastErr, .crnLastTmoWaiter, .crnLastTmoVal, .crnTimeouts, .crnRefused, .crnRemoteAdds, .crnDebugRef, .crnDebugSet, .crnReadRef, .crnReadVal, .crnHcValue, .crnHcAdd, .crnHcSet, .crnHcTarget, .crnHcWcfg, .crnHcWstat, .crnHcMirror, .crnRemote]

/-- The registers of the SRV window. -/
def regsOfSRV : List RegName :=
  [.srvPartCtrl, .srvSlots, .srvReqMax, .srvActive, .srvModelAddr, .srvModelCmd, .srvSwapCfg, .srvModelState, .srvGlistAddr, .srvPlistAddr, .srvPlistLen, .srvHandoverCfg, .srvListCairns, .srvEvent, .srvLastErr, .srvReqInfo, .srvCancels, .srvServed, .srvSwaps, .srvTokens, .srvTreeAddr, .srvTreeNodes, .srvTreeCfg, .srvTreeCmd, .srvTreeUsed, .srvTreePages, .srvWalkHits, .srvSpecMax, .srvLogitsAddr, .srvSampleCairns] ++
  [.srvSpecDrafted, .srvSpecAccepted, .srvPenOverflow, .srvTreeSkips, .srvGenEvent, .srvCap, .srvSamplerCap]

/-- The registers of the ADM window. -/
def regsOfADM : List RegName :=
  [.admQdepth, .admNoticeGap, .admKvLimit, .admKvCommitted, .admPeriod, .admQuantum, .admAccounts, .admAcctSel, .admAcctRate, .admAcctBurst, .admAcctHard, .admAcctBalance, .admAcctSpent, .admAcctDeficit, .admAcctStatus, .admAcctAdmitted, .admAcctDelayed, .admAcctRefused, .admAcctCmd, .admReqSel, .admReqInfo, .admPromptTokens, .admChunk, .admEvent, .admLastErr, .admAdmits, .admDelays, .admRefusals]

/-- The registers of the TIL window. -/
def regsOfTIL : List RegName :=
  [.tilInfo, .tilArrayOwner, .tilPasses, .tilFaults, .tilCtxCtrl, .tilCtxStatus, .tilCtxPc, .tilCtxCfg, .tilCtxErr, .tilCtxErrPc, .tilCtxFlags, .tilCtxKeysel, .tilCtxCtr, .tilCtxErrCairn, .tilKey, .tilSrSeed, .tilCap]

/-- The registers of the DMA window. -/
def regsOfDMA : List RegName :=
  [.dmaCap, .dmaHopLimit, .dmaReadTimeout, .dmaLastErr, .dmaStopEvent, .dmaOccupancy, .dmaStopCount, .dmaDescCount, .dmaGrantWait, .dmaBytesRead, .dmaBytesWritten, .dmaTimeouts, .dmaChCfg, .dmaChCtrl, .dmaChHead, .dmaChStatus, .dmaChErr, .dmaChErrAddr, .dmaChCur, .dmaChDone, .dmaChCmp, .dmaChFault, .dmaChHops, .dmaChErrCairn]

/-- The registers of the XPC window. -/
def regsOfXPC : List RegName :=
  [.xpcEvent, .xpcLastErr, .xpcLastInfo, .xpcLastObj, .xpcSlotsBusy, .xpcSlotWait, .xpcRawBytes, .xpcCodedBytes, .xpcBlocksCoded, .xpcBlocksRaw, .xpcBlocksDecoded, .xpcDamaged, .xpcCap]

/-- The registers of the UPD window. -/
def regsOfUPD : List RegName :=
  [.updCtrl, .updCfg, .updTableAddr, .updTableCount, .updStatus, .updLastErr, .updErrJob, .updErrElem, .updRunDone, .updRunSkip, .updLastNorm, .updSkips, .updJobs, .updElems, .updLsCfg, .updLsExp, .updLsRange, .updLsClean, .updLsMirror, .updLsCairn, .updFaultCairn, .updB1, .updB2, .updPow1, .updPow2, .updEvent, .updStepFault, .updGrid, .updNf, .updHpLr] ++
  [.updHpEps, .updHpWd, .updHpClip, .updKeyRotate, .updCap]

/-- The registers of the NYN window. -/
def regsOfNYN : List RegName :=
  [.nynPortCtrl, .nynPortCmd, .nynPortStatus, .nynPortFec, .nynPortRetry, .nynPortDowns, .nynPortBounces, .nynIdent, .nynMachineId, .nynMembers, .nynFailed, .nynReach, .nynEvent, .nynLastErr, .nynLastInfo, .nynE2eCfg, .nynRetrainGap, .nynResends, .nynCollCtrl, .nynCollCfg, .nynCollTable, .nynCollCount, .nynCollStatus, .nynCollMiss, .nynReplaceWait, .nynCollGrace, .nynCkptStep, .nynSkipped, .nynCarried]

/-- The registers of the INT window. -/
def regsOfINT : List RegName :=
  [.intCap, .intPortCfg, .intPortCmd, .intPortStatus, .intEvent, .intLastErr, .intRetry, .intCmdTimeout, .intTmoLimit, .intCtrlState, .intNsSel, .intNsInfo, .intNsCap, .intNsOwner, .intReadBytes, .intJobs, .intDriveErrs, .intCorrupt, .intRetries, .intRingCfg, .intRingBase, .intResultBase, .intRingLen, .intRingStatus, .intRingCairns, .intJobsTaken, .intCscM, .intCscO, .intRsCoef]

/-- The registers of the ALN window. -/
def regsOfALN : List RegName :=
  [.alnCap, .alnEvent, .alnLastErr, .alnGCtrl, .alnGCfg, .alnGAddr, .alnGCairns, .alnGStatus, .alnGTicks, .alnGStale, .alnGSel, .alnGShift, .alnGRefines]

/-- The registers of the block window that holds window offset `off` (R565, Table 23.2). -/
def regsAt (off : Nat) : List RegName :=
  match off / 0x100000 with
  | 0 => regsOfHIF
  | 1 => regsOfIMG
  | 2 => regsOfCAD
  | 3 => regsOfPWR
  | 4 => regsOfLOG
  | 5 => regsOfTLY
  | 6 => regsOfSCL
  | 7 => regsOfCRN
  | 8 => regsOfSRV
  | 9 => regsOfADM
  | 10 => regsOfTIL
  | 11 => regsOfDMA
  | 12 => regsOfXPC
  | 13 => regsOfUPD
  | 14 => regsOfNYN
  | 15 => regsOfINT
  | 16 => regsOfALN
  | _ => []

/-- Registers of which each access path keeps its own copy (R577). -/
def RegName.perPath : RegName → Bool
  | .admAcctSel | .admReqSel | .alnGSel | .crnDebugRef | .crnReadRef | .intNsSel | .logEntry | .logReadSeq | .logReadStatus | .sclHoldSel | .sclLedgerAddr | .sclPlanPart | .sclPlanSel | .tlySel => true
  | _ => false

/-- Selector registers, whose writes are not logged (R529). -/
def RegName.selector : RegName → Bool
  | .admAcctSel | .admReqSel | .alnGSel | .crnReadRef | .intNsSel | .logReadSeq | .sclHoldSel | .sclPlanSel | .tlySel => true
  | _ => false

end Sys2Proof.Machine
end

