-- ==== Sys2Proof/Machine/Units/Collective.lean ====
section
/-! DEFINITION. State of the collective sequencer. -/
namespace Sys2Proof.Machine

/-- A collective entry (Table 12.7). -/
structure CEntry where
  op : Nat
  ifmt : Nat
  flags : Nat
  root : Nat
  count : Nat
  s : Nat
  d : Nat
  src : Nat
  dst : Nat
  carry : Nat
  members : Nat
  waitRef : Nat
  signalRef : Nat
  waitTarget : Nat
  tag : Nat
  /-- signature (R343) -/
  sig : Nat
  deriving DecidableEq, Repr, Inhabited

/-- Progress of an entry in the open run. -/
inductive CollSt where
  | waiting | running | done | failed
  deriving DecidableEq, Repr

/-- A piece that has arrived at this device: sender, chunk field, bytes. -/
structure Piece where
  src : Nat
  field : Nat
  bytes : List Byte
  deriving DecidableEq, Repr

/-- An entry of the open run (R345 to R353). -/
structure Inst where
  entry : Nat
  e : CEntry
  st : CollSt := .waiting
  startReached : Bool := false
  waitDone : Bool := false
  pieces : List Piece := []
  /-- members omitted, by chunk of the own slice (SKIP) -/
  omitted : NMap Nat := []
  /-- chunks of the own slice folded as intra root -/
  folded : List Nat := []
  /-- portions folded as inter root, by chunk × 8 + sub-slice -/
  foldedInter : List Nat := []
  /-- portions written to DST, by their chunk field -/
  written : List Nat := []
  /-- contributions (ALLGATHER, BROADCAST) that are complete or omitted, by logical ID -/
  got : List Nat := []
  missing : Nat := 0
  deadlineDone : Bool := false
  /-- chunks counted in NYN_CARRIED or NYN_SKIPPED by this member -/
  counted : List Nat := []
  deriving DecidableEq, Repr

/-- The collective sequencer. -/
structure Coll where
  /-- 0 IDLE, 1 ARMED, 2 RUNNING -/
  st : Nat := 0
  disarm : Bool := false
  insts : List Inst := []
  /-- pieces that came before the run that takes them, with TAG and signature -/
  early : List (Nat × Nat × Piece) := []
  /-- entries whose carry is valid (R351) -/
  carryValid : List Nat := []
  deriving DecidableEq, Repr

end Sys2Proof.Machine
end

