-- ==== Sys2Proof/Machine/Units/Spine.lean ====
section
/-! DEFINITION. State of the access paths, the change log and tally store, the cadence receiver and the image loader. -/
namespace Sys2Proof.Machine

/-- A number per path: functions 0 to 8, I2C 9, JTAG 10. -/
def Path.idx : Path → Nat
  | .fn f => f.val
  | .i2c => 9
  | .jtag => 10

/-- A change-log entry (Table 21.1), without its CRC, which is computed where the bytes are read. -/
structure LogEntry where
  time : Nat := 0
  step : Nat := 0
  phase : Nat := 0
  seq : Nat := 0
  kind : Nat := 0
  origin : Nat := 0
  originIdx : Nat := 0
  code : Nat := 0
  part : Nat := 0xFF
  tkind : Nat := 5
  target : Nat := 0
  old : Nat := 0
  new : Nat := 0
  aux : Nat := 0
  deriving DecidableEq, Repr, Inhabited

/-- The change log (R527 to R533). `batch` holds the series of the command being executed (R531); between commands it
is empty. -/
structure LogUnit where
  /-- entries in the staging buffer, oldest first (at most 4,096) -/
  staged : List LogEntry := []
  /-- the MRAM ring by slot; with each entry, whether its stored CRC matches -/
  ring : NMap (LogEntry × Bool) := []
  /-- SEQ of the next entry -/
  nextSeq : Nat := 0
  /-- entries moved to the ring so far -/
  written : Nat := 0
  /-- entries dropped since the last LOST entry (R532) -/
  dropped : Nat := 0
  /-- true once the receiver has been LOCKED or master in this start (R530) -/
  timeRuns : Bool := false
  /-- TIME at the instant `timeFrom` -/
  timeBase : Nat := 0
  timeFrom : Nat := 0
  /-- value of a LOG_TIME_SET made before first lock -/
  timePreset : Option Nat := none
  /-- TIME, STEP and PHASE of a loss of main power, which stamp the entries after it (R530) -/
  lossStamp : Option (Nat × Nat × Nat) := none
  batch : List (List LogEntry) := []
  deriving DecidableEq, Repr

/-- The tally store (R534 to R537): counters and bins by ID, in MRAM and accumulated since the last flush. -/
structure TallyUnit where
  mram : NMap Nat := []
  acc : NMap Nat := []
  deriving DecidableEq, Repr

/-- Cadence receiver states (Table 2.3). -/
inductive CadState where
  | acquire | locking | locked | flywheel | lost
  deriving DecidableEq, Repr

/-- The fields of a phase frame (Table 2.1). -/
structure Frame where
  rank : Nat := 0
  held : Bool := false
  pnext : Bool := false
  type : Nat := 1
  /-- 16 integer and 8 fractional bits -/
  phase : Nat := 0
  step : Nat := 0
  period : Nat := 0x200
  delay : Nat := 0
  deriving DecidableEq, Repr

/-- The cadence receiver and timing master (R36 to R75). -/
structure Cad where
  state : CadState := .acquire
  /-- the local phase is valid: loaded from a frame or started as master -/
  phaseValid : Bool := false
  /-- step number, 48 bits -/
  step : Nat := 0
  /-- local phase in units of 2^-40 pu, 56 bits -/
  phase : Nat := 0
  /-- period in force; 0 before any -/
  period : Nat := 0
  /-- units of 2^-40 pu still to be made up by real time (R43) -/
  holdBack : Nat := 0
  /-- frozen since HOLD_N was seen low (R68) -/
  frozenHold : Bool := false
  /-- frozen on a HELD = 1 frame (R68) -/
  frozenHeld : Bool := false
  /-- frozen as master by STOP, or elected from ACQUIRE and not yet RUN (R49, R53) -/
  frozenStop : Bool := false
  /-- frozen in LOST (Table 2.3) -/
  frozenLost : Bool := false
  /-- agreeing frames counted in LOCKING -/
  agree : Nat := 0
  /-- step, phase and period followed in LOCKING while the local phase stays frozen after LOST (R60) -/
  shadow : Option (Nat × Nat × Nat) := none
  /-- elected from ACQUIRE and not yet RUN: that RUN counts as a wrap (R523) -/
  firstRun : Bool := false
  /-- consecutive invalid frames seen by a master (R50) -/
  badRun : Nat := 0
  /-- a valid frame that did not match the local phase, and the clk it came in (R59) -/
  suspect : Option (Frame × Nat) := none
  /-- step whose wrap adopts the new period, and the period (R52) -/
  pnext : Option (Nat × Nat) := none
  /-- step of the last frame seen with PNEXT = 1 and adopted -/
  adoptedStep : Option Nat := none
  backoff : Bool := false
  master : Bool := false
  /-- RANK of the last valid frame -/
  rxRank : Nat := 0
  /-- consecutive HELD = 0 frames while HOLD_N is low (R73) -/
  mismatch : Nat := 0
  /-- last frame received whole for repeating (R44): its bytes and whether it was valid -/
  lastRx : Option (Frame × Bool) := none
  /-- filtered HOLD_N input is low -/
  holdIn : Bool := false
  /-- items in STALL mode that hold the line (R66) -/
  holdItems : List Item := []
  /-- the line is held on entering LOST (R60) -/
  holdLost : Bool := false
  /-- collective REPLACE entries that hold the line (R352) -/
  holdColl : List Nat := []
  /-- clk at which the present hold began (R74) -/
  holdSince : Option Nat := none
  /-- STOP or RUN written and not yet taken at a frame (R53) -/
  stopPending : Bool := false
  runPending : Bool := false
  /-- new period written and the step at whose end it takes effect (R52) -/
  newPeriod : Option (Nat × Nat) := none
  deriving DecidableEq, Repr

/-- Loader states (Table 3.12). -/
inductive LoadState where
  | empty | staging | verifying | pending | active
  deriving DecidableEq, Repr

/-- The load command in progress. -/
inductive LoadOp where
  | full | part | verify | flash
  deriving DecidableEq, Repr

/-- One section of an image (Table 3.3). -/
structure Section where
  type : Nat
  scope : Nat
  flags : Nat := 0
  inst : Nat
  body : List Byte
  deriving DecidableEq, Repr

/-- The image loader and the image in force (R76 to R102). -/
structure Img where
  state : LoadState := .empty
  before : LoadState := .empty
  op : LoadOp := .full
  force : Bool := false
  part : Nat := 0
  /-- FLAGS of the flash attempt: true while slot B is tried (R515) -/
  flashB : Bool := false
  /-- bytes of the image in the staging region -/
  staged : List Byte := []
  /-- sections of the image in force -/
  sections : List Section := []
  /-- digest bytes of the full image in force -/
  digest : List Byte := []
  version : Nat := 0
  partVer : NMap Nat := []
  machineId : Nat := 0
  /-- key slots: the 48 bytes programmed -/
  keys : NMap (List Byte) := []
  revoked : List Nat := []
  svFloor : Nat := 0
  rejectInfo : Nat := 0xFFFFFFFF
  /-- a partial commit has begun at a wrap and is not complete (R97) -/
  due : Bool := false
  deriving DecidableEq, Repr

end Sys2Proof.Machine
end

