-- ==== Sys2Proof/Machine/Units/Engines.lean ====
section
/-! DEFINITION. State of the DMA channels and XPC slots, and of the tiles. -/
namespace Sys2Proof.Machine

/-- DMA channel states (Table 8.4). -/
inductive ChState where
  | idle | fetch | wait | run | stopped
  deriving DecidableEq, Repr

/-- A descriptor (Table 8.1). -/
structure Desc where
  op : Nat
  flags : Nat
  dtype : Nat
  aux : Nat
  s : Nat
  d : Nat
  src : Nat
  dst : Nat
  length : Nat
  p0 : Nat
  p1 : Nat
  p2 : Nat
  p3 : Nat
  waitRef : Nat
  signalRef : Nat
  waitTarget : Nat
  next : Nat
  deriving DecidableEq, Repr, Inhabited

/-- What a channel works for: a chain of descriptors, one MOVE of a host command, an item of a fetch stream, an
eviction route, or a MOVE of the serving machinery. -/
inductive Work where
  | chain
  | hostMove (fn tag : Nat)
  | leg (part entry : Nat) (back : Bool)
  | park (part req page : Nat) (back : Bool)
  | piece (part model idx : Nat)
  | handover (req page : Nat)
  deriving DecidableEq, Repr

/-- Progress of the transfer: nothing moved yet, requests outstanding on the fabric, its last write acknowledged, or
its SIGNAL sent to another device and unacknowledged (R294). -/
inductive XferState where
  | none | pending | done | signalling
  deriving DecidableEq, Repr

/-- A DMA channel. -/
structure Chan where
  st : ChState := .idle
  work : Work := .chain
  desc : Desc := default
  cur : Nat := 0
  err : Nat := 0
  errAddr : Nat := 0
  done : Nat := 0
  cmp : Nat := 0xFFFFFFFFFFFFFFFF
  fault : Nat := 0
  hops : Nat := 0
  limit : Nat := 0
  /-- address of the descriptor being fetched -/
  fetchAddr : Nat := 0
  /-- phase points S and D (R219, R61) -/
  startAt : Option Nat := none
  deadline : Option Nat := none
  startReached : Bool := false
  waitDone : Bool := false
  late : Bool := false
  /-- flight slot and bays held -/
  slot : Option Nat := none
  bays : Nat := 0
  /-- XPC table slots held, and whether it waits for one (R203, R204) -/
  xpcSlots : Nat := 0
  xpcWait : Bool := false
  xfer : XferState := .none
  /-- code, address and attempts of a retryable failure being retried (R134) -/
  retry : Option (Nat × Nat × Nat) := none
  /-- holding being moved -/
  moving : Option Nat := none
  /-- fabric pieces outstanding (R235, R340) -/
  pieces : List Nat := []
  /-- bytes that have come over the fabric, by range × 2^40 + offset; ranges 0 SRC, 1 DST (COMPARE), 2 index list -/
  buf : NMap (List Byte) := []
  deriving DecidableEq, Repr, Inhabited

/-- The DMA complexes. -/
structure Dma where
  /-- by complex × 64 + channel -/
  chans : NMap Chan := []
  /-- routes waiting for a service channel: (complex, holding), in the order of their START (R215) -/
  routeQ : List (Nat × Nat) := []
  deriving DecidableEq, Repr

/-- Context states (Table 9.6). -/
inductive CtxState where
  | idle | run | wait | fault
  deriving DecidableEq, Repr

/-- Why a context is in WAIT: a cairn, or the phase point of a PHASE word. -/
inductive CtxWait where
  | none
  | cairn
  | phase
  deriving DecidableEq, Repr

/-- A tile context. -/
structure Ctx where
  st : CtxState := .idle
  pc : Nat := 0
  scaler : Bool := false
  late : Bool := false
  err : Nat := 0
  errPc : Nat := 0
  keySel : Nat := 0
  ctr : Nat := 0
  /-- mask step latched by the last KEYSET or Scaler issue (R325) -/
  maskStep : Nat := 0
  wait : CtxWait := .none
  startAt : Option Nat := none
  deadline : Option Nat := none
  /-- lane generators: the seed and stream value of the last SRSET, and the draws since (R261) -/
  seed : Option (Nat × Nat) := none
  draws : Nat := 0
  /-- vector registers written since reset: 512 lanes each -/
  vregs : NMap (List Nat) := []
  /-- writes posted and not yet performed, oldest first (R268, R269) -/
  posted : List (Nat × List Byte) := []
  /-- the ledger entry whose recorded segment it runs, and the end of the segment body (R173) -/
  seg : Option (Nat × Nat × Nat) := none
  deriving DecidableEq, Repr, Inhabited

/-- A weight bank: format and 128 × 512 elements, row by row; empty before its first WLOAD. -/
structure Bank where
  fmt : Nat := 0
  w : List Nat := []
  deriving DecidableEq, Repr, Inhabited

/-- An accumulator row (R250); an unlisted row is EMPTY. Exact entries hold X and flags, compensated ones (s, c). -/
inductive AccRow where
  | exact (es : List (Int × Nat))
  | comp (es : List (Nat × Nat))
  deriving DecidableEq, Repr

/-- A tile. -/
structure TileSt where
  ctxs : NMap Ctx := []
  banks : NMap Bank := []
  acc : NMap AccRow := []
  deriving DecidableEq, Repr, Inhabited

end Sys2Proof.Machine
end

