-- ==== Sys2Proof/Machine/Units/Media.lean ====
section
/-! DEFINITION. State of the intake unit and of the stream alignment unit. -/
namespace Sys2Proof.Machine

/-- An NVMe controller; states as in INT_CTRL_STATE (Table 16.10). -/
structure Ctrl where
  st : Nat
  /-- I/O queue pairs created -/
  queues : Nat := 0
  /-- consecutive command timeouts -/
  tmo : Nat := 0
  /-- intake link it lies behind -/
  link : Nat := 0
  deriving DecidableEq, Repr, Inhabited

/-- An entry of the namespace table (R433, R434). -/
structure NsEntry where
  ctrl : Nat
  nsid : Nat
  lba : Nat
  cap : Nat
  owner : Nat := 0
  deriving DecidableEq, Repr

/-- Progress of a Read of a job. -/
inductive ReadState where
  | unissued | outstanding | gap | done
  deriving DecidableEq, Repr

/-- A Read (R450). -/
structure NvmeRead where
  lba : Nat
  count : Nat
  st : ReadState := .unissued
  queue : Nat := 0
  tries : Nat := 0
  data : List Byte := []
  deriving DecidableEq, Repr

/-- Fields of an intake job (Table 16.3). -/
structure JobRec where
  op : Nat
  flags : Nat
  codec : Nat
  outfmt : Nat
  ns : Nat
  pcm : Nat
  offset : Nat
  slba : Nat
  length : Nat
  extents : Nat
  param : Nat
  outRate : Nat
  dst : Nat
  work : Nat
  dstLen : Nat
  workLen : Nat
  s : Nat
  d : Nat
  signal : Nat
  deriving DecidableEq, Repr, Inhabited

/-- How far a job in flight has come: it waits for its start phase, for an engine, or runs. -/
inductive JobStage where
  | start | engine | run
  deriving DecidableEq, Repr

/-- A job in flight. -/
structure IJob where
  part : Nat
  num : Nat
  rec_ : JobRec
  ctrl : Nat
  stage : JobStage := .start
  /-- number of the taking, for the order of engines -/
  order : Nat
  startAt : Option Nat := none
  deadline : Option Nat := none
  late : Bool := false
  reads : List NvmeRead := []
  deriving DecidableEq, Repr

/-- The intake unit. -/
structure Intake where
  ctrls : NMap Ctrl := []
  ns : List NsEntry := []
  links : Nat := 0
  /-- an enumeration is going on -/
  scanning : Bool := false
  /-- BIFURCATE as of the last enumeration (R430) -/
  bifurcate : Nat := 0
  jobs : List IJob := []
  nextOrder : Nat := 0
  /-- jobs taken, and DONE additions made, by partition -/
  taken : NMap Nat := []
  done : NMap Nat := []
  /-- jobs ended whose DONE addition waits for an earlier one -/
  ended : List (Nat × Nat) := []
  deriving DecidableEq, Repr

/-- A stream of a group (Table 17.2) with its tables. -/
structure AlnStream where
  kind : Nat
  channels : Nat
  width : Nat
  height : Nat
  firstPts : Int
  period : Nat
  ready : Nat
  src : Nat
  retain : Nat
  offsets : List (Int × Int)
  /-- FP32 patterns H, CX, CY, RINV, C -/
  geom : List Nat
  deriving DecidableEq, Repr, Inhabited

/-- A group (Table 17.1). -/
structure Group where
  /-- 0 IDLE, 1 RUNNING, 2 STOPPED -/
  st : Nat := 0
  part : Nat := 0
  refine_ : Bool := false
  ref : Nat := 0
  cw : Nat := 0
  ch : Nat := 0
  t0 : Int := 0
  period : Nat := 0
  rate : Nat := 0
  audioN : Nat := 0
  frames : Nat := 0
  step : Nat := 0
  out : Nat := 0
  slots : Nat := 0
  drift : Nat := 0
  streams : List AlnStream := []
  tick : Nat := 0
  /-- READY values sampled by the tick in progress -/
  ready : Option (List Nat) := none
  stopping : Bool := false
  shifts : List (Int × Int) := []
  deriving DecidableEq, Repr, Inhabited

/-- The stream alignment unit. -/
structure Align where
  groups : NMap Group := []
  /-- ticks ended, by group -/
  ticks : NMap Nat := []
  deriving DecidableEq, Repr

end Sys2Proof.Machine
end

