-- ==== Sys2Proof/Machine/Units/Memory.lean ====
section
/-! DEFINITION. State of the pool, the lower tiers, the Scaler ledger and the Scaler at run time. -/
namespace Sys2Proof.Machine

/-- Who made a holding (R162): host software, the Scaler for a ledger entry, SRV for a page of a request, for a page of
the prefix tree, or for a model piece. -/
inductive HoldBy where
  | host
  | raw (entry : Nat)
  | coded (entry : Nat)
  | page (req : Nat)
  | tree (model : Nat)
  | piece (model : Nat)
  deriving DecidableEq, Repr

/-- A holding of the home table (R114, Table 4.4). State codes are those of Table 4.4. -/
structure Holding where
  owner : Nat
  hint : Nat := 0
  state : Nat := 1
  base : Nat
  /-- 64 KiB units -/
  size : Nat
  /-- (step, phase) of the last touch as one count of pu (R124) -/
  touch : Int := 0
  by_ : HoldBy := .host
  /-- reserved destination of a MOVE in progress (R116) -/
  dest : Option Nat := none
  /-- bytes of an XPC object when it is coded (0: raw) -/
  objLen : Nat := 0
  /-- DTYPE for packing: of a ledger entry or a KV page; 0 when opaque -/
  dtype : Nat := 0
  /-- raw bytes of a coded holding's content -/
  rawLen : Nat := 0
  /-- units of the reserved destination, where they differ from `size` -/
  destSize : Nat := 0
  /-- a KV page of an admitted generation slot (R126) -/
  gen : Bool := false
  deriving DecidableEq, Repr, Inhabited

/-- A range reserved without a holding: a plan's arena (R160), or a destination reserved for another device (R116). -/
structure Reserve where
  part : Nat
  base : Nat
  size : Nat
  /-- true for an arena of the plan in force, false for a remote reservation -/
  arena : Bool
  /-- bytes of a remote reservation still to be written -/
  left : Nat := 0
  /-- a range reserved for a piece of a model (R367) -/
  model : Bool := false
  deriving DecidableEq, Repr

/-- One instance of FSM 0x01 (R156): a victim, its state, the route that CLASSIFY recorded, and where it goes. -/
structure Evict where
  hold : Nat
  st : Nat
  route : Nat := 0
  dest : Option Nat := none
  /-- an event to be applied in the next clk (Table 5.8, CLASSIFY) -/
  pend : Option Nat := none
  /-- the allocation it is to serve -/
  alloc : Nat
  deriving DecidableEq, Repr

/-- Who asked for an allocation that waits for victims or for capacity (R126, R127). -/
inductive AllocBy where
  | host (fn tag : Nat)
  | leg (part entry : Nat)
  deriving DecidableEq, Repr

/-- An allocation that waits. -/
structure AllocWait where
  id : Nat
  by_ : AllocBy
  part : Nat
  tier : Nat
  /-- required base, or 0 -/
  addr : Nat
  stack : Nat
  size : Nat
  hint : Nat
  deriving DecidableEq, Repr

/-- The pool and the lower tiers (R103 to R135). -/
structure Tier where
  holdings : NMap Holding := []
  reserves : List Reserve := []
  /-- freed ranges that keep a tag: base, size in 64 KiB units, partition that released them (R120) -/
  tags : List (Nat × Nat × Nat) := []
  /-- published capacity of the two Foothill ports in GiB (R130) -/
  fhCap : NMap Nat := []
  /-- CXL ports whose link is down or retraining -/
  fhDown : List Nat := []
  evict : List Evict := []
  /-- victims waiting for one of the 256 instances -/
  evictQueue : List (Nat × Nat) := []
  waits : List AllocWait := []
  nextAlloc : Nat := 0
  deriving DecidableEq, Repr

/-- A ledger entry (Table 5.2). -/
structure LEntry where
  tensor : Nat
  kind : Nat
  flags : Nat
  disp : Nat
  hint : Nat
  dtype : Nat
  owner : Nat
  stage : Nat
  mbatch : Nat
  consumer : Nat
  size : Nat
  produce : Nat
  first : Nat
  last : Nat
  input : Nat
  work : Nat
  ctr : Nat
  use : Nat
  seg : Nat
  segLen : Nat
  key : Nat
  stream : Nat
  deriving DecidableEq, Repr, Inhabited

/-- A plan word (R151). -/
structure PlanWord where
  disp : Nat := 1
  overridden : Bool := false
  fixed : Bool := false
  tier : Nat := 1
  lead : Nat := 0
  deriving DecidableEq, Repr, Inhabited

/-- A plan: the ledger it was made from and its words. -/
structure Plan where
  id : Nat
  mode : Nat
  sendTier : Nat
  start : Nat
  /-- PERIOD its costs were converted with (R144) -/
  period : Nat
  entries : List LEntry
  words : List PlanWord
  deriving DecidableEq, Repr

/-- What the registers show of a partition's last pass (Table 5.12). -/
structure PassInfo where
  peak : Nat := 0
  keep : Nat := 0
  pack : Nat := 0
  send : Nat := 0
  sendPack : Nat := 0
  regrow : Nat := 0
  overrides : Nat := 0
  words : List PlanWord := []
  deriving DecidableEq, Repr

/-- Ledger states (Table 5.4). -/
inductive LedgerState where
  | idle | planning | planned | failed | dryDone
  deriving DecidableEq, Repr

/-- The ledger of one partition (R136 to R155). -/
structure Ledger where
  st : LedgerState := .idle
  dry : Bool := false
  /-- the ledger read at SUBMIT or DRY_RUN, while the pass runs -/
  bytes : List Byte := []
  /-- period in force at SUBMIT (R144) -/
  period : Nat := 0
  planned : Option Plan := none
  inForce : Option Plan := none
  /-- the plan it replaced, whose CARRY entries run out (R143) -/
  old : Option Plan := none
  withdraw : Bool := false
  pass : PassInfo := {}
  deriving DecidableEq, Repr, Inhabited

/-- Progress of a leg of an entry. -/
inductive LegState where
  | none | waiting | queued | running | done
  deriving DecidableEq, Repr

/-- What an entry of a plan is doing between its production and its last use (R160 to R184). -/
structure Run where
  /-- step it was produced in -/
  step : Nat := 0
  disp : Nat := 1
  tier : Nat := 1
  lead : Nat := 0
  raw : Option Nat := none
  rest : Option Nat := none
  out : LegState := .none
  back : LegState := .none
  outReady : Bool := false
  outAdded : Bool := false
  inReady : Bool := false
  inAdded : Bool := false
  inPlace : Bool := false
  /-- the item ended with an error -/
  failed : Bool := false
  late : Bool := false
  /-- it runs REGROW because its source was damaged (R181) -/
  fallback : Bool := false
  closed : Bool := false
  /-- the allocation of its outbound leg waits (R179), and the tier it waits for -/
  pressure : Bool := false
  /-- failures after which the item has been reissued (R236) -/
  tries : Nat := 0
  /-- code of an outbound leg that lost the raw holding: the fetch-back meets it (R181) -/
  broken : Nat := 0
  /-- it waits SCL_TIER_RETRY.GAP before it is reissued (R236) -/
  gap : Bool := false
  deriving DecidableEq, Repr, Inhabited

/-- A page of a parked conversation. -/
structure ParkPage where
  hold : Nat
  parked : Bool := false
  /-- a park MOVE or a MOVE back is in progress -/
  moving : Bool := false
  failedWindow : Bool := false
  deriving DecidableEq, Repr

/-- A conversation in the park table (R185 to R191). -/
structure Parked where
  part : Nat
  req : Nat
  expiry : Nat
  pages : List ParkPage
  resuming : Bool := false
  /-- stack its pages return to: that of the slot its request resumes in -/
  stack : Nat := 0xFF
  deriving DecidableEq, Repr

/-- The Scaler. -/
structure Scaler where
  ledgers : NMap Ledger := []
  /-- by partition × 131,072 + entry; a CARRY entry of the plan that was replaced counts from entry 65,536 -/
  runs : NMap Run := []
  /-- REGROW time used, in pu, by step × 32 + tile (R177) -/
  regrowUsed : NMap Nat := []
  park : List Parked := []
  /-- holdings to be freed when the MOVE they are in completes (R190) -/
  dying : List Nat := []
  deriving DecidableEq, Repr

end Sys2Proof.Machine
end

