-- ==== Sys2Proof/Machine/Units/Platform.lean ====
section
/-! DEFINITION. State of the host interface, power and clocks, bring-up, and the sideband ports. -/
namespace Sys2Proof.Machine

/-- A command entry taken from a command ring and not yet completed (R472, R479). -/
structure Taken where
  tag : Nat
  op : Nat
  bytes : List Byte
  deriving DecidableEq, Repr

/-- A ready completion entry (Table 18.7) without its phase and step, which are those of its writing. `own` is true
when it uses a command's reservation. -/
structure Cpl where
  tag : Nat
  kind : Nat
  result : Nat := 0
  detail : Nat := 0
  code : Nat := 0
  aux : Nat := 0
  v32 : Nat := 0
  v64 : Nat := 0
  own : Bool := true
  /-- its writing frees the request record that `v64` names (R363) -/
  frees : Bool := false
  deriving DecidableEq, Repr

/-- Rings of one PCIe function (R471 to R477). The enables stand in HIF_RING_CTRL. -/
structure HostFn where
  cmdHead : Nat := 0
  cmdTail : Nat := 0
  cplHead : Nat := 0
  cplTail : Nat := 0
  cplPhase : Bool := true
  strHead : Nat := 0
  strTail : Nat := 0
  strPhase : Bool := true
  /-- completion entries reserved by commands taken -/
  reserved : Nat := 0
  /-- commands taken and not yet carried out, in order of taking -/
  taken : List Taken := []
  ready : List Cpl := []
  streamWait : Bool := false
  deriving DecidableEq, Repr, Inhabited

/-- A granted Valley window (R487); the function is that of HIF_WIN_FUNC at the grant. -/
structure Window where
  fn : Nat
  bus : Nat
  /-- 2 MiB units -/
  size : Nat
  deriving DecidableEq, Repr

/-- The host port. -/
structure Hif where
  fns : NMap HostFn := []
  windows : NMap Window := []
  /-- windows being revoked: window, function and tag that the completion answers, if any -/
  revoking : List (Nat × Nat × Option Nat) := []
  /-- the host's NumVFs setting (R465) -/
  numVfs : Nat := 8
  linkUp : Bool := false
  rate : Nat := 0
  width : Nat := 0
  /-- HIF_EVENT and HIF_BLOCK_EVENT as they stood when the event vector was last judged (R486) -/
  seenEvents : Nat := 0
  deriving DecidableEq, Repr

/-- Power states (Table 19.4); `keepPending` is DOZE with a KEEP requested and no L2 yet (R500). -/
inductive PwrState where
  | run | idle | doze | keepPending | keep | off | tripped
  deriving DecidableEq, Repr

/-- The resume record (R512). -/
structure Resume where
  digest : List Byte
  parts : List Nat
  step : Nat
  phase : Nat
  byCommand : Bool
  deriving DecidableEq, Repr

/-- Power, clocks, retention and bring-up (R489 to R526). -/
structure Pwr where
  st : PwrState := .run
  /-- domains on, as DOMAINS (Table 3.7) -/
  domains : Nat := 0x1000000000000
  /-- domains switching on -/
  rising : Nat := 0
  mainPg : Bool := true
  vbakMv : Nat := 0
  vbakLow : Bool := false
  /-- THERM_TRIP_N is driven low -/
  tripLow : Bool := false
  /-- present readings by sensor, 1/16 degree, and whether the reading before was 115 degrees or more -/
  temps : NMap (Int × Bool) := []
  tempPeak : Option (Nat × Int) := none
  /-- retention-void marker in MRAM -/
  marker : Bool := false
  resume : Option Resume := none
  /-- a resume record found by the ROM and not yet settled by a first image -/
  warm : Option Resume := none
  /-- the last KEEP was entered by command with main present -/
  keepByCmd : Bool := false
  /-- stacks in self-refresh -/
  selfRefresh : Nat := 0
  /-- clk of entry to KEEP -/
  keepFrom : Option Nat := none
  keepMs : Nat := 0
  /-- partitions with a partial image committed since the full image in force -/
  partialParts : List Nat := []
  /-- modulation depth and frequency in force per spread group, as PWR_SSC -/
  sscInForce : NMap Nat := []
  perst : Bool := true
  stage : Nat := 0
  startKind : Nat := 0
  source : Nat := 0
  bootCode : Nat := 0
  bootFault : Nat := 0
  badTiles : Nat := 0
  badStacks : Nat := 0
  resumeStep : Nat := 0
  bootFrom : Nat := 0
  bootUs : Option Nat := none
  linksDown : Nat := 0
  straps : Option Nat := none
  /-- a trip happened before this start -/
  trippedBefore : Bool := false
  deriving DecidableEq, Repr

/-- JTAG instructions (R556). -/
inductive JtagInstr where
  | bypass | idcode | samplePreload | extest | highz | clamp | debug
  deriving DecidableEq, Repr

/-- The sideband ports: JTAG instruction and data registers, and the pads (R553 to R556). -/
structure Side where
  ir : JtagInstr := .idcode
  /-- bypass register -/
  bypassBit : Bool := false
  /-- boundary scan cells, one per covered ball: captured input levels and preloaded output levels -/
  captured : BitVec 26 := 0
  cells : BitVec 26 := 0
  /-- outputs driven from the cells (EXTEST, CLAMP), or all in high impedance (HIGHZ) -/
  fromCells : Bool := false
  hiZ : Bool := false
  /-- last value shifted out of the selected data register -/
  tdo : W64 := 0
  /-- CAD_OUT edge level in force, which changes at a comma (R553, R563) -/
  cadEdge : Nat := 0
  /-- the four bytes of the last I2C read, or none when a byte was not acknowledged -/
  i2cData : Option W32 := none
  i2cNack : Bool := false
  deriving DecidableEq, Repr

end Sys2Proof.Machine
end

