-- ==== Sys2Proof/Machine/Units/Serving.lean ====
section
/-! DEFINITION. State of the serving unit, the prefix tree's bookkeeping and admission. -/
namespace Sys2Proof.Machine

/-- How far a request has come: the states of Table 13.8, as the actions of FSM 0x03 set them. -/
inductive Stage where
  | queued | delayed | prefill | handover | generating | paused | resuming | ended
  deriving DecidableEq, Repr

/-- A sampling block (Table 14.4); FP32 fields as patterns. -/
structure Sampling where
  temp : Nat := 0
  topP : Nat := 0
  rep : Nat := 0
  presence : Nat := 0
  freq : Nat := 0
  topK : Nat := 0
  specK : Nat := 0
  draft : Nat := 0xFF
  flags : Nat := 0
  maxNew : Nat := 1
  seed : Nat := 0
  stop : List Nat := []
  deriving DecidableEq, Repr, Inhabited

/-- A page-table entry as SRV keeps it (Table 14.2). -/
structure KvPage where
  /-- 1 owned, 2 shared, 3 parked -/
  kind : Nat := 1
  hold : Nat
  node : Nat := 0xFFFFFFFF
  /-- the chunk that writes its last token has completed -/
  done : Bool := false
  /-- an insertion into the tree is still to be decided -/
  pend : Bool := false
  handed : Bool := false
  deriving DecidableEq, Repr

/-- A request record (R363). -/
structure Req where
  part : Nat
  tag : Nat
  /-- state of FSM 0x03 -/
  st : Nat := 0
  stage : Stage := .queued
  model : Nat
  account : Nat
  plen : Nat
  paddr : Nat
  samp : Sampling
  /-- number of the submission, which tells apart successive users of a record and gives the order of arrival -/
  serial : Nat
  slot : Option Nat := none
  /-- number of the ADMIT, which orders walks and chunks -/
  admitted : Nat := 0
  walked : Bool := false
  started : Bool := false
  /-- next position to prefill -/
  next : Nat := 0
  streamed : Nat := 0
  lastTok : Nat := 0
  hold : Option Nat := none
  cap : Nat := 0
  commit : Nat := 0
  pages : NMap KvPage := []
  dpages : NMap KvPage := []
  joined : Bool := false
  lastReason : Nat := 0
  notified : Option Nat := none
  noticeStep : Nat := 0
  delayedFrom : Option Nat := none
  /-- a RESUME command that its resume completion answers: function and tag -/
  resumeCmd : Option (Nat × Nat) := none
  deriving DecidableEq, Repr

/-- An outstanding prefill entry (R374). -/
structure Chunk where
  req : Nat
  serial : Nat
  first : Nat
  tokens : Nat
  last : Bool
  deriving DecidableEq, Repr

/-- A piece of a model (Table 13.2) and whether it lies in its Slope range. -/
structure PieceSt where
  slope : Nat
  rest : Nat
  size : Nat
  hold : Nat
  inSlope : Bool
  deriving DecidableEq, Repr

/-- A model; states as in Table 13.3. -/
structure Model where
  state : Nat := 0
  auto : Bool := false
  stay : Bool := false
  kvBytes : Nat := 0
  maxContext : Nat := 0
  vocab : Nat := 0
  pieces : List PieceSt := []
  deriving DecidableEq, Repr, Inhabited

/-- A queued swap. -/
structure SwapReq where
  model : Nat
  out : Bool
  auto : Bool
  deriving DecidableEq, Repr

/-- The swap under way (R368). -/
structure SwapRun where
  model : Nat
  out : Bool
  displaced : List Nat
  /-- pieces of the present direction still to be started -/
  todo : List (Nat × Nat)
  /-- pieces being moved -/
  flying : List (Nat × Nat) := []
  bringing : Bool := false
  deriving DecidableEq, Repr

/-- An entry of the present generation list. -/
structure GenEntry where
  slot : Nat
  req : Nat
  serial : Nat
  deriving DecidableEq, Repr

/-- The serving side of a partition. -/
structure SrvPart where
  models : NMap Model := []
  swaps : List SwapReq := []
  swap : Option SwapRun := none
  /-- prefill entries written so far -/
  written : Nat := 0
  out : List Chunk := []
  /-- value of the PDONE cairn up to which entries have been completed -/
  pdSeen : Nat := 0
  /-- requests still to be offered a chunk in this step, in order, by (record, serial) -/
  offers : List (Nat × Nat) := []
  promptLeft : Nat := 0
  promptStop : Bool := false
  list : List GenEntry := []
  toSample : Bool := false
  evalDue : Bool := false
  /-- ADM_KV_LIMIT as latched at the last evaluation (R415, R423) -/
  kvNow : Nat := 0
  walks : List (Nat × Nat) := []
  /-- insertions to be made: record, serial and page -/
  inserts : List (Nat × Nat × Nat) := []
  /-- tree nodes in use, with the model of each -/
  nodes : NMap Nat := []
  deriving DecidableEq, Repr, Inhabited

/-- An account of a partition (R408, Table 15.7). -/
structure Acct where
  rate : Nat := 0
  burst : Nat := 0
  hard : Nat := 0
  /-- HARD as latched at the last evaluation -/
  hardNow : Nat := 0
  balance : Int := 0
  spent : Nat := 0
  deficit : Nat := 0
  last : Nat := 0
  admitted : Nat := 0
  delayed : Nat := 0
  refused : Nat := 0
  deriving DecidableEq, Repr, Inhabited

/-- What a request that has ended or paused still holds (R377, R382). -/
structure Leftover where
  part : Nat
  serial : Nat
  slot : Option Nat
  /-- holdings with the page each holds -/
  pages : List (Nat × Nat)
  /-- pages named in the tree: model, node and holding -/
  shared : List (Nat × Nat × Nat)
  hold : Option Nat
  commit : Nat
  /-- it is released at the next wrap, not before -/
  atWrap : Bool
  deriving DecidableEq, Repr

/-- The serving unit. -/
structure Srv where
  reqs : NMap Req := []
  nextSerial : Nat := 0
  nextAdmit : Nat := 0
  parts : NMap SrvPart := []
  /-- by partition × 4,096 + account -/
  accts : NMap Acct := []
  left : List Leftover := []
  deriving DecidableEq, Repr

end Sys2Proof.Machine
end

