-- ==== Sys2Proof/Machine/Units/Sync.lean ====
section
/-! DEFINITION. State of the cairns, their waits and host watches, and of the Nynal ports and end-to-end delivery. -/
namespace Sys2Proof.Machine

/-- A registered wait. `fired` is true from the end of the clk in which its condition held (R281). -/
structure Wait where
  who : Waiter
  ref : Nat
  target : Nat
  part : Nat
  fired : Bool
  deriving DecidableEq, Repr

/-- What a host watch took at arming (R291). -/
structure HostWatch where
  vector : Nat
  mirror : Option Nat
  fn : Nat
  deriving DecidableEq, Repr

/-- The cairns by local index (Table 10.4), unlisted ones at 0. -/
structure CairnUnit where
  vals : NMap Nat := []
  waits : List Wait := []
  watches : NMap HostWatch := []
  deriving DecidableEq, Repr

/-- Who issued an add, as the tally counts sources (Table 21.3). -/
inductive AddSrc where
  | dma (d n : Nat)
  | program (t c : Nat)
  | host
  | scaler
  | hardware
  deriving DecidableEq, Repr

/-- What an outstanding fabric request is for. -/
inductive Purpose where
  | signal (part : Nat) (src : AddSrc)
  | read (d n piece : Nat)
  | write (d n piece : Nat)
  | reserve (d n : Nat)
  | coll (entry : Nat)
  deriving DecidableEq, Repr

/-- A fabric packet (Table 12.6): header fields and data bytes. -/
structure Packet where
  dst : Nat := 0
  src : Nat := 0
  op : Nat := 0
  alt : Bool := false
  seq : Nat := 0
  status : Nat := 0
  addr : Nat := 0
  rtag : Nat := 0
  aux : Nat := 0
  /-- LENGTH of a READ_REQ or RESERVE, which carry no data -/
  want : Nat := 0
  data : List Byte := []
  deriving DecidableEq, Repr, Inhabited

/-- A request kept until it is answered (R340). -/
structure FabReq where
  pkt : Packet
  purpose : Purpose
  resends : Nat := 0
  deriving DecidableEq, Repr

/-- A frame waiting to be sent, or kept in the retry buffer with its SEQ. -/
structure TxFrame where
  kind : Nat
  vc : Nat
  payload : List Byte
  deriving DecidableEq, Repr

/-- A Nynal port (R332 to R335). -/
structure Port where
  /-- 0 DISABLED, 1 DOWN, 2 TRAINING, 3 UP -/
  st : Nat := 0
  standby : Bool := false
  peerId : Nat := 0
  peerPort : Nat := 0
  /-- frames waiting, by VC -/
  txq : NMap (List TxFrame) := []
  nextSeq : Nat := 0
  retry : List (Nat × TxFrame) := []
  /-- resends of the oldest unacknowledged frame -/
  resends : Nat := 0
  /-- frames of the retry buffer that are being sent again -/
  resendQ : List (Nat × TxFrame) := []
  rxNext : Nat := 0
  /-- credits left, by VC (256 when the link comes UP) -/
  credits : NMap Nat := []
  /-- credits to return, by VC -/
  owed : NMap Nat := []
  /-- position in the cycle of 16 slots -/
  slot : Nat := 0
  /-- bytes of the packet being received, and frames used, by VC -/
  part : NMap (List Byte) := []
  /-- whole packets in the receive store, by VC, oldest first, with the frames each holds -/
  store : NMap (List (Packet × Nat)) := []
  deriving DecidableEq, Repr, Inhabited

/-- Ports and end-to-end delivery. -/
structure Fabric where
  ports : NMap Port := []
  reqs : List FabReq := []
  nextRtag : Nat := 0
  /-- next E2E_SEQ per destination -/
  nextSeq : NMap Nat := []
  /-- E2E_SEQ to be applied next, per source -/
  expect : NMap Nat := []
  reorder : List Packet := []
  /-- links that notices or the own ports say are not UP: (device, port) -/
  downLinks : List (Nat × Nat) := []
  /-- answers of non-repeatable requests, by source × 65,536 + E2E_SEQ, for duplicates (R339) -/
  answered : NMap Packet := []
  /-- SPR_SEL and SPR_SEL_EN -/
  sprSel : Option Nat := none
  assumed : Bool := false
  deriving DecidableEq, Repr

end Sys2Proof.Machine
end

