-- ==== Sys2Proof/Machine/Units/Training.lean ====
section
/-! DEFINITION. State of the update units and of the training side of a partition. -/
namespace Sys2Proof.Machine

/-- States of an update unit (UPD_STATUS.STATE). -/
inductive UnitState where
  | idle | armed | running | halted
  deriving DecidableEq, Repr

/-- A job (Table 11.1). -/
structure Job where
  op : Nat
  flags : Nat
  gfmt : Nat
  wfmt : Nat
  mfmt : Nat
  hset : Nat
  wscale : Nat
  count : Nat
  s : Nat
  d : Nat
  p : Nat
  g : Nat
  m : Nat
  v : Nat
  w : Nat
  waitRef : Nat
  signalRef : Nat
  waitTarget : Nat
  deriving DecidableEq, Repr, Inhabited

/-- What the unit does with its current job: waits for eligibility, runs its check pass, or its apply pass. -/
inductive JobPass where
  | none | waiting | check | apply
  deriving DecidableEq, Repr

/-- What a run latches at its opening (R300), as FP32 patterns; `hp` holds LR, EPS, WD and CLIP of each set. -/
structure Hyper where
  hp : List (Nat × Nat × Nat × Nat) := []
  b1 : Nat := 0
  b2 : Nat := 0
  pow1 : Nat := 0
  pow2 : Nat := 0
  /-- loss-scale exponent as UPD_LS_EXP holds it -/
  exp : Nat := 0
  deriving DecidableEq, Repr, Inhabited

/-- An update unit. -/
structure UpdUnit where
  st : UnitState := .idle
  /-- DISARM written while a run is open (R299) -/
  disarm : Bool := false
  job : Nat := 0
  cur : Job := default
  pass : JobPass := .none
  startReached : Bool := false
  waitDone : Bool := false
  startAt : Option Nat := none
  deadline : Option Nat := none
  late : Bool := false
  hyper : Hyper := {}
  /-- clip factor found by the check pass -/
  clip : Nat := 0x3F800000
  /-- a run of the unit was open in this step -/
  ran : Bool := false
  deriving DecidableEq, Repr, Inhabited

/-- The training side of a partition. -/
structure TrainPart where
  /-- step flag NF (R316) -/
  nf : Bool := false
  /-- the step has taken a step fault (R322) -/
  faulted : Bool := false
  /-- a job of the step was skipped as non-finite or by the gate -/
  skipped : Bool := false
  /-- a GATED apply pass has started in this step (R317) -/
  gatedStarted : Bool := false
  /-- GATE_BREACH has been raised in this step -/
  breached : Bool := false
  /-- clean count C -/
  clean : Nat := 0
  /-- SLOT_LEN in force (R327) -/
  grid : Nat := 0
  /-- the loss scale is to be mirrored in the clk after the wrap (R320) -/
  mirror : Bool := false
  deriving DecidableEq, Repr, Inhabited

/-- Training support. -/
structure Training where
  units : NMap UpdUnit := []
  parts : NMap TrainPart := []
  /-- UPD_KEY_ROTATE in force (R325) -/
  keyRotate : Nat := 0
  deriving DecidableEq, Repr

end Sys2Proof.Machine
end

