-- ==== Sys2Proof/Machine/State.lean ====
section
/-! DEFINITION. The state of the part, the reasons a step can stop, and the state after reset. -/
namespace Sys2Proof.Machine

/-- What the part gives to the outside: the order of the list is the order in which things were issued. -/
inductive Out where
  /-- a posted write to host memory: the issuing function, bus address, bytes (R468) -/
  | hostWrite (fn : Nat) (bus : Nat) (bytes : List Byte)
  /-- an MSI-X message of a device vector, from the function whose table sends it (R485) -/
  | msix (fn : Nat) (vector : Nat)
  /-- completion of an aperture read: function, 0 good, 1 Unsupported Request, 2 poisoned, and the data (R467) -/
  | aperture (fn : Nat) (status : Nat) (bytes : List Byte)
  /-- a frame driven on CAD_OUT: a valid one, or a comma followed by 17 K28.7 (R44) -/
  | cadFrame (bytes : List Byte) (valid : Bool)
  /-- a frame of 272 bytes sent by a Nynal port (R332) -/
  | fabFrame (port : Nat) (bytes : List Byte)
  /-- a notice of a port change, sent to a neighbour: port it leaves by, device and port concerned, UP (R337) -/
  | notice (port dev at_ : Nat) (up : Bool)
  deriving DecidableEq, Repr

/-- The whole part. -/
structure State where
  /-- commands waiting, first in, first out -/
  pending : List Instr := []
  /-- register values written since reset, by `RegName.key` -/
  regs : NMap W64 := []
  /-- lower halves read: the upper half latched for each path, with the register it belongs to (R6) -/
  latch : NMap (Nat × W32) := []
  /-- lower halves written: the value each path holds, with the register it belongs to (R6) -/
  held : NMap (Nat × W32) := []
  /-- what the last read of a register returned (RC_READ, LOWER_HALF_READ, UPPER_HALF_READ) -/
  readVal : W64 := 0
  /-- the bytes of Crest, Slope and Foothill by local address, in canonical form (Table 4.1) -/
  mem : List Host.Cell := []
  /-- time since reset in periods of 0.625 ns (R41) -/
  now : Nat := 0
  /-- the model's own: how many free numbers have been drawn from `Config.freeNat` -/
  free : Nat := 0
  /-- what has been given to the outside -/
  outs : List Out := []
  /-- change log, its staging buffer and ring (R526 to R533) -/
  log : LogUnit := {}
  /-- tally store (R534 to R536) -/
  tally : TallyUnit := {}
  /-- step phase, cadence receiver and master, HOLD_N (R36 to R75) -/
  cad : Cad := {}
  /-- image loader, image in force, keys (R76 to R102) -/
  img : Img := {}
  /-- host port, rings, commands, Valley windows (R465 to R488) -/
  hif : Hif := {}
  /-- power states, domains, retention, bring-up (R489 to R525) -/
  pwr : Pwr := {}
  /-- I2C target, JTAG, pads (R546 to R557) -/
  side : Side := {}
  /-- holdings, freed granules, eviction (R103 to R135, R156 to R159) -/
  tier : Tier := {}
  /-- ledgers, plans, runs of entries, parking (R136 to R191) -/
  scl : Scaler := {}
  /-- cairns, waits, host watches (R276 to R297) -/
  crn : CairnUnit := {}
  /-- Nynal ports, packets, end-to-end delivery (R329 to R341) -/
  fab : Fabric := {}
  /-- DMA channels (R213 to R239) -/
  dma : Dma := {}
  /-- tiles: contexts, banks, accumulators, by tile (R240 to R270) -/
  tiles : NMap TileSt := []
  /-- update units and loss scale (R298 to R328) -/
  upd : Training := {}
  /-- collective sequencer (R342 to R355) -/
  coll : Coll := {}
  /-- serving partitions, requests, models, accounts (R361 to R429) -/
  srv : Srv := {}
  /-- intake controllers, namespaces and jobs (R430 to R452) -/
  intake : Intake := {}
  /-- stream alignment groups (R453 to R464) -/
  aln : Align := {}
  deriving DecidableEq, Repr

/-- Why a step stops with a fault. Every command of the part goes on (an error it meets is recorded in its state), so
nothing raises one. -/
inductive Fault where
  /-- raised by no command; safe: it only keeps the type inhabited -/
  | never
  deriving DecidableEq, Repr

/-- Why a step is refused. -/
inductive Refusal where
  /-- raised by the arm of a command that has no meaning yet; safe: the run stops -/
  | notModelled (mnemonic : String)
  deriving DecidableEq, Repr

/-- The part with main power present and PERST_N asserted: the stage is RESET, every register reads its reset value, no
memory is listed, and nothing is in hand (R508, R510). -/
def State.reset : State := {}

end Sys2Proof.Machine
end

