-- ==== Sys2Proof/Machine/Ops.lean ====
section
/-! DEFINITION. Operations every family uses: registers, byte order, memory, the change log, the tally store, error
codes, events and outputs. -/
namespace Sys2Proof.Machine

/-! ### Bytes and fields -/

/-- Bits `hi` down to `lo` of `v` (R5). -/
def bits (v hi lo : Nat) : Nat := v / 2 ^ lo % 2 ^ (hi - lo + 1)

/-- Bit `i` of `v`. -/
def bit (v i : Nat) : Bool := v / 2 ^ i % 2 == 1

/-- `v` lies between `lo` and `hi`, both included. -/
def inRange (v lo hi : Nat) : Bool := decide (lo ≤ v) && decide (v ≤ hi)

def b2n (b : Bool) : Nat := if b then 1 else 0

/-- Little-endian value of a byte string (R5). -/
def leNat : List Byte → Nat
  | [] => 0
  | b :: bs => b.toNat + 256 * leNat bs

/-- The `n` low bytes of `v`, little-endian (R5). -/
def leBytes : Nat → Nat → List Byte
  | 0, _ => []
  | n + 1, v => BitVec.ofNat 8 v :: leBytes n (v / 256)

/-- Big-endian value of a byte string. -/
def beNat (bs : List Byte) : Nat := bs.foldl (fun a b => a * 256 + b.toNat) 0

/-- Bytes `o` to `o + n - 1` of a structure, zero beyond its end. -/
def slice (bs : List Byte) (o n : Nat) : List Byte :=
  let t := (bs.drop o).take n
  t ++ List.replicate (n - t.length) 0

/-- The little-endian field of `n` bytes at byte `o`. -/
def fieldAt (bs : List Byte) (o n : Nat) : Nat := leNat (slice bs o n)

/-- Every byte of the slice is zero. -/
def zeroAt (bs : List Byte) (o n : Nat) : Bool := (slice bs o n).all (· == 0)

/-- Two's complement reading of the low `w` bits. -/
def signed (w v : Nat) : Int :=
  let u := v % 2 ^ w
  if u < 2 ^ (w - 1) then (u : Int) else (u : Int) - (2 ^ w : Nat)

/-- Two's complement writing in `w` bits. -/
def unsignedOf (w : Nat) (v : Int) : Nat := (v % ((2 ^ w : Nat) : Int)).toNat

/-- Rounded-up division. -/
def ceilDiv (a b : Nat) : Nat := if b = 0 then 0 else (a + b - 1) / b

def alignUp (a n : Nat) : Nat := ceilDiv a n * n

/-- floor(log2) with 0 for 0. -/
def log2 (n : Nat) : Nat := Nat.log2 n

/-! ### CRCs -/

def crc32cBit (c : Nat) : Nat := if c % 2 = 1 then (c / 2) ^^^ 0x82F63B78 else c / 2

def crc32cByte (c : Nat) (b : Byte) : Nat :=
  crc32cBit (crc32cBit (crc32cBit (crc32cBit (crc32cBit (crc32cBit (crc32cBit (crc32cBit (c ^^^ b.toNat))))))))

/-- CRC-32C (Castagnoli), reflected, initial and final all-ones: the CRC of images, ledgers, log entries and XPC. -/
def crc32c (bs : List Byte) : Nat := (bs.foldl crc32cByte 0xFFFFFFFF) ^^^ 0xFFFFFFFF

def crc16Bit (c : Nat) : Nat := if c ≥ 0x8000 then ((c * 2) % 0x10000) ^^^ 0x1021 else (c * 2) % 0x10000

def crc16Byte (c : Nat) (b : Byte) : Nat :=
  crc16Bit (crc16Bit (crc16Bit (crc16Bit (crc16Bit (crc16Bit (crc16Bit (crc16Bit (c ^^^ (b.toNat * 256)))))))))

/-- CRC-16 of a phase frame: polynomial 0x1021, initial 0xFFFF, no reflection, no final XOR (Table 2.1). -/
def crc16 (bs : List Byte) : Nat := bs.foldl crc16Byte 0xFFFF

/-! ### Registers -/

/-- The number under which instance (i, j) of a register is held; one number per register instance. -/
def RegName.key (n : RegName) (i j : Nat) : Nat := (j * 65536 + i % 65536) * 512 + n.ctorIdx

/-- Reset value of instance (i, j): the tables' Reset column, and for the few registers whose reset is not one number
the text of their row (Tables 0.7, 9.7, 16.11, 16.12). -/
def RegName.resetOf (n : RegName) (i j : Nat) : W64 :=
  match n with
  | .hifSerial => Config.serial
  | .tilInfo => BitVec.ofNat 64 ((if i ≥ 16 then 0x100 else 0) + i)
  | .intCscM =>
    BitVec.ofNat 64 (match j with
      | 0 | 3 | 6 => 0x00010000
      | 2 => 0x000166E9
      | 4 => 0xFFFFA7E6
      | 5 => 0xFFFF492E
      | 7 => 0x0001C5A2
      | _ => 0)
  | .intCscO => BitVec.ofNat 64 (match j with | 0 => 0xFF4C8B80 | 1 => 0x00877600 | _ => 0xFF1D2F00)
  | .intRsCoef => (Config.rsCoef i).setWidth 64
  | _ => BitVec.ofNat 64 n.row.reset

/-- The value held in a register. -/
def State.rget (s : State) (n : RegName) (i : Nat := 0) (j : Nat := 0) : W64 :=
  NMap.getD s.regs (n.key i j) (n.resetOf i j)

/-- The value held in a register, as a number. -/
def State.rnat (s : State) (n : RegName) (i : Nat := 0) (j : Nat := 0) : Nat := (s.rget n i j).toNat

/-- Set a register (by hardware, or as the last act of an accepted write). -/
def State.rput (s : State) (n : RegName) (v : W64) (i : Nat := 0) (j : Nat := 0) : State :=
  { s with regs := NMap.put s.regs (n.key i j) v }

def State.rputN (s : State) (n : RegName) (v : Nat) (i : Nat := 0) (j : Nat := 0) : State :=
  s.rput n (BitVec.ofNat 64 v) i j

/-- Bit `b` of a register. -/
def State.rbit (s : State) (n : RegName) (b : Nat) (i : Nat := 0) (j : Nat := 0) : Bool := bit (s.rnat n i j) b

/-- Raise a bit of an EVENT register: hardware sets a W1C bit (R11). -/
def State.raise (s : State) (n : RegName) (b : Nat) (i : Nat := 0) : State :=
  s.rputN n (s.rnat n i ||| 2 ^ b) i

/-- Add to an RC counter, which wraps at its width as every counter the spec does not call saturating. -/
def State.count (s : State) (n : RegName) (k : Nat := 1) (i : Nat := 0) (j : Nat := 0) : State :=
  s.rputN n ((s.rnat n i j + k) % 2 ^ (if n.row.w64 then 64 else 32)) i j

/-! ### Memory: one byte per local device address (Table 23.1) -/

/-- What an address that nothing has written reads as: Crest is written to zero at every cold start (R513); for Slope
and Foothill the spec gives no content, and the model takes zero (DESIGN CHOICE, log entry 5, unsafe). -/
def Memory.unlisted (_addr : Nat) : Byte := 0

/-- The byte at a local address. -/
def Memory.read (m : List Host.Cell) (a : Nat) : Byte := NMap.getD m a (Memory.unlisted a)

/-- Write one byte, keeping the canonical form. -/
def Memory.write (m : List Host.Cell) (a : Nat) (b : Byte) : List Host.Cell :=
  if b = Memory.unlisted a then NMap.del m a else NMap.put m a b

/-- The canonical form: addresses strictly rising, no entry equal to what an unlisted address reads as. -/
def Memory.wf (m : List Host.Cell) : Bool := NMap.sorted m && m.all (fun e => decide (e.2 ≠ Memory.unlisted e.1))

/-- Write bytes at consecutive addresses, lowest first. -/
def Memory.writeList (m : List Host.Cell) (a : Nat) : List Byte → List Host.Cell
  | [] => m
  | b :: bs => Memory.writeList (Memory.write m a b) (a + 1) bs

/-- `n` bytes from consecutive addresses. -/
def Memory.readList (m : List Host.Cell) (a : Nat) : Nat → List Byte
  | 0 => []
  | n + 1 => Memory.read m a :: Memory.readList m (a + 1) n

/-- Set `n` bytes from `a` on to zero: only listed bytes need to go. -/
def Memory.zeroRange (m : List Host.Cell) (a n : Nat) : List Host.Cell :=
  m.filter (fun e => !(decide (a ≤ e.1) && decide (e.1 < a + n)))

def State.rd (s : State) (a n : Nat) : List Byte := Memory.readList s.mem a n
def State.rdNat (s : State) (a n : Nat) : Nat := leNat (s.rd a n)
def State.wr (s : State) (a : Nat) (bs : List Byte) : State := { s with mem := Memory.writeList s.mem a bs }
def State.wrNat (s : State) (a n v : Nat) : State := s.wr a (leBytes n v)
def State.zero (s : State) (a n : Nat) : State := { s with mem := Memory.zeroRange s.mem a n }

/-! ### Step phase -/

/-- Integer phase (R41). -/
def State.phaseInt (s : State) : Nat := s.cad.phase / 2 ^ 40
/-- Local (step, phase) as one 64-bit number (R61). -/
def State.stepPhase (s : State) : Nat := s.cad.step * 65536 + s.phaseInt

/-! ### Tally (R534, R535) -/

def State.tally1 (s : State) (id : Nat) (k : Nat := 1) : State :=
  { s with tally := { s.tally with acc := NMap.put s.tally.acc id (NMap.getD s.tally.acc id 0 + k) } }

/-- Counter or bin value, saturating at 2^64 - 1. -/
def State.tallyOf (s : State) (id : Nat) : Nat :=
  min (2 ^ 64 - 1) (NMap.getD s.tally.mram id 0 + NMap.getD s.tally.acc id 0)

/-- Bin of a log2 histogram with unit `u` (R536). -/
def log2Bin (v u : Nat) : Nat := min 31 (log2 (max (v / u) 1))

def State.observe (s : State) (h b : Nat) : State := s.tally1 (0x4000 + 0x20 * h + b)

/-! ### Change log (R527 to R533) -/

/-- Global time in ns (R530). `now` counts periods of 0.625 ns; one period of REFCLK_FAB is 6.4 ns. -/
def State.logTime (s : State) : Nat :=
  if s.log.timeRuns then s.log.timeBase + (s.now - s.log.timeFrom) * 25 / 256 * 64 / 10 else 0

/-- TIME, STEP and PHASE of an entry made now (R530). -/
def State.stamp (s : State) : Nat × Nat × Nat :=
  match s.log.lossStamp with
  | some t => t
  | none => if s.log.timeRuns then (s.logTime, s.cad.step, s.phaseInt) else (0, 0, 0)

def State.stamped (s : State) (e : LogEntry) : LogEntry :=
  { e with time := s.stamp.1, step := s.stamp.2.1, phase := s.stamp.2.2 }

/-- Create one entry (a series of one, R531). -/
def State.logAdd (s : State) (e : LogEntry) : State :=
  { s with log := { s.log with batch := s.log.batch ++ [[s.stamped e]] } }

/-- Create a series, whose order a rule fixes (R531). -/
def State.logSeries (s : State) (es : List LogEntry) : State :=
  if es.isEmpty then s else { s with log := { s.log with batch := s.log.batch ++ [es.map s.stamped] } }

/-- Move the oldest staged entry to its slot of the ring (R527). -/
def LogUnit.drain1 (l : LogUnit) : LogUnit :=
  match l.staged with
  | [] => l
  | e :: r => { l with staged := r, ring := NMap.put l.ring (e.seq % 131072) (e, true), written := l.written + 1 }

/-- Stage one entry under the next SEQ; the caller has made sure of room. -/
def LogUnit.push (l : LogUnit) (e : LogEntry) : LogUnit :=
  { l with staged := l.staged ++ [{ e with seq := l.nextSeq }], nextSeq := l.nextSeq + 1 }

/-- The staging buffer holds its 4,096 entries. -/
def LogUnit.full (l : LogUnit) : Bool := decide (l.staged.length ≥ 4096)

/-- Room for an entry of the loader or of bring-up, which wait for the log writer (R532). -/
def LogUnit.makeRoom (l : LogUnit) (e : LogEntry) : LogUnit :=
  if (e.origin == 3 || e.origin == 4) && l.full then l.drain1 else l

/-- Stage an entry where there is room, else drop and count it. -/
def State.stageOrDrop (s : State) (e : LogEntry) : State :=
  let l := s.log.makeRoom e
  if l.full then { s.tally1 0x1030 with log := { l with dropped := l.dropped + 1 } }
  else { s.tally1 0x1031 with log := l.push e }

/-- Stage a new entry (R532). Entries of the loader and of bring-up wait for room; any other entry that finds none is
dropped and counted, and the first entry staged after a drop is the LOST entry. -/
def State.stageEntry (s : State) (e : LogEntry) : State :=
  let l := s.log.makeRoom e
  if l.full || l.dropped == 0 then s.stageOrDrop e
  else
    let lost := s.stamped { kind := 6, origin := 6, originIdx := 0xFF, aux := l.dropped }
    State.stageOrDrop { s.tally1 0x1031 with log := { l.push lost with dropped := 0 } } e

def entryKey (e : LogEntry) : Nat := (e.origin * 65536 + e.originIdx) * 2 ^ 64 + e.target

/-- Order of two series (R531). -/
def seriesLt : List LogEntry → List LogEntry → Bool
  | [], [] => false
  | [], _ :: _ => true
  | _ :: _, [] => false
  | a :: as, b :: bs =>
    if entryKey a < entryKey b then true else if entryKey b < entryKey a then false else seriesLt as bs

def seriesInsert (x : List LogEntry) : List (List LogEntry) → List (List LogEntry)
  | [] => [x]
  | y :: ys => if seriesLt x y then x :: y :: ys else y :: seriesInsert x ys

def seriesSort (xs : List (List LogEntry)) : List (List LogEntry) := xs.foldl (fun acc x => seriesInsert x acc) []

/-- Stage the entries of this clk in the order of R531. -/
def State.flushBatch (s : State) : State :=
  let es := (seriesSort s.log.batch).flatten
  es.foldl State.stageEntry { s with log := { s.log with batch := [] } }

/-- SEQ of the oldest entry in the ring. -/
def LogUnit.oldest (l : LogUnit) : Nat := l.written - min l.written 131072

/-! ### Codes (R535, R572) -/

/-- The operation concerned by a code, for the class registers kept per complex, partition, unit or group. -/
structure At where
  cx : Nat := 0
  ch : Nat := 0
  part : Nat := 0
  unit : Nat := 0
  ns : Nat := 0
  /-- triggering code for SCL_RUN_LAST_ERR and ALN_LAST_ERR -/
  trig : Nat := 0

/-- Write a code to the last-error register of its class (Table 24.1). -/
def State.recordClass (s : State) (code : Nat) (w : At) : State :=
  match code / 256 with
  | 0x1 => s.rputN .dmaLastErr (w.ch * 65536 + code) w.cx
  | 0x2 => s.rputN .xpcLastErr code w.cx
  | 0x3 => s.rputN .sclTierLastErr code
  | 0x4 => if code ≤ 0x409 then s.rputN .sclPlanLastErr code else s.rputN .sclRunLastErr (w.trig * 65536 + code)
  | 0x5 => s.rputN .crnLastErr code
  | 0x6 => s.rputN .nynLastErr code
  | 0x7 => s.rputN .srvLastErr code w.part
  | 0x8 => s.rputN .admLastErr code w.part
  | 0x9 => s.rputN .intLastErr (w.part * 2 ^ 24 + w.ns * 65536 + code)
  | 0xA => if code ≤ 0xA09 then s.rputN .updLastErr code w.unit else s
  | 0xB => s.rputN .imgLastErr code
  | 0xC => s.rputN .pwrLastErr code
  | 0xD => s.rputN .cadLastErr code
  | 0xE => s.rputN .alnLastErr (w.trig * 65536 + code)
  | _ => s

/-- Issue a code: counted in the tally (R535) and recorded in its class register (R572). Code 0 is no code. -/
def State.issue (s : State) (code : Nat) (w : At := {}) : State :=
  if code = 0 then s else (s.tally1 code).recordClass code w

/-! ### Outputs -/

def State.emit (s : State) (o : Out) : State := { s with outs := s.outs ++ [o] }

/-- A free number of the outside; the counter makes each use a fresh one. -/
def State.fresh (s : State) : Nat × State := (s.free, { s with free := s.free + 1 })

end Sys2Proof.Machine
end

