-- ==== Sys2Proof/Machine/ImageQuery.lean ====
section
/-! DEFINITION. What the sections of the image in force say: partitions, domains, ranks, state machines and curves
(R83 to R93), the shared step of an image state machine, and the log entries every unit makes. -/
namespace Sys2Proof.Machine

/-! ### Log entries by hardware -/

/-- An EVENT entry with origin HARDWARE of a block numbered as in HIF_BLOCK_EVENT (Table 21.2). -/
def hwEntry (block : Nat) (code : Nat := 0) (part : Nat := 0xFF) (tkind : Nat := 5) (target : Nat := 0)
    (old : Nat := 0) (new : Nat := 0) (aux : Nat := 0) : LogEntry :=
  { kind := 4, origin := 6, originIdx := block, code := code, part := part, tkind := tkind, target := target,
    old := old, new := new, aux := aux }

/-! ### Sections -/

def Img.body? (m : Img) (type scope inst : Nat) : Option (List Byte) :=
  (m.sections.find? (fun x => x.type == type && x.scope == scope && x.inst == inst)).map (·.body)

/-- A record of the PARTITIONS section (Table 3.6). -/
structure PartRec where
  id : Nat
  strict : Bool
  serving : Bool
  training : Bool
  fairness : Bool
  vf : Nat
  tiles : Nat
  channels : List Nat
  share : Nat
  hostCairns : Nat
  msixBase : Nat
  msixCount : Nat
  deriving DecidableEq, Repr

def parsePart (r : List Byte) : PartRec :=
  let f := fieldAt r 1 1
  { id := fieldAt r 0 1, strict := bit f 0, serving := bit f 1, training := bit f 2, fairness := bit f 3,
    vf := fieldAt r 2 1, tiles := fieldAt r 4 4,
    channels := [fieldAt r 8 8, fieldAt r 16 8, fieldAt r 24 8, fieldAt r 32 8],
    share := fieldAt r 40 4, hostCairns := fieldAt r 44 8, msixBase := fieldAt r 52 2, msixCount := fieldAt r 54 2 }

def parseParts (body : List Byte) : List PartRec :=
  (List.range (fieldAt body 0 1)).map (fun k => parsePart (slice body (16 + 64 * k) 64))

/-- The partitions of the image in force; none without an image. -/
def State.parts (s : State) : List PartRec :=
  match s.img.body? 0x0002 0xFF 0 with
  | some b => parseParts b
  | none => []

def State.part? (s : State) (p : Nat) : Option PartRec := s.parts.find? (fun r => r.id == p)

/-- The partition served by VF `f` (R466); PF0 serves none. -/
def State.partOfFn (s : State) (f : Nat) : Option PartRec :=
  if f = 0 then none else s.parts.find? (fun r => r.vf == f)

def State.ownerTile (s : State) (t : Nat) : Option Nat := (s.parts.find? (fun r => bit r.tiles t)).map (·.id)
def State.ownerChan (s : State) (d n : Nat) : Option Nat :=
  (s.parts.find? (fun r => bit (r.channels.getD d 0) n)).map (·.id)
def State.ownerHostCairn (s : State) (h : Nat) : Option Nat :=
  (s.parts.find? (fun r => bit r.hostCairns h)).map (·.id)

/-- DOMAINS of the POWER section in force; only the host PCIe domain without an image (R489). -/
def State.imageDomains (s : State) : Nat :=
  match s.img.body? 0x0003 0xFF 0 with
  | some b => fieldAt b 0 8
  | none => 2 ^ 48

/-! ### Identity (R105, R328, Table 12.3) -/

def State.identity (s : State) : List Byte := (s.img.body? 0x0001 0xFF 0).getD []

/-- IDENTITY carries SPARE. -/
def State.isSpare (s : State) : Bool := bit (fieldAt s.identity 3 1) 0

/-- The device's own logical ID; 0 without a logical identity (R105). -/
def State.ownId (s : State) : Nat := if s.isSpare then 0 else fieldAt s.identity 0 1

/-- MEMBER_MASK; only the own ID without a logical identity (R105, R337). -/
def State.members (s : State) : Nat := if s.isSpare || s.identity.isEmpty then 1 else fieldAt s.identity 8 8

def State.portMask (s : State) : Nat := if s.isSpare then 0 else bits (fieldAt s.identity 4 2) 13 0

/-! ### State machines of the image (R89 to R91) -/

/-- A cell (Table 3.10). -/
structure Cell where
  next : Nat
  valid : Bool
  log : Bool
  action : Nat
  param : Nat
  deriving DecidableEq, Repr

def parseCell (v : Nat) : Cell :=
  { next := bits v 31 26, valid := bit v 25, log := bit v 24, action := bits v 23 16, param := bits v 15 0 }

/-- The table of machine `m` for partition `p`: the partition's own, else one of device scope. -/
def State.fsmBody (s : State) (p m : Nat) : List Byte :=
  ((s.img.body? 0x0008 p m).orElse (fun _ => s.img.body? 0x0008 0xFF m)).getD []

def fsmStates (b : List Byte) : Nat := fieldAt b 1 1
def fsmEvents (b : List Byte) : Nat := fieldAt b 2 1
def fsmInitial (b : List Byte) : Nat := fieldAt b 3 1
def fsmTerminal (b : List Byte) (st : Nat) : Bool := bit (fieldAt b 4 8) st
def fsmCell (b : List Byte) (st ev : Nat) : Cell := parseCell (fieldAt b (16 + 4 * (st * fsmEvents b + ev)) 4)

/-- The cell that takes event `ev` in state `st`, if the state is not terminal and the cell is valid. -/
def State.fsmTake (s : State) (p m st ev : Nat) : Option Cell :=
  let b := s.fsmBody p m
  if st < fsmStates b && ev < fsmEvents b && !fsmTerminal b st && (fsmCell b st ev).valid then some (fsmCell b st ev)
  else none

/-- A terminal state discards events without count or error (R91). -/
def State.fsmDead (s : State) (p m st : Nat) : Bool := fsmTerminal (s.fsmBody p m) st

/-- Block whose machine it is, for the log: Scaler, admission, SRV. -/
def fsmBlock (m : Nat) : Nat := if m = 1 then 0 else if m = 2 then 9 else 8

/-- FSM_NO_TRANSITION: the event is discarded and counted, and 0x0B0E recorded (R90). -/
def State.fsmNoTransition (s : State) : State := (s.count .imgFsmNotrans).issue 0x0B0E

/-- The log entry of a cell with LOG set (R528). -/
def State.fsmLog (s : State) (p m inst st ev : Nat) (c : Cell) : State :=
  if c.log then
    s.logAdd (hwEntry (fsmBlock m) 0 p 3 (m + inst * 2 ^ 32) st c.next (ev + c.action * 256 + c.param * 65536))
  else s

/-! ### Curves (R93) -/

def curvePoints (b : List Byte) : List (Nat × Nat) :=
  (List.range (fieldAt b 4 2)).map (fun i => (fieldAt b (16 + 8 * i) 4, fieldAt b (20 + 8 * i) 4))

end Sys2Proof.Machine
end

