-- ==== Sys2Proof/Machine/Common.lean ====
section
/-! DEFINITION. Acts that several units share: HOLD_N (R66, R74), late items (R64), bring-up stages (R511), MSI-X
vectors (R485, R486) and the end of every command. -/
namespace Sys2Proof.Machine

/-! ### HOLD_N -/

/-- This device drives HOLD_N low (R66): a late item in STALL mode, software, LOST_HOLD, or a REPLACE deadline. -/
def State.holdDrive (s : State) : Bool :=
  !s.cad.holdItems.isEmpty || s.rbit .cadCtrl 3 || s.cad.holdLost || !s.cad.holdColl.isEmpty

/-- Account for the start or the end of a hold, one continuous period of driving (R74). -/
def State.updateHold (s : State) : State :=
  match s.holdDrive, s.cad.holdSince with
  | true, none => ({ s with cad := { s.cad with holdSince := some s.now } }.count .cadHoldCount).tally1 0x1007
  | false, some t =>
    { s with cad := { s.cad with holdSince := none } }.observe 0 (log2Bin ((s.now - t) * 5 / 8) 64)
  | _, _ => s

/-- The item holds the line until it completes (R66). -/
def State.holdFor (s : State) (i : Item) : State :=
  if s.cad.holdItems.contains i then s
  else State.updateHold { s with cad := { s.cad with holdItems := s.cad.holdItems ++ [i] } }

/-- The item has completed or ended: it no longer holds the line. -/
def State.holdEnd (s : State) (i : Item) : State :=
  if s.cad.holdItems.contains i then
    State.updateHold { s with cad := { s.cad with holdItems := s.cad.holdItems.filter (fun x => decide (x ≠ i)) } }
  else s

/-- Kind and index of CAD_LAST_LATE_SRC (Table 2.6); `stream` is the fetch stream of a Scaler item. -/
def Item.kind : Item → Nat
  | .tileCtx _ _ => 1
  | .dmaCh _ _ => 2
  | .scaler _ _ => 3
  | .update _ => 4
  | .coll _ => 5
  | .intake _ _ => 6

def Item.index (stream : Nat) : Item → Nat
  | .tileCtx t c => t.val * 4 + c.val
  | .dmaCh d n => d.val * 64 + n.val
  | .scaler _ _ => stream
  | .update u => u.val
  | .coll e => e
  | .intake p _ => p.val

/-- Bin of LATE_SLOT for a late phase point (R327): slots of SLOT_LEN pu counted from the start of the step. -/
def lateSlotBin (grid phase : Nat) : Nat := min 31 (phase / grid)

/-- A late item is counted and recorded (R64); in STALL mode it then holds the line (R66). `code` is the item's
cadence code, recorded in ERROR mode; in STALL mode the record shows 0x0000. -/
def State.late (s : State) (i : Item) (stream : Nat) (part : Option Nat) (stall : Bool) (code : Nat) (d : Nat) : State :=
  let s := (s.count .cadLateCount).tally1 (0x1020 + i.kind)
  let s := s.rputN .cadLastLate s.stepPhase
  let s := s.rputN .cadLastLateSrc (i.kind * 2 ^ 24 + i.index stream * 65536 + (if stall then 0 else code))
  let s := s.raise .cadEvent 7
  let s := match part with
    | some p =>
      let g := (NMap.getD s.upd.parts p {}).grid
      if g = 0 then s else s.observe (8 + p) (lateSlotBin g d)
    | none => s
  if stall then s.holdFor i else s

/-- A scheduled item of the step that has begun waits while a partial commit of its partition is under way (R97). -/
def State.heldByCommit (s : State) (p : Option Nat) (startAt : Option Nat) : Bool :=
  s.img.due && p == some s.img.part &&
    (match startAt with
    | some a => decide (a ≥ s.cad.step * 65536)
    | none => false)

/-! ### Bring-up stages -/

/-- Enter a bring-up stage (R510, R511): one MARK entry with origin BOOT; HIF_BOOT_TIME stops at READY or FAILED. -/
def State.setStage (s : State) (n : Nat) : State :=
  let old := s.pwr.stage
  let s := s.logAdd { kind := 5, origin := 3, originIdx := n, old := old, new := n }
  let us := if n = 9 || n = 15 then some (min (2 ^ 32 - 1) ((s.now - s.pwr.bootFrom) * 5 / 8 / 1000)) else s.pwr.bootUs
  { s with pwr := { s.pwr with stage := n, bootUs := us } }

/-- The receiver has reached LOCKED, or the device has become master, for the first time in this start: TIME runs
(R530), and stage CADENCE ends (R522). -/
def State.firstLock (s : State) : State :=
  let s := if s.log.timeRuns then s else
    { s with log := { s.log with
        timeRuns := true, timeFrom := s.now, timePreset := none,
        timeBase := s.log.timePreset.getD (s.rnat .logEpoch) } }
  if s.pwr.stage = 8 then s.setStage 9 else s

/-! ### MSI-X -/

/-- Device vector `v` lies in the range of function `f`: a partition's range for its VF, every other vector for PF0
(R485). -/
def State.vectorOf (s : State) (f v : Nat) : Bool :=
  if f = 0 then
    decide (v < 2048) && s.parts.all (fun r => !(decide (r.msixBase ≤ v) && decide (v < r.msixBase + r.msixCount)))
  else
    match s.partOfFn f with
    | some r => decide (r.msixBase ≤ v) && decide (v < r.msixBase + r.msixCount)
    | none => false

/-- Send a device vector through function `f`. -/
def State.sendVector (s : State) (f v : Nat) : State :=
  if s.vectorOf f v then s.emit (.msix f v) else s

/-- Bits of HIF_BLOCK_EVENT (Table 18.10): a block's EVENT registers are not all zero. The TIL window has no EVENT
register, so bit 3 reads 0. -/
def State.blockEvents (s : State) : Nat :=
  let any (n : RegName) (c : Nat) : Bool := (List.range c).any (fun i => s.rnat n i != 0)
  b2n (any .sclLedgerEvent 1 || any .sclRunEvent 1 || any .sclTierEvent 1)
  + b2n (any .dmaStopEvent 4) * 2 + b2n (any .xpcEvent 4) * 4 + b2n (any .crnEvent 1) * 16
  + b2n (any .updEvent 8) * 32 + b2n (any .nynEvent 1) * 64 + b2n (any .cadEvent 1) * 128
  + b2n (any .srvEvent 8 || any .srvGenEvent 8) * 256 + b2n (any .admEvent 8) * 512 + b2n (any .intEvent 1) * 1024
  + b2n (any .alnEvent 1) * 2048 + b2n (any .imgEvent 1) * 4096

/-- HIF_EVENT and HIF_BLOCK_EVENT side by side. -/
def State.hifEvents (s : State) : Nat := s.rnat .hifEvent + s.blockEvents * 16

/-- Some bit is set in `new` and clear in `old`. -/
def newBits (old new : Nat) : Bool := (new ||| old) != old

/-- The end of every command: its log entries are staged in order (R531), and the event vector is sent when a bit of
HIF_EVENT or HIF_BLOCK_EVENT has set (R486). -/
def State.settle (s : State) : State :=
  let s := if s.log.batch.isEmpty then s else s.flushBatch
  let ev := s.hifEvents
  if ev = s.hif.seenEvents then s
  else
    let s' := { s with hif := { s.hif with seenEvents := ev } }
    let cfg := s.rnat .hifEvtVec
    if newBits s.hif.seenEvents ev && bit cfg 11 then s'.sendVector 0 (bits cfg 10 0) else s'

end Sys2Proof.Machine
end

