-- ==== Sys2Proof/Machine/Tiers.lean ====
section
/-! DEFINITION. Address decode, partition windows, holdings, the pool and allocation (R103 to R129). -/
namespace Sys2Proof.Machine

/-! ### Domains -/

def State.domainOn (s : State) (b : Nat) : Bool := bit s.pwr.domains b && !bit s.pwr.rising b

def domTile (t : Nat) : Nat := t
def domStack (k : Nat) : Nat := 24 + k
def domPort (p : Nat) : Nat := 32 + p
def domCxl (p : Nat) : Nat := 46 + p
def domHost : Nat := 48
def domIntake : Nat := 49
def domMedia : Nat := 50
def domAlign : Nat := 51
def domDma (d : Nat) : Nat := 52 + d

/-- Stack `k` responds: its domain is on and it has not failed training (R518). -/
def State.stackOn (s : State) (k : Nat) : Bool := s.domainOn (domStack k) && !bit s.pwr.badStacks k

/-! ### Address decode (Table 4.1) -/

inductive Region where
  | crestTile (t : Nat)
  | central
  | slope (k : Nat)
  | foothill (p : Nat)
  | valley (w : Nat)
  deriving DecidableEq, Repr

def gib : Nat := 2 ^ 30
def granule : Nat := 65536

def centralBase : Nat := 0x0C000000
def centralEnd : Nat := 0x0F400000
def slopeBase (k : Nat) : Nat := 0x001000000000 + k * 0x000C00000000
def slopeSize : Nat := 0x000C00000000
def foothillBase (p : Nat) : Nat := 0x010000000000 + p * 0x040000000000
def valleyBase (w : Nat) : Nat := 0x100000000000 + w * 0x004000000000
def valleySize : Nat := 0x004000000000

def State.fhBytes (s : State) (p : Nat) : Nat := min (NMap.getD s.tier.fhCap p 0 * gib) (2048 * gib)

/-- The row of Table 4.1 an address lies in, with an agent's access rights: the home table, the staging region and the
register window have no target for a transfer (R104, R568). -/
def State.region? (s : State) (a : Nat) : Option Region :=
  if a < centralBase then some (.crestTile (a / 0x800000))
  else if a < centralEnd then some .central
  else if slopeBase 0 ≤ a && a < slopeBase 8 then some (.slope ((a - slopeBase 0) / slopeSize))
  else if foothillBase 0 ≤ a && a < foothillBase 0 + s.fhBytes 0 then some (.foothill 0)
  else if foothillBase 1 ≤ a && a < foothillBase 1 + s.fhBytes 1 then some (.foothill 1)
  else if valleyBase 0 ≤ a && a < valleyBase 64 then
    let w := (a - valleyBase 0) / valleySize
    match NMap.get? s.hif.windows w with
    | some g => if a - valleyBase w < g.size * 2097152 then some (.valley w) else none
    | none => none
  else none

/-- The block behind a region is powered (R25). -/
def State.regionOn (s : State) : Region → Bool
  | .crestTile t => s.domainOn (domTile t)
  | .central => true
  | .slope k => s.stackOn k
  | .foothill p => s.domainOn (domCxl p)
  | .valley _ => s.domainOn domHost

/-- Two regions are one row for R107: the tile-local Crest of all tiles counts as one. -/
def sameRow : Region → Region → Bool
  | .crestTile _, .crestTile _ => true
  | a, b => decide (a = b)

/-- Tiles whose Crest a range in tile-local Crest touches are all on. -/
def State.tilesOn (s : State) (a len : Nat) : Bool :=
  (List.range 24).all (fun t =>
    if t * 0x800000 < a + len && a < (t + 1) * 0x800000 then s.domainOn (domTile t) else true)

/-- Decode of a whole range (R103, R104, R107): the region of its first byte, or 0x0301. -/
def State.decode (s : State) (a len : Nat) : Except Nat Region :=
  match s.region? a, s.region? (a + len - 1) with
  | some r, some r' =>
    if !sameRow r r' then .error 0x0301
    else if !s.regionOn r then .error 0x0301
    else match r with
      | .crestTile _ => if s.tilesOn a len then .ok r else .error 0x0301
      | _ => .ok r
  | _, _ => .error 0x0301

/-- Where a device address leads. -/
inductive Target where
  | here (a : Nat)
  | there (id a : Nat)
  deriving DecidableEq, Repr

/-- Decode of a device address (R105, R337, R564). -/
def State.target (s : State) (addr : Nat) : Except Nat Target :=
  let id := bits addr 61 56
  let a := bits addr 55 0
  if bits addr 63 62 ≠ 0 then .error 0x0301
  else if id = s.ownId then .ok (.here a)
  else if !bit s.members id then .error 0x0602
  else .ok (.there id a)

/-! ### Partition windows (Table 4.2) -/

structure WinRec where
  base : Nat
  size : Nat
  access : Nat
  tier : Nat
  deriving DecidableEq, Repr

def parseWindows (b : List Byte) : List WinRec :=
  (List.range (fieldAt b 0 1)).map (fun k =>
    let o := 16 + 16 * k
    { base := fieldAt b o 8, size := fieldAt b (o + 8) 4, access := fieldAt b (o + 12) 1, tier := fieldAt b (o + 13) 1 })

def State.windowBody (s : State) (p : Nat) : List Byte := (s.img.body? 0x0004 p 0).getD []
def State.windows (s : State) (p : Nat) : List WinRec := parseWindows (s.windowBody p)
def State.fhQuota (s : State) (p : Nat) : Nat := fieldAt (s.windowBody p) 4 4 * 16
def State.vlQuota (s : State) (p : Nat) : Nat := fieldAt (s.windowBody p) 8 4 * 16

def WinRec.covers (w : WinRec) (a len acc : Nat) : Bool :=
  decide (w.base ≤ a) && decide (a + len ≤ w.base + w.size * granule) && (w.access &&& acc) == acc

/-- The range lies wholly within one window of the partition with the ACCESS bits `acc` (R109). -/
def State.windowOk (s : State) (p a len acc : Nat) : Bool := (s.windows p).any (·.covers a len acc)

/-- The partition whose REMOTE window covers the range (R109). -/
def State.remotePart (s : State) (a len acc : Nat) : Option Nat :=
  (s.parts.find? (fun r => s.windowOk r.id a len (acc ||| 8))).map (·.id)

/-! ### Holdings -/

/-- The address belongs to the pool. -/
def inPool (a : Nat) : Bool := (centralBase ≤ a && a < centralEnd) || decide (slopeBase 0 ≤ a)

/-- The address belongs to the fast pool: central Crest's pool part or Slope. -/
def inFast (a : Nat) : Bool := (centralBase ≤ a && a < centralEnd) || (slopeBase 0 ≤ a && a < slopeBase 8)

def Holding.contains (h : Holding) (a len : Nat) : Bool :=
  decide (h.base ≤ a) && decide (a + len ≤ h.base + h.size * granule)

def overlaps (a n b m : Nat) : Bool := decide (a < b + m) && decide (b < a + n)

def Holding.meets (h : Holding) (a len : Nat) : Bool := overlaps h.base (h.size * granule) a len

def State.holdAt (s : State) (a len : Nat) : Option (Nat × Holding) :=
  s.tier.holdings.find? (fun e => e.2.contains a len)

def State.hold? (s : State) (id : Nat) : Option Holding := NMap.get? s.tier.holdings id

/-- The check of a DMA range in the pool (R115). -/
def State.holdCheck (s : State) (p a len : Nat) : Except Nat Unit :=
  match s.holdAt a len with
  | some (_, h) =>
    if h.owner = p && h.state = 1 then .ok ()
    else if h.state = 2 then .error 0x0308
    else if h.state = 3 || h.state = 4 then .error 0x030D
    else .error 0x0309
  | none =>
    if s.tier.holdings.any (fun e => e.2.state == 2 && e.2.meets a len) then .error 0x0308
    else if s.tier.holdings.any (fun e => (e.2.state == 3 || e.2.state == 4) && e.2.meets a len) then .error 0x030D
    else .error 0x0309

/-- A local range of a transfer of partition `p` needing ACCESS bits `acc`: decode, window, holding, in that order. -/
def State.rangeCheck (s : State) (p a len acc : Nat) : Except Nat Region :=
  match s.decode a len with
  | .error c => .error c
  | .ok r =>
    if !s.windowOk p a len acc then .error 0x0302
    else if inPool a then
      match s.holdCheck p a len with
      | .error c => .error c
      | .ok _ => .ok r
    else .ok r

def State.setHold (s : State) (id : Nat) (h : Holding) : State :=
  { s with tier := { s.tier with holdings := NMap.put s.tier.holdings id h } }

def State.dropHold (s : State) (id : Nat) : State :=
  { s with tier := { s.tier with holdings := NMap.del s.tier.holdings id } }

/-- Restart a holding's age (R124). -/
def State.touchHold (s : State) (id : Nat) : State :=
  match s.hold? id with
  | some h => s.setHold id { h with touch := s.stepPhase }
  | none => s

/-- Touch the holding that a descriptor's range names. -/
def State.touchAt (s : State) (a len : Nat) : State :=
  match s.holdAt a len with
  | some (id, _) => s.touchHold id
  | none => s

/-- Age in pu, saturating (R124). -/
def State.age (s : State) (h : Holding) : Nat := min 0xFFFFFFFF ((s.stepPhase : Int) - h.touch).toNat

/-- A backward move of the local phase leaves every age unchanged (R124). -/
def State.shiftAges (s : State) (by_ : Int) : State :=
  { s with tier := { s.tier with
      holdings := s.tier.holdings.map (fun e => (e.1, { e.2 with touch := e.2.touch - by_ })) } }

/-! ### Pool accounting in 64 KiB units -/

/-- Units reserved at the destination of a move: a packed holding takes fewer. -/
def Holding.destUnits (h : Holding) : Nat := if h.destSize = 0 then h.size else h.destSize

/-- Ranges that are not free: homes, destinations of MOVEs, and reservations, as (partition, base, units). -/
def State.usedRanges (s : State) : List (Nat × Nat × Nat) :=
  s.tier.holdings.map (fun e => (e.2.owner, e.2.base, e.2.size))
    ++ s.tier.holdings.filterMap (fun e => e.2.dest.map (fun d => (e.2.owner, d, e.2.destUnits)))
    ++ s.tier.reserves.map (fun r => (r.part, r.base, r.size))

/-- Ranges (base, end) in order of base. -/
def insertRange (x : Nat × Nat) : List (Nat × Nat) → List (Nat × Nat)
  | [] => [x]
  | y :: ys => if x.1 ≤ y.1 then x :: y :: ys else y :: insertRange x ys

/-- Ordered ranges with those that meet or touch joined. -/
def mergeRanges : List (Nat × Nat) → List (Nat × Nat)
  | [] => []
  | a :: r =>
    match mergeRanges r with
    | [] => [a]
    | b :: t => if b.1 ≤ a.2 then (a.1, max a.2 b.2) :: t else a :: b :: t

/-- Units of the ranges in use that `f` selects; what several of them cover, as an arena and the holdings inside it or
two reserved Slope ranges of one partition, counts once (R116, R160, R367). -/
def State.unitsWhere (s : State) (f : Nat → Nat → Bool) : Nat :=
  let rs := ((s.usedRanges.filter (fun r => f r.1 r.2.1)).map (fun r => (r.2.1, r.2.1 + r.2.2 * granule))).foldl
    (fun acc x => insertRange x acc) []
  ((mergeRanges rs).map (fun r => (r.2 - r.1) / granule)).sum

/-- Fast-pool units held by partition `p` (SCL_PART_USE in 64 KiB units). -/
def State.partUnits (s : State) (p : Nat) : Nat := s.unitsWhere (fun q b => q == p && inFast b)

/-- Fast-pool capacity: 52 MiB of central Crest and 48 GiB for each stack not excluded (R122, R518). -/
def State.poolUnits (s : State) : Nat :=
  832 + ((List.range 8).filter (fun k => !bit s.pwr.badStacks k)).length * 786432

def State.freeUnits (s : State) : Nat := s.poolUnits - s.unitsWhere (fun _ b => inFast b)

def isFoothill (a : Nat) : Bool := decide (foothillBase 0 ≤ a) && decide (a < 0x090000000000)
def isValley (a : Nat) : Bool := decide (valleyBase 0 ≤ a)

def State.fhUnits (s : State) (p : Nat) : Nat := s.unitsWhere (fun q b => q == p && isFoothill b)
def State.vlUnits (s : State) (p : Nat) : Nat := s.unitsWhere (fun q b => q == p && isValley b)

def State.shareUnits (s : State) (p : Nat) : Nat := ((s.part? p).map (·.share)).getD 0 * 16

/-- The partition holds more than its share. -/
def State.overShare (s : State) (p : Nat) : Bool := decide (s.partUnits p > s.shareUnits p)

/-! ### Free ranges and tags -/

/-- No home, destination or reservation meets the range. -/
def State.rangeFree (s : State) (base size : Nat) : Bool :=
  s.usedRanges.all (fun r => !overlaps r.2.1 (r.2.2 * granule) base (size * granule))

/-- No granule of the range waits for zeroing after another partition's use (R120). -/
def State.rangeClean (s : State) (p base size : Nat) : Bool :=
  s.tier.tags.all (fun t => t.2.2 == p || !overlaps t.1 (t.2.1 * granule) base (size * granule))

/-- Candidate bases for a lowest-fit search in [lo, hi): the start, and the end of every range in use or tagged. -/
def State.fitBases (s : State) (lo hi : Nat) : List Nat :=
  (lo :: (s.usedRanges.map (fun r => r.2.1 + r.2.2 * granule) ++ s.tier.tags.map (fun t => t.1 + t.2.1 * granule))).filter
    (fun b => decide (lo ≤ b) && decide (b < hi))

def minOf : List Nat → Option Nat
  | [] => none
  | a :: as => some (as.foldl min a)

/-- The lowest free fitting range of [lo, hi); with `clean`, one that needs no zeroing first. -/
def State.lowestFit (s : State) (p lo hi size : Nat) (clean : Bool) : Option Nat :=
  minOf ((s.fitBases lo hi).filter (fun b =>
    decide (b + size * granule ≤ hi) && s.rangeFree b size && (!clean || s.rangeClean p b size)))

/-- The ranges of a tier in the order in which a placement tries them (text under Table 18.5): central Crest's pool
part; the stack asked for, or the stacks in number order; Foothill port 0 before port 1; the Valley windows granted to
the partition's function. -/
def State.tierRanges (s : State) (p tier stack : Nat) : List (Nat × Nat) :=
  match tier with
  | 0 => [(centralBase, centralEnd)]
  | 1 => ((List.range 8).filter (fun k => s.stackOn k && (stack == 0xFF || stack == k))).map
      (fun k => (slopeBase k, slopeBase k + slopeSize))
  | 2 => ((List.range 2).filter (fun k => s.domainOn (domCxl k))).map (fun k => (foothillBase k, foothillBase k + s.fhBytes k))
  | _ => (s.hif.windows.filter (fun e => ((s.partOfFn e.2.fn).map (·.id)) == some p)).map
      (fun e => (valleyBase e.1, valleyBase e.1 + e.2.size * 2097152))

/-- Placement without a named address: the first range of the tier that has a fitting free part. -/
def State.place (s : State) (p tier stack size : Nat) (clean : Bool) : Option Nat :=
  (s.tierRanges p tier stack).findSome? (fun r => s.lowestFit p r.1 r.2 size clean)

/-- The lowest free holding ID (DESIGN CHOICE, log entry 6: the spec does not say which ID an allocation gives). -/
def freeId (m : NMap Holding) : Nat → Nat → Nat
  | 0, n => n
  | fuel + 1, n => if (NMap.get? m n).isSome then freeId m fuel (n + 1) else n

def State.newId (s : State) : Nat := freeId s.tier.holdings s.tier.holdings.length 0

/-- Granules given out lose their tags. -/
def cutTag (base size : Nat) (t : Nat × Nat × Nat) : List (Nat × Nat × Nat) :=
  let e := base + size * granule
  let te := t.1 + t.2.1 * granule
  if !overlaps t.1 (t.2.1 * granule) base (size * granule) then [t]
  else
    (if t.1 < base then [(t.1, (base - t.1) / granule, t.2.2)] else [])
      ++ (if e < te then [(e, (te - e) / granule, t.2.2)] else [])

def State.untag (s : State) (base size : Nat) : State :=
  { s with tier := { s.tier with tags := s.tier.tags.flatMap (cutTag base size) } }

/-- Freed granules of Crest, Slope and Foothill keep a tag of the partition that released them (R120). -/
def State.tag (s : State) (p base size : Nat) : State :=
  if isValley base then s
  else { s.untag base size with tier := { (s.untag base size).tier with tags := s.tier.tags.flatMap (cutTag base size) ++ [(base, size, p)] } }

/-- Make a holding over a free range (R114). -/
def State.makeHold (s : State) (h : Holding) : Nat × State :=
  let id := s.newId
  (id, (s.untag h.base h.size).setHold id { h with touch := s.stepPhase })

/-- The home table is full (R121). -/
def State.tableFull (s : State) : Bool := decide (s.tier.holdings.length ≥ 131072)

/-- The range lies in an arena of the partition, to which it returns when freed (R160). -/
def State.inArena (s : State) (p base : Nat) : Bool :=
  s.tier.reserves.any (fun r => r.part == p && r.arena && decide (r.base ≤ base) && decide (base < r.base + r.size * granule))

/-- Free a holding's range (R119, R120); a range of an arena returns to the arena. -/
def State.freeHold (s : State) (id : Nat) : State :=
  match s.hold? id with
  | none => s
  | some h =>
    let s := s.dropHold id
    if s.inArena h.owner h.base then s else s.tag h.owner h.base h.size

/-! ### Uncorrectable errors and lost homes -/

/-- A correctable error is corrected inline and counted (R110). -/
def State.eccCorrected (s : State) : State := ((s.count .sclEccCorr).tally1 0x1005).raise .sclTierEvent 0

/-- ECC_UNCORRECTED: the address is recorded and its holding becomes DAMAGED (R110). The caller ends the access with
0x0303. -/
def State.eccUncorrected (s : State) (a : Nat) : State :=
  let s := ((s.count .sclEccUncorr).raise .sclTierEvent 1).rputN .sclLastEccAddr a
  match s.holdAt a 1 with
  | some (id, h) => s.setHold id { h with state := 3 }
  | none => s

/-- Every holding homed in the range becomes LOST (R132, R503, R521). -/
def State.loseRange (s : State) (base len : Nat) : State :=
  { s with tier := { s.tier with
      holdings := s.tier.holdings.map (fun e =>
        if overlaps e.2.base (e.2.size * granule) base len then (e.1, { e.2 with state := 4 }) else e) } }

end Sys2Proof.Machine
end

