-- ==== Sys2Proof/Machine/FabricSend.lean ====
section
/-! DEFINITION. The way out of the device over the Nynal fabric: port facing, routes, packets and requests (R328 to
R340, Tables 12.1, 12.5, 12.6). -/
namespace Sys2Proof.Machine

/-! ### Topology -/

/-- Logical ID that port `p` of device `id` faces (Table 12.1). -/
def facing (id p : Nat) : Nat :=
  if p ≤ 6 then id / 8 * 8 + (id % 8 + p + 1) % 8 else (id / 8 + (p - 7) + 1) % 8 * 8 + id % 8

def farPort (p : Nat) : Nat := if p ≤ 6 then 6 - p else 7 + (6 - (p - 7))

/-- The port of device `id` that faces device `to`, when they are neighbours. -/
def portTo (id to_ : Nat) : Option Nat := (List.range 14).find? (fun p => facing id p == to_)

def State.port (s : State) (p : Nat) : Port := NMap.getD s.fab.ports p {}
def State.setPort (s : State) (p : Nat) (q : Port) : State :=
  { s with fab := { s.fab with ports := NMap.put s.fab.ports p q } }
def State.portUp (s : State) (p : Nat) : Bool := (s.port p).st == 3

/-- The link at port `p` of device `id` is UP according to the own ports and the latest notices (R337). -/
def State.linkUp (s : State) (id p : Nat) : Bool :=
  if id = s.ownId then s.portUp p
  else if facing id p = s.ownId then s.portUp (farPort p)
  else !s.fab.downLinks.contains (id, p) && !s.fab.downLinks.contains (facing id p, farPort p)

/-! ### Routes (Table 12.5) -/

def State.routeRec (s : State) (dst : Nat) : List Byte :=
  slice ((s.img.body? 0x0005 0xFF 0).getD []) (64 * dst) 64

/-- First-hop port and intermediate of the primary or alternate route to `dst`. -/
def State.route (s : State) (dst : Nat) (alt : Bool) : Nat × Nat :=
  let r := s.routeRec dst
  if alt then (fieldAt r 2 1, fieldAt r 3 1) else (fieldAt r 0 1, fieldAt r 1 1)

/-- Every link of the route is UP. -/
def State.usable (s : State) (dst : Nat) (alt : Bool) : Bool :=
  let (p, via) := s.route dst alt
  if p > 13 || s.isSpare then false
  else if via = 0xFF then s.portUp p
  else s.portUp p && (match portTo via dst with | some q => s.linkUp via q | none => false)

/-- The route a source uses now: primary, else alternate, else none (R337). -/
def State.chooseRoute (s : State) (dst : Nat) : Option Bool :=
  if s.usable dst false then some false else if s.usable dst true then some true else none

/-! ### Packets -/

/-- LENGTH of the header: the bytes that follow, or the bytes asked for. -/
def Packet.len (p : Packet) : Nat := if p.op = 1 || p.op = 9 then p.want else p.data.length

def Packet.bytes (p : Packet) : List Byte :=
  leBytes 1 p.dst ++ leBytes 1 p.src ++ leBytes 1 p.op ++ leBytes 1 (b2n p.alt) ++ leBytes 2 p.seq
    ++ leBytes 2 p.status ++ leBytes 8 p.addr ++ leBytes 4 p.len ++ leBytes 4 p.rtag ++ leBytes 4 p.aux
    ++ leBytes 4 0 ++ p.data

def parsePacket (bs : List Byte) : Packet :=
  let op := fieldAt bs 2 1
  let len := fieldAt bs 16 4
  { dst := fieldAt bs 0 1, src := fieldAt bs 1 1, op := op, alt := bit (fieldAt bs 3 1) 0, seq := fieldAt bs 4 2,
    status := fieldAt bs 6 2, addr := fieldAt bs 8 8, rtag := fieldAt bs 20 4, aux := fieldAt bs 24 4,
    want := if op = 1 || op = 9 then len else 0,
    data := if op = 1 || op = 9 then [] else slice bs 32 len }

/-- Bytes a packet takes on the link, read from its header. -/
def packetSize (bs : List Byte) : Nat :=
  let op := fieldAt bs 2 1
  if op = 1 || op = 9 then 32 else 32 + fieldAt bs 16 4

/-- Virtual channel of an OP (Table 12.2; DESIGN CHOICE, log entry 12: the spec names the four channels and not which
packet takes which): requests, responses, collective data, signals. -/
def vcOf (op : Nat) : Nat :=
  if op = 1 || op = 3 || op = 9 then 0 else if op = 7 then 2 else if op = 5 then 3 else 1

/-- The 256-byte payloads of a packet, zero padded. -/
def payloads : Nat → List Byte → List (List Byte)
  | 0, _ => []
  | fuel + 1, bs => if bs.isEmpty then [] else slice bs 0 256 :: payloads fuel (bs.drop 256)

def packetFrames (p : Packet) : List TxFrame :=
  match payloads (p.bytes.length / 256 + 1) p.bytes with
  | [] => []
  | a :: r => TxFrame.mk 1 (vcOf p.op) a :: r.map (fun x => TxFrame.mk 2 (vcOf p.op) x)

/-- Put a packet in line on a port. -/
def State.enqueue (s : State) (port : Nat) (p : Packet) : State :=
  let q := s.port port
  let vc := vcOf p.op
  s.setPort port { q with txq := NMap.put q.txq vc (NMap.getD q.txq vc [] ++ packetFrames p) }

/-- Send a packet of this device by the route in force; none is sent without a usable route. -/
def State.sendPacket (s : State) (p : Packet) : State :=
  match s.chooseRoute p.dst with
  | some alt => s.enqueue (s.route p.dst alt).1 { p with alt := alt }
  | none => s

/-! ### Requests (R339, R340) -/

/-- NO_ROUTE is raised and shown (R337). -/
def State.noRoute (s : State) (dst : Nat) : State :=
  let s := (s.raise .nynEvent 3).issue 0x0601
  match portTo s.ownId dst with
  | some p => s.rputN .nynLastInfo (dst * 2 ^ 24 + p)
  | none => s.rputN .nynLastInfo (dst * 2 ^ 24)

/-- Send a new request: it is numbered, kept until answered, and put in line; without a usable route it ends with
0x0601. -/
def State.sendRequest (s : State) (p : Packet) (why : Purpose) : Except State State :=
  match s.chooseRoute p.dst with
  | none => .error (s.noRoute p.dst)
  | some alt =>
    let seq := NMap.getD s.fab.nextSeq p.dst 0
    let pkt := { p with src := s.ownId, seq := seq, rtag := s.fab.nextRtag, alt := alt }
    let s := { s with fab := { s.fab with
      nextSeq := NMap.put s.fab.nextSeq p.dst ((seq + 1) % 65536), nextRtag := (s.fab.nextRtag + 1) % 2 ^ 32,
      reqs := s.fab.reqs ++ [FabReq.mk pkt why 0] } }
    Except.ok (s.enqueue (s.route p.dst alt).1 pkt)

def State.findReq (s : State) (rtag : Nat) : Option FabReq := s.fab.reqs.find? (fun r => r.pkt.rtag == rtag)

/-- A request is answered or given up. -/
def State.dropReq (s : State) (rtag : Nat) : State :=
  { s with fab := { s.fab with reqs := s.fab.reqs.filter (fun r => r.pkt.rtag != rtag) } }

/-- Send an unanswered request again by the route in force (R340). -/
def State.resendReq (s : State) (rtag : Nat) : State :=
  match s.findReq rtag with
  | none => s
  | some r =>
    match s.chooseRoute r.pkt.dst with
    | none => s
    | some alt =>
      let s := { s with fab := { s.fab with
        reqs := s.fab.reqs.map (fun (x : FabReq) =>
          if x.pkt.rtag = rtag then { x with pkt := { x.pkt with alt := alt }, resends := x.resends + 1 } else x) } }
      (s.count .nynResends).enqueue (s.route r.pkt.dst alt).1 { r.pkt with alt := alt }

/-- Resend every unanswered request to destinations whose route has changed, in E2E_SEQ order (R340). -/
def State.resendRerouted (s : State) (before : State) : State :=
  (s.fab.reqs.filter (fun r => before.chooseRoute r.pkt.dst != s.chooseRoute r.pkt.dst)).foldl
    (fun s r => s.resendReq r.pkt.rtag) s

end Sys2Proof.Machine
end

