-- ==== Sys2Proof/Machine/Cairns.lean ====
section
/-! DEFINITION. Cairns: references, ownership, adds and sets, registered waits and host watches (R276 to R297). -/
namespace Sys2Proof.Machine

/-! ### References (Table 10.4, R277) -/

/-- The domain of a local cairn is on; host cairns lie in the spine. -/
def State.cairnOn (s : State) (i : Nat) : Bool :=
  if i < 1152 then s.domainOn (domTile (i / 48))
  else if i < 1408 then s.domainOn (domDma ((i - 1152) / 64))
  else true

/-- The partition a local cairn belongs to; cairn 63 of a complex belongs to the service channel. -/
def State.cairnOwner (s : State) (i : Nat) : Option Nat :=
  if i < 1152 then s.ownerTile (i / 48)
  else if i < 1408 then s.ownerChan ((i - 1152) / 64) ((i - 1152) % 64)
  else s.ownerHostCairn (i - 1408)

/-- A local reference used by partition `p`: the index, or the code it fails with. -/
def State.localRef (s : State) (p ref : Nat) : Except Nat Nat :=
  if ref ≥ 1472 then .error 0x0502
  else if !s.cairnOn ref then .error 0x0502
  else if s.cairnOwner ref ≠ some p then .error 0x0503
  else .ok ref

/-! ### Values (R278, R281) -/

def State.cairn (s : State) (i : Nat) : Nat := NMap.getD s.crn.vals i 0

/-- Condition with target T: the value is at or above it (R278). -/
def holds (v t : Nat) : Bool := decide ((v + 2 ^ 32 - t % 2 ^ 32) % 2 ^ 32 < 2 ^ 31)

/-- Set a value and mark the waits whose condition then holds (R281). -/
def State.cairnPut (s : State) (i v : Nat) : State :=
  let v := v % 2 ^ 32
  { s with crn := { s.crn with
      vals := NMap.put s.crn.vals i v,
      waits := s.crn.waits.map (fun (w : Wait) =>
        if w.ref == i && holds v w.target then { w with fired := true } else w) } }

def AddSrc.tally : AddSrc → Nat
  | .dma _ _ => 0x1012
  | .program _ _ => 0x1013
  | .host => 0x1014
  | .scaler => 0x1015
  | .hardware => 0x1016

/-- ADD to a local cairn, counted by source (R278). -/
def State.cairnAdd (s : State) (i n : Nat) (src : AddSrc) : State :=
  (s.tally1 src.tally).cairnPut i (s.cairn i + n)

/-- SET a local cairn, logged once (R278). -/
def State.cairnSet (s : State) (i v : Nat) (origin originIdx : Nat) : State :=
  let old := s.cairn i
  let s := s.logAdd { kind := 1, origin := origin, originIdx := originIdx, tkind := 1, target := i, old := old,
                      new := v % 2 ^ 32, part := (s.cairnOwner i).getD 0xFF }
  s.cairnPut i v

/-! ### Adds by reference, local or remote (R294) -/

/-- What an add by reference came to. -/
inductive AddRes where
  | done
  | sent
  | failed (code : Nat)
  deriving DecidableEq, Repr

/-- A remote add through CRN_REMOTE entry `e` (R294): it travels to TARGET_DEV as a SIGNAL packet. -/
def State.remoteAdd (s : State) (p e n : Nat) (src : AddSrc) : AddRes × State :=
  let r := s.rnat .crnRemote e
  if !bit r 31 then (.failed 0x0502, s)
  else if bits r 30 28 ≠ p then (.failed 0x0503, s)
  else
    let dst := bits r 24 19
    if !bit s.members dst then (.failed 0x0602, s)
    else
      let a := n % 2 ^ 32 + (bits r 10 0) * 2 ^ 32 + (bits r 27 25) * 2 ^ 48
      let pkt : Packet := { dst := dst, op := 5, addr := a }
      match s.sendRequest pkt (.signal p src) with
      | .ok s => (.sent, s.tally1 src.tally)
      | .error s => (.failed 0x0601, s)

/-- ADD `n` to the cairn that `ref` names, for partition `p` (R277, R294). -/
def State.addRef (s : State) (p ref n : Nat) (src : AddSrc) : AddRes × State :=
  if bit ref 15 then
    if bits ref 14 10 ≠ 0 then (.failed 0x0502, s) else s.remoteAdd p (bits ref 9 0) n src
  else
    match s.localRef p ref with
    | .ok i => (.done, s.cairnAdd i n src)
    | .error c => (.failed c, s)

/-- A hardware add: one that fails is dropped, counted and recorded (R277). -/
def State.hwAdd (s : State) (p ref n : Nat) (src : AddSrc := .hardware) : State :=
  match s.addRef p ref n src with
  | (.failed c, s) =>
    if c = 0x0601 then (s.count .crnRefused).raise .crnEvent 1
    else ((s.count .crnRefused).raise .crnEvent 1).issue c
  | (_, s) => s

/-- An add to an error cairn register: bit 16 VALID, bits 15:0 the reference. -/
def State.errCairn (s : State) (p : Option Nat) (v : Nat) : State :=
  match p with
  | some p => if bit v 16 then s.hwAdd p (bits v 15 0) 1 else s
  | none => s

/-! ### Waits (R281 to R289) -/

/-- Register a wait of partition `p`; the condition is judged at once. -/
def State.registerWait (s : State) (who : Waiter) (p ref target : Nat) : State :=
  { s with crn := { s.crn with
      waits := s.crn.waits ++ [{ who := who, ref := ref, target := target, part := p, fired := holds (s.cairn ref) target }] } }

def State.cancelWait (s : State) (who : Waiter) : State :=
  { s with crn := { s.crn with waits := s.crn.waits.filter (fun w => decide (w.who ≠ who)) } }

def State.waitOf (s : State) (who : Waiter) : Option Wait := s.crn.waits.find? (fun w => decide (w.who = who))

/-- The check of a reference that is waited on (R277, R283). -/
def State.waitRef (s : State) (p ref : Nat) : Except Nat Nat :=
  if bit ref 15 then .error 0x0504 else s.localRef p ref

/-- Kind, index and reference as CRN_LAST_TMO_WAITER records a waiter. -/
def Waiter.word (w : Waiter) (ref : Nat) : Nat :=
  (match w with
    | .tileCtx t c => 0x01000000 + (t * 4 + c) * 65536
    | .dmaCh d n => 0x02000000 + (d * 64 + n) * 65536
    | .update u => 0x03000000 + u * 65536
    | .hostWatch h => 0x04000000 + h * 65536
    | .coll e => 0x05000000 + e * 65536) + ref

/-- Record the expiry of a wait (R288) and unregister it. The code is issued once, by the unit that ends the waiter;
for a host watch, here. -/
def State.recordTimeout (s : State) (w : Wait) : State :=
  let v := w.target * 2 ^ 32 + s.cairn w.ref
  let word := w.who.word w.ref
  let s := (s.cancelWait w.who).rputN .crnLastTmoWaiter word
  let s := ((s.rputN .crnLastTmoVal v).count .crnTimeouts).raise .crnEvent 0
  (s.issue 0x0501).logAdd (hwEntry 4 0x0501 w.part 1 w.ref v word)

/-! ### Host watches (R291 to R293) -/

/-- The watch fires (R291): mirror write while its window still stands, vector, FIRED, and ENABLE clears. -/
def State.fireWatch (s : State) (h : Nat) : State :=
  match NMap.get? s.crn.watches h, s.waitOf (.hostWatch h) with
  | some w, some wt =>
    if !wt.fired then s
    else
      let v := s.cairn (1408 + h)
      let s := match w.mirror with
        | some a =>
          (match s.target a with
          | .ok (.here l) =>
            (match s.region? l with
            | some (.valley n) =>
              (match NMap.get? s.hif.windows n with
              | some g => s.emit (.hostWrite g.fn (g.bus + (l - valleyBase n)) (leBytes 4 v))
              | none => s)
            | _ => s)
          | _ => s)
        | none => s
      let s := s.sendVector w.fn w.vector
      let s := (s.cancelWait (.hostWatch h)).rputN .crnHcWstat (s.rnat .crnHcWstat h ||| 1) h
      let s := s.rputN .crnHcWcfg (s.rnat .crnHcWcfg h - (if s.rbit .crnHcWcfg 16 h then 65536 else 0)) h
      { s with crn := { s.crn with watches := NMap.del s.crn.watches h } }
  | _, _ => s

/-- Cancel an armed watch. -/
def State.cancelWatch (s : State) (h : Nat) : State :=
  let s := s.cancelWait (.hostWatch h)
  { s with crn := { s.crn with watches := NMap.del s.crn.watches h } }

/-- The watch times out (R288): TIMED_OUT, ENABLE clears, and its vector is sent. -/
def State.watchTimeout (s : State) (h : Nat) (w : Wait) : State :=
  let vec := NMap.get? s.crn.watches h
  let s := s.recordTimeout w
  let s := s.rputN .crnHcWstat (s.rnat .crnHcWstat h ||| 2) h
  let s := s.rputN .crnHcWcfg (s.rnat .crnHcWcfg h - (if s.rbit .crnHcWcfg 16 h then 65536 else 0)) h
  let s := { s with crn := { s.crn with watches := NMap.del s.crn.watches h } }
  match vec with
  | some v => s.sendVector v.fn v.vector
  | none => s

/-- The mirror address of host cairn `h` lies in a Valley window of partition `r` and is 4-byte aligned. -/
def State.mirrorOk (s : State) (r : PartRec) (h : Nat) : Bool :=
  let a := s.rnat .crnHcMirror h
  match s.target a with
  | .ok (.here l) => decide (l % 4 = 0) && isValley l && (s.region? l).isSome && s.windowOk r.id l 4 2
  | _ => false

/-- A write of CRN_HC_WCFG with ENABLE set is refused for a vector outside the partition's range or a bad mirror
address (R291). -/
def State.watchRefused (s : State) (h v : Nat) : Bool :=
  match s.ownerHostCairn h with
  | none => true
  | some p =>
    match s.part? p with
    | none => true
    | some r =>
      let vec := bits v 10 0
      !(decide (r.msixBase ≤ vec) && decide (vec < r.msixBase + r.msixCount)) || (bit v 17 && !s.mirrorOk r h)

/-- The effect of an accepted write of CRN_HC_WCFG (R291, R293). -/
def State.watchWritten (s : State) (h : Nat) : State :=
  let v := s.rnat .crnHcWcfg h
  let s := s.cancelWatch h
  if !bit v 16 then s
  else
    match s.ownerHostCairn h with
    | none => s
    | some p =>
      let fn := ((s.part? p).map (·.vf)).getD 0
      let w : HostWatch := { vector := bits v 10 0, mirror := if bit v 17 then some (s.rnat .crnHcMirror h) else none, fn := fn }
      let s := { s with crn := { s.crn with watches := NMap.put s.crn.watches h w } }
      s.registerWait (.hostWatch h) p (1408 + h) (s.rnat .crnHcTarget h)

/-- Every cairn to 0, and every wait and host watch cancelled: a full commit (R279). -/
def State.clearCairns (s : State) : State := { s with crn := {} }

/-- The cairns of one domain to 0 at its power-on (R279). -/
def State.clearDomainCairns (s : State) (lo n : Nat) : State :=
  { s with crn := { s.crn with vals := s.crn.vals.filter (fun e => !(decide (lo ≤ e.1) && decide (e.1 < lo + n))) } }

end Sys2Proof.Machine
end

