-- ==== Sys2Proof/Machine/Float.lean ====
section
/-! DEFINITION. Number formats and arithmetic (R241, R254, R255, R258 to R260): values are decoded to exact dyadic
numbers, computed exactly and rounded once. -/
namespace Sys2Proof.Machine

/-! ### Formats (Table 9.2) -/

/-- A floating-point format: mantissa bits, bias, and whether it is E4M3, which has no infinity. -/
structure Fmt where
  ebits : Nat
  mbits : Nat
  bias : Nat
  e4m3 : Bool := false
  deriving DecidableEq, Repr

def fE4M3 : Fmt := { ebits := 4, mbits := 3, bias := 7, e4m3 := true }
def fE5M2 : Fmt := { ebits := 5, mbits := 2, bias := 15 }
def fFP16 : Fmt := { ebits := 5, mbits := 10, bias := 15 }
def fBF16 : Fmt := { ebits := 8, mbits := 7, bias := 127 }
def fFP32 : Fmt := { ebits := 8, mbits := 23, bias := 127 }

/-- The floating-point format of a code; none for the integer formats and other codes. -/
def fmtOf : Nat → Option Fmt
  | 1 => some fE4M3
  | 2 => some fE5M2
  | 3 => some fFP16
  | 4 => some fBF16
  | 5 => some fFP32
  | _ => none

/-- Element size in bytes of a format code. -/
def fmtSize : Nat → Nat
  | 1 => 1
  | 2 => 1
  | 3 => 2
  | 4 => 2
  | 5 => 4
  | 6 => 1
  | _ => 4

/-- Sign bit of a pattern. -/
def Fmt.signBit (f : Fmt) : Nat := 2 ^ (f.ebits + f.mbits)

/-- Pattern of the largest finite value. -/
def Fmt.maxFinite (f : Fmt) : Nat :=
  if f.e4m3 then 2 ^ (f.ebits + f.mbits) - 2 else 2 ^ (f.ebits + f.mbits) - 2 ^ f.mbits - 1

def Fmt.infPat (f : Fmt) : Nat := 2 ^ (f.ebits + f.mbits) - 2 ^ f.mbits

/-- The canonical NaN (Table 9.2). -/
def Fmt.nanPat (f : Fmt) : Nat :=
  if f.e4m3 then 2 ^ (f.ebits + f.mbits) - 1
  else f.infPat + 2 ^ (f.mbits - 1)

/-- Exponent of the smallest normal number. -/
def Fmt.emin (f : Fmt) : Int := 1 - (f.bias : Int)

/-! ### Values -/

/-- A decoded value: NaN, an infinity, or plus or minus `m` times two to the `e`. -/
inductive FVal where
  | nan
  | inf (neg : Bool)
  | fin (neg : Bool) (m : Nat) (e : Int)
  deriving DecidableEq, Repr

def fdecode (f : Fmt) (p : Nat) : FVal :=
  let neg := bit p (f.ebits + f.mbits)
  let ex := p / 2 ^ f.mbits % 2 ^ f.ebits
  let ma := p % 2 ^ f.mbits
  if f.e4m3 && ex = 15 && ma = 7 then .nan
  else if !f.e4m3 && ex = 2 ^ f.ebits - 1 then if ma = 0 then .inf neg else .nan
  else if ex = 0 then .fin neg ma (f.emin - f.mbits)
  else .fin neg (2 ^ f.mbits + ma) ((ex : Int) - f.bias - f.mbits)

/-- Value of an element of a format code: INT8 is two's complement. -/
def elemVal (code p : Nat) : FVal :=
  match fmtOf code with
  | some f => fdecode f p
  | none =>
    let v := signed 8 p
    .fin (decide (v < 0)) v.natAbs 0

/-- A result pattern with the sticky flags it raises (R260). -/
structure FRes where
  v : Nat
  nv : Bool := false
  of : Bool := false
  uf : Bool := false
  deriving DecidableEq, Repr

/-- How to round: RMODE (0 RNE, 1 SR, 2 RTZ), the draw used by SR, and whether an overflow gives the largest finite
value (SAT of R255, or IEEE round toward zero in a vector operation). -/
structure Rnd where
  mode : Nat := 0
  draw : Nat := 0
  sat : Bool := false
  deriving DecidableEq, Repr

/-- Infinity of a sign in a format, which E4M3 lacks (R255). -/
def Fmt.infOf (f : Fmt) (neg sat : Bool) : Nat :=
  let s := if neg then f.signBit else 0
  if f.e4m3 then if sat then s + f.maxFinite else f.nanPat else s + f.infPat

/-- Overflow of a finite value (R255). -/
def Fmt.overflow (f : Fmt) (neg sat : Bool) : FRes :=
  { v := if sat then (if neg then f.signBit else 0) + f.maxFinite else f.infOf neg false, of := true }

/-- The discarded part moves the truncated result up: RNE to nearest with ties to even, SR when the draw is below the
discarded 32-bit fraction (R259), RTZ never. `rem` is in units of 2^-sh of a last place, plus a sticky remainder. -/
def roundUp (r : Rnd) (q rem sh : Nat) (sticky : Bool) : Bool :=
  match r.mode with
  | 0 => decide (2 * rem > 2 ^ sh) || (decide (2 * rem = 2 ^ sh) && (sticky || q % 2 == 1))
  | 1 => decide (r.draw < rem * 2 ^ 32 / 2 ^ sh)
  | _ => false

/-- Integer part, remainder and shift of m times 2^e. -/
def splitAt (m : Nat) (e : Int) : Nat × Nat × Nat :=
  if e ≥ 0 then (m * 2 ^ e.toNat, 0, 0)
  else (m / 2 ^ e.natAbs, m % 2 ^ e.natAbs, e.natAbs)

/-- Round the exact magnitude `m` times 2^e (with `sticky`: a little more than that) once to a format. -/
def Fmt.round (f : Fmt) (r : Rnd) (neg : Bool) (m : Nat) (e : Int) (sticky : Bool := false) : FRes :=
  let s := if neg then f.signBit else 0
  if m = 0 && !sticky then { v := s }
  else
    let top := e + (Nat.log2 m : Nat)
    let ex := max top f.emin
    let (q, rem, sh) := splitAt m (e - (ex - f.mbits))
    let up := roundUp r q rem sh sticky
    let pat := ((ex - f.emin).toNat * 2 ^ f.mbits) + q + b2n up
    if pat > f.maxFinite then f.overflow neg r.sat
    else { v := s + pat, uf := decide (top < f.emin) && (decide (rem ≠ 0) || sticky) }

/-- Round to an integer of `w` bits with saturation (R254, R255). -/
def roundInt (w : Nat) (r : Rnd) (neg : Bool) (m : Nat) (e : Int) : FRes :=
  let (q, rem, sh) := splitAt m e
  let mag : Int := ((q + b2n (roundUp r q rem sh false) : Nat) : Int)
  let v := if neg then -mag else mag
  let hi : Int := 2 ^ (w - 1) - 1
  let lo : Int := -(2 ^ (w - 1))
  { v := unsignedOf w (max lo (min hi v)), of := decide (v > hi) || decide (v < lo) }

/-- Round a value to a format code, an exact zero of `zeroPos` giving +0 (R255). -/
def outRound (code : Nat) (r : Rnd) (zeroPos : Bool) : FVal → FRes
  | .nan =>
    match fmtOf code with
    | some f => { v := f.nanPat }
    | none => { v := 0 }
  | .inf neg =>
    match fmtOf code with
    | some f => { v := f.infOf neg r.sat }
    | none =>
      let w := if code = 6 then 8 else 32
      { v := if neg then 2 ^ (w - 1) else 2 ^ (w - 1) - 1, of := true }
  | .fin neg m e =>
    match fmtOf code with
    | some f => f.round r (neg && !(zeroPos && m == 0)) m e
    | none => roundInt (if code = 6 then 8 else 32) r neg m e

/-! ### Exact sums and products -/

/-- Magnitudes at a common exponent, as signed integers. -/
def finInt (neg : Bool) (m : Nat) (e base : Int) : Int :=
  let v : Int := ((m * 2 ^ (e - base).toNat : Nat) : Int)
  if neg then -v else v

/-- The exact sum of two finite values; a zero sum of unlike signs is +0. -/
def finAdd (na : Bool) (ma : Nat) (ea : Int) (nb : Bool) (mb : Nat) (eb : Int) : FVal :=
  let base := min ea eb
  let v := finInt na ma ea base + finInt nb mb eb base
  if v = 0 then .fin (na && nb) 0 base else .fin (decide (v < 0)) v.natAbs base

/-- Exact sum; opposite infinities give NaN. -/
def FVal.add : FVal → FVal → FVal
  | .nan, _ => .nan
  | _, .nan => .nan
  | .inf a, .inf b => if a = b then .inf a else .nan
  | .inf a, .fin _ _ _ => .inf a
  | .fin _ _ _, .inf b => .inf b
  | .fin na ma ea, .fin nb mb eb => finAdd na ma ea nb mb eb

def FVal.neg : FVal → FVal
  | .nan => .nan
  | .inf a => .inf !a
  | .fin a m e => .fin (!a) m e

/-- Exact product; an infinity times zero gives NaN. -/
def FVal.mul : FVal → FVal → FVal
  | .nan, _ => .nan
  | _, .nan => .nan
  | .inf a, .inf b => .inf (a != b)
  | .inf a, .fin b m _ => if m = 0 then .nan else .inf (a != b)
  | .fin a m _, .inf b => if m = 0 then .nan else .inf (a != b)
  | .fin a m e, .fin b n f => .fin (a != b) (m * n) (e + f)

def FVal.isNan : FVal → Bool
  | .nan => true
  | _ => false

/-! ### FP32 operations (R258) -/

def f32v (p : Nat) : FVal := fdecode fFP32 p

/-- IEEE: round toward zero gives the largest finite value on overflow. -/
def Rnd.ieee (r : Rnd) : Rnd := { r with sat := decide (r.mode = 2) }

/-- Finish an FP32 operation: `bad` says that no operand was NaN, so that a NaN result is an invalid operation. -/
def f32Finish (r : Rnd) (noNan : Bool) : FVal → FRes
  | .nan => { v := fFP32.nanPat, nv := noNan }
  | .inf neg => { v := fFP32.infOf neg false }
  | .fin neg m e => fFP32.round r.ieee neg m e

def f32AddR (r : Rnd) (a b : Nat) : FRes :=
  f32Finish r (!(f32v a).isNan && !(f32v b).isNan) ((f32v a).add (f32v b))
def f32SubR (r : Rnd) (a b : Nat) : FRes :=
  f32Finish r (!(f32v a).isNan && !(f32v b).isNan) ((f32v a).add (f32v b).neg)
def f32MulR (r : Rnd) (a b : Nat) : FRes :=
  f32Finish r (!(f32v a).isNan && !(f32v b).isNan) ((f32v a).mul (f32v b))
/-- VA times VB plus VC, rounded once. -/
def f32FmaR (r : Rnd) (a b c : Nat) : FRes :=
  f32Finish r (!(f32v a).isNan && !(f32v b).isNan && !(f32v c).isNan) (((f32v a).mul (f32v b)).add (f32v c))

/-- FP32 under RNE, as patterns. -/
def f32Add (a b : Nat) : Nat := (f32AddR {} a b).v
def f32Sub (a b : Nat) : Nat := (f32SubR {} a b).v
def f32Mul (a b : Nat) : Nat := (f32MulR {} a b).v

/-- Order of two FP32 patterns that are not NaN, with -0 below +0. -/
def f32Key (p : Nat) : Int := if bit p 31 then -((p % 2 ^ 31 : Nat) : Int) - 1 else (p : Int)
def f32Lt (a b : Nat) : Bool := decide (f32Key a < f32Key b)

def f32MinMax (wantMin : Bool) (a b : Nat) : FRes :=
  if (f32v a).isNan || (f32v b).isNan then { v := fFP32.nanPat }
  else { v := if f32Lt a b == wantMin then a else b }

/-- Extra bits a quotient or root is computed to before it is rounded. -/
def extra : Nat := 400

/-- a / b of finite magnitudes, rounded once. -/
def f32Quot (r : Rnd) (neg : Bool) (ma : Nat) (ea : Int) (mb : Nat) (eb : Int) : FRes :=
  let n := ma * 2 ^ extra
  fFP32.round r.ieee neg (n / mb) (ea - eb - extra) (n % mb != 0)

def f32DivR (r : Rnd) (a b : Nat) : FRes :=
  match f32v a, f32v b with
  | .nan, _ => { v := fFP32.nanPat }
  | _, .nan => { v := fFP32.nanPat }
  | .inf _, .inf _ => { v := fFP32.nanPat, nv := true }
  | .inf x, .fin y _ _ => { v := fFP32.infOf (x != y) false }
  | .fin x _ _, .inf y => { v := if x != y then fFP32.signBit else 0 }
  | .fin x ma ea, .fin y mb eb =>
    if mb = 0 then if ma = 0 then { v := fFP32.nanPat, nv := true } else { v := fFP32.infOf (x != y) false }
    else f32Quot r (x != y) ma ea mb eb
def f32Div (a b : Nat) : Nat := (f32DivR {} a b).v

def f32One : Nat := 0x3F800000
def f32RcpR (r : Rnd) (a : Nat) : FRes := f32DivR r f32One a

/-- Write m·2^e with an even exponent. -/
def evenExp (m : Nat) (e : Int) : Nat × Int := if e % 2 = 0 then (m, e) else (m * 2, e - 1)

def f32SqrtR (r : Rnd) (a : Nat) : FRes :=
  match f32v a with
  | .nan => { v := fFP32.nanPat }
  | .inf neg => if neg then { v := fFP32.nanPat, nv := true } else { v := fFP32.infPat }
  | .fin neg m e =>
    if m = 0 then { v := a }
    else if neg then { v := fFP32.nanPat, nv := true }
    else
      let (m, e) := evenExp m e
      let n := m * 2 ^ (2 * extra)
      let q := Nat.sqrt n
      fFP32.round r.ieee false q (e / 2 - extra) (q * q != n)

def f32RsqrtR (r : Rnd) (a : Nat) : FRes :=
  match f32v a with
  | .nan => { v := fFP32.nanPat }
  | .inf neg => if neg then { v := fFP32.nanPat, nv := true } else { v := 0 }
  | .fin neg m e =>
    if m = 0 then { v := fFP32.infOf neg false }
    else if neg then { v := fFP32.nanPat, nv := true }
    else
      let (m, e) := evenExp m e
      let n := 2 ^ (2 * extra)
      let q := Nat.sqrt (n / m)
      fFP32.round r.ieee false q (-(e / 2) - extra) (q * q * m != n)

/-- Fixed-point precision of the two transcendental operations. -/
def fx : Nat := 640

/-- ln 2 in units of 2^-fx: the sum of 1 / (k 2^k). -/
def ln2Sum : Nat → Nat → Nat → Nat
  | 0, _, acc => acc
  | n + 1, k, acc => ln2Sum n (k + 1) (acc + 2 ^ fx / (k * 2 ^ k))
def ln2Fx : Nat := ln2Sum (fx + 8) 1 0

/-- exp(y) for y in units of 2^-fx, below 1, by its series. -/
def expSum : Nat → Nat → Nat → Nat → Nat → Nat
  | 0, _, _, _, acc => acc
  | n + 1, k, y, t, acc => expSum n (k + 1) y (t * y / 2 ^ fx / k) (acc + t)
def expFx (y : Nat) : Nat := expSum 160 1 y (2 ^ fx) 0

/-- Two to the x, correctly rounded: whole x are exact, and no other result is a dyadic number, so that the series,
taken far beyond the place where it could touch a rounding boundary, decides (R258). -/
def f32Exp2R (r : Rnd) (a : Nat) : FRes :=
  match f32v a with
  | .nan => { v := fFP32.nanPat }
  | .inf neg => if neg then { v := 0 } else { v := fFP32.infPat }
  | .fin neg m e =>
    let x := finInt neg m (max e (-(fx : Int))) (-(fx : Int))
    let x := max (-(2000 * 2 ^ fx : Int)) (min (2000 * 2 ^ fx) x)
    let n := x / (2 ^ fx : Int)
    let fr := (x % (2 ^ fx : Int)).toNat
    if fr = 0 then fFP32.round r.ieee false 1 n
    else fFP32.round r.ieee false (expFx (fr * ln2Fx / 2 ^ fx)) (n - fx) true

/-- Binary digits of log2(y) for y in [1, 2) in units of 2^-fx, by squaring. -/
def log2Digits : Nat → Nat → Nat → Nat
  | 0, _, acc => acc
  | n + 1, y, acc =>
    let z := y * y / 2 ^ fx
    if z ≥ 2 * 2 ^ fx then log2Digits n (z / 2) (acc * 2 + 1) else log2Digits n z (acc * 2)

/-- Base-2 logarithm, correctly rounded: exact for powers of two. -/
def f32Log2R (r : Rnd) (a : Nat) : FRes :=
  match f32v a with
  | .nan => { v := fFP32.nanPat }
  | .inf neg => if neg then { v := fFP32.nanPat, nv := true } else { v := fFP32.infPat }
  | .fin neg m e =>
    if m = 0 then { v := fFP32.infOf true false }
    else if neg then { v := fFP32.nanPat, nv := true }
    else
      let l := Nat.log2 m
      let n : Int := e + l
      if m = 2 ^ l then fFP32.round r.ieee (decide (n < 0)) n.natAbs 0
      else
        let fr := log2Digits 160 (m * 2 ^ fx / 2 ^ l) 0
        let v : Int := n * 2 ^ 160 + fr
        if v ≥ 0 then fFP32.round r.ieee false v.toNat (-160) true
        else fFP32.round r.ieee true (v.natAbs - 1) (-160) true

/-- An unsigned integer as FP32 under RNE. -/
def f32OfNat (n : Nat) : Nat := (fFP32.round {} false n 0).v

/-- FP32 value rounded down to a whole number, negative and NaN values giving 0. -/
def f32Floor (p : Nat) : Nat :=
  match f32v p with
  | .fin false m e => (splitAt m e).1
  | _ => 0

/-- The part of a piecewise-linear curve at and above its first point, each operation in the order written (R93). -/
def curveFrom : List (Nat × Nat) → Nat → Nat
  | [], _ => 0
  | [(_, y)], _ => y
  | (x0, y0) :: (x1, y1) :: r, x =>
    if x < x1 then f32Add y0 (f32Mul (f32Sub y1 y0) (f32Div (f32OfNat (x - x0)) (f32OfNat (x1 - x0))))
    else curveFrom ((x1, y1) :: r) x

/-- A piecewise-linear curve at `x`; FP32 values as patterns (R93). -/
def evalCurve (pts : List (Nat × Nat)) (x : Nat) : Nat :=
  match pts with
  | [] => 0
  | (x0, y0) :: _ => if x ≤ x0 then y0 else curveFrom pts x

/-! ### Generators (R261, R262) -/

def rotl32 (v n : Nat) : Nat := (v * 2 ^ n ||| v / 2 ^ (32 - n)) % 2 ^ 32

def mixRound (k : Nat) (ab : Nat × Nat) (q : Nat) : Nat × Nat :=
  let (a, b) := ab
  let a := (a + (rotl32 b 5 ^^^ (b / 8)) + (k ^^^ q)) % 2 ^ 32
  let b := (b + (rotl32 a 11 ^^^ (a / 128)) + (k + q)) % 2 ^ 32
  (a, b)

/-- The mixing function of a 32-bit key and a 64-bit input. -/
def mix (k x : Nat) : Nat :=
  let x := x % 2 ^ 64
  let r := [0x9e3779b9, 0x7f4a7c15, 0xf39cc060, 0x5cb7e6a1].foldl (mixRound (k % 2 ^ 32)) (x % 2 ^ 32, x / 2 ^ 32)
  r.1 ^^^ r.2

/-! ### Accumulator entries (R248 to R257) -/

/-- An exact entry: X as an integer in units of 2^-32, and its flags. -/
structure ExactE where
  x : Int := 0
  nan : Bool := false
  pinf : Bool := false
  ninf : Bool := false
  deriving DecidableEq, Repr

/-- Add to X, saturating at the ends of the 96-bit range (R249). -/
def ExactE.addX (a : ExactE) (v : Int) : ExactE :=
  let t := a.x + v
  if t > 2 ^ 95 - 1 then { a with x := 2 ^ 95 - 1, pinf := true }
  else if t < -(2 ^ 95) then { a with x := -(2 ^ 95), ninf := true }
  else { a with x := t }

/-- Add one exact product (R248, R249). -/
def ExactE.addProduct (a : ExactE) : FVal → ExactE
  | .nan => { a with nan := true }
  | .inf neg => if neg then { a with ninf := true } else { a with pinf := true }
  | .fin neg m e => a.addX (finInt neg m e (-32))

/-- Combine with an extended form (R257). -/
def ExactE.combine (a b : ExactE) : ExactE :=
  let t := a.addX b.x
  { t with nan := t.nan || b.nan, pinf := t.pinf || b.pinf, ninf := t.ninf || b.ninf }

/-- The 16 bytes of an exact extended form. -/
def ExactE.bytes (a : ExactE) : List Byte :=
  leBytes 12 (unsignedOf 96 a.x) ++ leBytes 4 (b2n a.nan + 2 * b2n a.pinf + 4 * b2n a.ninf)

def ExactE.ofBytes (bs : List Byte) : ExactE :=
  let f := fieldAt bs 12 1
  { x := signed 96 (fieldAt bs 0 12), nan := bit f 0, pinf := bit f 1, ninf := bit f 2 }

/-- A compensated entry (R251): FP32 patterns. -/
structure CompE where
  s : Nat := 0
  c : Nat := 0
  deriving DecidableEq, Repr

/-- The sum and its error by the steps of R251. -/
def twoSum (s p : Nat) : Nat × Nat :=
  let t := f32Add s p
  let bp := f32Sub t s
  let ap := f32Sub t bp
  (t, f32Add (f32Sub s ap) (f32Sub p bp))

def f32Finite (p : Nat) : Bool := match f32v p with | .fin _ _ _ => true | _ => false

/-- Add an FP32 value, or combine with a pair whose c is `c'` (R251, R252, R257). -/
def CompE.addPair (a : CompE) (p c' : Nat) (pair : Bool) : CompE :=
  let (t, e) := twoSum a.s p
  if f32Finite t then
    { s := t, c := f32Add (if pair then f32Add a.c c' else a.c) e }
  else { s := t, c := 0 }

def CompE.addProduct (a : CompE) (v : FVal) : CompE := a.addPair (outRound 5 {} false v).v 0 false
def CompE.combine (a b : CompE) : CompE := a.addPair b.s b.c true
def CompE.bytes (a : CompE) : List Byte := leBytes 4 a.s ++ leBytes 4 a.c
def CompE.ofBytes (bs : List Byte) : CompE := { s := fieldAt bs 0 4, c := fieldAt bs 4 4 }

/-- The value ACCOUT rounds, with SCALE (R254, R255); `true` marks an invalid operation. -/
def ExactE.outVal (a : ExactE) (scale : Int) : FVal × Bool :=
  if a.nan then (.nan, false)
  else if a.pinf && a.ninf then (.nan, true)
  else if a.pinf then (.inf false, false)
  else if a.ninf then (.inf true, false)
  else (.fin (decide (a.x < 0)) a.x.natAbs (scale - 32), false)

def FVal.scale (v : FVal) (k : Int) : FVal :=
  match v with
  | .fin n m e => .fin n m (e + k)
  | w => w

def CompE.outVal (a : CompE) (scale : Int) : FVal × Bool := (((f32v a.s).add (f32v a.c)).scale scale, false)

end Sys2Proof.Machine
end

