-- ==== Sys2Proof/Machine/Completion.lean ====
section
/-! DEFINITION. Completions of host commands and requests, as they become ready to be written (R474, R482, Tables 18.7,
18.8). -/
namespace Sys2Proof.Machine

def State.fnSt (s : State) (f : Nat) : HostFn := NMap.getD s.hif.fns f {}
def State.setFn (s : State) (f : Nat) (x : HostFn) : State := { s with hif := { s.hif with fns := NMap.put s.hif.fns f x } }

/-- A completion entry becomes ready for function `f`. -/
def State.ready (s : State) (f : Nat) (c : Cpl) : State :=
  let x := s.fnSt f
  s.setFn f { x with ready := x.ready ++ [c] }

/-- A command completes with RESULT, DETAIL and CODE (Table 18.8). A code that the command itself ends with is issued
where it arises. -/
def State.complete (s : State) (f tag result : Nat) (detail code v32 v64 : Nat := 0) : State :=
  s.ready f { tag := tag, kind := 1, result := result, detail := detail, code := code, v32 := v32, v64 := v64 }

def State.cplDone (s : State) (f tag : Nat) : State := s.complete f tag 0
/-- Completes with ERROR and a code that has been issued. -/
def State.cplError (s : State) (f tag code : Nat) : State := s.complete f tag 1 0 code
/-- NOT_PERMITTED with a DETAIL of Table 18.8. -/
def State.cplNotPermitted (s : State) (f tag detail : Nat) : State := s.complete f tag 3 detail

/-- Stop answering commands of function `f`: its reservations and unwritten completions are gone (R476, R477). -/
def State.dropCpls (s : State) (f : Nat) : State :=
  let x := s.fnSt f
  s.setFn f { x with ready := [], taken := [], reserved := 0 }

end Sys2Proof.Machine
end

