-- ==== Sys2Proof/Machine/Ledger.lean ====
section
/-! DEFINITION. The Scaler ledger: its checks, the planning pass and the ledger commands (R136 to R155). -/
namespace Sys2Proof.Machine

/-! ### Entries -/

def parseEntry (b : List Byte) : LEntry := {
  tensor := fieldAt b 0 2, kind := fieldAt b 2 1, flags := fieldAt b 3 1, disp := bits (fieldAt b 4 1) 7 4,
  hint := bits (fieldAt b 4 1) 3 0, dtype := fieldAt b 5 1, owner := fieldAt b 6 1, stage := fieldAt b 7 1,
  mbatch := fieldAt b 8 1, consumer := fieldAt b 9 1, size := fieldAt b 12 4, produce := fieldAt b 16 2,
  first := fieldAt b 18 2, last := fieldAt b 20 2, input := fieldAt b 22 2, work := fieldAt b 24 4,
  ctr := fieldAt b 28 4, use := fieldAt b 32 8, seg := fieldAt b 40 8, segLen := fieldAt b 48 2,
  key := fieldAt b 50 1, stream := fieldAt b 51 1 }

def LEntry.recomputable (e : LEntry) : Bool := bit e.flags 0
def LEntry.hasInput (e : LEntry) : Bool := bit e.flags 2
/-- PREFER Crest, Slope, Foothill or Valley: the tier. -/
def preferTier (hint : Nat) : Option Nat := if 4 ≤ hint && hint ≤ 7 then some (hint - 4) else none
/-- Tier of USE_ADDR (0 Crest, 1 Slope). -/
def LEntry.homeTier (e : LEntry) : Nat := if e.use < slopeBase 0 then 0 else 1
def LEntry.rawUnits (e : LEntry) : Nat := ceilDiv e.size 65536
/-- Distance of a phase after PRODUCE, modulo a step. -/
def LEntry.after (e : LEntry) (ph : Nat) : Nat := (ph + 65536 - e.produce) % 65536
def LEntry.gap (e : LEntry) : Nat := e.after e.first

/-- RATIO of a DTYPE in 1/256 (SCL_PLAN_RATIO). -/
def State.ratio (s : State) (dtype : Nat) : Nat :=
  let v := s.rnat .sclPlanRatio
  if dtype = 5 then bits v 31 24 else if dtype = 3 || dtype = 4 then bits v 23 16 else bits v 15 8

/-- Units of a coded holding for `r` raw units (R211). -/
def State.codedUnits (s : State) (dtype r : Nat) : Nat := ceilDiv (r * s.ratio dtype) 256
def State.entryCoded (s : State) (e : LEntry) : Nat := s.codedUnits e.dtype e.rawUnits

/-! ### Fetch streams -/

def State.streamValid (s : State) (st : Nat) : Bool := s.rbit .sclStreamCfg 56 st
def State.streamChan (s : State) (st : Nat) : Nat × Nat :=
  let v := s.rnat .sclStreamCfg st
  (bits v 55 54, bits v 53 48)

/-! ### Checks (R138 to R141) -/

def hintReserved (h : Nat) : Bool := h == 3 || decide (h ≥ 8)

/-- The conditions of R138 and R139 on one entry that give 0x0403; `repeated` says that an earlier entry has its
TENSOR. -/
def State.entryBad (s : State) (p : Nat) (b : List Byte) (e : LEntry) (repeated : Bool) : Bool :=
  let ownsTile (t : Nat) : Bool := s.ownerTile t == some p
  let ch := s.streamChan e.stream
  !(e.kind == 1 || e.kind == 2) || bits e.flags 7 3 ≠ 0 || e.disp > 5 || hintReserved e.hint || e.dtype = 0 || e.dtype > 7
    || !zeroAt b 10 2 || !zeroAt b 52 8
    || e.owner > 23 || e.consumer > 23 || !ownsTile e.owner || !ownsTile e.consumer
    || e.stage > 7 || e.mbatch > 63 || e.key > 15 || e.stream > 63 || e.size = 0
    || !s.streamValid e.stream || s.ownerChan ch.1 ch.2 != some p
    || repeated
    || e.use % 65536 ≠ 0 || !(e.use < centralEnd || inFast e.use) || !s.windowOk p e.use e.size 7
    || (e.recomputable && e.segLen = 0) || (bit e.flags 1 && !e.recomputable)
    || (e.hint = 4 && e.homeTier ≠ 0) || (e.hint = 5 && e.homeTier ≠ 1)
    || ((e.disp = 2 || e.disp = 4) && (e.dtype = 6 || e.dtype = 7))
    || (e.disp ≠ 0 && !(e.hint = 0 || e.hint = 2 || (e.hint = 1 && e.disp = 1)))
    || (e.disp = 5 && (!e.recomputable || e.hint = 2))
    || (e.kind = 1 && !(e.produce < e.first && e.first ≤ e.last))
    || (e.kind = 2 && !(e.first ≤ e.last && e.last < e.produce))

/-- The conditions of R140. -/
def inputBad (es : List LEntry) (i : Nat) (e : LEntry) : Bool :=
  e.hasInput &&
    (match es[e.input]? with
    | none => true
    | some x => e.input == i || x.disp == 5 || decide (x.after x.last < x.after e.first))

/-- First failing entry of the content checks. -/
def State.entriesCheck (s : State) (p : Nat) (all : List LEntry) : List (List Byte) → Nat → List Nat → Option (Nat × Nat)
  | [], _, _ => none
  | b :: r, i, seen =>
    let e := parseEntry b
    if s.entryBad p b e (seen.contains e.tensor) then some (0x0403, i)
    else if inputBad all i e then some (0x0404, i)
    else s.entriesCheck p all r (i + 1) (e.tensor :: seen)

def chunks64 : Nat → List Byte → List (List Byte)
  | 0, _ => []
  | n + 1, bs => slice bs 0 64 :: chunks64 n (bs.drop 64)

def headerBad (h : List Byte) (p : Nat) : Bool :=
  let mode := fieldAt h 6 1
  let tier := fieldAt h 7 1
  let n := fieldAt h 8 4
  slice h 0 4 ≠ [0x4C, 0x44, 0x47, 0x52] || fieldAt h 4 1 ≠ 1 || fieldAt h 5 1 ≠ p
    || !((mode = 1 && tier = 0) || (mode = 2 && (tier = 2 || tier = 3))) || n = 0 || n > 65536 || !zeroAt h 22 38
    || fieldAt h 60 4 ≠ crc32c (slice h 0 60)

/-- All checks of a ledger as read, in the order of R141: the code and the entry it names. -/
def State.ledgerCheck (s : State) (p : Nat) (bs : List Byte) : Option (Nat × Option Nat) :=
  if headerBad (slice bs 0 64) p then some (0x0401, none)
  else
    let cs := chunks64 (fieldAt bs 8 4) (bs.drop 64)
    match cs.findIdx? (fun b => fieldAt b 60 4 != crc32c (slice b 0 60)) with
    | some i => some (0x0402, some i)
    | none => (s.entriesCheck p (cs.map parseEntry) cs 0 []).map (fun r => (r.1, some r.2))

/-! ### Times (R146) -/

/-- Whole pu of a curve value in µs, if it is a usable time. -/
def puOf (period y : Nat) : Option Nat :=
  match f32v y with
  | .fin neg m e =>
    if neg || m = 0 then some 0
    else
      let v := if e ≥ 0 then ceilDiv (m * 2 ^ e.toNat * 40000) period else ceilDiv (m * 40000) (period * 2 ^ e.natAbs)
      if v > 65535 then none else some v
  | _ => none

def State.curve? (s : State) (p id sub : Nat) : Option (List (Nat × Nat)) :=
  (s.img.body? 0x000A p (id * 256 + sub)).map curvePoints

def State.curveTime (s : State) (p period id sub x : Nat) : Option Nat :=
  match s.curve? p id sub with
  | some pts => puOf period (evalCurve pts x)
  | none => none

/-- Out and back times of a disposition, or the recompute time of REGROW; none when infeasible under R146. -/
def State.times (s : State) (p period : Nat) (e : LEntry) (tier d : Nat) : Option (Nat × Nat) :=
  let h := e.homeTier
  let raw := ceilDiv e.size 1024
  let coded := s.entryCoded e * 64
  let two (o b x : Nat) : Option (Nat × Nat) :=
    match s.curveTime p period 1 o x, s.curveTime p period 1 b x with
    | some a, some c => some (a, c)
    | _, _ => none
  match d with
  | 1 => some (0, 0)
  | 2 => two (h * 16 + h) (h * 16 + h) raw
  | 3 => two (h * 16 + tier) (tier * 16 + h) raw
  | 4 => two (h * 16 + tier) (tier * 16 + h) coded
  | 5 => (s.curveTime p period 2 0 e.work).map (fun t => (0, t))
  | _ => none

/-! ### The pass -/

/-- Everything the pass knows of an entry: its fixed data, the times of each disposition, and its present choice. -/
structure PEntry where
  e : LEntry
  coded : Nat
  /-- times by disposition code -/
  t : NMap (Nat × Nat)
  disp : Nat := 1
  tier : Nat
  fixed : Bool := false
  cls : Nat := 1
  overridden : Bool := false
  deriving DecidableEq, Repr, Inhabited

def PEntry.time (x : PEntry) (d : Nat) : Nat × Nat := NMap.getD x.t d (0, 0)
def PEntry.cost (x : PEntry) (d : Nat) : Nat := (x.time d).1 + (x.time d).2

/-- An interval of phases: start and length. -/
abbrev Intv := Int × Nat

def Intv.meetsBucket (iv : Intv) (b : Nat) : Bool :=
  decide (0 < iv.2) &&
    (decide (iv.2 ≥ 65536) || decide (((256 * (b : Int) - iv.1) % 65536).toNat < iv.2)
      || decide (((iv.1 - 256 * (b : Int)) % 65536).toNat < 256))

def Intv.meets (a b : Intv) : Bool :=
  decide (0 < a.2) && decide (0 < b.2) &&
    (decide (((b.1 - a.1) % 65536).toNat < a.2) || decide (((a.1 - b.1) % 65536).toNat < b.2))

/-- Start of the raw interval that ends at L, as a distance after PRODUCE: F - t_back, or P for KEEP, and earlier for
the input of REGROW entries (R147). -/
def rawStart (all : List PEntry) (i : Nat) (x : PEntry) (d : Nat) : Int :=
  let back := (x.time d).2
  let own : Int := if d = 1 then 0 else (x.e.gap : Int) - back
  (all.filter (fun y => y.disp == 5 && y.e.hasInput && y.e.input == i)).foldl
    (fun m y => min m ((x.e.after y.e.first : Int) - (y.time 5).2 - back)) own

/-- Raw intervals of an entry at USE_ADDR under disposition `d`. -/
def rawIntv (all : List PEntry) (i : Nat) (x : PEntry) (d : Nat) : List Intv :=
  let p : Int := x.e.produce
  let st := rawStart all i x d
  let tail : Intv := (p + st, ((x.e.after x.e.last : Int) - st + 1).toNat)
  if d = 1 || d = 5 then [tail] else [(p, (x.time d).1), tail]

/-- Fast-pool occupancy of an entry in bucket `b` (Table 5.5, R147). -/
def occ (all : List PEntry) (i : Nat) (x : PEntry) (d b : Nat) : Nat :=
  let raw := ((rawIntv all i x d).filter (fun iv => iv.meetsBucket b)).length * x.e.rawUnits
  let codedIv : Intv := (x.e.produce, x.e.gap)
  raw + (if d = 2 && codedIv.meetsBucket b then x.coded else 0)

/-- Lower-tier occupancy in bucket `b`. -/
def lowOcc (x : PEntry) (d b : Nat) : Nat :=
  let iv : Intv := (x.e.produce, x.e.gap)
  if iv.meetsBucket b then if d = 3 then x.e.rawUnits else if d = 4 then x.coded else 0 else 0

def indexed (all : List PEntry) : List (Nat × PEntry) := (List.range all.length).zip all

def occupancy (all : List PEntry) (b : Nat) : Nat := ((indexed all).map (fun q => occ all q.1 q.2 q.2.disp b)).sum

/-- Peak lower-tier occupancy of tier `t`. -/
def lowPeak (all : List PEntry) (t : Nat) : Nat :=
  ((List.range 256).map (fun b =>
    ((all.filter (fun x => x.tier == t)).map (fun x => lowOcc x x.disp b)).sum)).foldl max 0

/-- Feasibility beyond R138 (R146, R148). -/
def State.feasible (s : State) (p mode : Nat) (all : List PEntry) (i : Nat) (x : PEntry) (d : Nat) : Bool :=
  let margin := bits (s.rnat .sclPlanMargin) 15 0
  let quota := if x.tier = 2 then s.fhQuota p else s.vlQuota p
  (NMap.get? x.t d).isSome &&
    (match d with
    | 1 => true
    | 2 => decide (1 ≤ x.e.dtype) && decide (x.e.dtype ≤ 5) && decide (x.e.gap ≥ x.cost 2 + margin)
    | 3 => mode == 2 && decide (x.e.gap ≥ x.cost 3 + margin) && decide (lowPeak (all.set i { x with disp := 3 }) x.tier ≤ quota)
    | 4 => mode == 2 && decide (1 ≤ x.e.dtype) && decide (x.e.dtype ≤ 5) && decide (x.e.gap ≥ x.cost 4 + margin)
        && decide (lowPeak (all.set i { x with disp := 4 }) x.tier ≤ quota)
    | 5 => x.e.recomputable && x.e.hint != 2 && decide (x.e.gap ≥ (x.time 5).2 + margin)
        && all.all (fun y => !(y.disp == 5 && y.e.hasInput && y.e.input == i))
        && decide (((((indexed all).filter (fun q => q.1 != i && q.2.disp == 5 && q.2.e.owner == x.e.owner)).map
              (fun q => (q.2.time 5).2)).sum) + (x.time 5).2 ≤ bits (s.rnat .sclRegrowCap) 15 0)
    | _ => false)

/-- How a pass ends: its entries, or a code with the entry and bucket it names. -/
inductive PassEnd where
  | ok (es : List PEntry)
  | fail (es : List PEntry) (code : Nat) (entry bucket : Option Nat)
  deriving DecidableEq, Repr

/-- Starting dispositions (Table 5.6), in ascending entry index. -/
def State.startDisp (s : State) (p mode : Nat) (strict : Bool) : Nat → Nat → List PEntry → PassEnd
  | 0, _, all => .ok all
  | fuel + 1, i, all =>
    match all[i]? with
    | none => .ok all
    | some x =>
      let next (y : PEntry) := State.startDisp s p mode strict fuel (i + 1) (all.set i y)
      if x.e.hint = 1 then next { x with disp := 1, fixed := true }
      else if x.e.disp ≠ 0 then
        if s.feasible p mode all i x x.e.disp then next { x with disp := x.e.disp, fixed := true }
        else .fail all 0x0405 (some i) none
      else if x.e.hint = 6 || x.e.hint = 7 then
        let y := { x with tier := x.e.hint - 4 }
        if s.feasible p mode all i y 4 then next { y with disp := 4, fixed := true }
        else if s.feasible p mode all i y 3 then next { y with disp := 3, fixed := true }
        else if strict then .fail all 0x0406 (some i) none
        else next { x with overridden := true }
      else next { x with cls := if x.e.hint = 4 || x.e.hint = 5 then 2 else 1 }

/-- A candidate of R150. -/
structure Cand where
  i : Nat
  d : Nat
  cls : Nat
  saved : Nat
  den : Nat

/-- `a` is chosen before `b`. -/
def Cand.better (a b : Cand) : Bool :=
  if a.cls ≠ b.cls then decide (a.cls < b.cls)
  else if a.saved * b.den ≠ b.saved * a.den then decide (a.saved * b.den > b.saved * a.den)
  else if a.i ≠ b.i then decide (a.i < b.i) else decide (a.d < b.d)

def State.candidates (s : State) (p mode : Nat) (all : List PEntry) (b : Nat) : List Cand :=
  (indexed all).flatMap (fun q =>
    let (i, x) := q
    let cur := occ all i x x.disp b
    if x.fixed || cur = 0 then []
    else ([1, 2, 3, 4, 5].filter (fun d => s.feasible p mode all i x d && decide (occ all i x d b < cur))).map
      (fun d => { i := i, d := d, cls := x.cls, saved := cur - occ all i x d b, den := x.cost d - x.cost x.disp + 1 }))

def bestCand : List Cand → Option Cand
  | [] => none
  | a :: r => some (r.foldl (fun x y => if y.better x then y else x) a)

/-- Lowest bucket of greatest occupancy, and that occupancy. -/
def peakBucket (all : List PEntry) : Nat × Nat :=
  (List.range 256).foldl (fun m b => let o := occupancy all b; if o > m.2 then (b, o) else m) (0, occupancy all 0)

/-- The loop of R150. -/
def State.passLoop (s : State) (p mode : Nat) (strict : Bool) (budget : Nat) : Nat → List PEntry → PassEnd
  | 0, all => .fail all 0x0405 none none
  | fuel + 1, all =>
    let (b, o) := peakBucket all
    if o ≤ budget * 16 then .ok all
    else
      match bestCand (s.candidates p mode all b) with
      | none => .fail all 0x0405 none (some b)
      | some c =>
        if c.cls = 2 && strict then .fail all 0x0406 (some c.i) (some b)
        else
          let x := all.getD c.i default
          State.passLoop s p mode strict budget fuel
            (all.set c.i { x with disp := c.d, overridden := x.overridden || decide (c.cls = 2) })

/-- USE_OVERLAP (R152): the lower index of the first pair whose raw intervals and ranges meet. -/
def useOverlap (all : List PEntry) : Option Nat :=
  (indexed all).findSome? (fun q =>
    let iq := rawIntv all q.1 q.2 q.2.disp
    if ((indexed all).any (fun r =>
        decide (q.1 < r.1) && overlaps q.2.e.use (q.2.e.rawUnits * granule) r.2.e.use (r.2.e.rawUnits * granule)
          && (rawIntv all r.1 r.2 r.2.disp).any (fun a => iq.any (fun b => a.meets b))))
    then some q.1 else none)

def PEntry.word (x : PEntry) : PlanWord := {
  disp := x.disp, overridden := x.overridden, fixed := x.fixed,
  tier := if x.disp = 3 || x.disp = 4 then x.tier else x.e.homeTier,
  lead := if x.disp = 1 then 0 else (x.time x.disp).2 }

def passInfo (all : List PEntry) : PassInfo :=
  let n (d : Nat) := (all.filter (fun x => x.disp == d)).length
  { peak := (peakBucket all).2, keep := n 1, pack := n 2, send := n 3, sendPack := n 4, regrow := n 5,
    overrides := (all.filter (fun x => x.overridden)).length, words := all.map PEntry.word }

def State.isStrict (s : State) (p : Nat) : Bool := ((s.part? p).map (·.strict)).getD false

/-- The pass over a ledger that has passed its checks (R146 to R152). -/
def State.planPass (s : State) (p period : Nat) (bs : List Byte) : PassEnd :=
  let mode := fieldAt bs 6 1
  let sendTier := if mode = 2 then fieldAt bs 7 1 else 2
  let mk (e : LEntry) : PEntry :=
    let tier := if e.hint = 6 || e.hint = 7 then e.hint - 4 else sendTier
    { e := e, coded := s.entryCoded e, tier := tier,
      t := [1, 2, 3, 4, 5].filterMap (fun d => (s.times p period e tier d).map (fun t => (d, t))) }
  let all := ((chunks64 (fieldAt bs 8 4) (bs.drop 64)).map parseEntry).map mk
  let strict := s.isStrict p
  let reg := s.rnat .sclPlanBudget p
  let share := s.shareUnits p / 16
  if reg > share then .fail all 0x0408 none none
  else
    match s.startDisp p mode strict (all.length + 1) 0 all with
    | .fail a c e b => .fail a c e b
    | .ok all =>
      match s.passLoop p mode strict (if reg = 0 then share else reg) (8 * all.length + 8) all with
      | .fail a c e b => .fail a c e b
      | .ok all =>
        match useOverlap all with
        | some i => .fail all 0x0409 (some i) none
        | none => .ok all

/-! ### Commands (Table 5.4) -/

def State.ledger (s : State) (p : Nat) : Ledger := NMap.getD s.scl.ledgers p {}
def State.setLedger (s : State) (p : Nat) (l : Ledger) : State :=
  { s with scl := { s.scl with ledgers := NMap.put s.scl.ledgers p l } }

/-- SCL_PLAN_INFO for a failure. -/
def planInfo (entry bucket : Option Nat) : Nat :=
  (match entry with | some i => 2 ^ 31 + i * 256 | none => 0) + (match bucket with | some b => 2 ^ 30 + b | none => 0)

/-- A check, the pass or the activation fails (Table 5.4). -/
def State.ledgerFailed (s : State) (p code : Nat) (entry bucket : Option Nat) : State :=
  let l := s.ledger p
  let s := s.setLedger p { l with st := .failed, planned := none, bytes := [] }
  let s := s.rputN .sclPlanInfo (planInfo entry bucket)
  let s := (s.issue code { part := p }).rputN .sclPlanLastErr code
  s.raise .sclLedgerEvent 1

/-- A ledger command is refused with 0x0407 (R142, Table 5.4). -/
def State.ledgerRefused (s : State) (p : Nat) (op : Nat) : Bool :=
  let l := s.ledger p
  let busy := decide (l.st = .planning) || decide (l.st = .planned)
  busy || (op ≠ 2 && (!((s.part? p).map (·.training)).getD false || !(decide (s.cad.state = .locked))))

/-- Read the ledger at SCL_LEDGER_ADDR of the writing path (R136); `ext` are the bytes when it lies in Valley. -/
def State.readLedger (s : State) (p addr : Nat) (ext : List Byte) : Except Nat (List Byte) :=
  match s.target addr with
  | .error c => .error c
  | .ok (.there _ _) => .error 0x0302
  | .ok (.here a) =>
    if a % 64 ≠ 0 then .error 0x0401
    else
      let get (n : Nat) : List Byte := if isValley a then slice ext 0 n else s.rd a n
      match s.rangeCheck p a 64 1 with
      | .error c => .error c
      | .ok _ =>
        let h := get 64
        if headerBad h p then .ok h
        else
          let n := 64 + 64 * fieldAt h 8 4
          match s.rangeCheck p a n 1 with
          | .error c => .error c
          | .ok _ => .ok (get n)

/-- SUBMIT and DRY_RUN once accepted: the ledger is read and checked, and the pass begins. -/
def State.ledgerSubmit (s : State) (p addr : Nat) (dry : Bool) (ext : List Byte) : State :=
  let l := s.ledger p
  let s := s.setLedger p { l with st := .planning, dry := dry, period := s.cad.period, planned := none }
  match s.readLedger p addr ext with
  | .error c => s.ledgerFailed p c none none
  | .ok bs =>
    match s.ledgerCheck p bs with
    | some (c, e) => s.ledgerFailed p c e none
    | none => s.setLedger p { s.ledger p with bytes := bs }

/-- WITHDRAW (Table 5.4). -/
def State.ledgerWithdraw (s : State) (p : Nat) : State :=
  let l := s.ledger p
  let s := s.setLedger p { l with st := .idle, withdraw := l.inForce.isSome }
  s.logAdd (hwEntry 0 (part := p) (new := (l.inForce.map (·.id)).getD 0))

/-- An override is logged with origin HARDWARE and counted (R151, R157). `hold` is 0x1FFFF without a holding. -/
def overrideEntry (p hold entry old new : Nat) : LogEntry := hwEntry 0 0 p 4 (hold + entry * 2 ^ 32) old new

def State.countOverride (s : State) (n : Nat) : State :=
  if n = 0 then s else ((s.count .sclOverrideCount n).tally1 0x100A n).raise .sclLedgerEvent 3

/-- The pass ends (Table 5.4, R151, R154). -/
def State.passEnd (s : State) (p : Nat) : State :=
  let l := s.ledger p
  if l.st ≠ .planning then s
  else
    match s.planPass p l.period l.bytes with
    | .fail es c e b => (s.setLedger p { l with pass := passInfo es }).ledgerFailed p c e b
    | .ok es =>
      let info := passInfo es
      let plan : Plan := {
        id := fieldAt l.bytes 12 4, mode := fieldAt l.bytes 6 1, sendTier := fieldAt l.bytes 7 1,
        start := fieldAt l.bytes 16 6, period := l.period, entries := es.map (·.e), words := info.words }
      let s := s.setLedger p
        { l with st := if l.dry then .dryDone else .planned, planned := if l.dry then none else some plan,
                 pass := info, bytes := [] }
      let chosen := (indexed es).filter (fun q => q.2.overridden)
      let s := chosen.foldl (fun s q => s.logAdd (overrideEntry p 0x1FFFF q.1 (if q.2.disp = 1 then 3 else 1) q.2.disp)) s
      let s := s.countOverride info.overrides
      (s.logAdd (hwEntry 0 (part := p) (old := info.peak) (new := plan.id))).raise .sclLedgerEvent 0

end Sys2Proof.Machine
end

