-- ==== Sys2Proof/Machine/Alloc.lean ====
section
/-! DEFINITION. Allocation in the pool and the eviction machine, FSM 0x01 (R119 to R129, R156 to R159, Table 18.5). -/
namespace Sys2Proof.Machine

/-! ### Allocation -/

/-- What an attempt to allocate came to. -/
inductive AllocRes where
  | got (id : Nat)
  | scrub
  | none
  | error (code : Nat)
  deriving DecidableEq, Repr

/-- A request for a holding. -/
structure AllocReq where
  part : Nat
  tier : Nat
  /-- required base, or 0 -/
  addr : Nat := 0
  stack : Nat := 0xFF
  size : Nat
  hint : Nat := 0
  by_ : HoldBy := .host
  objLen : Nat := 0
  dtype : Nat := 0
  rawLen : Nat := 0

/-- Quota of a lower tier in units, and the units held there. -/
def State.quotaLeft (s : State) (p tier : Nat) : Nat :=
  if tier = 2 then s.fhQuota p - s.fhUnits p else s.vlQuota p - s.vlUnits p

/-- Make the holding where it fits, without eviction (R114, R120 to R122, R125). -/
def State.allocTry (s : State) (r : AllocReq) : AllocRes × State :=
  let mk (b : Nat) : AllocRes × State :=
    let (id, s) := s.makeHold {
      owner := r.part, hint := r.hint, base := b, size := r.size, by_ := r.by_, objLen := r.objLen, dtype := r.dtype,
      rawLen := r.rawLen }
    (.got id, s)
  if s.tableFull then (.error 0x030E, s)
  else if r.tier ≥ 2 && r.size > s.quotaLeft r.part r.tier then (.error 0x030C, s)
  else if r.tier ≤ 1 && r.hint = 1 && s.partUnits r.part + r.size > s.shareUnits r.part then (.error 0x030B, s)
  else if r.addr ≠ 0 then
    if !s.rangeFree r.addr r.size then (.none, s)
    else if s.rangeClean r.part r.addr r.size then mk r.addr else (.scrub, s)
  else
    match s.place r.part r.tier r.stack r.size true with
    | some b => mk b
    | none => if (s.place r.part r.tier r.stack r.size false).isSome then (.scrub, s) else (.none, s)

/-- The allocation stays within POOL_SHARE (R122). -/
def State.guaranteed (s : State) (r : AllocReq) : Bool :=
  decide (r.tier ≤ 1) && decide (s.partUnits r.part + r.size ≤ s.shareUnits r.part)

/-! ### Victims (R126, R128) -/

/-- Local ranges that the descriptor of a channel in progress names. -/
def Chan.ranges (c : Chan) : List (Nat × Nat) :=
  if c.st = .run then
    let d := c.desc
    match d.op with
    | 1 | 3 | 4 | 5 | 6 => [(d.src % 2 ^ 56, d.length), (d.dst % 2 ^ 56, d.length)]
    | 2 => [(d.dst % 2 ^ 56, d.length)]
    | _ => [(d.src % 2 ^ 56, d.length), (d.dst % 2 ^ 56, d.length), (d.p0 + d.p1 * 2 ^ 32, 4)]
  else []

def State.named (s : State) (h : Holding) : Bool :=
  s.dma.chans.any (fun e => e.2.ranges.any (fun r => h.meets r.1 r.2))

/-- Holdings that are victims already. -/
def State.isVictim (s : State) (id : Nat) : Bool :=
  s.tier.evict.any (fun e => e.hold == id) || s.tier.evictQueue.any (fun e => e.1 == id)

def State.eligible (s : State) (p id : Nat) (h : Holding) : Bool :=
  h.owner != p && s.overShare h.owner && inFast h.base && h.state == 1 && h.hint != 1 && !h.gen && !s.isVictim id
    && !s.named h && !(s.isStrict h.owner && (preferTier h.hint).isSome)

/-- `a` is taken before `b`: greater age, then lower ID. -/
def State.victimBefore (s : State) (a b : Nat × Holding) : Bool :=
  let x := s.age a.2
  let y := s.age b.2
  decide (x > y) || (x == y && decide (a.1 < b.1))

def State.nextVictim (s : State) (p : Nat) : Option (Nat × Holding) :=
  (s.tier.holdings.filter (fun e => s.eligible p e.1 e.2)).foldl
    (fun m e => match m with | none => some e | some x => if s.victimBefore e x then some e else some x) none

/-- Add victims until they cover `need` units; none when they cannot. -/
def State.pickVictims (s : State) (p alloc : Nat) : Nat → Nat → Option State
  | _, 0 => some s
  | 0, _ => none
  | fuel + 1, need =>
    match s.nextVictim p with
    | none => none
    | some (id, h) =>
      State.pickVictims { s with tier := { s.tier with evictQueue := s.tier.evictQueue ++ [(id, alloc)] } } p alloc fuel
        (need - h.size)

/-! ### The eviction machine -/

def State.evictOf (s : State) (hold : Nat) : Option Evict := s.tier.evict.find? (fun e => e.hold == hold)
def State.setEvict (s : State) (x : Evict) : State :=
  { s with tier := { s.tier with evict := s.tier.evict.map (fun (e : Evict) => if e.hold = x.hold then x else e) } }
def State.dropEvict (s : State) (hold : Nat) : State :=
  { s with tier := { s.tier with evict := s.tier.evict.filter (fun e => e.hold != hold) } }

/-- A plan as the pass sees it, for R148 and R155 at run time. -/
def State.planPEs (s : State) (p : Nat) (pl : Plan) : List PEntry :=
    ((List.range pl.entries.length).zip pl.entries).map (fun q =>
      let w := pl.words.getD q.1 default
      let tier := match preferTier q.2.hint with | some t => if t ≥ 2 then t else pl.sendTier | none => pl.sendTier
      { e := q.2, coded := s.entryCoded q.2, tier := tier, disp := w.disp,
        t := [1, 2, 3, 4, 5].filterMap (fun d => (s.times p pl.period q.2 tier d).map (fun t => (d, t))) })

/-- The plan in force of a partition as the pass sees it. -/
def State.planEntries (s : State) (p : Nat) : List PEntry :=
  match (s.ledger p).inForce with
  | none => []
  | some pl => s.planPEs p pl

/-- REGROW of entry `e` is feasible under R148 against the plan in force. -/
def State.regrowFeasible (s : State) (p e : Nat) : Bool :=
  let all := s.planEntries p
  match all[e]? with
  | some x => s.feasible p (((s.ledger p).inForce.map (·.mode)).getD 1) all e x 5
  | none => false

/-- Lower-tier room for a victim: Foothill port 0 before port 1, then Valley where allowed (R156). -/
def State.evictDest (s : State) (p size : Nat) (valley : Bool) : Option Nat :=
  let fh := if size ≤ s.quotaLeft p 2 then s.place p 2 0xFF size true else none
  match fh with
  | some b => some b
  | none => if valley && size ≤ s.quotaLeft p 3 then s.place p 3 0xFF size true else none

/-- Units a route needs at its destination. -/
def State.routeUnits (s : State) (h : Holding) (route : Nat) : Nat :=
  if route = 2 || route = 4 then s.codedUnits h.dtype h.size else h.size

/-- A route applies to a victim (R156); `valley` is PARAM bit 0 of START, which CLASSIFY does not know and so allows. -/
def State.routeApplies (s : State) (h : Holding) (route : Nat) : Bool :=
  let packs := decide (1 ≤ h.dtype) && decide (h.dtype ≤ 5) && h.objLen == 0
    && (match h.by_ with | .raw _ => true | .page _ => true | .tree _ => true | _ => false)
  match route with
  | 1 => (match h.by_ with | .raw e => s.regrowFeasible h.owner e | .tree _ => true | _ => false)
  | 2 => packs && (s.evictDest h.owner (s.routeUnits h 2) true).isSome
  | 3 => (s.evictDest h.owner h.size true).isSome
  | 4 => packs
  | _ => false

/-- First applicable route of a CLASSIFY PARAM. -/
def State.classify (s : State) (h : Holding) (param : Nat) : Nat :=
  (([bits param 15 12, bits param 11 8, bits param 7 4, bits param 3 0].takeWhile (· != 0)).find?
    (fun r => s.routeApplies h r)).getD 0

/-- Complex whose service channel carries a route (R215). -/
def nearComplex (base : Nat) : Nat :=
  if slopeBase 0 ≤ base && base < slopeBase 8 then ((base - slopeBase 0) / slopeSize) / 2
  else if isFoothill base then (if base < foothillBase 1 then 2 else 3) else 0

/-- START: reserve the destination, mark the holding IN_FLIGHT and queue the route on the service channel; none when
there is no room. -/
def State.startRoute (s : State) (x : Evict) (h : Holding) (valley : Bool) : Option State :=
  let go (d : Option Nat) : State :=
    let s := s.setHold x.hold { h with state := 2, dest := d, destSize := s.routeUnits h x.route }
    { s with dma := { s.dma with routeQ := s.dma.routeQ ++ [(nearComplex h.base, x.hold)] } }
  match x.route with
  | 1 => some (go none)
  | 4 => (s.place h.owner (if h.base < centralEnd then 0 else 1) 0xFF (s.routeUnits h 4) true).map (fun b => go (some b))
  | 2 | 3 => (s.evictDest h.owner (s.routeUnits h x.route) valley).map (fun b => go (some b))
  | _ => none

/-- POOL_EXHAUSTED (R127). -/
def State.exhausted (s : State) (p : Nat) : State := (s.issue 0x030A { part := p }).raise .sclTierEvent 7

/-- A waiting host ALLOC is met if it can be; with no victim left to wait for, it ends with 0x030A. -/
def State.settleAlloc (s : State) (id : Nat) : State :=
  match s.tier.waits.find? (fun w => w.id == id) with
  | none => s
  | some w =>
    let drop (s : State) : State := { s with tier := { s.tier with waits := s.tier.waits.filter (fun v => v.id != id) } }
    match w.by_ with
    | .leg _ _ => s
    | .host fn tag =>
      match s.allocTry { part := w.part, tier := w.tier, addr := w.addr, stack := w.stack, size := w.size, hint := w.hint } with
      | (.got h, s) =>
        (drop s).complete fn tag 0 0 0 h (((s.hold? h).map (·.base)).getD 0)
      | (.error c, s) => ((drop s).issue c { part := w.part }).cplError fn tag c
      | (.scrub, s) => s
      | (.none, s) =>
        if s.tier.evict.any (fun e => e.alloc == id) || s.tier.evictQueue.any (fun e => e.2 == id) then s
        else ((drop s).exhausted w.part).cplError fn tag 0x030A

/-- The pool takes the next candidate for an allocation in place of a victim it has lost. -/
def State.replaceVictim (s : State) (alloc : Nat) : State :=
  match s.tier.waits.find? (fun w => w.id == alloc) with
  | none => s
  | some w =>
    match s.nextVictim w.part with
    | some (id, _) => { s with tier := { s.tier with evictQueue := s.tier.evictQueue ++ [(id, alloc)] } }
    | none => s.settleAlloc alloc

/-- One action of FSM 0x01 (Table 5.8) on an instance already in its next state. -/
def State.evictAction (s : State) (x : Evict) (h : Holding) (c : Cell) : State :=
  match c.action with
  | 1 =>
    let r := s.classify h c.param
    s.setEvict { x with route := r, pend := some (if r = 0 then 5 else if r = 2 || r = 3 then 2 else 3) }
  | 2 =>
    match s.startRoute x h (bit c.param 0) with
    | some s => s
    | none => s.setEvict { x with pend := some 5 }
  | 3 =>
    let s := s.count .sclEvictCount
    let s := if (preferTier h.hint).isSome then
        (s.logAdd (overrideEntry h.owner x.hold (match h.by_ with | .raw e => e | _ => 0xFFFFFFFF) 1 x.route)).countOverride 1
      else s
    s.settleAlloc x.alloc
  | 4 => (s.dropEvict x.hold).replaceVictim x.alloc
  | 5 => ((s.dropEvict x.hold).count .sclEvictFail).replaceVictim x.alloc
  | _ => s

/-- One event for the instance `x` of the holding `h` (R89 to R91). A terminal instance is removed after its action. -/
def State.evictEventOn (s : State) (x : Evict) (h : Holding) (ev : Nat) : State :=
  let p := h.owner
  if s.fsmDead p 1 x.st then s.dropEvict x.hold
  else match s.fsmTake p 1 x.st ev with
  | none => s.fsmNoTransition
  | some c =>
    let y := { x with st := c.next, pend := none }
    let s := ((s.setEvict y).fsmLog p 1 x.hold x.st ev c).evictAction y h c
    if s.fsmDead p 1 c.next then s.dropEvict x.hold else s

/-- One event for the instance of a holding. -/
def State.evictEvent (s : State) (hold ev : Nat) : State :=
  match s.evictOf hold, s.hold? hold with
  | some x, some h => s.evictEventOn x h ev
  | some _, none => s.dropEvict hold
  | none, _ => s

/-- Start instances for waiting victims, up to 256 at once, each with CHOSEN. -/
def State.startVictims : Nat → State → State
  | 0, s => s
  | fuel + 1, s =>
    match s.tier.evictQueue with
    | [] => s
    | (id, alloc) :: r =>
      if s.tier.evict.length ≥ 256 then s
      else
        let init := fsmInitial (s.fsmBody (((s.hold? id).map (·.owner)).getD 0) 1)
        let s := { s with tier := { s.tier with
          evictQueue := r, evict := s.tier.evict ++ [({ hold := id, st := init, alloc := alloc } : Evict)] } }
        State.startVictims fuel (s.evictEvent id 0)

def State.runVictims (s : State) : State := State.startVictims (s.tier.evictQueue.length + 8) s

/-- Events raised for the next clk arrive (Table 5.8). -/
def State.evictPending (s : State) : State :=
  ((s.tier.evict.filter (fun e => e.pend.isSome)).foldl
    (fun s e => match e.pend with | some ev => s.evictEvent e.hold ev | none => s) s).runVictims

/-- A descriptor names a chosen victim (R128). -/
def State.nameHold (s : State) (id : Nat) : State :=
  if (s.evictOf id).isSome then (s.evictEvent id 1).runVictims
  else { s with tier := { s.tier with evictQueue := s.tier.evictQueue.filter (fun e => e.1 != id) } }

/-! ### Allocation for generation KV (R123, R387) -/

/-- Write the tagged parts of a free range to zero, which give up their tags (R120). -/
def State.scrubRange (s : State) (base size : Nat) : State :=
  let hi := base + size * granule
  (s.tier.tags.foldl (fun (s : State) (t : Nat × Nat × Nat) =>
    let lo := max base t.1
    let e := min hi (t.1 + t.2.1 * granule)
    if lo < e then s.zero lo (e - lo) else s) s).untag base size

/-- Victims are chosen for the `n` units that allocation `id` wants and sent off, or none are; nothing is placed yet
(R126). -/
def State.evictFor (s : State) (p id n : Nat) : Option Nat × State :=
  (none, ((s.pickVictims p id (s.tier.holdings.length + 1) (max 1 (n - s.freeUnits))).map State.runVictims).getD s)

/-- A range of Slope for a page of generation work, zeroed first where that is needed. With no range free, victims are
chosen for it, unless some are being moved already, and the caller tries again. -/
def State.placeKv (s : State) (p stack size : Nat) : Option Nat × State :=
  match s.place p 1 stack size true with
  | some b => (some b, s)
  | none =>
    match s.place p 1 stack size false with
    | some b => (some b, s.scrubRange b size)
    | none =>
      if s.tier.evict.isEmpty && s.tier.evictQueue.isEmpty then
        State.evictFor { s with tier := { s.tier with nextAlloc := s.tier.nextAlloc + 1 } } p s.tier.nextAlloc size
      else (none, s)

/-- A holding for generation work in Slope; such holdings are never victims (R126). -/
def State.allocKv (s : State) (p stack size dtype : Nat) (by_ : HoldBy) : Option Nat × State :=
  if s.tableFull then (none, s)
  else
    match s.placeKv p stack size with
    | (some b, s) =>
      let (id, s) := s.makeHold {
        owner := p, base := b, size := size, by_ := by_, dtype := dtype, rawLen := size * granule, gen := true }
      (some id, s)
    | (none, s) => (none, s)

/-! ### The host's ALLOC and RELEASE -/

/-- An allocation command, once its operands hold (R122, R126, R127): it completes, waits, or ends with its code. -/
def State.hostAlloc (s : State) (fn tag : Nat) (r : AllocReq) : State :=
  let sure := s.guaranteed r
  match s.allocTry r with
  | (.got id, s) => s.complete fn tag 0 0 0 id (((s.hold? id).map (·.base)).getD 0)
  | (.error c, s) => (s.issue c { part := r.part }).cplError fn tag c
  | (res, s) =>
    let id := s.tier.nextAlloc
    let w : AllocWait := { id := id, by_ := .host fn tag, part := r.part, tier := r.tier, addr := r.addr, stack := r.stack,
                           size := r.size, hint := r.hint }
    let waiting (s : State) : State :=
      { s with tier := { s.tier with waits := s.tier.waits ++ [w], nextAlloc := id + 1 } }
    if res = .scrub then (waiting s).raise .sclTierEvent 8
    else
      let short := r.size - s.freeUnits
      match if sure && r.addr = 0 && short > 0 then (waiting s).pickVictims r.part id (s.tier.holdings.length + 1) short else none with
      | some s => s.runVictims
      | none => (s.exhausted r.part).cplError fn tag 0x030A

/-- Waiting host allocations in the order of R123 (R127): guaranteed before borrowing, by partition. -/
def State.retryAllocs (s : State) : State :=
  let ws := s.tier.waits.filter (fun w => match w.by_ with | .host _ _ => true | _ => false)
  let sure (w : AllocWait) : Bool := s.guaranteed { part := w.part, tier := w.tier, size := w.size }
  let order (ws : List AllocWait) : List AllocWait := (List.range 8).flatMap (fun p => ws.filter (fun w => w.part == p))
  (order (ws.filter sure) ++ order (ws.filter (fun w => !sure w))).foldl (fun s w => s.settleAlloc w.id) s

/-- The scrubber writes a tagged granule to zero and its tag goes (R120). -/
def State.zeroGranule (s : State) (base : Nat) : State :=
  let b := base / granule * granule
  if s.tier.tags.any (fun t => overlaps t.1 (t.2.1 * granule) b granule) then (s.zero b granule).untag b 1 else s

end Sys2Proof.Machine
end

