-- ==== Sys2Proof/Machine/Xpc.lean ====
section
/-! DEFINITION. The XPC exponent codec: elements, blocks, tables, objects, and their checks (R192 to R210). -/
namespace Sys2Proof.Machine.Xpc

/-! ### Elements (Table 7.1) -/

/-- Exponent width of a DTYPE. -/
def expBits : Nat → Nat
  | 1 => 4
  | 2 => 5
  | 3 => 5
  | _ => 8

/-- Mantissa width, one less than the residue width W. -/
def manBits : Nat → Nat
  | 1 => 3
  | 2 => 2
  | 3 => 10
  | 4 => 7
  | _ => 23

def elemBytes (dt : Nat) : Nat := if dt ≤ 2 then 1 else if dt ≤ 4 then 2 else 4
def resBits (dt : Nat) : Nat := manBits dt + 1
def alphabet (dt : Nat) : Nat := 2 ^ expBits dt + 1
/-- The symbol ZRUN. -/
def zrunSym (dt : Nat) : Nat := 2 ^ expBits dt

def symOf (dt v : Nat) : Nat := v / 2 ^ manBits dt % 2 ^ expBits dt
/-- Residue: sign, then mantissa (R192). -/
def resOf (dt v : Nat) : Nat := v / 2 ^ (manBits dt + expBits dt) * 2 ^ manBits dt + v % 2 ^ manBits dt
def joinElem (dt sym res : Nat) : Nat :=
  res / 2 ^ manBits dt * 2 ^ (manBits dt + expBits dt) + sym * 2 ^ manBits dt + res % 2 ^ manBits dt

/-- Elements of a byte string, little-endian. -/
def elems (n : Nat) : Nat → List Byte → List Nat
  | 0, _ => []
  | k + 1, bs => leNat (bs.take n) :: elems n k (bs.drop n)

/-! ### Emission of a sub-stream (R199) -/

/-- One emitted symbol: a plain element with its residue, or ZRUN with its run field L. -/
inductive Emit where
  | plain (sym res : Nat)
  | run (l : Nat)
  deriving DecidableEq, Repr

/-- Runs for `n` consecutive zero elements. -/
def emitRuns : Nat → Nat → List Emit
  | 0, _ => []
  | fuel + 1, n => if n ≥ 2 then .run (min n 65 - 2) :: emitRuns fuel (n - min n 65) else if n = 1 then [.plain 0 0] else []

/-- Emit elements; `z` counts the zero elements just passed. -/
def emitElems (dt : Nat) (zr : Bool) : List Nat → Nat → List Emit
  | [], z => emitRuns (z + 1) z
  | v :: vs, z =>
    if zr && v = 0 then emitElems dt zr vs (z + 1)
    else emitRuns (z + 1) z ++ .plain (symOf dt v) (resOf dt v) :: emitElems dt zr vs 0

/-- The sixteen sub-streams of a block of 4,096 bytes. -/
def emitBlock (dt : Nat) (zr : Bool) (raw : List Byte) : List (List Emit) :=
  (List.range 16).map (fun k => emitElems dt zr (elems (elemBytes dt) (256 / elemBytes dt) (slice raw (256 * k) 256)) 0)

/-! ### Code construction (R201) -/

def Emit.sym (dt : Nat) : Emit → Nat
  | .plain s _ => s
  | .run _ => zrunSym dt

def census (dt : Nat) (es : List Emit) : NMap Nat :=
  es.foldl (fun m e => NMap.put m (e.sym dt) (NMap.getD m (e.sym dt) 0 + 1)) []

/-- A node of the tree: weight, key, and its leaves with their depths. -/
structure Node where
  weight : Nat
  key : Nat
  leaves : List (Nat × Nat)

def nodeLt (a b : Node) : Bool := decide (a.weight < b.weight) || (a.weight == b.weight && decide (a.key < b.key))

def nodeInsert (a : Node) : List Node → List Node
  | [] => [a]
  | b :: r => if nodeLt a b then a :: b :: r else b :: nodeInsert a r

def joinNodes : Nat → Nat → List Node → List (Nat × Nat)
  | 0, _, _ => []
  | fuel + 1, m, ns =>
    match ns with
    | [] => []
    | [a] => a.leaves
    | a :: b :: r =>
      joinNodes fuel (m + 1) (nodeInsert
        { weight := a.weight + b.weight, key := 512 + m,
          leaves := (a.leaves ++ b.leaves).map (fun p => (p.1, p.2 + 1)) } r)

/-- Depth of each leaf. -/
def depths (cs : NMap Nat) : NMap Nat :=
  match cs with
  | [(s, _)] => [(s, 1)]
  | _ => (joinNodes (cs.length + 1) 0 (cs.foldl (fun ns p => nodeInsert { weight := p.2, key := p.1, leaves := [(p.1, 0)] } ns) [])).foldl
      (fun m p => NMap.put m p.1 p.2) []

/-- Code lengths: counts are halved while a length is above 15. -/
def lengths : Nat → NMap Nat → NMap Nat
  | 0, cs => depths cs
  | fuel + 1, cs =>
    let d := depths cs
    if d.any (fun p => decide (p.2 > 15)) then lengths fuel (cs.map (fun p => (p.1, (p.2 + 1) / 2))) else d

/-- Canonical codewords: symbol, code and length. -/
def codewords (ls : NMap Nat) : List (Nat × Nat × Nat) :=
  ((List.range 15).foldl (fun (st : Nat × List (Nat × Nat × Nat)) i =>
    let len := i + 1
    let st := (ls.filter (fun p => p.2 == len)).foldl
      (fun (st : Nat × List (Nat × Nat × Nat)) p => (st.1 + 1, st.2 ++ [(p.1, st.1, len)])) st
    (st.1 * 2, st.2)) (0, [])).2

def codeOf (cw : List (Nat × Nat × Nat)) (s : Nat) : Nat × Nat :=
  match cw.find? (fun p => p.1 == s) with
  | some p => p.2
  | none => (0, 0)

/-! ### Bit strings (R198): most significant bit first -/

def toBits (v n : Nat) : List Bool := (List.range n).map (fun i => bit v (n - 1 - i))
def ofBits (bs : List Bool) : Nat := bs.foldl (fun a b => a * 2 + b2n b) 0

def packBits : Nat → List Bool → List Byte
  | 0, _ => []
  | fuel + 1, bs =>
    if bs.isEmpty then []
    else BitVec.ofNat 8 (ofBits ((bs.take 8) ++ List.replicate (8 - (bs.take 8).length) false)) :: packBits fuel (bs.drop 8)

def unpackBits (bs : List Byte) : List Bool := bs.flatMap (fun b => toBits b.toNat 8)

/-- The bytes of one sub-stream: code part and residue part, each padded to a whole byte. -/
def subBytes (dt : Nat) (cw : List (Nat × Nat × Nat)) (es : List Emit) : List Byte :=
  let code := es.flatMap (fun e =>
    match e with
    | .plain s _ => let c := codeOf cw s; toBits c.1 c.2
    | .run l => let c := codeOf cw (zrunSym dt); toBits c.1 c.2 ++ toBits l 6)
  let res := es.flatMap (fun e => match e with | .plain _ r => toBits r (resBits dt) | .run _ => [])
  packBits (code.length + 1) code ++ packBits (res.length + 1) res

/-! ### Blocks (Table 7.3) -/

def padTo16 (bs : List Byte) : List Byte := bs ++ List.replicate (alignUp bs.length 16 - bs.length) 0

/-- Block bytes from byte 4 on, then with the CRC in front. -/
def sealBlock (body : List Byte) : List Byte := leBytes 4 (crc32c body) ++ body

/-- A block of 4,096 raw bytes as stored: its bytes, and whether it is raw (R200). -/
def encodeBlock (dt span : Nat) (zr : Bool) (cw : List (Nat × Nat × Nat)) (raw : List Byte) : List Byte × Bool :=
  let subs := (emitBlock dt zr raw).map (subBytes dt cw)
  let total := alignUp (32 + (subs.map List.length).sum) 16
  let tag := leBytes 2 (span % 4096)
  if total ≥ 4064 then
    (sealBlock (leBytes 1 dt ++ leBytes 1 0x80 ++ leBytes 2 258 ++ tag ++ leBytes 22 0 ++ raw), true)
  else
    let lens := (List.range 16).foldl (fun a k => a + ((subs.getD k []).length) * 2 ^ (11 * k)) 0
    (sealBlock (leBytes 1 dt ++ leBytes 1 (if zr then 0x40 else 0) ++ leBytes 2 (total / 16) ++ tag ++ leBytes 22 lens
      ++ (subs.flatten ++ List.replicate (total - 32 - (subs.map List.length).sum) 0)), false)

/-! ### Table records (Table 7.4) -/

def tableRecord (dt span : Nat) (ls : NMap Nat) : List Byte :=
  let nib (s : Nat) : Nat := NMap.getD ls s 0
  let body := leBytes 2 (span % 4096) ++ leBytes 2 (alphabet dt) ++ leBytes 12 0
    ++ (List.range 129).map (fun i => BitVec.ofNat 8 (nib (2 * i) + 16 * nib (2 * i + 1))) ++ leBytes 11 0
  body ++ leBytes 4 (crc32c body)

/-- The code lengths of a table record that passes the checks of R202. -/
def parseTable (dt span : Nat) (r : List Byte) : Option (NMap Nat) :=
  let ls := ((List.range 258).map (fun s => (s, bits (fieldAt r (16 + s / 2) 1) (4 * (s % 2) + 3) (4 * (s % 2))))).filter
    (fun p => decide (p.2 ≠ 0))
  let kraft : Nat := (ls.map (fun p => 2 ^ (15 - p.2))).sum
  if fieldAt r 156 4 = crc32c (slice r 0 156) && fieldAt r 0 2 = span % 4096 && fieldAt r 2 2 = alphabet dt
      && zeroAt r 4 12 && zeroAt r 145 11 && ls.all (fun p => decide (p.1 < alphabet dt)) && !ls.isEmpty
      && decide (kraft ≤ 2 ^ 15) && (kraft != 2 ^ 14 || ls.length == 1)
  then some ls else none

/-! ### Packing an object -/

/-- One write of a PACK in order: offset in the object, bytes, and the block it stores with its form. -/
structure Wr where
  off : Nat
  bytes : List Byte
  block : Option (Nat × Bool) := none

def blocksOf : Nat → List Byte → List (List Byte)
  | 0, _ => []
  | fuel + 1, bs => if bs.isEmpty then [] else slice bs 0 4096 :: blocksOf fuel (bs.drop 4096)

def spansOf (n : Nat) : Nat → List (List Byte) → List (List (List Byte))
  | 0, _ => []
  | fuel + 1, bs => if bs.isEmpty then [] else bs.take n :: spansOf n fuel (bs.drop n)

/-- The SPAN_BLOCKS used: the preset's, or the least that gives at most 65,535 spans. -/
def spanBlocksFor (preset size : Nat) : Nat := max preset (ceilDiv (ceilDiv size 4096) 65535)

structure Packed where
  /-- the writes after the 64 zero bytes, in order -/
  writes : List Wr
  header : List Byte
  objLen : Nat

/-- Code a raw range (R193, Table 7.2). -/
def pack (dt preset spanPreset : Nat) (zr : Bool) (raw : List Byte) : Packed :=
  let sb := spanBlocksFor spanPreset raw.length
  let blks := blocksOf (raw.length / 4096 + 1) raw
  let spans := spansOf sb (blks.length + 1) blks
  let bc := blks.length
  let sc := spans.length
  let idxOff := 4 + 10 * sc
  let blkOff := idxOff + ceilDiv (4 * (bc + 1)) 16
  let st := spans.foldl (fun (st : Nat × Nat × List Wr × List Nat) sp =>
    let (k, pos, ws, idx) := st
    let ls := lengths 64 (census dt (sp.flatMap (fun b => (emitBlock dt zr b).flatten)))
    let cw := codewords ls
    let ws := ws ++ [{ off := (4 + 10 * k) * 16, bytes := tableRecord dt k ls }]
    let r := sp.foldl (fun (r : Nat × List Wr × List Nat) b =>
      let (pos, ws, idx) := r
      let (eb, israw) := encodeBlock dt k zr cw b
      (pos + eb.length, ws ++ [{ off := blkOff * 16 + pos, bytes := eb, block := some (idx.length, israw) }],
        idx ++ [pos / 16])) (pos, ws, idx)
    (k + 1, r.1, r.2.1, r.2.2)) (0, 0, [], [])
  let index := (st.2.2.2 ++ [st.2.1 / 16]).flatMap (leBytes 4)
  let objLen := blkOff + st.2.1 / 16
  let hdr := [0x58, 0x50, 0x43, 0x4F] ++ leBytes 1 1 ++ leBytes 1 dt ++ leBytes 1 preset ++ leBytes 1 0
    ++ leBytes 8 raw.length ++ leBytes 4 bc ++ leBytes 2 sb ++ leBytes 2 sc ++ leBytes 4 4 ++ leBytes 4 idxOff
    ++ leBytes 4 blkOff ++ leBytes 4 objLen ++ leBytes 4 (crc32c index) ++ leBytes 16 0
  { writes := st.2.2.1 ++ [{ off := idxOff * 16, bytes := padTo16 index }],
    header := hdr ++ leBytes 4 (crc32c hdr), objLen := objLen * 16 }

/-! ### Reading an object -/

structure Hdr where
  dt : Nat
  rawSize : Nat
  blocks : Nat
  spanBlocks : Nat
  spans : Nat
  idxOff : Nat
  blkOff : Nat
  objLen : Nat
  idxCrc : Nat

/-- The object header with its checks (R197). -/
def parseHdr (h : List Byte) : Option Hdr :=
  let x : Hdr := {
    dt := fieldAt h 5 1, rawSize := fieldAt h 8 8, blocks := fieldAt h 16 4, spanBlocks := fieldAt h 20 2,
    spans := fieldAt h 22 2, idxOff := fieldAt h 28 4, blkOff := fieldAt h 32 4, objLen := fieldAt h 36 4,
    idxCrc := fieldAt h 40 4 }
  if slice h 0 4 = [0x58, 0x50, 0x43, 0x4F] && fieldAt h 4 1 = 1 && decide (1 ≤ x.dt) && decide (x.dt ≤ 5)
      && decide (fieldAt h 6 1 ≤ 15) && zeroAt h 7 1 && decide (1 ≤ x.rawSize) && decide (x.rawSize ≤ 2 ^ 34)
      && x.blocks = ceilDiv x.rawSize 4096 && decide (1 ≤ x.spanBlocks) && decide (x.spanBlocks ≤ 256)
      && x.spans = ceilDiv x.blocks x.spanBlocks && fieldAt h 24 4 = 4 && x.idxOff = 4 + 10 * x.spans
      && x.blkOff = x.idxOff + ceilDiv (4 * (x.blocks + 1)) 16 && zeroAt h 44 16 && fieldAt h 60 4 = crc32c (slice h 0 60)
  then some x else none

/-- Take one codeword off a bit string: the symbol and the rest. -/
def takeCode (cw : List (Nat × Nat × Nat)) (bs : List Bool) : Option (Nat × List Bool) :=
  match cw.find? (fun p => decide (p.2.2 ≤ bs.length) && ofBits (bs.take p.2.2) == p.2.1) with
  | some p => some (p.1, bs.drop p.2.2)
  | none => none

/-- How decoding a sub-stream fails: a code condition or a length condition (R207). -/
inductive SubErr where
  | code
  | length
  deriving DecidableEq, Repr

/-- Decode the code part: elements (none for one whose residue is to come), and the bits left. -/
def decodeCode (dt : Nat) (zr : Bool) (cw : List (Nat × Nat × Nat)) : Nat → Nat → List Bool → Except SubErr (List (Option Nat × Nat) × List Bool)
  | 0, _, _ => .error .length
  | fuel + 1, need, bs =>
    if need = 0 then .ok ([], bs)
    else if bs.isEmpty then .error .length
    else
      match takeCode cw bs with
      | none => .error .code
      | some (sym, r) =>
        if sym = zrunSym dt then
          if !zr then .error .code
          else if r.length < 6 then .error .length
          else
            let n := ofBits (r.take 6) + 2
            if n > need then .error .code
            else match decodeCode dt zr cw fuel (need - n) (r.drop 6) with
              | .ok (es, r) => .ok ((none, n) :: es, r)
              | .error e => .error e
        else match decodeCode dt zr cw fuel (need - 1) r with
          | .ok (es, r) => .ok ((some sym, 1) :: es, r)
          | .error e => .error e

/-- Decode one sub-stream of `n` elements from its bytes. -/
def decodeSub (dt : Nat) (zr : Bool) (cw : List (Nat × Nat × Nat)) (n : Nat) (bs : List Byte) : Except SubErr (List Nat) :=
  let all := unpackBits bs
  match decodeCode dt zr cw (n + 1) n all with
  | .error e => .error e
  | .ok (es, rest) =>
    let pad := rest.length % 8
    let plain := (es.filter (fun e => e.1.isSome)).length
    if (rest.take pad).any id then .error .length
    else
      let rbits := rest.drop pad
      if rbits.length ≠ ceilDiv (plain * resBits dt) 8 * 8 || (rbits.drop (plain * resBits dt)).any id then .error .length
      else .ok ((es.foldl (fun (a : List (List Nat) × List Bool) e =>
        match e with
        | (some sym, _) => (([joinElem dt sym (ofBits (a.2.take (resBits dt)))] :: a.1), a.2.drop (resBits dt))
        | (none, k) => ((List.replicate k 0 :: a.1), a.2)) ([], rbits)).1.reverse.flatten)

/-- A damaged block: its code and sub-stream (R208). -/
abbrev Damage := Nat × Nat

def decodeSubs (dt : Nat) (zr : Bool) (cw : List (Nat × Nat × Nat)) (body : List Byte) (lens : Nat) :
    Nat → Nat → Nat → Except Damage (List Nat)
  | 0, _, _ => .ok []
  | fuel + 1, k, pos =>
    let len := bits lens (11 * k + 10) (11 * k)
    match decodeSub dt zr cw (256 / elemBytes dt) (slice body pos len) with
    | .error .code => .error (0x0202, k)
    | .error .length => .error (0x0203, k)
    | .ok es =>
      match decodeSubs dt zr cw body lens fuel (k + 1) (pos + len) with
      | .ok r => .ok (es ++ r)
      | .error e => .error e

/-- Check and decode a block of `units` × 16 bytes (R207, R208): its 4,096 raw bytes or its damage. -/
def decodeBlock (dt span units : Nat) (ls : NMap Nat) (b : List Byte) : Except Damage (List Byte) :=
  let fl := fieldAt b 5 1
  let raw := bit fl 7
  let zr := bit fl 6
  let w := fieldAt b 6 2
  let len := bits w 8 0
  let lens := fieldAt b 10 22
  let total := ((List.range 16).map (fun k => bits lens (11 * k + 10) (11 * k))).sum
  let body := b.drop 32
  if len ≠ units || (raw && len ≠ 258) || (!raw && (len < 3 || len > 253)) then .error (0x0203, 0)
  else if raw && lens ≠ 0 then .error (0x0203, 0)
  else if !raw && alignUp (32 + total) 16 ≠ len * 16 then .error (0x0203, 0)
  else if !raw && !zeroAt body total (len * 16 - 32 - total) then .error (0x0203, 0)
  else if fieldAt b 0 4 ≠ crc32c (slice b 4 (len * 16 - 4)) then .error (0x0201, 0)
  else if fieldAt b 4 1 ≠ dt || bits fl 5 0 ≠ 0 || bits w 15 9 ≠ 0 || fieldAt b 8 2 ≠ span % 4096 || (raw && zr) then
    .error (0x0202, 0)
  else if raw then .ok (slice body 0 4096)
  else
    match decodeSubs dt zr (codewords ls) body lens 16 0 0 with
    | .ok es => .ok (es.flatMap (leBytes (elemBytes dt)))
    | .error e => .error e

/-- What reading named blocks came to. -/
structure Unpacked where
  /-- position in the list of named blocks, and the bytes to write -/
  out : List (Nat × List Byte) := []
  /-- code, block index, sub-stream -/
  err : Option (Nat × Nat × Nat) := none

/-- Blocks named by index, in order: each needs its span's table, its two index entries and its own bytes. `fetch`
reads bytes of the object by offset. -/
def readBlocks (h : Hdr) (fetch : Nat → Nat → List Byte) : List (Nat × Nat) → Unpacked → Unpacked
  | [], u => u
  | (i, b) :: r, u =>
    let lo := leNat (fetch (h.idxOff * 16 + 4 * b) 4)
    let hi := leNat (fetch (h.idxOff * 16 + 4 * b + 4) 4)
    let span := b / h.spanBlocks
    if b ≥ h.blocks then { u with err := some (0x0209, b, 0) }
    else if hi ≤ lo || hi > h.objLen - h.blkOff || (b = 0 && lo ≠ 0) || (b + 1 = h.blocks && hi ≠ h.objLen - h.blkOff) then
      { u with err := some (0x0206, b, 0) }
    else
      match parseTable h.dt span (fetch (64 + 160 * span) 160) with
      | none => { u with err := some (0x0205, b, 0) }
      | some ls =>
        match decodeBlock h.dt span (hi - lo) ls (fetch ((h.blkOff + lo) * 16) ((hi - lo) * 16)) with
        | .error (c, k) => { u with err := some (c, b, k) }
        | .ok bs => readBlocks h fetch r { u with out := u.out ++ [(i, bs.take (min 4096 (h.rawSize - 4096 * b)))] }

/-- The whole index holds together, with the zero bytes between it and the blocks (R195). -/
def indexOk (h : Hdr) (bytes : List Byte) : Bool :=
  let idx := bytes.take (4 * (h.blocks + 1))
  let e (i : Nat) : Nat := fieldAt idx (4 * i) 4
  crc32c idx == h.idxCrc && (bytes.drop (4 * (h.blocks + 1))).all (· == 0) && e 0 == 0 && e h.blocks == h.objLen - h.blkOff
    && (List.range h.blocks).all (fun i => decide (e i < e (i + 1)))

/-- UNPACK (R197, R223): the object's blocks from `first`, `count` of them, or all; `cap` is the descriptor's LENGTH. -/
def unpack (fetch : Nat → Nat → List Byte) (first count cap : Nat) : Unpacked :=
  match parseHdr (fetch 0 64) with
  | none => { err := some (0x0204, 0, 0) }
  | some h =>
    let whole := count == 0
    let n := if whole then h.blocks else count
    if first + n > h.blocks then { err := some (0x0209, 0, 0) }
    else if cap < min (n * 4096) (h.rawSize - first * 4096) then { err := some (0x0103, 0, 0) }
    else if whole && !indexOk h (fetch (h.idxOff * 16) ((h.blkOff - h.idxOff) * 16)) then { err := some (0x0206, 0, 0) }
    else readBlocks h fetch ((List.range n).map (fun i => (i, first + i))) {}

/-- Coded GATHER (R222): a list of block indices. -/
def gatherBlocks (fetch : Nat → Nat → List Byte) (is : List Nat) : Unpacked :=
  match parseHdr (fetch 0 64) with
  | none => { err := some (0x0204, 0, 0) }
  | some h => readBlocks h fetch ((List.range is.length).zip is) {}

end Sys2Proof.Machine.Xpc
end

