-- ==== Sys2Proof/Machine/Dma.lean ====
section
/-! DEFINITION. The DMA complexes: channels, descriptors, grants, operations, failures and stops (R213 to R239). -/
namespace Sys2Proof.Machine

/-! ### Channels -/

/-- The channel works for the Scaler, the eviction machine or the serving machinery. -/
def Work.isScaler : Work → Bool
  | .chain => false
  | .hostMove _ _ => false
  | _ => true

def State.chan (s : State) (d n : Nat) : Chan := NMap.getD s.dma.chans (d * 64 + n) {}
def State.setChan (s : State) (d n : Nat) (c : Chan) : State :=
  { s with dma := { s.dma with chans := NMap.put s.dma.chans (d * 64 + n) c } }

def chItem (d n : Nat) : Item := .dmaCh (Fin.ofNat 4 d) (Fin.ofNat 64 n)

/-- A fetch stream names the channel (R214). -/
def State.scalerOwned (s : State) (d n : Nat) : Bool :=
  (List.range 64).any (fun st => s.streamValid st && s.streamChan st == (d, n))

/-- The partition whose accesses the channel makes (R214). -/
def State.chanPart (s : State) (d n : Nat) : Option Nat :=
  if n = 63 then
    ((s.dma.routeQ.find? (fun e => e.1 == d)).bind (fun e => s.hold? e.2)).map (·.owner)
  else s.ownerChan d n

def State.chanStall (s : State) (d n : Nat) : Bool := s.rbit .dmaChCfg 1 d n

/-- A start of work in IDLE ungates the clocks (R502). -/
def State.startOfWork (s : State) : State :=
  if s.pwr.st = .idle then { s with pwr := { s.pwr with st := .run } } else s

def State.busySlots (s : State) (d : Nat) : List Nat :=
  (s.dma.chans.filter (fun e => e.1 / 64 == d)).filterMap (fun e => e.2.slot)
def State.usedBays (s : State) (d : Nat) : Nat :=
  ((s.dma.chans.filter (fun e => e.1 / 64 == d)).map (fun e => e.2.bays)).sum
def State.busyXpc (s : State) (d : Nat) : Nat :=
  ((s.dma.chans.filter (fun e => e.1 / 64 == d)).map (fun e => e.2.xpcSlots)).sum

/-- Give up what a transfer holds, its wait, its requests and its hold of the step (R204, R230, R66). -/
def State.releaseChan (s : State) (d n : Nat) : State :=
  let c := s.chan d n
  let s := s.setChan d n { c with
    slot := none, bays := 0, xpcSlots := 0, xpcWait := false, xfer := .none, retry := none, pieces := [], buf := [],
    waitDone := false, late := false, deadline := none, startAt := none, startReached := false }
  let s := (s.cancelWait (.dmaCh d n)).holdEnd (chItem d n)
  { s with fab := { s.fab with reqs := s.fab.reqs.filter (fun r =>
      match r.purpose with
      | .read a b _ => !(a == d && b == n)
      | .write a b _ => !(a == d && b == n)
      | .reserve a b => !(a == d && b == n)
      | _ => true) } }

/-- Stop a channel (R238). `quiet`: the code has been issued already by the unit that found it. -/
def State.stopChan (s : State) (d n code : Nat) (errAddr : Nat) (quiet : Bool := false) : State :=
  let c := s.chan d n
  let p := s.chanPart d n
  let s := (s.releaseChan d n)
  let s := s.setChan d n { s.chan d n with st := .stopped, err := code, errAddr := errAddr, moving := none, work := if c.work.isScaler then c.work else .chain }
  let s := if quiet then s else s.issue code { cx := d, ch := n, part := p.getD 0 }
  let s := s.rputN .dmaLastErr (n * 65536 + code) d
  let s := ((s.raise .dmaStopEvent n d).count .dmaStopCount 1 d).tally1 0x100F
  let s := match c.work with
    | .hostMove fn tag => s.cplError fn tag code
    | _ => s
  s.errCairn p (s.rnat .dmaChErrCairn d n)

/-! ### Starting a chain (R216) -/

/-- The check of a start by partition `part` (none: PF0). -/
def State.startRefusal (s : State) (part : Option Nat) (d n head : Nat) : Option Nat :=
  if part.isNone || s.ownerChan d n != part || s.scalerOwned d n || n = 63 then some 0x0107
  else if (s.chan d n).st ≠ .idle then some 0x0106
  else if head % 64 ≠ 0 then some 0x0103
  else none

/-- An accepted start: HOPS 0, and the descriptor at HEAD is read (Table 8.4). -/
def State.startChain (s : State) (d n head : Nat) : State :=
  let s := (s.rputN .dmaChHead head d n).startOfWork
  s.setChan d n { s.chan d n with
    st := .fetch, work := .chain, hops := 0, limit := bits (s.rnat .dmaHopLimit d) 15 0, fetchAddr := head }

/-! ### Descriptors (Tables 8.1 to 8.3, R221) -/

def parseDesc (b : List Byte) : Desc := {
  op := fieldAt b 0 1, flags := fieldAt b 1 1, dtype := fieldAt b 2 1, aux := fieldAt b 3 1, s := fieldAt b 4 2,
  d := fieldAt b 6 2, src := fieldAt b 8 8, dst := fieldAt b 16 8, length := fieldAt b 24 8, p0 := fieldAt b 32 4,
  p1 := fieldAt b 36 4, p2 := fieldAt b 40 4, p3 := fieldAt b 44 4, waitRef := fieldAt b 48 2,
  signalRef := fieldAt b 50 2, waitTarget := fieldAt b 52 4, next := fieldAt b 56 8 }

def Desc.chain (x : Desc) : Bool := bit x.flags 0
def Desc.waits (x : Desc) : Bool := bit x.flags 1
def Desc.signals (x : Desc) : Bool := bit x.flags 2
def Desc.phased (x : Desc) : Bool := bit x.flags 3
def Desc.stopOnMismatch (x : Desc) : Bool := bit x.flags 4
def Desc.coded (x : Desc) : Bool := bit x.flags 5
def Desc.nextStep (x : Desc) : Bool := bit x.flags 6
def Desc.elem (x : Desc) : Nat := 2 ^ x.aux
def Desc.param64 (x : Desc) : Nat := x.p0 + x.p1 * 2 ^ 32

/-- Bytes of the source and destination extents of the operations that must not overlap. -/
def Desc.srcLen (x : Desc) : Nat :=
  match x.op with
  | 7 => (x.p0 - 1) * x.p2 + x.p1 * x.elem
  | 9 => x.p2 * x.p3
  | _ => x.length
def Desc.dstLen (x : Desc) : Nat :=
  match x.op with
  | 7 => (x.p1 - 1) * x.p3 + x.p0 * x.elem
  | 8 => x.p2 * x.p3
  | 5 => x.param64
  | _ => x.length

/-- LENGTH and PARAMS keep to Table 8.3. -/
def Desc.paramsOk (x : Desc) : Bool :=
  let len := decide (1 ≤ x.length) && decide (x.length ≤ 2 ^ 34)
  let noP := x.p0 == 0 && x.p1 == 0 && x.p2 == 0 && x.p3 == 0
  match x.op with
  | 1 => len && noP
  | 2 => decide (x.length % x.elem = 0) && decide (x.dst % x.elem = 0) && noP
  | 3 => len && noP
  | 4 => decide (x.src % granule = 0) && decide (x.dst % granule = 0) && decide (x.length % granule = 0)
      && decide (0 < x.length) && noP
  | 5 => len && decide (x.dst % 16 = 0) && decide (x.param64 ≥ 64) && decide (x.param64 % 16 = 0) && x.p2 == 0 && x.p3 == 0
  | 6 => decide (x.src % 16 = 0) && (x.p1 != 0 || x.p0 == 0) && x.p2 == 0 && x.p3 == 0
  | 7 => decide (0 < x.p0) && decide (0 < x.p1) && decide (x.p2 ≥ x.p1 * x.elem) && decide (x.p3 ≥ x.p0 * x.elem)
      && decide (x.length = x.p0 * x.p1 * x.elem)
      && decide (x.src % x.elem = 0) && decide (x.dst % x.elem = 0) && decide (x.p2 % x.elem = 0) && decide (x.p3 % x.elem = 0)
  | 8 => decide (x.param64 % 4 = 0) && decide (1 ≤ x.p2) && decide (x.p2 ≤ 65536) && decide (1 ≤ x.p3)
      && decide (x.p3 ≤ 16777216) && (!x.coded || (x.p2 == 4096 && x.length == 0))
  | 9 => decide (x.param64 % 4 = 0) && decide (1 ≤ x.p2) && decide (x.p2 ≤ 65536) && decide (1 ≤ x.p3)
      && decide (x.p3 ≤ 16777216)
  | _ => false

/-- The checks of a descriptor (R221, R194). -/
def Desc.check (x : Desc) : Option Nat :=
  if x.op = 5 && (x.dtype = 0 || x.dtype > 5) then some 0x0207
  else if x.op = 0 || x.op > 9 || bit x.flags 7 || (x.op ≠ 5 && x.dtype ≠ 0) then some 0x0103
  else if (x.coded && x.op ≠ 8) || (x.stopOnMismatch && x.op ≠ 3) then some 0x0103
  else if (if x.op = 2 || x.op = 7 then x.aux > 3 else if x.op = 5 then x.aux > 15 else x.aux ≠ 0) then some 0x0103
  else if x.length ≥ 2 ^ 35 || (x.chain && x.next % 64 ≠ 0) then some 0x0103
  else if !x.paramsOk then some 0x0103
  else if (x.op = 1 || x.op = 4 || x.op = 7 || x.op = 9 || (x.op = 8 && !x.coded)) && overlaps x.src x.srcLen x.dst x.dstLen then
    some 0x0103
  else none

/-- Event bit of an XPC code (Table 7.9). -/
def xpcEventBit (code : Nat) : Option Nat :=
  match code with
  | 0x0201 => some 0
  | 0x0202 => some 1
  | 0x0203 => some 2
  | 0x0205 => some 3
  | 0x0206 => some 4
  | 0x0204 => some 5
  | 0x020A => some 6
  | 0x0208 => some 7
  | _ => none

/-- An XPC code sets the registers of its complex; only damaged blocks are counted as damaged (R208). -/
def State.xpcNote (s : State) (d n code blk sub obj : Nat) : State :=
  if code / 256 ≠ 2 then s
  else
    let s := match xpcEventBit code with | some b => s.raise .xpcEvent b d | none => s
    let s := (s.rputN .xpcLastInfo (n * 2 ^ 26 + sub * 2 ^ 22 + blk % 2 ^ 22) d).rputN .xpcLastObj obj d
    if code ≤ 0x0203 then (s.count .xpcDamaged 1 d).tally1 0x100E else s

/-- A descriptor read and found good becomes ready (R219): its phase points are placed and its wait is registered. -/
def State.descReady (s : State) (d n : Nat) (x : Desc) : State :=
  let c := s.chan d n
  let k := s.cad.step + b2n x.nextStep
  let st := if x.phased then some (k * 65536 + x.s) else none
  let dl := if x.phased then some ((k + (if x.d < x.s then 1 else 0)) * 65536 + x.d) else none
  let reached := match st with | some v => decide (s.stepPhase ≥ v) | none => true
  let s := s.setChan d n { c with
    st := .wait, desc := x, cur := c.fetchAddr, hops := c.hops + 1, startAt := st, deadline := dl, startReached := reached,
    waitDone := !x.waits, done := 0, xfer := .none, late := false }
  if !x.waits then s
  else
    match s.chanPart d n with
    | none => s.stopChan d n 0x0503 c.fetchAddr
    | some p =>
      match s.waitRef p x.waitRef with
      | .error code => s.stopChan d n code c.fetchAddr
      | .ok i =>
        let s := s.registerWait (.dmaCh d n) p i x.waitTarget
        if ((s.waitOf (.dmaCh d n)).map (·.fired)).getD false then
          (s.cancelWait (.dmaCh d n)).setChan d n { s.chan d n with waitDone := true }
        else s

/-- The 64 bytes of a descriptor have been read (Table 8.4). -/
def State.descRead (s : State) (d n : Nat) (b : List Byte) : State :=
  let x := parseDesc b
  match x.check with
  | some code => (s.xpcNote d n code 0 0 x.dst).stopChan d n code (s.chan d n).fetchAddr
  | none => s.descReady d n x

/-- A failed access: the address goes to DMA_CH_FAULT. -/
def State.faultAt (s : State) (d n a : Nat) : State := s.setChan d n { s.chan d n with fault := a }

/-- A descriptor read completes (R218); `ext` are its bytes when it lies in Valley. -/
def State.fetchDesc (s : State) (d n : Nat) (ext : List Byte) (ecc : Ecc) : State :=
  let c := s.chan d n
  if c.st ≠ .fetch || !c.pieces.isEmpty then s
  else
    let bad (code : Nat) : State := (s.faultAt d n c.fetchAddr).stopChan d n code c.fetchAddr
    match s.target c.fetchAddr with
    | .error code => bad code
    | .ok (.there id a) =>
      (match s.sendRequest { dst := id, op := 1, addr := id * 2 ^ 56 + a, want := 64 } (.read d n (2 ^ 48)) with
      | .ok s => s.setChan d n { s.chan d n with pieces := [2 ^ 48] }
      | .error s => (s.faultAt d n c.fetchAddr).stopChan d n 0x0601 c.fetchAddr true)
    | .ok (.here a) =>
      match s.chanPart d n with
      | none => bad 0x0302
      | some p =>
        match s.rangeCheck p a 64 1 with
        | .error code => bad code
        | .ok r =>
          let b := match r with | .valley _ => slice ext 0 64 | _ => s.rd a 64
          match ecc with
          | .uncorrectable e => (((s.eccUncorrected e).faultAt d n a).stopChan d n 0x0303 c.fetchAddr)
          | .poison => ((s.raise .sclTierEvent 2).faultAt d n a).stopChan d n 0x0304 c.fetchAddr
          | .corrected => s.eccCorrected.descRead d n b
          | .clean => s.descRead d n b

/-! ### Starting a transfer (R220, R233) -/

/-- SPAN_BLOCKS and ZRUN of a partition's XPC preset (R206). -/
def State.preset (s : State) (p k : Nat) : Option (Nat × Bool) :=
  match s.img.body? 0x0009 p k with
  | some b => some (fieldAt b 2 2, bit (fieldAt b 4 1) 0)
  | none => if k = 0 then some (256, true) else none

/-- Bays of a transfer (Table 8.3). -/
def State.baysOf (s : State) (p : Nat) (x : Desc) : Nat :=
  match x.op with
  | 2 => 1
  | 5 => 2 * ceilDiv (Xpc.spanBlocksFor ((s.preset p (bits x.aux 3 0)).getD (256, true)).1 x.length) 16
  | 6 => 2
  | 8 => if x.coded then 2 else 4
  | _ => 4

/-- Ranges with the ACCESS bits they need; an object's own extent is checked once its header is known. -/
def Desc.accesses (x : Desc) : List (Nat × Nat × Nat) :=
  match x.op with
  | 1 => [(x.src, x.length, 1), (x.dst, x.length, 2)]
  | 2 => if x.length = 0 then [] else [(x.dst, x.length, 2)]
  | 3 => [(x.src, x.length, 1), (x.dst, x.length, 1)]
  | 5 => [(x.src, x.length, 1), (x.dst, x.param64, 2)]
  | 6 => [(x.src, 64, 1)] ++ (if x.length = 0 then [] else [(x.dst, x.length, 2)])
  | 7 => [(x.src, x.srcLen, 1), (x.dst, x.dstLen, 2)]
  | 8 => [(x.param64, 4 * x.p3, 1), (x.src, if x.coded then 64 else x.length, 1), (x.dst, x.dstLen, 2)]
  | 9 => [(x.param64, 4 * x.p3, 1), (x.src, x.srcLen, 1), (x.dst, x.length, 2)]
  | _ => []

/-- The check of one range of a transfer (R107, R109, R115). -/
def State.checkAccess (s : State) (p : Nat) (a len acc : Nat) : Option Nat :=
  match s.target a with
  | .error c => some c
  | .ok (.there _ l) => if isValley l || l ≥ 2 ^ 45 then some 0x0301 else none
  | .ok (.here l) => match s.rangeCheck p l len acc with | .ok _ => none | .error c => some c

/-- Acceptance of a MOVE (R116, R227): the holding, or the code it ends with. -/
def State.moveCheck (s : State) (p : Nat) (x : Desc) : Except Nat Nat :=
  let src := bits x.src 55 0
  match s.target x.src with
  | .error c => .error c
  | .ok (.there _ _) => .error 0x0309
  | .ok (.here _) =>
    match s.tier.holdings.find? (fun e => e.2.base == src && e.2.size * granule == x.length) with
    | none =>
      if s.tier.holdings.any (fun e => e.2.state == 2 && e.2.meets src x.length) then .error 0x0308 else .error 0x0309
    | some (id, h) =>
      if h.state = 2 then .error 0x0308
      else if h.state ≠ 1 || h.owner ≠ p || h.hint = 1 then .error 0x0309
      else if !s.windowOk p src x.length 1 then .error 0x0302
      else
        match s.target x.dst with
        | .error c => .error c
        | .ok (.there _ l) => if isValley l then .error 0x0301 else .ok id
        | .ok (.here l) =>
          match s.decode l x.length with
          | .error c => .error c
          | .ok _ =>
            if !s.windowOk p l x.length 2 then .error 0x0302
            else if !inPool l || !s.rangeFree l h.size then .error 0x0309
            else if (isFoothill l && h.size > s.quotaLeft p 2) || (isValley l && h.size > s.quotaLeft p 3) then .error 0x030C
            else .ok id

/-- Every check made at the start of a transfer. -/
def State.startCheck (s : State) (p : Nat) (x : Desc) : Option Nat :=
  match x.accesses.findSome? (fun r => s.checkAccess p r.1 r.2.1 r.2.2) with
  | some c => some c
  | none => if x.op = 5 && (s.preset p (bits x.aux 3 0)).isNone then some 0x020A else none

/-- Touch and name the holdings of the ranges of a descriptor (R124, R128). -/
def State.nameRanges (s : State) (x : Desc) : State :=
  x.accesses.foldl (fun s r =>
    match s.target r.1 with
    | .ok (.here l) =>
      match s.holdAt l r.2.1 with
      | some (id, _) => (s.touchHold id).nameHold id
      | none => s
    | _ => s) s

/-- Spans a transfer codes or decodes, as far as the descriptor tells: the second table slot is for the next one. -/
def State.wantSlots (s : State) (p : Nat) (x : Desc) : Nat :=
  match x.op with
  | 5 => if ceilDiv x.length 4096 > Xpc.spanBlocksFor ((s.preset p (bits x.aux 3 0)).getD (256, true)).1 x.length then 2 else 1
  | 6 => if x.p1 = 1 then 1 else 2
  | 8 => if x.coded then 2 else 0
  | _ => 0

/-- Take table slots as they are free; a channel that finds none, or too few, waits (R203, R204). -/
def State.takeXpcSlots (s : State) (d n want : Nat) : State :=
  let c := s.chan d n
  let got := min (want - c.xpcSlots) (32 - s.busyXpc d)
  let s := s.setChan d n { c with xpcSlots := c.xpcSlots + got, xpcWait := decide (c.xpcSlots + got < want) }
  if c.xpcSlots + got < want && !c.xpcWait then s.count .xpcSlotWait 1 d else s

/-- Lowest free flight slot. -/
def State.freeSlot (s : State) (d : Nat) : Option Nat := (List.range 32).find? (fun k => !(s.busySlots d).contains k)

/-- The start of a MOVE of the Scaler or the serving machinery, whose destination has been reserved. -/
def State.scalerMoveCheck (s : State) (p : Nat) (c : Chan) : Except Nat Nat :=
  match c.moving.bind (fun id => (s.hold? id).map (fun h => (id, h))) with
  | none => .error 0x0309
  | some (id, h) =>
    if h.state = 2 then .error 0x0308
    else if h.state ≠ 1 then .error 0x030D
    else
      let a := bits c.desc.src 55 0
      let b := bits c.desc.dst 55 0
      match s.decode a c.desc.length, s.decode b c.desc.length with
      | .ok _, .ok _ => if s.windowOk p a c.desc.length 1 && s.windowOk p b c.desc.length 2 then .ok id else .error 0x0302
      | .error code, _ => .error code
      | _, .error code => .error code

/-- A granted transfer starts: its checks, then RUN (R220, R221). -/
def State.beginXfer (s : State) (d n p slot bays : Nat) : State :=
  let c := s.chan d n
  let run (s : State) (m : Option Nat) : State :=
    (s.setChan d n { s.chan d n with st := .run, slot := some slot, bays := bays, xfer := .none, moving := m, done := 0 }).takeXpcSlots
      d n (s.wantSlots p c.desc)
  if c.desc.op = 4 then
    match if c.work.isScaler then s.scalerMoveCheck p c else s.moveCheck p c.desc with
    | .error code => s.stopChan d n code c.cur
    | .ok id =>
      match s.hold? id with
      | none => s
      | some h =>
        let s := (s.touchHold id).nameHold id
        match s.target c.desc.dst with
        | .ok (.here l) => run (s.setHold id { h with state := 2, dest := some l, touch := s.stepPhase }) (some id)
        | _ => run (s.setHold id { h with state := 2, touch := s.stepPhase }) (some id)
  else
    match s.startCheck p c.desc with
    | some code => (s.xpcNote d n code 0 0 c.desc.dst).stopChan d n code c.cur
    | none => run (s.nameRanges c.desc) none

/-- A descriptor meets R220 apart from the grant. -/
def Chan.wantsGrant (c : Chan) : Bool := c.st == .wait && c.startReached && c.waitDone

/-- Serve the transfers that are ready in the order of R233; serving stops at the first that cannot be granted, and
that clk counts as a wait. -/
def State.grantAll (s : State) (d : Nat) : List Nat → State
  | [] => s
  | n :: r =>
    match s.chanPart d n, s.freeSlot d with
    | some p, some slot =>
      let b := s.baysOf p (s.chan d n).desc
      if b > 128 - s.usedBays d then s.count .dmaGrantWait 1 d
      else State.grantAll (s.beginXfer d n p slot b) d r
    | none, _ => State.grantAll s d r
    | _, none => s.count .dmaGrantWait 1 d

def State.grant (s : State) (d : Nat) : State :=
  let ns := (List.range 63).filter (fun n =>
    (s.chan d n).wantsGrant && !s.heldByCommit (s.chanPart d n) (s.chan d n).startAt)
  s.grantAll d (ns.filter (fun n => s.rbit .dmaChCfg 2 d n) ++ ns.filter (fun n => !s.rbit .dmaChCfg 2 d n))

/-! ### Data -/

/-- Collected bytes of range `k`, in order of offset. -/
def Chan.gathered (c : Chan) (k : Nat) : List Byte :=
  (c.buf.filter (fun e => e.1 / 2 ^ 40 == k)).flatMap (fun e => e.2)

/-- Read `n` bytes at offset `o` of the range `k` that starts at device address `a`. -/
def State.srcBytes (s : State) (c : Chan) (ext : Ext) (k a o n : Nat) : List Byte :=
  match s.target a with
  | .ok (.here l) =>
    if isValley l then slice (if k = 0 then ext.src else if k = 1 then ext.dst else ext.idx) o n else s.rd (l + o) n
  | _ => slice (c.gathered k) o n

/-- Bytes of each range that an operation reads, given what has come so far: (range, address, length). An object is
read header first, then whole. -/
def Desc.reads (x : Desc) (objHdr : List Byte) : List (Nat × Nat × Nat) :=
  let obj := match Xpc.parseHdr objHdr with | some h => h.objLen * 16 | none => 64
  match x.op with
  | 1 | 4 | 5 => [(0, x.src, x.length)]
  | 3 => [(0, x.src, x.length), (1, x.dst, x.length)]
  | 6 => [(0, x.src, obj)]
  | 7 => [(0, x.src, x.srcLen)]
  | 8 => [(2, x.param64, 4 * x.p3), (0, x.src, if x.coded then obj else x.length)]
  | 9 => [(2, x.param64, 4 * x.p3), (0, x.src, x.srcLen)]
  | _ => []

/-- Ask for the rest of a remote range in pieces of at most 64 KiB; the pieces asked for. -/
def State.askPieces (s : State) (d n k id a : Nat) : Nat → Nat → Nat → List Nat → Except State (State × List Nat)
  | 0, _, _, ps => .ok (s, ps)
  | fuel + 1, o, len, ps =>
    if o ≥ len then .ok (s, ps)
    else
      let m := min 65536 (len - o)
      match s.sendRequest { dst := id, op := 1, addr := id * 2 ^ 56 + a + o, want := m } (.read d n (k * 2 ^ 40 + o)) with
      | .error s => .error s
      | .ok s => State.askPieces s d n k id a fuel (o + m) len (ps ++ [k * 2 ^ 40 + o])

/-- Ask for every remote byte still missing. -/
def State.askAll (s : State) (d n : Nat) : List (Nat × Nat × Nat) → List Nat → Except State (State × List Nat)
  | [], ps => .ok (s, ps)
  | (k, a, len) :: r, ps =>
    match s.target a with
    | .ok (.there id l) =>
      let have_ := ((s.chan d n).gathered k).length
      (match s.askPieces d n k id l (len / 65536 + 1) have_ len ps with
      | .error s => .error s
      | .ok (s, ps) => State.askAll s d n r ps)
    | _ => State.askAll s d n r ps

/-- What an operation writes, unit by unit in the order of R225, and how it ends. -/
structure OpOut where
  writes : List (Nat × List Byte) := []
  /-- what DMA_CH_DONE shows when everything listed has been written -/
  done : Nat := 0
  err : Option Nat := none
  cmp : Option Nat := none
  /-- block index and sub-stream for an XPC code -/
  info : Nat × Nat := (0, 0)
  raw : Nat := 0
  coded : Nat := 0
  blocksCoded : Nat := 0
  blocksRaw : Nat := 0
  blocksDecoded : Nat := 0

/-- First offset at which two byte strings differ. -/
def firstDiff : List Byte → List Byte → Nat → Option Nat
  | a :: as, b :: bs, i => if a = b then firstDiff as bs (i + 1) else some i
  | _, _, _ => none

def fillBytes (pat : List Byte) : Nat → List Byte
  | 0 => []
  | n + 1 => pat ++ fillBytes pat n

/-- PACK within DST_LEN (R196, R210): the writes that fit, and the block at which the next would not. -/
def packOut (dst dstLen : Nat) (pk : Xpc.Packed) : List Xpc.Wr → OpOut → OpOut
  | [], o => { o with writes := o.writes ++ [(dst, pk.header)], coded := pk.objLen, done := pk.objLen }
  | w :: r, o =>
    if w.off + w.bytes.length > dstLen then
      { o with err := some 0x0208, info := ((w.block.map (·.1)).getD 0, 0), raw := 0 }
    else
      packOut dst dstLen pk r { o with
        writes := o.writes ++ [(dst + w.off, w.bytes)], done := o.done + w.bytes.length,
        blocksCoded := o.blocksCoded + (match w.block with | some (_, false) => 1 | _ => 0),
        blocksRaw := o.blocksRaw + (match w.block with | some (_, true) => 1 | _ => 0) }

/-- Elements of GATHER and SCATTER up to the first invalid index (R224). -/
def indexedWrites (x : Desc) (idx : List Byte) (src : List Byte) (gather : Bool) : Nat → Nat → OpOut → OpOut
  | 0, _, o => o
  | fuel + 1, i, o =>
    let k := fieldAt idx (4 * i) 4
    if (k + 1) * x.p2 > x.length then { o with err := some 0x0108 }
    else
      let w := if gather then (x.dst + i * x.p2, slice src (k * x.p2) x.p2) else (x.dst + k * x.p2, slice src (i * x.p2) x.p2)
      indexedWrites x idx src gather fuel (i + 1) { o with writes := o.writes ++ [w], done := o.done + 1 }

def unpackedOut (dst : Nat) (u : Xpc.Unpacked) : OpOut := {
  writes := u.out.map (fun p => (dst + p.1 * 4096, p.2)), done := u.out.length, blocksDecoded := u.out.length,
  err := u.err.map (·.1), info := match u.err with | some (_, b, k) => (b, k) | none => (0, 0) }

/-- The operation of a descriptor on the bytes it reads (R223); `get k o n` reads `n` bytes at offset `o` of range `k`. -/
def Desc.perform (x : Desc) (preset : Nat × Bool) (get : Nat → Nat → Nat → List Byte) : OpOut :=
  match x.op with
  | 1 => { writes := [(x.dst, get 0 0 x.length)], done := x.length }
  | 2 => { writes := [(x.dst, fillBytes (leBytes x.elem x.src) (x.length / x.elem))], done := x.length }
  | 3 =>
    let df := firstDiff (get 0 0 x.length) (get 1 0 x.length) 0
    { cmp := some (df.getD 0xFFFFFFFFFFFFFFFF), err := if df.isSome && x.stopOnMismatch then some 0x0105 else none }
  | 4 => { writes := [(x.dst, get 0 0 x.length)], done := x.length }
  | 5 =>
    let pk := Xpc.pack x.dtype (bits x.aux 3 0) preset.1 preset.2 (get 0 0 x.length)
    packOut x.dst x.param64 pk pk.writes { writes := [(x.dst, leBytes 64 0)], done := 64, raw := x.length }
  | 6 => unpackedOut x.dst (Xpc.unpack (fun o n => get 0 o n) x.p0 x.p1 x.length)
  | 7 =>
    { writes := (List.range x.p1).map (fun c =>
        (x.dst + c * x.p3, (List.range x.p0).flatMap (fun r => get 0 (r * x.p2 + c * x.elem) x.elem))), done := x.p1 }
  | 8 =>
    if x.coded then
      let idx := get 2 0 (4 * x.p3)
      unpackedOut x.dst (Xpc.gatherBlocks (fun o n => get 0 o n) ((List.range x.p3).map (fun i => fieldAt idx (4 * i) 4)))
    else indexedWrites x (get 2 0 (4 * x.p3)) (get 0 0 x.length) true x.p3 0 {}
  | 9 => indexedWrites x (get 2 0 (4 * x.p3)) (get 0 0 x.srcLen) false x.p3 0 {}
  | _ => {}

/-- Send a remote write in pieces of at most 64 KiB. -/
def State.sendPieces (s : State) (d n id a key : Nat) : Nat → List Byte → List Nat → Except State (State × List Nat)
  | 0, _, ps => .ok (s, ps)
  | fuel + 1, bs, ps =>
    if bs.isEmpty then .ok (s, ps)
    else
      let k := key + ps.length
      match s.sendRequest { dst := id, op := 3, addr := id * 2 ^ 56 + a, data := bs.take 65536 } (.write d n k) with
      | .error s => .error s
      | .ok s => State.sendPieces s d n id (a + 65536) key fuel (bs.drop 65536) (ps ++ [k])

/-- Marks a channel whose remote write found no route. -/
def noRoutePiece : Nat := 2 ^ 52

/-- Write bytes at a device address: to memory, to host memory through a granted window, or over the fabric, where the
pieces to be acknowledged are noted. A write to a window no longer granted is lost (R132). -/
def State.writeOut (s : State) (d n a : Nat) (bs : List Byte) : State :=
  match s.target a with
  | .ok (.here l) =>
    if isValley l then
      let w := (l - valleyBase 0) / valleySize
      match NMap.get? s.hif.windows w with
      | some g => s.emit (.hostWrite g.fn (g.bus + (l - valleyBase w)) bs)
      | none => s
    else s.wr l bs
  | .ok (.there id l) =>
    match s.sendPieces d n id l (2 ^ 50 + (s.chan d n).pieces.length) (bs.length / 65536 + 1) bs [] with
    | .ok (s, ps) => s.setChan d n { s.chan d n with pieces := (s.chan d n).pieces ++ ps }
    | .error s => s.setChan d n { s.chan d n with pieces := (s.chan d n).pieces ++ [noRoutePiece] }
  | .error _ => s

/-! ### Ending a transfer -/

/-- The holding of a failed or aborted MOVE (Table 4.5): `lost` for a source that can no longer be read, `damaged` for
an uncorrectable one; its reserved destination is released. -/
def State.moveFailed (s : State) (id : Nat) (st : Nat) : State :=
  match s.hold? id with
  | some h => s.setHold id { h with state := if h.state = 2 then st else h.state, dest := none, destSize := 0 }
  | none => s

/-- State a MOVE's holding is left in by a failure at address `a` with `code` (Table 4.5). -/
def State.moveOutcome (s : State) (id code : Nat) (srcSide : Bool) : Nat :=
  let low := match s.hold? id with | some h => h.base ≥ foothillBase 0 | none => false
  if srcSide && code = 0x0303 then 3
  else if srcSide && low && (code = 0x0304 || code = 0x0306 || code = 0x0307) then 4
  else 1

/-- End a descriptor with a failure (R236, R237) on a partition channel. -/
def State.failChan (s : State) (d n code : Nat) (a : Nat) (quiet : Bool := false) : State :=
  let c := s.chan d n
  let s := match c.moving with
    | some id =>
      let src := match s.hold? id with | some h => decide (h.base ≤ a % 2 ^ 56) && decide (a % 2 ^ 56 < h.base + h.size * granule) | none => true
      s.moveFailed id (s.moveOutcome id code src)
    | none => s
  ((s.faultAt d n a).stopChan d n code c.cur quiet)

/-- Bytes written by a list of writes, counted for the write engine. -/
def writtenLen (ws : List (Nat × List Byte)) : Nat := (ws.map (fun w => w.2.length)).sum

/-- The operation takes effect: its writes, its registers and counters, and its end (R223, R226). -/
def State.commitOp (s : State) (d n : Nat) (o : OpOut) (readLen : Nat) : State :=
  let c := s.chan d n
  let s := o.writes.foldl (fun s w => s.writeOut d n w.1 w.2) s
  let s := (s.count .dmaBytesRead readLen d).count .dmaBytesWritten (writtenLen o.writes) d
  let s := (s.count .xpcRawBytes o.raw d).count .xpcCodedBytes o.coded d
  let s := (s.count .xpcBlocksCoded o.blocksCoded d).count .xpcBlocksRaw o.blocksRaw d
  let s := s.count .xpcBlocksDecoded o.blocksDecoded d
  let c' := s.chan d n
  let s := s.setChan d n { c' with done := o.done, cmp := o.cmp.getD c'.cmp }
  match o.err with
  | some code =>
    (s.xpcNote d n code o.info.1 o.info.2 (if c.desc.op = 5 then c.desc.dst else c.desc.src)).failChan d n code
      (if code = 0x0105 then c.fault else c.desc.src)
  | none =>
    if (s.chan d n).pieces.contains noRoutePiece then s.failChan d n 0x0601 c.desc.dst true
    else s.setChan d n { s.chan d n with xfer := if (s.chan d n).pieces.isEmpty then .done else .pending }

/-- Total bytes an operation reads. -/
def Desc.readLen (x : Desc) (hdr : List Byte) : Nat := ((x.reads hdr).map (fun r => r.2.2)).sum

/-- The object of an UNPACK or coded GATHER lies wholly within a holding and window (R115, R109). -/
def State.objCheck (s : State) (p : Nat) (x : Desc) (hdr : List Byte) : Option Nat :=
  if x.op = 6 || (x.op = 8 && x.coded) then
    match Xpc.parseHdr hdr with
    | some h => s.checkAccess p x.src (h.objLen * 16) 1
    | none => none
  else none

/-- Carry out the operation once every byte it needs is at hand; else ask the fabric for the rest. -/
def State.runOp (s : State) (d n : Nat) (ext : Ext) : State :=
  let c := s.chan d n
  let x := c.desc
  match s.chanPart d n with
  | none => s
  | some p =>
    let hdr := s.srcBytes c ext 0 x.src 0 64
    match s.objCheck p x hdr with
    | some code => s.failChan d n code x.src
    | none =>
      match s.askAll d n (x.reads hdr) [] with
      | .error s => s.failChan d n 0x0601 x.src true
      | .ok (s, ps) =>
        if !ps.isEmpty then s.setChan d n { s.chan d n with xfer := .pending, pieces := ps }
        else
          let addr (k : Nat) : Nat := if k = 0 then x.src else if k = 1 then x.dst else x.param64
          s.commitOp d n (x.perform ((s.preset p (bits x.aux 3 0)).getD (256, true))
            (fun k o len => s.srcBytes c ext k (addr k) o len)) (x.readLen hdr)

/-- A remote MOVE reserves its destination before the first byte is sent (R116). -/
def State.reserveRemote (s : State) (d n id l : Nat) : State :=
  let x := (s.chan d n).desc
  match s.sendRequest { dst := id, op := 9, addr := id * 2 ^ 56 + l, want := x.length } (.reserve d n) with
  | .ok s => s.setChan d n { s.chan d n with xfer := .pending, pieces := [2 ^ 49] }
  | .error s => s.failChan d n 0x0601 x.dst true

/-- One of the nine operations runs on a channel in RUN that has moved nothing yet; an uncorrectable error ends it
(R110). -/
def State.opCommand (s : State) (d n op : Nat) (ext : Ext) (ecc : Ecc) : State :=
  let c := s.chan d n
  if c.st ≠ .run || c.desc.op ≠ op || c.xfer ≠ .none || c.work.isScaler || c.retry.isSome then s
  else if (op = 5 || op = 6 || (op = 8 && c.desc.coded)) && c.xpcSlots = 0 then s
  else
    match ecc with
    | .uncorrectable a => (s.eccUncorrected a).failChan d n 0x0303 a
    | .poison => (s.raise .sclTierEvent 2).failChan d n 0x0304 c.desc.src
    | e =>
      let s := if e = .corrected then s.eccCorrected else s
      match op, s.target c.desc.dst with
      | 4, .ok (.there id l) => s.reserveRemote d n id l
      | _, _ => s.runOp d n ext

/-- The destination of a MOVE becomes the holding's home (R117). -/
def State.moveHome (s : State) (id : Nat) : State :=
  match s.hold? id with
  | some h =>
    match h.dest with
    | some b =>
      let s := s.setHold id { h with base := b, size := h.destUnits, state := 1, dest := none, destSize := 0, touch := s.stepPhase }
      let s := s.untag b h.destUnits
      if s.inArena h.owner h.base then s else s.tag h.owner h.base h.size
    | none =>
      -- the destination lies on another device: the holding leaves this one
      s.freeHold id
  | none => s

/-- Go on after completion and signal (Table 8.4). -/
def State.nextDesc (s : State) (d n : Nat) : State :=
  let c := s.chan d n
  if !c.desc.chain then s.setChan d n { c with st := .idle }
  else if c.hops < c.limit then s.setChan d n { c with st := .fetch, fetchAddr := c.desc.next }
  else s.stopChan d n 0x0102 c.cur

/-- Complete a descriptor (R226): release, count, SIGNAL, then chain, idle or stop. `stopWith` is the code of an ABORT
that found it complete (R231). -/
def State.completeDesc (s : State) (d n : Nat) (stopWith : Option Nat) : State :=
  let c := s.chan d n
  let s := (s.releaseChan d n).count .dmaDescCount 1 d
  let s := s.setChan d n { s.chan d n with moving := none }
  let fin (s : State) : State :=
    match stopWith with
    | some code => s.stopChan d n code c.cur
    | none => s.nextDesc d n
  match c.work with
  | .hostMove fn tag =>
    let s := s.setChan d n { s.chan d n with st := .idle, work := .chain }
    (match stopWith with
    | some code => s.stopChan d n code 0
    | none => s).cplDone fn tag
  | _ =>
    if !c.desc.signals then fin s
    else
      match s.chanPart d n with
      | none => fin s
      | some p =>
        match s.addRef p c.desc.signalRef 1 (.dma d n) with
        | (.done, s) => fin s
        | (.sent, s) =>
          (match stopWith with
          | some _ => fin s
          | none => s.setChan d n { s.chan d n with xfer := .signalling })
        | (.failed code, s) => s.stopChan d n code c.cur (code == 0x0601)

/-- DESCRIPTOR_COMPLETE: the last write is acknowledged. -/
def State.descComplete (s : State) (d n : Nat) : State :=
  let c := s.chan d n
  if c.st = .run && c.xfer = .done && c.moving.isNone && !c.work.isScaler then s.completeDesc d n none else s

/-- MOVE_COMPLETE: the last byte of a MOVE is acknowledged, and its home changes; the transfer is then complete. -/
def State.moveComplete (s : State) (d n : Nat) : State :=
  let c := s.chan d n
  match c.moving with
  | some id =>
    if c.st = .run && c.xfer = .done then (s.moveHome id).setChan d n { c with moving := none } else s
  | none => s

/-! ### Commands to a channel (Table 8.4) -/

/-- ABORT in FETCH, WAIT or RUN; none where it is discarded. -/
def State.abortChan (s : State) (d n : Nat) : Option State :=
  let c := s.chan d n
  match c.st with
  | .idle => none
  | .stopped => none
  | _ =>
    if c.st = .run && (c.xfer = .done || c.xfer = .signalling) then
      if c.xfer = .done then
        let s := match c.moving with | some id => s.moveHome id | none => s
        some (s.completeDesc d n (some 0x0104))
      else some (s.stopChan d n 0x0104 c.cur)
    else
      let s := match c.moving with | some id => s.moveFailed id 1 | none => s
      some (s.stopChan d n 0x0104 (if c.st = .fetch then c.fetchAddr else c.cur))

/-- CLEAR in STOPPED; none where it is discarded. -/
def State.clearChan (s : State) (d n : Nat) : Option State :=
  let c := s.chan d n
  if c.st = .stopped && !s.scalerOwned d n && n ≠ 63 then some (s.setChan d n { c with st := .idle }) else none

/-! ### Lower-tier failures (R133 to R135, R235) -/

def retryable (code : Nat) : Bool := code == 0x0305 || code == 0x0306

/-- The leading units of an operation's writes (R237): bytes for COPY, FILL and PACK, and otherwise whole rows,
elements or blocks. -/
def takeUnits (op k : Nat) (ws : List (Nat × List Byte)) : List (Nat × List Byte) :=
  if op = 1 || op = 2 || op = 4 then (ws.take 1).map (fun w => (w.1, w.2.take k)) else ws.take k

/-- A transfer in RUN fails after `k` leading units. -/
def State.partialOp (s : State) (d n k : Nat) (ext : Ext) : State :=
  let c := s.chan d n
  let x := c.desc
  if x.op = 3 || c.xfer ≠ .none then s
  else
    match s.chanPart d n with
    | none => s
    | some p =>
      let addr (j : Nat) : Nat := if j = 0 then x.src else if j = 1 then x.dst else x.param64
      let o := x.perform ((s.preset p (bits x.aux 3 0)).getD (256, true)) (fun j o len => s.srcBytes c ext j (addr j) o len)
      let ws := takeUnits x.op k o.writes
      let s := ws.foldl (fun s w => s.writeOut d n w.1 w.2) s
      s.setChan d n { s.chan d n with done := if x.op = 5 then writtenLen ws else min k o.done }

/-- A failure of a data access of a chain: retried in STALL mode when it can be, else the end (R133, R134, R236). -/
def State.chainFailure (s : State) (d n code a k : Nat) (ext : Ext) : State :=
  let c := s.chan d n
  if c.st ≠ .run then s
  else
    let s := if c.retry.isNone then s.partialOp d n k ext else s
    if retryable code && s.chanStall d n && !c.work.isScaler then
      s.setChan d n { s.chan d n with retry := some (code, a, 0), fault := a }
    else
      let s := if code = 0x0304 then s.raise .sclTierEvent 2 else if code = 0x0303 then s.eccUncorrected a else s
      s.failChan d n code a

/-- A local address of Foothill or Valley. -/
def State.lowerTier (s : State) (a : Nat) : Bool :=
  match s.target a with
  | .ok (.here x) => (match s.region? x with | some (.foothill _) => true | some (.valley _) => true | _ => false)
  | _ => false

/-- DMA_READ_TIMEOUT passes without a response to address `a` (R235): a Foothill or Valley data access is retryable,
every other one ends the descriptor with NO_RESPONSE. -/
def State.chanTimeout (s : State) (d n a k : Nat) (ext : Ext) : State :=
  let c := s.chan d n
  match c.st with
  | .fetch => ((s.count .dmaTimeouts 1 d).faultAt d n a).stopChan d n 0x0101 c.fetchAddr
  | .run => (s.count .dmaTimeouts 1 d).chainFailure d n (if s.lowerTier a then 0x0305 else 0x0101) a k ext
  | _ => s

/-- A retry of the failed access (R134): `again` is the code it fails with once more. -/
def State.retryAccess (s : State) (d n : Nat) (again : Option Nat) : State :=
  let c := s.chan d n
  match c.retry with
  | none => s
  | some (code, a, k) =>
    let s := (s.count .sclTierRetries).tally1 (if code = 0x0305 then 0x1008 else 0x1009)
    match again with
    | none => (s.setChan d n { s.chan d n with retry := none }).observe 2 (min 31 (k + 1))
    | some code' =>
      if retryable code' && k + 1 < bits (s.rnat .sclTierRetry) 23 16 then
        s.setChan d n { s.chan d n with retry := some (code', a, k + 1) }
      else
        ((s.setChan d n { s.chan d n with retry := none }).observe 2 (min 31 (k + 1))).failChan d n code' a

/-- Slots released go to the channels that want one, in ascending order (R204, R205). -/
def State.grantSlots (s : State) (d : Nat) : State :=
  (List.range 64).foldl (fun s n =>
    let c := s.chan d n
    if c.xpcWait then
      match s.chanPart d n with
      | some p =>
        let want := s.wantSlots p c.desc
        let got := min (want - c.xpcSlots) (32 - s.busyXpc d)
        s.setChan d n { c with xpcSlots := c.xpcSlots + got, xpcWait := decide (c.xpcSlots + got < want) }
      | none => s
    else s) s

/-! ### Answers from the fabric -/

/-- A piece of data has come for a channel. -/
def State.chanData (s : State) (d n piece : Nat) (bs : List Byte) : State :=
  let c := s.chan d n
  if !c.pieces.contains piece then s
  else if piece = 2 ^ 48 then (s.setChan d n { c with pieces := [] }).descRead d n bs
  else
    let c := { c with pieces := c.pieces.filter (· != piece), buf := NMap.put c.buf piece bs }
    let s := s.setChan d n c
    if c.pieces.isEmpty then (s.setChan d n { c with xfer := .none }).runOp d n {} else s

/-- A remote write of a channel is acknowledged. -/
def State.chanAck (s : State) (d n piece : Nat) : State :=
  let c := s.chan d n
  if !c.pieces.contains piece then s
  else
    let c := { c with pieces := c.pieces.filter (· != piece) }
    s.setChan d n { c with xfer := if c.pieces.isEmpty then .done else .pending }

end Sys2Proof.Machine
end

