-- ==== Sys2Proof/Machine/StepFault.lean ====
section
/-! DEFINITION. Update units seen from their partition, and the step fault (R298, R322). -/
namespace Sys2Proof.Machine

def State.unit (s : State) (u : Nat) : UpdUnit := NMap.getD s.upd.units u {}
def State.setUnit (s : State) (u : Nat) (x : UpdUnit) : State :=
  { s with upd := { s.upd with units := NMap.put s.upd.units u x } }
def State.train (s : State) (p : Nat) : TrainPart := NMap.getD s.upd.parts p {}
def State.setTrain (s : State) (p : Nat) (x : TrainPart) : State :=
  { s with upd := { s.upd with parts := NMap.put s.upd.parts p x } }

/-- The partition that owns tile 16 + u, if it carries the TRAINING flag (R298). -/
def State.unitPart (s : State) (u : Nat) : Option Nat :=
  (s.parts.find? (fun r => bit r.tiles (16 + u) && r.training)).map (·.id)

/-- Units of a partition. -/
def State.unitsOf (s : State) (p : Nat) : List Nat := (List.range 8).filter (fun u => s.unitPart u == some p)

/-- A unit is armed: it opens runs, or has one open. -/
def UpdUnit.isArmed (x : UpdUnit) : Bool := x.st == .armed || x.st == .running

/-- A step fault of a partition with an armed unit: only the first of a step is recorded (R322). -/
def State.stepFault (s : State) (p code : Nat) : State :=
  let t := s.train p
  if t.faulted || !(s.unitsOf p).any (fun u => (s.unit u).isArmed) then s
  else
    let s := (s.setTrain p { t with faulted := true }).rputN .updStepFault code p
    let s := (s.raise .updEvent 0 p).logAdd (hwEntry 5 code p)
    s.errCairn (some p) (s.rnat .updFaultCairn p)

/-! ### Entries of the plans in force and of the plan replaced last -/

/-- The plan of entry number `k` of partition `p`: CARRY entries of the replaced plan count from 65,536. -/
def State.planOf (s : State) (p k : Nat) : Option Plan := if k < 65536 then (s.ledger p).inForce else (s.ledger p).old

def State.entry? (s : State) (p k : Nat) : Option LEntry := (s.planOf p k).bind (fun pl => pl.entries[k % 65536]?)
def State.word? (s : State) (p k : Nat) : PlanWord := ((s.planOf p k).bind (fun pl => pl.words[k % 65536]?)).getD default

end Sys2Proof.Machine
end

