-- ==== Sys2Proof/Machine/Tile.lean ====
section
/-! DEFINITION. Tiles: contexts, program words, the array and its accumulators, the vector unit, the generators, and
the cairn, fence and phase words (R240 to R266, R268 to R287). -/
namespace Sys2Proof.Machine

/-! ### Contexts -/

def State.tile (s : State) (t : Nat) : TileSt := NMap.getD s.tiles t {}
def State.setTile (s : State) (t : Nat) (x : TileSt) : State := { s with tiles := NMap.put s.tiles t x }
def State.ctx (s : State) (t c : Nat) : Ctx := NMap.getD (s.tile t).ctxs c {}
def State.setCtx (s : State) (t c : Nat) (x : Ctx) : State :=
  s.setTile t { s.tile t with ctxs := NMap.put (s.tile t).ctxs c x }
def ctxItem (t c : Nat) : Item := .tileCtx (Fin.ofNat 24 t) (Fin.ofNat 4 c)
def State.ctxStall (s : State) (t c : Nat) : Bool := s.rbit .tilCtxCfg 1 t c

/-- The context owns the array (R245). -/
def State.ownsArray (s : State) (t c : Nat) : Bool := s.rbit .tilArrayOwner 2 t && bits (s.rnat .tilArrayOwner t) 1 0 == c

/-! ### Posted writes (R268 to R271) -/

/-- Memory as the context itself sees it: with its own posted writes. -/
def Ctx.overlay (x : Ctx) (m : List Host.Cell) : List Host.Cell := x.posted.foldl (fun m w => Memory.writeList m w.1 w.2) m

/-- Every posted write of the context is performed. -/
def State.drainCtx (s : State) (t c : Nat) : State :=
  let x := s.ctx t c
  if x.posted.isEmpty then s else { s with mem := x.overlay s.mem }.setCtx t c { x with posted := [] }

/-- Every posted write of every context is performed: time has passed. -/
def State.drainAll (s : State) : State :=
  s.tiles.foldl (fun s e => e.2.ctxs.foldl (fun s f => s.drainCtx e.1 f.1) s) s

def State.post (s : State) (t c a : Nat) (bs : List Byte) : State :=
  let x := s.ctx t c
  s.setCtx t c { x with posted := x.posted ++ [(a, bs)] }

/-- Bytes as the context reads them. -/
def State.ctxRead (s : State) (t c a n : Nat) : List Byte := Memory.readList ((s.ctx t c).overlay s.mem) a n

/-! ### Direct access (R106, R109) -/

/-- A direct access of a tile of partition `p`: the code it ends with, if any. -/
def State.tileAccess (s : State) (p a len acc : Nat) : Option Nat :=
  match s.decode a len with
  | .error c => some c
  | .ok (.crestTile _) => if s.windowOk p a len (acc ||| 4) then none else some 0x0302
  | .ok .central => if s.windowOk p a len (acc ||| 4) then none else some 0x0302
  | .ok (.slope _) => if s.windowOk p a len (acc ||| 4) then none else some 0x0302
  | .ok _ => some 0x0301

/-- Writes of a recorded segment are confined to the entry's range and the tile's own Crest (R172). -/
def State.segConfined (s : State) (t c a len : Nat) : Bool :=
  match (s.ctx t c).seg with
  | none => true
  | some (p, e, _) =>
    let own := decide (t * 0x800000 ≤ a) && decide (a + len ≤ (t + 1) * 0x800000)
    own || (match s.entry? p e with
      | some x => decide (x.use ≤ a) && decide (a + len ≤ x.use + x.rawUnits * granule)
      | none => false)

def State.rowsAccess (s : State) (t c p acc : Nat) (rows : List (Nat × Nat)) : Option Nat :=
  match rows.findSome? (fun r => s.tileAccess p r.1 r.2 acc) with
  | some code => some code
  | none => if acc = 2 && rows.any (fun r => !s.segConfined t c r.1 r.2) then some 0x0302 else none

/-! ### Faults and ends (Table 9.6) -/

/-- The context enters FAULT with a code; `quiet` when the code has been issued. -/
def State.ctxFault (s : State) (t c code : Nat) (quiet : Bool := false) : State :=
  let s := s.drainCtx t c
  let x := s.ctx t c
  let s := s.setCtx t c { x with st := .fault, err := code, errPc := x.pc, wait := .none, late := false, deadline := none, startAt := none }
  let s := ((s.cancelWait (.tileCtx t c)).holdEnd (ctxItem t c)).count .tilFaults 1 t
  let s := if quiet then s else s.issue code { part := (s.ownerTile t).getD 0 }
  let s := match s.ownerTile t with
    | some p => if (s.ledger p).inForce.isSome then s.stepFault p code else s
    | none => s
  s.errCairn (s.ownerTile t) (s.rnat .tilCtxErrCairn t c)

/-- The operator in progress completes: it no longer holds the line (R286, R66). -/
def State.operatorEnd (s : State) (t c : Nat) : State :=
  let s := s.drainCtx t c
  (s.setCtx t c { s.ctx t c with late := false, deadline := none, startAt := none }).holdEnd (ctxItem t c)

/-! ### GO, STOP and CLEAR (R264, R266) -/

/-- Why a GO of partition `part` is refused. -/
def State.ctxGoRefusal (s : State) (part : Option Nat) (t c : Nat) : Option Nat :=
  if part.isNone || s.ownerTile t != part then some 0x0A25
  else if (s.ctx t c).st ≠ .idle then some 0x0A23 else none

def State.ctxGo (s : State) (t c pc : Nat) : State :=
  let s := (s.rputN .tilCtxPc pc t c).startOfWork
  s.setCtx t c { s.ctx t c with st := .run, pc := pc, scaler := false, late := false, wait := .none, deadline := none, startAt := none, seg := none }

/-- STOP in RUN or WAIT; none where it is discarded. -/
def State.ctxStop (s : State) (t c : Nat) : Option State :=
  match (s.ctx t c).st with
  | .run => some (s.ctxFault t c 0x0A24)
  | .wait => some (s.ctxFault t c 0x0A24)
  | _ => none

def State.ctxClear (s : State) (t c : Nat) : Option State :=
  let x := s.ctx t c
  if x.st = .fault then some (s.setCtx t c { x with st := .idle, scaler := false, seg := none }) else none

/-! ### Program words (R242, Tables 9.3 and 10.5) -/

/-- Formats of the array: FP8, FP16, BF16 and INT8. -/
def arrayFmt (f : Nat) : Bool := f == 1 || f == 2 || f == 3 || f == 4 || f == 6
def outFmt (f : Nat) : Bool := (decide (1 ≤ f) && decide (f ≤ 6)) || f == 8

/-- The word breaks R242: reserved OPC, encoding or bit, or an operand outside its range. -/
def wordBad (w c : Nat) : Bool :=
  let fl := bits w 119 112
  let z (hi lo : Nat) : Bool := bits w hi lo == 0
  let rows := decide (bits w 23 16 + bits w 15 8 + 1 ≤ 256)
  match bits w 127 120 with
  | 0x01 => !(arrayFmt (bits fl 7 4) && bits fl 1 0 == 0 && z 23 0)
  | 0x02 => !(arrayFmt (bits fl 7 4) && bits fl 1 0 == 0 && z 7 0 && rows)
  | 0x03 => !(outFmt (bits fl 7 4) && bits fl 3 2 != 3 && rows)
  | 0x04 => !(fl == 0 && z 7 0 && rows)
  | 0x05 => !(bits fl 7 1 == 0 && z 7 0 && rows)
  | 0x10 => !(decide (1 ≤ fl) && decide (fl ≤ 0x10) && bits w 91 90 != 3 && z 85 64 && z 31 0
      && (fl != 0x0C || outFmt (bits w 89 86)))
  | 0x11 => !(decide (1 ≤ bits fl 7 4) && decide (bits fl 7 4 ≤ 6) && bits fl 3 0 == 0 && z 50 0
      && bits w 111 56 % fmtSize (bits fl 7 4) == 0)
  | 0x12 => !(outFmt (bits fl 7 4) && bits fl 3 2 != 3 && bits fl 0 0 == 0 && z 50 0
      && bits w 111 56 % fmtSize (bits fl 7 4) == 0)
  | 0x13 => !(bits fl 7 4 == 0 && z 111 32)
  | 0x14 => !(fl == 0 && z 111 32)
  | 0x20 => !(z 55 0)
  | 0x30 => !(bits fl 7 6 != 3 && bits fl 4 0 == 0 && z 95 64 && z 31 0 && !(bit fl 5 && bit w 111))
  | 0x31 => !(bits fl 4 0 == 0 && z 31 0 && !(bit fl 7 && bits fl 6 5 == c))
  | 0x32 => !((bits fl 7 6 == 1 || bits fl 7 6 == 2) && bits fl 5 0 == 0 && z 111 0)
  | 0x33 => !(bits fl 6 0 == 0 && z 111 64 && z 31 0)
  | 0x34 => !(bits fl 7 2 == 0 && z 111 0)
  | 0xFF => !(fl == 0 && z 111 0)
  | _ => true

/-- Run the word at the PC if `pick` selects it. Reading or checking the word may fault the context; `f` gives the
effect on the state in which the PC has passed the word, or the code it ends with. -/
def State.runWord (s : State) (t c : Nat) (pick : Nat → Bool) (f : State → Nat → Nat → Except Nat State) : State :=
  let x := s.ctx t c
  if x.st ≠ .run || !s.domainOn (domTile t) then s
  else
    match s.ownerTile t with
    | none => s
    | some p =>
      if x.pc % 16 ≠ 0 then s.ctxFault t c 0x0A20
      else
        match s.tileAccess p x.pc 16 1 with
        | some code => s.ctxFault t c code
        | none =>
          let w := leNat (s.ctxRead t c x.pc 16)
          if wordBad w c then s.ctxFault t c 0x0A20
          else if !pick w then s
          else
            match f (s.setCtx t c { x with pc := x.pc + 16 }) w p with
            | .ok s => s
            | .error code => s.ctxFault t c code

def isOp (op : Nat) (w : Nat) : Bool := bits w 127 120 == op
def isVop (fn : Nat) (w : Nat) : Bool := bits w 127 120 == 0x10 && bits w 119 112 == fn

/-- A word that reads data: an uncorrectable error faults the context with 0x0303 (R110). -/
def State.readWord (s : State) (t c : Nat) (op : Nat) (ecc : Ecc) (f : State → Nat → Nat → Except Nat State) : State :=
  match ecc with
  | .uncorrectable a =>
    let s' := s.runWord t c (isOp op) (fun _ _ _ => .error 0x0303)
    if (s'.ctx t c).err = 0x0303 && (s.ctx t c).st = .run && (s'.ctx t c).st = .fault then s'.eccUncorrected a else s'
  | .corrected => s.runWord t c (isOp op) (fun s w p => (f s w p).map State.eccCorrected)
  | _ => s.runWord t c (isOp op) f

/-! ### The array (R243 to R257) -/

def wAddr (w : Nat) : Nat := bits w 111 56
def wPitch (w : Nat) : Nat := bits w 55 24
def wRow0 (w : Nat) : Nat := bits w 23 16
def wRows (w : Nat) : Nat := bits w 15 8 + 1

/-- The elements of format size `e` in a byte string. -/
def elemsOf (e n : Nat) (bs : List Byte) : List Nat := Xpc.elems e n bs

/-- WLOAD (R243). -/
def State.wload (s : State) (t c w p : Nat) : Except Nat State :=
  if !s.ownsArray t c then .error 0x0A22
  else
    let fl := bits w 119 112
    let e := fmtSize (bits fl 7 4)
    let (n, len) := if bit fl 3 then (512, 128 * e) else (128, 512 * e)
    let rows := (List.range n).map (fun k => (wAddr w + k * wPitch w, len))
    match s.rowsAccess t c p 1 rows with
    | some code => .error code
    | none =>
      let m := rows.map (fun r => elemsOf e (len / e) (s.ctxRead t c r.1 len))
      let flat := if bit fl 3 then (List.range 128).flatMap (fun k => m.map (fun r => r.getD k 0)) else m.flatten
      let x := s.tile t
      .ok (s.setTile t { x with banks := NMap.put x.banks (bits fl 2 2) { fmt := bits fl 7 4, w := flat } })

/-- The formats of A and W may be combined (R244). -/
def pairOk (a b : Nat) : Bool :=
  ((a == 1 || a == 2) && (b == 1 || b == 2)) || (a == b && (a == 6 || a == 4 || a == 3))

def isExactFmt (f : Nat) : Bool := f == 1 || f == 2 || f == 6

def exactOf (p : Int × Nat) : ExactE := { x := p.1, nan := bit p.2 0, pinf := bit p.2 1, ninf := bit p.2 2 }
def ofExact (a : ExactE) : Int × Nat := (a.x, b2n a.nan + 2 * b2n a.pinf + 4 * b2n a.ninf)

def State.accRow (s : State) (t r : Nat) : Option AccRow := NMap.get? (s.tile t).acc r
def State.setAcc (s : State) (t r : Nat) (v : Option AccRow) : State :=
  let x := s.tile t
  s.setTile t { x with acc := match v with | some a => NMap.put x.acc r a | none => NMap.del x.acc r }

def emptyExact : List (Int × Nat) := List.replicate 512 (0, 0)
def emptyComp : List (Nat × Nat) := List.replicate 512 (0, 0)

/-- Add the products of one input row to one accumulator row. -/
def passRow (fa fw : Nat) (a : List Nat) (bank : List Nat) (row : Option AccRow) : AccRow :=
  let av := a.map (elemVal fa)
  let col (n : Nat) : List (FVal) := ((List.range 128).zip av).map (fun q => q.2.mul (elemVal fw (bank.getD (q.1 * 512 + n) 0)))
  if isExactFmt fa then
    let es := match row with | some (.exact es) => es | _ => emptyExact
    .exact (((List.range 512).zip es).map (fun q => ofExact ((col q.1).foldl ExactE.addProduct (exactOf q.2))))
  else
    let es := match row with | some (.comp es) => es | _ => emptyComp
    .comp (((List.range 512).zip es).map (fun q =>
      let r := (col q.1).foldl CompE.addProduct ({ s := q.2.1, c := q.2.2 } : CompE)
      (r.s, r.c)))

/-- The row may take entries of the class (R250). -/
def classOk (exact : Bool) : Option AccRow → Bool
  | none => true
  | some (.exact _) => exact
  | some (.comp _) => !exact

/-- MMPASS (R244, R250). -/
def State.mmpass (s : State) (t c w p : Nat) : Except Nat State :=
  if !s.ownsArray t c then .error 0x0A22
  else
    let fl := bits w 119 112
    let fmt := bits fl 7 4
    let e := fmtSize fmt
    let bank := NMap.getD (s.tile t).banks (bits fl 3 3) {}
    let rs := (List.range (wRows w)).map (fun m => (wRow0 w + m, wAddr w + m * wPitch w))
    if !pairOk fmt bank.fmt then .error 0x0A20
    else
      match s.rowsAccess t c p 1 (rs.map (fun r => (r.2, 128 * e))) with
      | some code => .error code
      | none =>
        let s := if bit fl 2 then rs.foldl (fun s r => s.setAcc t r.1 none) s else s
        if rs.any (fun r => !classOk (isExactFmt fmt) (s.accRow t r.1)) then .error 0x0A21
        else
          let s := rs.foldl (fun s r =>
            s.setAcc t r.1 (some (passRow fmt bank.fmt (elemsOf e 128 (s.ctxRead t c r.2 (128 * e))) bank.w (s.accRow t r.1)))) s
          .ok (s.count .tilPasses 1 t)

/-- Set sticky flags (R260). -/
def State.ctxFlags (s : State) (t c : Nat) (nv of uf : Bool) : State :=
  s.rputN .tilCtxFlags (s.rnat .tilCtxFlags t c ||| (b2n nv + 2 * b2n of + 4 * b2n uf)) t c

def State.flagsOf (s : State) (t c : Nat) (rs : List FRes) : State :=
  s.ctxFlags t c (rs.any (·.nv)) (rs.any (·.of)) (rs.any (·.uf))

/-! ### Lane generators (R261) -/

def laneKey (x : Ctx) (t c l : Nat) : Nat :=
  match x.seed with
  | some (seed, v) => mix seed (v * 2 ^ 16 + c * 2 ^ 14 + t * 2 ^ 9 + l)
  | none => 0

/-- One draw per lane in all 512 lanes. -/
def State.draw (s : State) (t c : Nat) : List Nat × State :=
  let x := s.ctx t c
  ((List.range 512).map (fun l => mix (laneKey x t c l) x.draws), s.setCtx t c { x with draws := x.draws + 1 })

/-- Draws for a rounding under RMODE: none are taken unless it is SR. -/
def State.drawFor (s : State) (t c mode : Nat) : List Nat × State :=
  if mode = 1 then s.draw t c else (List.replicate 512 0, s)

/-! ### Accumulator words -/

/-- Values and marks of a row for ACCOUT: (value, invalid). An EMPTY row gives +0. -/
def rowValues (r : Option AccRow) (scale : Int) : List (FVal × Bool) :=
  match r with
  | none => List.replicate 512 (.fin false 0 0, false)
  | some (.exact es) => es.map (fun q => (exactOf q).outVal scale)
  | some (.comp es) => es.map (fun q => ({ s := q.1, c := q.2 } : CompE).outVal scale)

/-- ACCOUT (R254 to R256). -/
def State.accout (s : State) (t c w p : Nat) : Except Nat State :=
  if !s.ownsArray t c then .error 0x0A22
  else
    let fl := bits w 119 112
    let fmt := bits fl 7 4
    let mode := bits fl 3 2
    let e := fmtSize fmt
    let scale := signed 8 (bits w 7 0)
    let rs := (List.range (wRows w)).map (fun m => (wRow0 w + m, wAddr w + m * wPitch w))
    let isInt := fmt == 6 || fmt == 8
    let comp (r : Nat) : Bool := match s.accRow t r with | some (.comp _) => true | _ => false
    if isInt && (mode = 1 || rs.any (fun r => comp r.1)) then .error 0x0A20
    else
      match s.rowsAccess t c p 2 (rs.map (fun r => (r.2, 512 * e))) with
      | some code => .error code
      | none =>
        .ok (rs.foldl (fun s r =>
          let row := s.accRow t r.1
          let (ds, s) := s.drawFor t c mode
          let res := ((rowValues row scale).zip ds).map (fun q =>
            let f := outRound fmt { mode := mode, draw := q.2, sat := bit fl 1 } true q.1.1
            { f with nv := f.nv || q.1.2 })
          let s := if row.isNone then s else s.flagsOf t c res
          let s := s.post t c r.2 (res.flatMap (fun f => leBytes e f.v))
          if bit fl 0 then s.setAcc t r.1 none else s) s)

/-- The form of an EMPTY row in an ACCDUMP or ACCIN, which no field of the word tells: true for the exact form. A free
value (log entry 20). -/
def State.freeForm (s : State) : Bool × State :=
  let (k, s) := s.fresh
  (Config.freeNat k % 2 == 0, s)

def formBytes (exact : Bool) : Nat := if exact then 8192 else 4096

/-- The forms of the rows of an ACCDUMP or ACCIN. -/
def State.rowForms (s : State) (t : Nat) : List Nat → List Bool × State
  | [] => ([], s)
  | r :: rs =>
    let (f, s) := match s.accRow t r with
      | some (.exact _) => (true, s)
      | some (.comp _) => (false, s)
      | none => s.freeForm
    let (fs, s) := State.rowForms s t rs
    (f :: fs, s)

/-- ACCDUMP (R257). -/
def State.accdump (s : State) (t c w p : Nat) : Except Nat State :=
  if !s.ownsArray t c then .error 0x0A22
  else
    let ids := (List.range (wRows w)).map (fun m => wRow0 w + m)
    let (forms, s) := s.rowForms t ids
    let rs := ((List.range (wRows w)).map (fun m => (wRow0 w + m, wAddr w + m * wPitch w))).zip forms
    match s.rowsAccess t c p 2 (rs.map (fun r => (r.1.2, formBytes r.2))) with
    | some code => .error code
    | none =>
      .ok (rs.foldl (fun s r =>
        s.post t c r.1.2 (match s.accRow t r.1.1 with
          | some (.exact es) => es.flatMap (fun q => (exactOf q).bytes)
          | some (.comp es) => es.flatMap (fun q => CompE.bytes { s := q.1, c := q.2 })
          | none => leBytes (formBytes r.2) 0)) s)

/-- One row of ACCIN: replace, or combine (R257). -/
def accinRow (exact add : Bool) (row : Option AccRow) (bs : List Byte) : AccRow :=
  if exact then
    let ins := (List.range 512).map (fun n => ExactE.ofBytes (slice bs (16 * n) 16))
    match add, row with
    | true, some (.exact es) => .exact ((es.zip ins).map (fun q => ofExact ((exactOf q.1).combine q.2)))
    | _, _ => .exact (ins.map ofExact)
  else
    let ins := (List.range 512).map (fun n => CompE.ofBytes (slice bs (8 * n) 8))
    match add, row with
    | true, some (.comp es) =>
      .comp ((es.zip ins).map (fun q => let r := CompE.combine { s := q.1.1, c := q.1.2 } q.2; (r.s, r.c)))
    | true, _ => .comp (ins.map (fun a => let r := CompE.combine {} a; (r.s, r.c)))
    | _, _ => .comp (ins.map (fun a => (a.s, a.c)))

/-- ACCIN (R257, R250). -/
def State.accin (s : State) (t c w p : Nat) : Except Nat State :=
  if !s.ownsArray t c then .error 0x0A22
  else
    let ids := (List.range (wRows w)).map (fun m => wRow0 w + m)
    let (forms, s) := s.rowForms t ids
    let rs := ((List.range (wRows w)).map (fun m => (wRow0 w + m, wAddr w + m * wPitch w))).zip forms
    match s.rowsAccess t c p 1 (rs.map (fun r => (r.1.2, formBytes r.2))) with
    | some code => .error code
    | none =>
      .ok (rs.foldl (fun s r =>
        s.setAcc t r.1.1 (some (accinRow r.2 (bit w 112) (s.accRow t r.1.1) (s.ctxRead t c r.1.2 (formBytes r.2))))) s)

/-! ### The vector unit (R258 to R262, Table 9.5) -/

def State.vreg (s : State) (t c v : Nat) : List Nat := NMap.getD (s.ctx t c).vregs v (List.replicate 512 0)
def State.setVreg (s : State) (t c v : Nat) (ls : List Nat) : State :=
  let x := s.ctx t c
  s.setCtx t c { x with vregs := NMap.put x.vregs v ls }

/-- The operands of a VOP: VA, VB and VC by lane. -/
def State.vops (s : State) (t c w : Nat) : List (Nat × Nat × Nat) :=
  (s.vreg t c (bits w 106 102)).zip ((s.vreg t c (bits w 101 97)).zip (s.vreg t c (bits w 96 92)))

/-- A lane-by-lane VOP with one rounding: draws when RMODE is SR, flags, and VD. -/
def State.vlane (s : State) (t c w : Nat) (f : Rnd → Nat → Nat → Nat → FRes) : State :=
  let mode := bits w 91 90
  let (ds, s) := s.drawFor t c mode
  let rs := ((s.vops t c w).zip ds).map (fun q => f { mode := mode, draw := q.2 } q.1.1 q.1.2.1 q.1.2.2)
  (s.flagsOf t c rs).setVreg t c (bits w 111 107) (rs.map (·.v))

/-- A lane-by-lane VOP without rounding. -/
def State.vplain (s : State) (t c w : Nat) (f : Nat → Nat → Nat → FRes) : State :=
  let rs := (s.vops t c w).map (fun q => f q.1 q.2.1 q.2.2)
  (s.flagsOf t c rs).setVreg t c (bits w 111 107) (rs.map (·.v))

/-- One level of the pairwise tree of RSUM. -/
def sumLevel (r : Rnd) : List Nat → List Nat → List FRes
  | a :: b :: xs, d :: ds => f32AddR { r with draw := d } a b :: sumLevel r xs ds
  | _, _ => []

/-- The levels of RSUM; each SR level takes one draw in every lane, and result i uses that of lane i. -/
def State.rsum (s : State) (t c mode : Nat) : Nat → List Nat → Nat × State
  | 0, ls => (ls.getD 0 0, s)
  | fuel + 1, ls =>
    let (ds, s) := s.drawFor t c mode
    let rs := sumLevel { mode := mode } ls ds
    State.rsum (s.flagsOf t c rs) t c mode fuel (rs.map (·.v))

/-- CVT to FMT: overflow and specials as R255 with SAT 0 (R259). -/
def cvtLane (fmt : Nat) (r : Rnd) (a : Nat) : FRes := outRound fmt r false (f32v a)

/-- The key a mask is drawn with: rotated by the mask step where UPD_KEY_ROTATE says so (R325). -/
def State.maskKey (s : State) (i k : Nat) : Nat :=
  let key := s.rnat .tilKey i
  if bit s.upd.keyRotate i then mix key k else key

/-- DROP (R262): VA times VC where the keyed draw is at or above IMM, else +0. -/
def State.dropLanes (s : State) (t c w : Nat) : State :=
  let x := s.ctx t c
  let key := s.maskKey x.keySel x.maskStep
  s.vlane t c w (fun r a b k => if mix key (x.ctr + b) ≥ bits w 63 32 then f32MulR r a k else { v := 0 })

/-- VLD: convert to FP32 exactly; FP32 elements are moved as they are. -/
def vldLane (fmt p : Nat) : Nat := if fmt = 5 then p else (outRound 5 {} false (elemVal fmt p)).v

def State.vld (s : State) (t c w p : Nat) : Except Nat State :=
  let fmt := bits w 119 116
  let e := fmtSize fmt
  match s.rowsAccess t c p 1 [(wAddr w, 512 * e)] with
  | some code => .error code
  | none => .ok (s.setVreg t c (bits w 55 51) ((elemsOf e 512 (s.ctxRead t c (wAddr w) (512 * e))).map (vldLane fmt)))

/-- VST: convert under RMODE and SAT, one draw per lane under SR (R261). -/
def State.vst (s : State) (t c w p : Nat) : Except Nat State :=
  let fmt := bits w 119 116
  let mode := bits w 115 114
  let e := fmtSize fmt
  match s.rowsAccess t c p 2 [(wAddr w, 512 * e)] with
  | some code => .error code
  | none =>
    let (ds, s) := s.drawFor t c mode
    let rs := ((s.vreg t c (bits w 55 51)).zip ds).map (fun q =>
      if fmt = 5 then { v := q.1 } else outRound fmt { mode := mode, draw := q.2, sat := bit w 113 } false (f32v q.1))
    .ok ((s.flagsOf t c rs).post t c (wAddr w) (rs.flatMap (fun f => leBytes e f.v)))

/-! ### DMAGO, cairn, fence, phase and ownership words -/

/-- DMAGO (R216): a refused start stops nothing, and its code is recorded. -/
def State.dmago (s : State) (_t _c w p : Nat) : Except Nat State :=
  let d := bits w 119 118
  let n := bits w 117 112
  match s.startRefusal (some p) d n (wAddr w) with
  | some code => .ok ((s.issue code { cx := d, ch := n, part := p }).rputN .dmaLastErr (n * 65536 + code) d)
  | none => .ok (s.startChain d n (s.ownId * 2 ^ 56 + wAddr w))

/-- CSIG (R270, R282): fence as asked, then ADD or SET. -/
def State.csig (s : State) (t c w p : Nat) : Except Nat State :=
  let fl := bits w 119 112
  let s := if bits fl 7 6 = 0 then s else s.drainCtx t c
  let ref := bits w 111 96
  let v := bits w 63 32
  if bit fl 5 then
    match s.localRef p ref with
    | .ok i => .ok (s.cairnSet i v 7 (t * 4 + c))
    | .error code => .error code
  else
    match s.addRef p ref v (.program t c) with
    | (.failed code, _) => .error code
    | (_, s) => .ok s

/-- A wait word does not complete: the context waits at it, and TIL_CTX_PC still reads its address (Tables 9.6, 9.7). -/
def State.ctxWaits (s : State) (t c : Nat) (w : CtxWait) : State :=
  s.setCtx t c { s.ctx t c with st := .wait, wait := w, pc := (s.ctx t c).pc - 16 }

/-- CWAIT (R283, R284). -/
def State.cwait (s : State) (t c w p : Nat) : Except Nat State :=
  let fl := bits w 119 112
  match s.waitRef p (bits w 111 96) with
  | .error code => .error code
  | .ok i =>
    let s := if bit fl 7 && s.ownsArray t c then s.rputN .tilArrayOwner (4 + bits fl 6 5) t else s
    let s := s.registerWait (.tileCtx t c) p i (bits w 63 32)
    .ok (s.ctxWaits t c .cairn)

/-- PHASE (R286): the operator before it completes, and a new one opens at S with deadline D. -/
def State.phaseWord (s : State) (t c w : Nat) : State :=
  let s := s.operatorEnd t c
  let k := s.cad.step + b2n (bit w 119)
  let sp := bits w 63 48
  let dp := bits w 47 32
  let x := s.ctx t c
  let x := { x with startAt := some (k * 65536 + sp), deadline := some ((k + (if dp < sp then 1 else 0)) * 65536 + dp) }
  let s := s.setCtx t c x
  if s.stepPhase ≥ k * 65536 + sp then s else s.ctxWaits t c .phase

/-- OWN (R285). -/
def State.ownWord (s : State) (t c w : Nat) : Except Nat State :=
  if !s.ownsArray t c then .error 0x0A22 else .ok (s.rputN .tilArrayOwner (4 + bits w 113 112) t)

/-- END (Table 9.6). -/
def State.endWord (s : State) (t c : Nat) : State :=
  let s := s.operatorEnd t c
  s.setCtx t c { s.ctx t c with st := .idle, scaler := false }

/-- KEYSET (R262): key index and counter; the mask step is latched (R325). -/
def State.keysetWord (s : State) (t c w : Nat) : State :=
  s.setCtx t c { s.ctx t c with keySel := bits w 115 112, ctr := bits w 31 0, maskStep := s.cad.step }

/-- SRSET (R261): every lane generator of the context starts anew from the stream value. -/
def State.srsetWord (s : State) (t c w : Nat) : State :=
  s.setCtx t c { s.ctx t c with seed := some (s.rnat .tilSrSeed, bits w 31 0), draws := 0 }

/-- RAND (R261): one draw per lane. -/
def State.randLanes (s : State) (t c w : Nat) : State :=
  let (ds, s) := s.draw t c
  s.setVreg t c (bits w 111 107) ds

/-- RSUM (R258): the sum of VA's lanes in every lane of VD. -/
def State.sumLanes (s : State) (t c w : Nat) : State :=
  let (v, s) := s.rsum t c (bits w 91 90) 9 (s.vreg t c (bits w 106 102))
  s.setVreg t c (bits w 111 107) (List.replicate 512 v)

/-- SEL (Table 9.5): VA where VC, as a value, is not zero, else VB. -/
def selLane (a b c : Nat) : FRes := { v := if c % 2 ^ 31 = 0 then b else a }

/-- Run the VOP word at the PC if its function is `fn` (Table 9.5). -/
def State.vopWord (s : State) (t c fn : Nat) (f : State → Nat → State) : State :=
  s.runWord t c (isVop fn) (fun s w _ => .ok (f s w))

/-- A waiting context resumes at the next word. -/
def State.ctxResume (s : State) (t c : Nat) : State :=
  s.setCtx t c { s.ctx t c with st := .run, wait := .none, pc := (s.ctx t c).pc + 16 }

end Sys2Proof.Machine
end

