-- ==== Sys2Proof/Machine/ScalerRun.lean ====
section
/-! DEFINITION. The Scaler at run time: raw holdings, outbound legs, fetch-backs, REGROW, pressure, damage, plan
activation and the parking of conversations (R155, R160 to R191, R211, R236). -/
namespace Sys2Proof.Machine

/-! ### Runs -/

def runKey (p k : Nat) : Nat := p * 131072 + k
def State.run? (s : State) (p k : Nat) : Option Run := NMap.get? s.scl.runs (runKey p k)
def State.setRun (s : State) (p k : Nat) (r : Run) : State :=
  { s with scl := { s.scl with runs := NMap.put s.scl.runs (runKey p k) r } }
def State.modRun (s : State) (p k : Nat) (f : Run → Run) : State :=
  match s.run? p k with
  | some r => s.setRun p k (f r)
  | none => s

/-- Step phases of F and L of an entry produced in step `q` (R61, R168). -/
def LEntry.firstAt (e : LEntry) (q : Nat) : Nat := (q + (if e.kind = 2 then 1 else 0)) * 65536 + e.first
def LEntry.lastAt (e : LEntry) (q : Nat) : Nat := (q + (if e.kind = 2 then 1 else 0)) * 65536 + e.last

def scalerItem (p k : Nat) : Item := .scaler (Fin.ofNat 8 p) k

/-- Late mode of the entry's stream: that of its channel (R163). -/
def State.entryStall (s : State) (e : LEntry) : Bool := s.chanStall (s.streamChan e.stream).1 (s.streamChan e.stream).2

def State.clearRun (s : State) (p k : Nat) : State :=
  { s with scl := { s.scl with runs := NMap.del s.scl.runs (runKey p k) } }

/-! ### OUT and IN cairns (R164, R165) -/

def insertNat (x : Nat) : List Nat → List Nat
  | [] => [x]
  | y :: ys => if x ≤ y then x :: y :: ys else y :: insertNat x ys
def sortNats (xs : List Nat) : List Nat := xs.foldl (fun acc x => insertNat x acc) []

/-- Entry numbers of partition `p` with their entries, plan in force first and then the replaced plan's. -/
def State.entriesOf (s : State) (p : Nat) : List (Nat × LEntry) :=
  let l := s.ledger p
  let of (o : Nat) (pl : Option Plan) : List (Nat × LEntry) :=
    match pl with
    | some x => ((List.range x.entries.length).map (· + o)).zip x.entries
    | none => []
  of 0 l.inForce ++ of 65536 l.old

/-- (p, k) of the entries of a stream in the order of R164 and R165: by phase, partition and entry. -/
def State.streamOrder (s : State) (st : Nat) (phase : LEntry → Nat) : List (Nat × Nat) :=
  let ks := (List.range 8).flatMap (fun p =>
    ((s.entriesOf p).filter (fun x => x.2.stream == st)).map (fun x => (phase x.2 * 8 + p) * 131072 + x.1))
  (sortNats ks).map (fun v => (v / 131072 % 8, v % 131072))

/-- Add for the entries at the head of the order that are ready, up to the first that is not. -/
def State.addOut (s : State) (ref q : Nat) : List (Nat × Nat) → State
  | [] => s
  | (p, k) :: r =>
    match s.run? p k with
    | none => if k < 65536 then s else s.addOut ref q r
    | some x =>
      if x.step ≠ q then (if k < 65536 then s else s.addOut ref q r)
      else if x.outAdded then s.addOut ref q r
      else if x.outReady then ((s.setRun p k { x with outAdded := true }).hwAdd p ref 1 .scaler).addOut ref q r
      else s

/-- The same for IN in step `q`: a CARRY entry takes part once it was produced in the step before. -/
def State.addIn (s : State) (ref q : Nat) : List (Nat × Nat) → State
  | [] => s
  | (p, k) :: r =>
    match s.entry? p k, s.run? p k with
    | some e, some x =>
      if e.firstAt x.step / 65536 ≠ q then (if e.kind = 2 || k ≥ 65536 then s.addIn ref q r else s)
      else if x.inAdded then s.addIn ref q r
      else if x.inReady then ((s.setRun p k { x with inAdded := true }).hwAdd p ref 1 .scaler).addIn ref q r
      else s
    | some e, none => if e.kind = 2 || k ≥ 65536 then s.addIn ref q r else s
    | none, _ => s.addIn ref q r

def State.flushOut (s : State) (st q : Nat) : State :=
  s.addOut (bits (s.rnat .sclStreamCfg st) 31 16) q (s.streamOrder st (·.produce))
def State.flushIn (s : State) (st q : Nat) : State :=
  s.addIn (bits (s.rnat .sclStreamCfg st) 15 0) q (s.streamOrder st (·.first))

/-- An entry becomes ready to add to its OUT cairn. -/
def State.outDone (s : State) (p k : Nat) (e : LEntry) (q : Nat) : State :=
  (s.modRun p k (fun r => { r with outReady := true })).flushOut e.stream q

/-- An entry's item completes: in place, IN added in its turn, its hold of the line ends (R164, R168, R169). -/
def State.itemDone (s : State) (p k : Nat) (e : LEntry) (q : Nat) : State :=
  let due := e.firstAt q
  let slack := if s.stepPhase < due then min 65535 (due - s.stepPhase) else 0
  let s := s.rputN .sclSlackMin (min (s.rnat .sclSlackMin) slack)
  let s := s.modRun p k (fun r => { r with inPlace := true, back := .done, inReady := true, late := false })
  (s.holdEnd (scalerItem p k)).flushIn e.stream (due / 65536)

/-! ### Raw holdings (R161) -/

def State.openRaw (s : State) (p k : Nat) (e : LEntry) : State :=
  match (s.run? p k).bind (·.raw) with
  | some _ => s
  | none =>
    let (id, s) := s.makeHold {
      owner := p, hint := e.hint, base := e.use, size := e.rawUnits, by_ := .raw k, dtype := e.dtype, rawLen := e.size }
    s.modRun p k (fun r => { r with raw := some id })

/-- Close: the range returns to the arena. A holding in flight is freed when its MOVE ends. -/
def State.closeRaw (s : State) (p k : Nat) : State :=
  match (s.run? p k).bind (·.raw) with
  | none => s
  | some id =>
    let s := match s.hold? id with
      | some h => if h.state = 2 then { s with scl := { s.scl with dying := s.scl.dying ++ [id] } } else (s.touchHold id).freeHold id
      | none => s
    s.modRun p k (fun r => { r with raw := none })

/-- Release the coded or lower-tier copy. -/
def State.freeRest (s : State) (p k : Nat) : State :=
  match (s.run? p k).bind (·.rest) with
  | none => s
  | some id => (s.freeHold id).modRun p k (fun r => { r with rest := none })

/-! ### Items that end with an error (R179, R182, R183) -/

def State.runInfo (s : State) (p k : Nat) (e : LEntry) : State :=
  s.rputN .sclRunInfo (p * 2 ^ 29 + 2 ^ 28 + e.stream * 2 ^ 22 + k % 65536)

/-- The item ends with an error: counted and shown, and the step takes a step fault. -/
def State.itemFailed (s : State) (p k : Nat) (e : LEntry) (code : Nat) : State :=
  let s := s.modRun p k (fun r => { r with failed := true, late := false, gap := false, pressure := false })
  let s := ((s.holdEnd (scalerItem p k)).count .sclFetchFail).raise .sclRunEvent 4
  (s.runInfo p k e).stepFault p code

/-! ### REGROW (R172 to R176) -/

def segAddr (e : LEntry) : Nat := e.seg

/-- The recorded segment breaks R172. -/
def State.segmentBad (s : State) (p k : Nat) (e : LEntry) : Bool :=
  let n := e.segLen * 64
  let b := s.rd e.seg n
  let inAddr := if e.hasInput then ((s.entry? p (k / 65536 * 65536 + e.input)).map (·.use)).getD 0 else 0
  slice b 0 4 ≠ [0x53, 0x47, 0x4D, 0x54] || fieldAt b 4 1 ≠ 1 || fieldAt b 5 1 > 3 || bits (fieldAt b 6 1) 7 1 ≠ 0
    || bit (fieldAt b 6 1) 0 ≠ bit e.flags 1 || !zeroAt b 7 1 || !zeroAt b 12 4 || !zeroAt b 32 28
    || fieldAt b 8 4 ≠ (e.segLen - 1) * 64 || fieldAt b 16 8 ≠ inAddr || fieldAt b 24 8 ≠ e.use
    || fieldAt b 60 4 ≠ crc32c (slice b 0 60 ++ slice b 64 (n - 64))

/-- State of a REGROW's input: absent, usable now, to be waited for, or lost. -/
inductive InputState where
  | ready | wait | gone
  deriving DecidableEq, Repr

def State.regrowInput (s : State) (p k : Nat) (e : LEntry) : InputState :=
  if !e.hasInput then .ready
  else
    match s.run? p (k / 65536 * 65536 + e.input) with
    | none => .wait
    | some x =>
      if x.closed || x.failed then .gone
      else
        match x.raw.bind s.hold? with
        | some h => if h.state = 3 || h.state = 4 then .gone else if x.inPlace && h.state = 1 then .ready else .wait
        | none =>
          match x.rest.bind s.hold? with
          | some h => if h.state = 3 || h.state = 4 then .gone else .wait
          | none => if x.disp = 5 then .wait else .gone

/-- Start the REGROW if its conditions hold together (R173); it may end at once with 0x040A or 0x040C. -/
def State.tryRegrow (s : State) (p k : Nat) (e : LEntry) : State :=
  match s.run? p k with
  | none => s
  | some r =>
    if r.back ≠ .waiting || r.failed || r.closed || r.disp ≠ 5 then s
    else
      match s.regrowInput p k e with
      | .wait => s
      | .gone =>
        let s := s.issue 0x040C { part := p }
        (s.modRun p k (fun r => { r with back := .done })).itemFailed p k e 0x040C
      | .ready =>
        if s.segmentBad p k e then
          let s := (s.issue 0x040A { part := p }).raise .sclRunEvent 5
          (s.modRun p k (fun r => { r with back := .done })).itemFailed p k e 0x040A
        else
          let c := fieldAt (s.rd e.seg 64) 5 1
          if (s.ctx e.owner c).st ≠ .idle then s
          else
            let x := s.ctx e.owner c
            let s := s.setCtx e.owner c { x with
              st := .run, pc := e.seg + 64, scaler := true, late := false, wait := .none, deadline := none, startAt := none,
              keySel := e.key, ctr := e.ctr, maskStep := r.step, seg := some (p, k, e.seg + 64 * e.segLen) }
            s.modRun p k (fun r => { r with back := .running })

/-- The context that runs an entry's segment. -/
def State.regrowCtx (s : State) (p k : Nat) (e : LEntry) : Option (Nat × Nat) :=
  ((List.range 4).find? (fun c => match (s.ctx e.owner c).seg with | some (a, b, _) => a == p && b == k | none => false)).map
    (fun c => (e.owner, c))

/-- The segment's last write is acknowledged: its context has ended it (R173). -/
def State.regrowComplete (s : State) (p k : Nat) : State :=
  match s.entry? p k, s.run? p k with
  | some e, some r =>
    if r.back ≠ .running then s
    else
      match s.regrowCtx p k e with
      | some (t, c) =>
        if (s.ctx t c).st ≠ .idle then s
        else
          let s := s.setCtx t c { s.ctx t c with seg := none }
          (s.count .sclRegrowCount).itemDone p k e r.step
      | none => s
  | _, _ => s

/-- Time of a REGROW is charged to its tile in the step of its fetch (R177). -/
def State.useRegrow (s : State) (e : LEntry) (q t : Nat) : State :=
  let key := e.firstAt q / 65536 * 32 + e.owner
  { s with scl := { s.scl with regrowUsed := NMap.put s.scl.regrowUsed key (NMap.getD s.scl.regrowUsed key 0 + t) } }

/-! ### Items on the channel of a stream (R163) -/

/-- The channel is free for the stream's next item. -/
def State.streamFree (s : State) (st : Nat) : Bool :=
  s.streamValid st && (s.chan (s.streamChan st).1 (s.streamChan st).2).st == .idle

/-- Put an item on the channel: it starts by the grant of the complex (R233). -/
def State.putItem (s : State) (d n : Nat) (w : Work) (x : Desc) (moving : Option Nat) : State :=
  s.setChan d n { s.chan d n with
    st := .wait, work := w, desc := x, cur := 0, hops := 0, startAt := none, deadline := none, startReached := true,
    waitDone := true, done := 0, xfer := .none, late := false, moving := moving }

def State.devAddr (s : State) (a : Nat) : Nat := s.ownId * 2 ^ 56 + a

def moveDesc (src dst len : Nat) : Desc := { (default : Desc) with op := 4, src := src, dst := dst, length := len }
def packDesc (src dst len dstLen dtype : Nat) : Desc :=
  { (default : Desc) with op := 5, dtype := dtype, src := src, dst := dst, length := len, p0 := dstLen % 2 ^ 32,
                          p1 := dstLen / 2 ^ 32 }
def unpackDesc (src dst len : Nat) : Desc := { (default : Desc) with op := 6, src := src, dst := dst, length := len }

/-- Put the outbound leg on the channel (R167). -/
def State.startOut (s : State) (p k : Nat) (e : LEntry) (r : Run) : State :=
  let (d, n) := s.streamChan e.stream
  let w : Work := .leg p k false
  let s := s.modRun p k (fun r => { r with out := .running })
  if r.disp = 3 then
    match r.raw.bind (fun id => (s.hold? id).map (fun h => (id, h))) with
    | some (id, h) =>
      (match h.dest.orElse (fun _ => s.place p r.tier 0xFF h.size true) with
      | some b =>
        (s.setHold id { h with dest := some b, destSize := h.size }).putItem d n w
          (moveDesc (s.devAddr h.base) (s.devAddr b) (h.size * granule)) (some id)
      | none => s.modRun p k (fun r => { r with out := .waiting, pressure := true }))
    | none => s
  else
    match r.rest.bind s.hold? with
    | some h => s.putItem d n w (packDesc (s.devAddr e.use) (s.devAddr h.base) e.size (h.size * granule) e.dtype) none
    | none => s

/-- The fallback of R181: REGROW overwrites the raw range, or the item ends with 0x040B (R182). -/
def State.fallback (s : State) (p k : Nat) (e : LEntry) (code : Nat) : State :=
  let s := s.freeRest p k
  if e.recomputable && s.regrowInput p k e = .ready then
    let s := ((s.count .sclDamageRegrow).tally1 0x100C).raise .sclRunEvent 3
    let s := s.logAdd { overrideEntry p (((s.run? p k).bind (·.raw)).getD 0x1FFFF) k (((s.run? p k).map (·.disp)).getD 0) 5 with code := code }
    let s := s.modRun p k (fun r => { r with disp := 5, fallback := true, back := .waiting, gap := false })
    (s.openRaw p k e).tryRegrow p k e
  else
    let s := s.issue 0x040B { part := p, trig := code }
    let s := (s.modRun p k (fun r => { r with back := .done })).closeRaw p k
    s.itemFailed p k e 0x040B

/-- Put the fetch-back on the channel (R168), or meet a source that is gone (R181). -/
def State.startBack (s : State) (p k : Nat) (e : LEntry) (r : Run) : State :=
  let (d, n) := s.streamChan e.stream
  let w : Work := .leg p k true
  if r.broken ≠ 0 then s.fallback p k e r.broken
  else
    match r.rest.bind (fun id => (s.hold? id).map (fun h => (id, h))) with
    | none => s.fallback p k e 0x030D
    | some (id, h) =>
      if h.state = 3 || h.state = 4 then s.fallback p k e 0x030D
      else if h.state = 2 then s
      else if h.objLen = 0 && r.disp = 3 then
        let s := s.setHold id { h with dest := some e.use, destSize := e.rawUnits }
        (s.modRun p k (fun r => { r with back := .running })).putItem d n w
          (moveDesc (s.devAddr h.base) (s.devAddr e.use) (h.size * granule)) (some id)
      else
        let s := (s.openRaw p k e).modRun p k (fun r => { r with back := .running })
        s.putItem d n w (unpackDesc (s.devAddr h.base) (s.devAddr e.use) e.size) none

/-- Items of a stream that want the channel, in order of start phase, partition and entry (R163, R165). -/
def State.wanting (s : State) (st : Nat) : List (Nat × Nat × Bool) :=
  let ks := (List.range 8).flatMap (fun p => (s.entriesOf p).filterMap (fun x =>
    if x.2.stream ≠ st then none
    else match s.run? p x.1 with
      | none => none
      | some r =>
        if r.failed || r.closed || r.gap then none
        else if r.out = .queued then some ((((r.step * 65536 + x.2.produce) * 8 + p) * 131072 + x.1) * 2)
        else if r.back = .waiting && r.disp ≠ 5 && r.out = .done then
          some ((((x.2.firstAt r.step - r.lead) * 8 + p) * 131072 + x.1) * 2 + 1)
        else none))
  (sortNats ks).map (fun v => (v / 2 / 131072 % 8, v / 2 % 131072, v % 2 == 1))

/-- Run the next item of a stream if its channel is free. A fetch-back that falls back at once lets the next one go. -/
def State.pump (s : State) (st : Nat) : Nat → State
  | 0 => s
  | fuel + 1 =>
    if !s.streamFree st then s
    else
      match s.wanting st with
      | [] => s
      | (p, k, back) :: _ =>
        match s.entry? p k, s.run? p k with
        | some e, some r =>
          let s := if back then s.startBack p k e r else s.startOut p k e r
          State.pump s st fuel
        | _, _ => s

/-! ### Outbound legs: allocation and pressure (R167, R177 to R180) -/

/-- Allocate for a leg of disposition `d` to `tier`: a coded holding, or a range reserved for the MOVE of the raw
holding. -/
def State.legAlloc (s : State) (p k : Nat) (e : LEntry) (d tier : Nat) : Except Nat State :=
  if d = 3 then
    if e.rawUnits > s.quotaLeft p tier then .error 0x030C
    else
      match s.place p tier 0xFF e.rawUnits true, (s.run? p k).bind (·.raw) with
      | some b, some id =>
        .ok (match s.hold? id with
          | some h => s.setHold id { h with dest := some b, destSize := h.size }
          | none => s)
      | _, _ => .error 0x030A
  else
    let c := s.entryCoded e
    match s.allocTry { part := p, tier := tier, size := c, by_ := .coded k, dtype := e.dtype, rawLen := e.size } with
    | (.got id, s) => .ok (s.modRun p k (fun r => { r with rest := some id }))
    | (.error code, _) => .error code
    | (_, _) => .error 0x030A

/-- Queue a leg whose allocation has been met. -/
def State.queueLeg (s : State) (p k : Nat) (e : LEntry) (d tier lead : Nat) : State :=
  let s := s.modRun p k (fun r => { r with disp := d, tier := tier, lead := lead, out := .queued, pressure := false })
  s.pump e.stream 64

/-- An adaptation is logged with the entry and both dispositions, and counted as an override or a plain one (R178). -/
def State.adapt (s : State) (p k : Nat) (e : LEntry) (new : Nat) : State :=
  let r := (s.run? p k).getD {}
  let s := s.logAdd (overrideEntry p (r.raw.getD 0x1FFFF) (k % 65536) r.disp new)
  let s := if (preferTier e.hint).isSome then (s.countOverride 1).raise .sclRunEvent 1
    else ((s.count .sclAdaptCount).tally1 0x100B).raise .sclRunEvent 0
  s.modRun p k (fun r => { r with disp := new })

/-- Table 6.3: the pressure loop may change the entry. -/
def State.mayAdapt (s : State) (p : Nat) (e : LEntry) : Bool :=
  e.hint ≠ 1 && e.disp = 0 && !((preferTier e.hint).isSome && s.isStrict p)

/-- The REGROW alternative qualifies (R177): its time. -/
def State.regrowAlt (s : State) (p k : Nat) (e : LEntry) (r : Run) (period left : Nat) : Option Nat :=
  match s.times p period e 1 5 with
  | none => none
  | some (_, t) =>
    let due := e.firstAt r.step
    let inputOk := !e.hasInput || (match s.run? p (k / 65536 * 65536 + e.input), s.entry? p (k / 65536 * 65536 + e.input) with
      | some x, some i => !x.closed && !x.failed && (x.inPlace || decide (i.firstAt x.step < due - t))
      | _, _ => false)
    let used := NMap.getD s.scl.regrowUsed (due / 65536 * 32 + e.owner) 0
    if e.recomputable && e.hint ≠ 2 && inputOk && t ≤ left && used + t ≤ bits (s.rnat .sclRegrowCap) 15 0 then some t else none

/-- Lower tiers in the order in which an alternative tries them. -/
def lowerOrder (planned : Nat) : List Nat := if planned = 3 then [3, 2] else [2, 3]

/-- One alternative to a leg under pressure: the state in which it is under way. -/
def State.tryAlt (s : State) (p k : Nat) (e : LEntry) (r : Run) (pl : Plan) (d : Nat) : Option State :=
  let left := e.firstAt r.step - s.stepPhase
  let packs := decide (1 ≤ e.dtype) && decide (e.dtype ≤ 5)
  let leg (tier : Nat) : Option State :=
    match s.times p pl.period e tier d with
    | none => none
    | some (o, b) =>
      if left < o + b then none
      else match s.legAlloc p k e d tier with
        | .ok s => some ((s.adapt p k e d).queueLeg p k e d tier b)
        | .error _ => none
  match d with
  | 5 =>
    (s.regrowAlt p k e r pl.period left).map (fun t =>
      let s := ((s.adapt p k e 5).closeRaw p k).useRegrow e r.step t
      (s.modRun p k (fun r => { r with lead := t, inPlace := false, out := .done, pressure := false })).outDone p k e r.step)
  | 2 => if packs then leg e.homeTier else none
  | 4 => if packs && pl.mode = 2 then (lowerOrder r.tier).findSome? leg else none
  | 3 => if pl.mode = 2 then (lowerOrder r.tier).findSome? leg else none
  | _ => none

/-- A leg's allocation cannot be met (R177, R179). -/
def State.pressureAt (s : State) (p k : Nat) (e : LEntry) (r : Run) (pl : Plan) (code : Nat) : State :=
  let alt := if s.mayAdapt p e then ([5, 2, 4, 3].filter (· != r.disp)).findSome? (s.tryAlt p k e r pl) else none
  match alt with
  | some s => s
  | none =>
    if s.entryStall e then
      (s.modRun p k (fun r => { r with out := .waiting, pressure := true })).raise .sclRunEvent 2
    else
      let s := (s.issue code { part := p }).modRun p k (fun r => { r with out := .none })
      s.itemFailed p k e code

/-- Allocate and start the outbound leg of an entry, wait for victims, or meet pressure. -/
def State.tryLeg (s : State) (p k : Nat) (e : LEntry) (r : Run) (pl : Plan) (victims : Bool) : State :=
  match s.legAlloc p k e r.disp r.tier with
  | .ok s => s.queueLeg p k e r.disp r.tier r.lead
  | .error code =>
    let c := s.entryCoded e
    let id := s.tier.nextAlloc
    let w : AllocWait := { id := id, by_ := .leg p k, part := p, tier := r.tier, addr := 0, stack := 0xFF, size := c, hint := 0 }
    let got :=
      if victims && code = 0x030A && r.tier ≤ 1 && s.guaranteed { part := p, tier := r.tier, size := c } && c > s.freeUnits then
        State.pickVictims { s with tier := { s.tier with waits := s.tier.waits ++ [w], nextAlloc := id + 1 } } p id
          (s.tier.holdings.length + 1) (c - s.freeUnits)
      else none
    match got with
    | some s => (s.modRun p k (fun r => { r with out := .waiting })).runVictims
    | none => s.pressureAt p k e r pl code

/-- The leg's allocation waits for victims that are still being moved. -/
def State.legVictims (s : State) (p k : Nat) : Bool :=
  s.tier.waits.any (fun w => decide (w.by_ = .leg p k)
    && (s.tier.evict.any (fun e => e.alloc == w.id) || s.tier.evictQueue.any (fun e => e.2 == w.id)))

def State.dropLegWait (s : State) (p k : Nat) : State :=
  { s with tier := { s.tier with waits := s.tier.waits.filter (fun w => decide (w.by_ ≠ .leg p k)) } }

/-- Retry the waiting allocations of legs (R127, R165, R180). -/
def State.retryLegs (s : State) : State :=
  let ks := (List.range 8).flatMap (fun p => (s.entriesOf p).filterMap (fun x =>
    match s.run? p x.1 with
    | some r => if r.out = .waiting then some ((x.2.produce * 8 + p) * 131072 + x.1) else none
    | none => none))
  (sortNats ks).foldl (fun s v =>
    let p := v / 131072 % 8
    let k := v % 131072
    match s.entry? p k, s.run? p k, s.planOf p k with
    | some e, some r, some pl =>
      (match s.legAlloc p k e r.disp r.tier with
      | .ok s => (s.dropLegWait p k).queueLeg p k e r.disp r.tier r.lead
      | .error code =>
        if r.pressure || s.legVictims p k then s else (s.dropLegWait p k).pressureAt p k e r pl code)
    | _, _, _ => s) s

/-! ### The points of an entry (R160, R161, R164, R168, R169) -/

/-- P is reached. -/
def State.produceAt (s : State) (p k : Nat) (e : LEntry) (pl : Plan) (q : Nat) : State :=
  let w := s.word? p k
  let r : Run := { step := q, disp := w.disp, tier := if w.disp = 2 then e.homeTier else w.tier, lead := w.lead }
  let s := (s.setRun p k r).openRaw p k e
  match w.disp with
  | 1 => (s.modRun p k (fun r => { r with inPlace := true })).outDone p k e q
  | 5 =>
    let s := (s.closeRaw p k).modRun p k (fun r => { r with out := .done })
    (s.useRegrow e q w.lead).outDone p k e q
  | _ =>
    let s := s.modRun p k (fun r => { r with inPlace := true })
    s.tryLeg p k e ((s.run? p k).getD r) pl true

/-- S is reached: the fetch-back or REGROW starts, or waits for what it lacks. -/
def State.startPoint (s : State) (p k : Nat) (e : LEntry) (r : Run) : State :=
  let s := s.modRun p k (fun r => { r with back := .waiting })
  if r.disp = 5 then (s.openRaw p k e).tryRegrow p k e else s.pump e.stream 64

/-- F is reached: a KEEP entry completes; a leg still waiting for capacity is withdrawn (R169, R179). -/
def State.firstPoint (s : State) (p k : Nat) (e : LEntry) (r : Run) : State :=
  if r.pressure then
    let s := (s.dropLegWait p k).adapt p k e 1
    (s.modRun p k (fun r => { r with out := .none, pressure := false })).itemDone p k e r.step
  else if r.disp = 1 then s.itemDone p k e r.step
  else s

/-- Ranges of a plan's arena that lie in the pool, in order and merged (R160). -/
def arenaRanges (es : List LEntry) : List (Nat × Nat) :=
  mergeRanges (((es.filter (fun e => inPool e.use)).map (fun e => (e.use, e.use + e.rawUnits * granule))).foldl
    (fun acc x => insertRange x acc) [])

/-- Entries of the replaced plan that still occupy their range. -/
def State.carried (s : State) (p : Nat) : List LEntry :=
  (s.entriesOf p).filterMap (fun x =>
    if x.1 < 65536 then none
    else match s.run? p x.1 with | some r => if r.closed then none else some x.2 | none => none)

/-- Reserve the arena of the plan in force and what CARRY entries of the old one still hold (R160). -/
def State.setArena (s : State) (p : Nat) : State :=
  let own := (((s.ledger p).inForce.map (·.entries)).getD []) ++ s.carried p
  let old := s.tier.reserves.filter (fun r => r.part == p && r.arena)
  let s := old.foldl (fun s r => s.tag p r.base r.size) s
  let new := (arenaRanges own).map (fun r => ({ part := p, base := r.1, size := (r.2 - r.1) / granule, arena := true } : Reserve))
  let s := new.foldl (fun s r => s.untag r.base r.size) s
  { s with tier := { s.tier with reserves := s.tier.reserves.filter (fun r => !(r.part == p && r.arena)) ++ new } }

/-- L is reached: the raw holding closes for good. An entry adapted to KEEP under R179 makes its OUT addition here. -/
def State.lastPoint (s : State) (p k : Nat) (e : LEntry) (r : Run) : State :=
  let s := if r.disp = 1 && !r.outReady && !r.failed then s.outDone p k e r.step else s
  let s := (s.closeRaw p k).modRun p k (fun r => { r with closed := true, inPlace := false })
  if k ≥ 65536 then s.setArena p else s

/-- What an entry's run has reached by now, in order; `fuel` bounds the points. -/
def State.entryPoints (s : State) (p k : Nat) : State :=
  match s.entry? p k, s.planOf p k with
  | some e, some pl =>
    let now := s.stepPhase
    let step1 (s : State) : State :=
      match s.run? p k with
      | none => s
      | some r =>
        let s := if r.back = .none && !r.failed && !r.closed && !r.pressure && r.disp ≠ 1 && now + r.lead ≥ e.firstAt r.step then
            s.startPoint p k e r else s
        let r := (s.run? p k).getD r
        let s := if now ≥ e.firstAt r.step && !r.failed && !r.closed && !r.inReady && r.back = .none then
            s.firstPoint p k e r else s
        let r := (s.run? p k).getD r
        if now > e.lastAt r.step && !r.closed then s.lastPoint p k e r
        else if now ≥ e.lastAt r.step && !r.closed then s.lastPoint p k e r
        else s
    let s := step1 s
    let q := s.cad.step
    if k < 65536 && now ≥ q * 65536 + e.produce && (match s.run? p k with | some r => r.closed && r.step ≠ q | none => true) then
      step1 (s.produceAt p k e pl q)
    else s
  | _, _ => s

/-! ### Completion and failure of legs -/

/-- The object of a coded holding is in it: its length is noted. -/
def State.noteObject (s : State) (id : Nat) : State :=
  match s.hold? id with
  | some h =>
    let n := match Xpc.parseHdr (s.rd h.base 64) with | some x => x.objLen * 16 | none => h.size * granule
    s.setHold id { h with objLen := if n = 0 then 1 else n }
  | none => s

/-- The channel of a finished or failed item is free again (R236). -/
def State.freeChan (s : State) (d n : Nat) : State :=
  let s := s.releaseChan d n
  s.setChan d n { s.chan d n with st := .idle, work := .chain, moving := none }

/-- An outbound leg's last byte is acknowledged (R167). -/
def State.outComplete (s : State) (d n p k : Nat) (e : LEntry) (r : Run) : State :=
  let s := match r.disp, r.raw, r.rest with
    | 3, some id, _ => (s.moveHome id).modRun p k (fun r => { r with raw := none, rest := some id })
    | _, _, some id => (s.noteObject id).closeRaw p k
    | _, _, none => s
  let s := s.modRun p k (fun r => { r with inPlace := false, out := .done, gap := false, tries := 0 })
  ((s.freeChan d n).outDone p k e r.step).pump e.stream 64

/-- A fetch-back's last byte is acknowledged (R168). -/
def State.backComplete (s : State) (d n p k : Nat) (e : LEntry) (r : Run) : State :=
  let s := match (s.chan d n).moving with
    | some id => (s.moveHome id).modRun p k (fun r => { r with raw := some id, rest := none })
    | none => s.freeRest p k
  let s := (s.freeChan d n).count .sclFetchCount
  (s.itemDone p k e r.step).pump e.stream 64

/-- Failures that a Scaler item of a STALL stream is reissued after: none that the channel has retried, no damage, and
none that R181 names (R236). -/
def reissues (code : Nat) : Bool :=
  !(decide (0x0201 ≤ code) && decide (code ≤ 0x0208)) && code != 0x0303 && code != 0x0304 && code != 0x0305 && code != 0x0306
    && code != 0x0307 && code != 0x030D

def State.reissueLeft (s : State) (e : LEntry) (r : Run) (code : Nat) : Bool :=
  reissues code && s.entryStall e && decide (r.tries < bits (s.rnat .sclTierRetry) 23 16)

/-- An outbound leg fails (R211, R236). -/
def State.outFailed (s : State) (p k : Nat) (e : LEntry) (r : Run) (code : Nat) : State :=
  if s.reissueLeft e r code then s.modRun p k (fun r => { r with out := .queued, gap := true, tries := r.tries + 1 })
  else
    let s := if r.disp = 3 then s else s.freeRest p k
    let held := match r.raw.bind s.hold? with | some h => h.state == 1 | none => false
    let s := if held then (s.adapt p k e 1).modRun p k (fun r => { r with inPlace := true, back := .none, lead := 0 })
      else s.modRun p k (fun r => { r with inPlace := false, broken := code })
    let s := s.modRun p k (fun r => { r with out := .done })
    (s.outDone p k e r.step).pump e.stream 64

/-- A fetch-back fails (R181, R236). -/
def State.backFailed (s : State) (p k : Nat) (e : LEntry) (r : Run) (code : Nat) : State :=
  if s.reissueLeft e r code then s.modRun p k (fun r => { r with back := .waiting, gap := true, tries := r.tries + 1 })
  else (s.fallback p k e code).pump e.stream 64

/-- A leg's channel has stopped: the failure goes to the Scaler, which clears the channel (R236). -/
def State.legFailed (s : State) (d n p k : Nat) (back : Bool) (code : Nat) : State :=
  let s := s.freeChan d n
  match s.entry? p k, s.run? p k with
  | some e, some r => if r.failed || r.closed then s.pump e.stream 64 else if back then s.backFailed p k e r code else s.outFailed p k e r code
  | _, _ => s

/-- A running leg moves its data; the operand bytes are those of host memory. -/
def State.legTransfer (s : State) (d n : Nat) (ext : Ext) (ecc : Ecc) : State :=
  let c := s.chan d n
  if c.st ≠ .run || c.xfer ≠ .none || c.retry.isSome then s
  else if (c.desc.op = 5 || c.desc.op = 6) && c.xpcSlots = 0 then s
  else
    match ecc with
    | .uncorrectable a => (s.eccUncorrected a).failChan d n 0x0303 a
    | .poison => (s.raise .sclTierEvent 2).failChan d n 0x0304 c.desc.src
    | e => (if e = .corrected then s.eccCorrected else s).runOp d n ext

/-- OUTBOUND_LEG_COMPLETE and FETCH_BACK_COMPLETE: the transfer of an entry's leg ends. -/
def State.legComplete (s : State) (p k : Nat) (back : Bool) (ext : Ext) (ecc : Ecc) : State :=
  match s.entry? p k, s.run? p k with
  | some e, some r =>
    let (d, n) := s.streamChan e.stream
    if (s.chan d n).work ≠ .leg p k back || (s.chan d n).st ≠ .run then s
    else
      let s := s.legTransfer d n ext ecc
      if (s.chan d n).st = .run && (s.chan d n).xfer = .done then
        if back then s.backComplete d n p k e r else s.outComplete d n p k e r
      else s
  | _, _ => s

/-- FETCH_BACK_START: S is reached, or the channel or the outbound leg has become free. -/
def State.backStart (s : State) (p k : Nat) : State :=
  match s.entry? p k, s.run? p k with
  | some e, some r =>
    if r.failed || r.closed || r.disp = 1 || r.pressure then s
    else if r.back = .none then
      if s.stepPhase + r.lead ≥ e.firstAt r.step then s.startPoint p k e r else s
    else s.pump e.stream 64
  | _, _ => s

/-- REGROW_START: a waiting REGROW whose conditions may now hold. -/
def State.regrowStart (s : State) (p k : Nat) : State :=
  match s.entry? p k, s.run? p k with
  | some e, some r =>
    if r.failed || r.closed || r.disp ≠ 5 then s
    else if r.back = .none then
      if s.stepPhase + r.lead ≥ e.firstAt r.step then s.startPoint p k e r else s
    else s.tryRegrow p k e
  | _, _ => s

/-- The gap after a failure has passed: the item is reissued (R236). -/
def State.reissue (s : State) (p k : Nat) : State :=
  match s.entry? p k, s.run? p k with
  | some e, some r => if r.gap then (s.modRun p k (fun r => { r with gap := false })).pump e.stream 64 else s
  | _, _ => s

/-! ### Lateness (R62, R170, R183) -/

/-- Stop what an item of an entry is doing: its transfer, or its segment, whose context is released. -/
def State.stopItem (s : State) (p k : Nat) (e : LEntry) : State :=
  let (d, n) := s.streamChan e.stream
  let s := match (s.run? p k).bind (·.raw) with | some id => s.moveFailed id 1 | none => s
  let s := match (s.chan d n).work with
    | .leg a b _ =>
      if a = p && b = k then
        let s := match (s.chan d n).moving with | some id => s.moveFailed id 1 | none => s
        s.freeChan d n
      else s
    | _ => s
  match s.regrowCtx p k e with
  | some (t, c) =>
    let s := s.drainCtx t c
    ((s.cancelWait (.tileCtx t c)).holdEnd (ctxItem t c)).setCtx t c
      { s.ctx t c with
        st := if (s.ctx t c).st = .fault then .fault else .idle, scaler := false, seg := none, wait := .none, deadline := none, startAt := none, late := false }
  | none => s

/-- D of a fetch-back or REGROW is reached before the entry is in place. -/
def State.scalerDeadline (s : State) (p k : Nat) : State :=
  match s.entry? p k, s.run? p k with
  | some e, some r =>
    if r.disp = 1 || r.inReady || r.failed || r.closed || r.late || r.pressure || s.stepPhase < e.firstAt r.step then s
    else
      let stall := s.entryStall e
      let s := s.late (scalerItem p k) e.stream (some p) stall 0x0D03 s.phaseInt
      if stall then s.modRun p k (fun r => { r with late := true })
      else
        let s := ((s.stopItem p k e).issue 0x0D03 { part := p }).modRun p k (fun r => { r with back := .done })
        (s.itemFailed p k e 0x0D03).pump e.stream 64
  | _, _ => s

/-- An item ended by the cadence: a discontinuity, a HOLD_N timeout, or the end of all work. -/
def State.endScaler (s : State) (p k code : Nat) : State :=
  match s.entry? p k, s.run? p k with
  | some e, some r =>
    if r.inReady || r.failed || r.closed then s
    else ((s.stopItem p k e).modRun p k (fun r => { r with back := .done })).itemFailed p k e code
  | _, _ => s

/-! ### Activation and withdrawal at a wrap (R143, R155, R160) -/

/-- Peak lower-tier need of a plan against the partition's quotas. -/
def State.quotaShort (s : State) (p : Nat) (pl : Plan) : Bool :=
  pl.mode = 2 && [2, 3].any (fun t =>
    let pk := lowPeak (s.planPEs p pl) t
    decide (pk > 0) && decide (pk > s.quotaLeft p t))

/-- The arena can be reserved: every granule is free of others, needs no zeroing, and the whole stays within the share. -/
def State.arenaFits (s : State) (p : Nat) (pl : Plan) : Bool :=
  let rs := arenaRanges pl.entries
  let others := (s.tier.holdings.filter (fun e => match e.2.by_ with | .raw _ => e.2.owner != p | _ => true)).map
      (fun e => (e.2.base, e.2.size))
    ++ (s.tier.holdings.filterMap (fun e => e.2.dest.map (fun b => (b, e.2.destUnits))))
    ++ ((s.tier.reserves.filter (fun r => !(r.part == p && r.arena))).map (fun r => (r.base, r.size)))
  let free := rs.all (fun r => others.all (fun o => !overlaps o.1 (o.2 * granule) r.1 (r.2 - r.1)))
  let clean := rs.all (fun r => s.rangeClean p r.1 ((r.2 - r.1) / granule))
  let now := s.partUnits p - ((s.tier.reserves.filter (fun r => r.part == p && r.arena)).map (·.size)).sum
  free && clean && decide (now + (rs.map (fun r => (r.2 - r.1) / granule)).sum ≤ s.shareUnits p)

/-- The old plan gives way: CARRY entries produced in the step that ends run on, everything else is released (R143). -/
def State.retirePlan (s : State) (p : Nat) : State :=
  let mine := s.scl.runs.filter (fun e => e.1 / 131072 == p)
  let keeps (e : Nat × Run) : Bool :=
    match s.entry? p (e.1 % 131072) with
    | some x => e.1 % 131072 < 65536 && x.kind == 2 && !e.2.closed && e.2.step + 1 == s.cad.step
    | none => false
  let gone := mine.filter (fun e => !keeps e)
  let s := gone.foldl (fun s e => ((s.closeRaw p (e.1 % 131072)).freeRest p (e.1 % 131072)).clearRun p (e.1 % 131072)) s
  let kept := mine.filter keeps
  let s := kept.foldl (fun s e => (s.clearRun p (e.1 % 131072)).setRun p (e.1 % 131072 + 65536) e.2) s
  { s with tier := { s.tier with holdings := s.tier.holdings.map (fun h =>
      match h.2.by_ with
      | .raw k => if h.2.owner = p && k < 65536 && kept.any (fun e => e.1 % 131072 == k) then (h.1, { h.2 with by_ := .raw (k + 65536) }) else h
      | .coded k => if h.2.owner = p && k < 65536 && kept.any (fun e => e.1 % 131072 == k) then (h.1, { h.2 with by_ := .coded (k + 65536) }) else h
      | _ => h) } }

/-- Channel work of the kept entries follows their new number. -/
def State.renumberLegs (s : State) (p : Nat) : State :=
  { s with dma := { s.dma with chans := s.dma.chans.map (fun c =>
      match c.2.work with
      | .leg a k b => if a = p && k < 65536 && (s.run? p k).isNone && (s.run? p (k + 65536)).isSome then
          (c.1, { c.2 with work := .leg a (k + 65536) b }) else c
      | _ => c) } }

/-- The planned ledger becomes the plan in force, or fails (Table 5.4). -/
def State.activatePlan (s : State) (p : Nat) : State :=
  let l := s.ledger p
  match l.planned with
  | none => s
  | some pl =>
    if l.st ≠ .planned || s.cad.step < pl.start then s
    else
      let failed (code : Nat) : State :=
        (s.ledgerFailed p code none none).logAdd (hwEntry 0 code p (new := pl.id))
      if s.quotaShort p pl then failed 0x030C
      else if !s.arenaFits p pl then failed 0x030A
      else
        let old := (l.inForce.map (·.id)).getD 0
        let s := s.retirePlan p
        let s := s.setLedger p { s.ledger p with st := .idle, planned := none, old := l.inForce, inForce := some pl, withdraw := false }
        let s := ((s.renumberLegs p).setArena p).raise .sclLedgerEvent 2
        s.logAdd (hwEntry 0 (part := p) (old := old) (new := pl.id))

/-- A withdrawn plan ends at the wrap unless another has just come into force (R145). -/
def State.withdrawPlan (s : State) (p : Nat) : State :=
  let l := s.ledger p
  if !l.withdraw then s
  else
    let s := s.retirePlan p
    let s := s.setLedger p { s.ledger p with old := l.inForce, inForce := none, withdraw := false }
    ((s.renumberLegs p).setArena p).logAdd (hwEntry 0 (part := p) (old := (l.inForce.map (·.id)).getD 0))

/-- The Scaler's wrap actions but for the park table. -/
def State.scalerWrap (s : State) : State :=
  let s := (List.range 8).foldl (fun s p => (s.activatePlan p).withdrawPlan p) s
  { s with scl := { s.scl with regrowUsed := s.scl.regrowUsed.filter (fun e => decide (e.1 / 32 ≥ s.cad.step)) } }

/-! ### Moving a whole holding: evictions, parked pages, model pieces -/

/-- How the bytes travel. -/
inductive Carry where
  | plain | pack | unpack
  deriving DecidableEq, Repr

/-- Move the content of a holding to the range reserved for it: its object length there, or the code it fails with. -/
def State.carryData (s : State) (d n : Nat) (h : Holding) (how : Carry) (ext : List Byte) : Except Nat (Nat × State) :=
  let len := match how with
    | .plain => h.size * granule
    | .pack => h.rawLen
    | .unpack => h.size * granule
  let src (o m : Nat) : List Byte := if isValley h.base then slice ext o m else s.rd (h.base + o) m
  match h.dest with
  | none => .ok (h.objLen, s)
  | some b =>
    let dst := s.devAddr b
    match how with
    | .plain => .ok (h.objLen, s.writeOut d n dst (src 0 len))
    | .pack =>
      let pre := (s.preset h.owner 0).getD (256, true)
      let pk := Xpc.pack h.dtype 0 pre.1 pre.2 (src 0 len)
      let o := packOut dst (h.destUnits * granule) pk pk.writes { writes := [(dst, leBytes 64 0)], done := 64, raw := len }
      (match o.err with
      | some code => .error code
      | none =>
        let s := o.writes.foldl (fun s w => s.writeOut d n w.1 w.2) s
        let s := ((s.count .xpcRawBytes len d).count .xpcCodedBytes o.coded d).count .xpcBlocksCoded o.blocksCoded d
        .ok (o.coded, s.count .xpcBlocksRaw o.blocksRaw d))
    | .unpack =>
      let o := unpackedOut dst (Xpc.unpack src 0 0 h.rawLen)
      let s := (o.writes.foldl (fun s w => s.writeOut d n w.1 w.2) s).count .xpcBlocksDecoded o.blocksDecoded d
      (match o.err with
      | some code => .error code
      | none => .ok (0, s))

/-- The holding has arrived: its destination becomes home (R117), or it is freed if it was released meanwhile (R190). -/
def State.arrived (s : State) (id objLen : Nat) : State :=
  let s := s.moveHome id
  let s := match s.hold? id with | some h => s.setHold id { h with objLen := objLen } | none => s
  if s.scl.dying.contains id then
    State.freeHold { s with scl := { s.scl with dying := s.scl.dying.filter (· != id) } } id
  else s

/-! ### Parking (R185 to R191) -/

def State.parkOf (s : State) (p req : Nat) : Option Parked := s.scl.park.find? (fun x => x.part == p && x.req == req)
def State.setPark (s : State) (x : Parked) : State :=
  { s with scl := { s.scl with park := s.scl.park.map (fun (y : Parked) => if y.part = x.part && y.req = x.req then x else y) } }
def State.dropPark (s : State) (p req : Nat) : State :=
  { s with scl := { s.scl with park := s.scl.park.filter (fun x => !(x.part == p && x.req == req)) } }

/-- A conversation pauses: it enters the park table, or 0x040E is reported and its pages stay (R185, R186, R188). -/
def State.parkEnter (s : State) (p req ttl : Nat) (pages : List Nat) : State :=
  if s.scl.park.length ≥ 16384 then s.issue 0x040E { part := p }
  else
    let t := if ttl = 0 then s.rnat .sclKvTtl p else ttl
    { s with scl := { s.scl with park := s.scl.park ++ [
        ({ part := p, req := req, expiry := s.cad.step + t, pages := pages.map (fun h => { hold := h }) } : Parked)] } }

/-- The phase lies within the partition's park window. -/
def State.inParkWindow (s : State) (p : Nat) : Bool :=
  let v := s.rnat .sclKvWin p
  decide (bits v 15 0 ≤ s.phaseInt) && decide (s.phaseInt < bits v 31 16)

def State.kvStream (s : State) (p : Nat) : Nat := bits (s.rnat .sclKvCfg p) 7 2

def setPage (i : Nat) (f : ParkPage → ParkPage) (ps : List ParkPage) : List ParkPage :=
  match ps[i]? with
  | some x => ps.set i (f x)
  | none => ps

/-- Start moving page `i` of a conversation to the range `b` of `units`. -/
def State.startPage (s : State) (x : Parked) (i : Nat) (id : Nat) (h : Holding) (b units : Nat) (back : Bool) : State :=
  let (d, n) := s.streamChan (s.kvStream x.part)
  let s := s.setHold id { h with dest := some b, destSize := units }
  let s := s.setPark { x with pages := setPage i (fun g => { g with moving := true }) x.pages }
  s.putItem d n (.park x.part x.req i back) (moveDesc (s.devAddr h.base) (s.devAddr b) (h.size * granule)) (some id)

/-- PARK_MOVE_START (R185). -/
def State.parkMove (s : State) (p req : Nat) : State :=
  match s.parkOf p req with
  | none => s
  | some x =>
    if x.resuming || !s.inParkWindow p || !s.streamFree (s.kvStream p) then s
    else
      match (List.range x.pages.length).find? (fun i =>
        match x.pages[i]? with
        | some g => !g.parked && !g.moving && !g.failedWindow && (match s.hold? g.hold with | some h => h.state == 1 | none => false)
        | none => false) with
      | none => s
      | some i =>
        match x.pages[i]?.bind (fun g => (s.hold? g.hold).map (fun h => (g.hold, h))) with
        | none => s
        | some (id, h) =>
          let pack := s.rbit .sclKvCfg 0 p && decide (1 ≤ h.dtype) && decide (h.dtype ≤ 5) && h.objLen = 0
          let units := if pack then s.codedUnits h.dtype h.size else h.size
          match s.evictDest p units (s.rbit .sclKvCfg 1 p) with
          | some b => s.startPage x i id h b units false
          | none =>
            ((s.setPark { x with pages := setPage i (fun g => { g with failedWindow := true }) x.pages }).count .sclParkFail).raise
              .sclRunEvent 7

/-- Start bringing back the next page of a resuming conversation, if the channel is free and Slope has room (R187). -/
def State.returnNext (s : State) (p req : Nat) : State :=
  match s.parkOf p req with
  | none => s
  | some x =>
    if !x.resuming || !s.streamFree (s.kvStream p) then s
    else
      match (List.range x.pages.length).find? (fun i => match x.pages[i]? with | some g => g.parked && !g.moving | none => false) with
      | none => s
      | some i =>
        match x.pages[i]?.bind (fun g => (s.hold? g.hold).map (fun h => (g.hold, h))) with
        | none => s
        | some (id, h) =>
          if h.state ≠ 1 then s
          else
            let units := ceilDiv h.rawLen granule
            match s.placeKv p x.stack units with
            | (some b, s) => s.startPage x i id h b units true
            | (none, s) => s

/-- A page's MOVE ends on channel (d, n); `code` is 0 when it has arrived (R187, R190, R191). -/
def State.pageMoved (s : State) (d n p req : Nat) (back : Bool) (ext : List Byte) : State :=
  let c := s.chan d n
  match c.moving.bind (fun id => (s.hold? id).map (fun h => (id, h))) with
  | none => s.freeChan d n
  | some (id, h) =>
    let how : Carry := if back then (if h.objLen = 0 then .plain else .unpack)
      else if h.destUnits ≠ h.size then .pack else .plain
    match s.carryData d n h how ext with
    | .ok (len, s) =>
      let s := (s.arrived id len).freeChan d n
      (match s.parkOf p req with
      | some x =>
        (s.setPark { x with pages := x.pages.map (fun (g : ParkPage) =>
          if g.hold = id then { g with moving := false, parked := !back } else g) }).returnNext p req
      | none => s)
    | .error code =>
      let s := (s.moveFailed id 1).stopChan d n code 0
      s

/-- A page's MOVE fails: the page stays as Table 4.5 gives, and is not tried again in this window (R191). -/
def State.pageFailed (s : State) (d n p req i : Nat) : State :=
  let s := (s.freeChan d n).count .sclParkFail
  let s := s.raise .sclRunEvent 7
  match s.parkOf p req with
  | some x => s.setPark { x with pages := setPage i (fun g => { g with moving := false, failedWindow := true }) x.pages }
  | none => s

/-- The conversation resumes: pending park MOVEs are cancelled and parked pages come back (R187). -/
def State.parkResume (s : State) (p req stack : Nat) : State :=
  match s.parkOf p req with
  | some x => (s.setPark { x with resuming := true, stack := stack }).returnNext p req
  | none => s

/-- Some page of the conversation has become LOST (R191). -/
def State.parkLost (s : State) (x : Parked) : Bool :=
  x.pages.any (fun g => match s.hold? g.hold with | some h => h.state == 4 | none => true)

/-- Every page is back in the fast pool. -/
def Parked.home (x : Parked) : Bool := x.pages.all (fun g => !g.parked && !g.moving)

/-- Release the pages of a conversation: held ones at once, one in flight when its MOVE completes (R186, R190). -/
def State.parkRelease (s : State) (p req : Nat) : State :=
  match s.parkOf p req with
  | none => s
  | some x =>
    (x.pages.foldl (fun s g =>
      match s.hold? g.hold with
      | some h => if h.state = 2 then { s with scl := { s.scl with dying := s.scl.dying ++ [g.hold] } } else s.freeHold g.hold
      | none => s) s).dropPark p req

/-- The wrap into the expiry step of conversations not resumed (R186): their requests, and the state without them. -/
def State.parkExpire (s : State) : List (Nat × Nat) × State :=
  let due := s.scl.park.filter (fun x => x.expiry == s.cad.step && !x.resuming)
  (due.map (fun x => (x.part, x.req)),
   due.foldl (fun s x =>
     (((s.parkRelease x.part x.req).count .sclParkExpired).raise .sclRunEvent 8).issue 0x040D { part := x.part }) s)

/-- A new window opens at each wrap: pages that failed may be tried again. -/
def State.parkWrap (s : State) : State :=
  { s with scl := { s.scl with park := s.scl.park.map (fun (x : Parked) =>
      { x with pages := x.pages.map (fun (g : ParkPage) => { g with failedWindow := false }) }) } }

end Sys2Proof.Machine
end

