-- ==== Sys2Proof/Machine/Kv.lean ====
section
/-! DEFINITION. Request records, page tables, the prefix tree's nodes and what ended requests leave behind (R363, R377,
R382, R385 to R390, R396, R399). -/
namespace Sys2Proof.Machine

/-! ### Records -/

def State.req? (s : State) (r : Nat) : Option Req := NMap.get? s.srv.reqs r
def State.setReq (s : State) (r : Nat) (x : Req) : State := { s with srv := { s.srv with reqs := NMap.put s.srv.reqs r x } }
def State.modReq (s : State) (r : Nat) (f : Req → Req) : State :=
  match s.req? r with
  | some x => s.setReq r (f x)
  | none => s
def State.freeRecord (s : State) (r : Nat) : State := { s with srv := { s.srv with reqs := NMap.del s.srv.reqs r } }
def State.srvPart (s : State) (p : Nat) : SrvPart := NMap.getD s.srv.parts p {}
def State.setSrvPart (s : State) (p : Nat) (x : SrvPart) : State :=
  { s with srv := { s.srv with parts := NMap.put s.srv.parts p x } }
def State.modSrvPart (s : State) (p : Nat) (f : SrvPart → SrvPart) : State := s.setSrvPart p (f (s.srvPart p))

/-- Records of a partition in use. -/
def State.reqsOf (s : State) (p : Nat) : List (Nat × Req) := s.srv.reqs.filter (fun e => e.2.part == p)

/-- The request waits for admission. -/
def Req.waiting (x : Req) : Bool := x.stage == .queued || x.stage == .delayed

/-- Slots in use, by requests and until the next wrap by those that have left them (R377). -/
def State.slotsUsed (s : State) (p : Nat) : List Nat :=
  (s.reqsOf p).filterMap (fun e => e.2.slot) ++ (s.srv.left.filter (fun x => x.part == p)).filterMap (·.slot)

/-- The lowest free slot. -/
def State.freeSlotOf (s : State) (p : Nat) : Option Nat :=
  (List.range (s.rnat .srvSlots p)).find? (fun n => !(s.slotsUsed p).contains n)

/-- Commitments held by a partition (R411). -/
def State.committed (s : State) (p : Nat) : Nat :=
  ((s.reqsOf p).map (fun e => e.2.commit)).sum + ((s.srv.left.filter (fun x => x.part == p)).map (·.commit)).sum

/-- Stack of the B-tile that serves slot `n` (R362). -/
def State.slotStack (s : State) (p n : Nat) : Nat :=
  let tiles := ((s.part? p).map (·.tiles)).getD 0
  let bs := (List.range 8).filter (fun u => bit tiles (16 + u))
  if bs.isEmpty then 0xFF else bs.getD (n % bs.length) 0xFF

/-! ### Accounts -/

def State.weighted (s : State) (p : Nat) : Bool := ((s.part? p).map (·.fairness)).getD false
def State.acct (s : State) (p a : Nat) : Acct := NMap.getD s.srv.accts (p * 4096 + a) {}
def State.setAcct (s : State) (p a : Nat) (x : Acct) : State :=
  { s with srv := { s.srv with accts := NMap.put s.srv.accts (p * 4096 + a) x } }

/-- Waiting requests of an account in order of arrival (R408). -/
def State.waitingOf (s : State) (p a : Nat) : List (Nat × Req) :=
  let xs := (s.reqsOf p).filter (fun e => e.2.waiting && e.2.account == a)
  (sortNats (xs.map (fun e => e.2.serial * 32768 + e.1))).filterMap (fun v =>
    (s.req? (v % 32768)).map (fun x => (v % 32768, x)))

/-- The queue's last waiting request has left it: its deficit is 0 (R418). -/
def State.queueLeft (s : State) (p a : Nat) : State :=
  if s.weighted p && (s.waitingOf p a).isEmpty then s.setAcct p a { s.acct p a with deficit := 0 } else s

def minBalance : Int := -(2 ^ 47)

/-- Charge tokens to a request's account: balance and spend in budget mode (R419). -/
def State.charge (s : State) (p a k : Nat) : State :=
  if s.weighted p then s
  else
    let x := s.acct p a
    s.setAcct p a { x with balance := max minBalance (x.balance - k), spent := min (2 ^ 64 - 1) (x.spent + k) }

/-! ### Sizes (R385 to R387) -/

def State.model (s : State) (p m : Nat) : Model := NMap.getD (s.srvPart p).models m {}
def State.setModel (s : State) (p m : Nat) (x : Model) : State :=
  s.modSrvPart p (fun v => { v with models := NMap.put v.models m x })

/-- Units of a page of a model. -/
def Model.pageUnits (m : Model) : Nat := ceilDiv (64 * m.kvBytes) granule

def tableUnits (cap : Nat) : Nat := ceilDiv (128 + 16 * cap) granule

/-- CAPACITY of a request's page tables. -/
def capacityOf (m : Model) (plen : Nat) (x : Sampling) : Nat :=
  min (ceilDiv (plen - 1 + x.maxNew + x.specK) 64) (m.maxContext / 64)

/-- Some penalty of the request is not zero; REP's neutral value is 1. -/
def Sampling.penalised (x : Sampling) : Bool :=
  x.rep != 0x3F800000 || x.presence % 2 ^ 31 != 0 || x.freq % 2 ^ 31 != 0

/-- Units of the request holding: page table, count table, and the draft model's page table. -/
def holdingUnits (cap : Nat) (x : Sampling) : Nat :=
  tableUnits cap + b2n x.penalised + (if x.specK = 0 then 0 else tableUnits cap)

/-- The KV commitment of a submission. -/
def State.commitmentOf (s : State) (p m plen : Nat) (x : Sampling) : Nat :=
  let cap := capacityOf (s.model p m) plen x
  let ud := if x.specK = 0 then 0 else (s.model p x.draft).pageUnits
  cap * ((s.model p m).pageUnits + ud) + holdingUnits cap x

/-! ### The page table in memory (Tables 14.1, 14.2) -/

def State.tableBase (s : State) (x : Req) : Nat := ((x.hold.bind s.hold?).map (·.base)).getD 0
def State.countBase (s : State) (x : Req) : Nat := s.tableBase x + tableUnits x.cap * granule
def State.draftBase (s : State) (x : Req) : Nat :=
  s.tableBase x + (tableUnits x.cap + b2n x.samp.penalised) * granule

/-- A field of the header: `draft` selects the draft model's table. -/
def State.ptGet (s : State) (x : Req) (draft : Bool) (o n : Nat) : Nat :=
  s.rdNat ((if draft then s.draftBase x else s.tableBase x) + o) n
def State.ptPut (s : State) (x : Req) (draft : Bool) (o n v : Nat) : State :=
  s.wrNat ((if draft then s.draftBase x else s.tableBase x) + o) n v

/-- The header as ADMIT leaves it, with every entry and the count table empty. -/
def State.ptInit (s : State) (r : Nat) (x : Req) : State :=
  match x.hold.bind s.hold? with
  | none => s
  | some h =>
    let s := s.zero h.base (h.size * granule)
    let dt (m : Nat) : Nat := let d := Config.kvDtype m; if 1 ≤ d ∧ d ≤ 5 then d else 7
    let one (s : State) (draft : Bool) (m : Nat) : State :=
      let s := (s.ptPut x draft 12 4 x.cap).ptPut x draft 20 1 (dt m)
      (s.ptPut x draft 21 1 m).ptPut x draft 48 4 r
    let s := one s false x.model
    let s := if x.samp.penalised then s.ptPut x false 40 8 (s.countBase x) else s
    if x.samp.specK = 0 then s else one (s.ptPut x false 32 8 (s.draftBase x)) true x.samp.draft

/-- Write entry `n` as the record has it (R389). -/
def State.ptEntry (s : State) (x : Req) (draft : Bool) (n : Nat) (g : KvPage) : State :=
  let h := s.hold? g.hold
  let a := (if draft then s.draftBase x else s.tableBase x) + 128 + 16 * n
  s.wr a (leBytes 8 ((h.map (·.base)).getD 0) ++ leBytes 4 g.node
    ++ leBytes 1 g.kind ++ leBytes 1 (b2n (((h.map (·.objLen)).getD 0) != 0)) ++ leBytes 2 0)

def Req.table (x : Req) (draft : Bool) : NMap KvPage := if draft then x.dpages else x.pages
def Req.setPage (x : Req) (draft : Bool) (n : Nat) (g : KvPage) : Req :=
  if draft then { x with dpages := NMap.put x.dpages n g } else { x with pages := NMap.put x.pages n g }

/-- Put page `n` in the record and in memory; PAGES counts entries in use. -/
def State.putPage (s : State) (r : Nat) (x : Req) (draft : Bool) (n : Nat) (g : KvPage) : State :=
  let y := x.setPage draft n g
  let s := (s.setReq r y).ptEntry y draft n g
  s.ptPut y draft 8 4 (((y.table draft).getLast?).map (fun e => e.1 + 1) |>.getD 0)

/-- KV_DTYPE of a model's pages as the coder takes it: 0 when opaque. -/
def kvCode (m : Nat) : Nat := let d := Config.kvDtype m; if 1 ≤ d ∧ d ≤ 5 then d else 0

/-- Allocate one page if it is not there yet; `none` when the pool has no range for it now. -/
def State.needPage (s : State) (r : Nat) (draft : Bool) (n stack : Nat) : Option State :=
  match s.req? r with
  | none => some s
  | some x =>
    if (NMap.get? (x.table draft) n).isSome then some s
    else
      let m := if draft then x.samp.draft else x.model
      match s.allocKv x.part stack (s.model x.part m).pageUnits (kvCode m) (.page r) with
      | (some id, s) => some (s.putPage r x draft n { hold := id })
      | (none, _) => none

/-- Pages `lo` to `hi - 1` of the target table and, where there is one, of the draft table (R388). -/
def State.needPages (s : State) (r lo hi stack : Nat) : Option State :=
  match s.req? r with
  | none => some s
  | some x =>
    let ns := (List.range (hi - lo)).map (· + lo)
    let one (draft : Bool) (s : Option State) (n : Nat) : Option State := s.bind (fun s => s.needPage r draft n stack)
    let s1 := ns.foldl (one false) (some s)
    if x.samp.specK = 0 then s1 else ns.foldl (one true) s1

/-! ### Tree nodes (Table 14.3) -/

structure Node where
  parent : Nat := 0
  child : Nat := 0xFFFFFFFF
  sibling : Nat := 0xFFFFFFFF
  refs : Nat := 0
  depth : Nat := 0
  flags : Nat := 1
  model : Nat := 0
  page : Nat := 0
  key : List Byte := []
  deriving DecidableEq, Repr

def noNode : Nat := 0xFFFFFFFF

def State.nodeAddr (s : State) (p n : Nat) : Nat := s.rnat .srvTreeAddr p + 128 * n

def Node.bytes (x : Node) : List Byte :=
  let b := leBytes 4 x.parent ++ leBytes 4 x.child ++ leBytes 4 x.sibling ++ leBytes 4 x.refs ++ leBytes 4 x.depth
    ++ leBytes 1 x.flags ++ leBytes 1 x.model ++ leBytes 2 0 ++ leBytes 8 x.page ++ slice x.key 0 64 ++ leBytes 28 0
  b ++ leBytes 4 (crc32c b)

/-- A node whose CRC holds. -/
def State.node? (s : State) (p n : Nat) : Option Node :=
  let b := s.rd (s.nodeAddr p n) 128
  if fieldAt b 124 4 ≠ crc32c (slice b 0 124) then none
  else some { parent := fieldAt b 0 4, child := fieldAt b 4 4, sibling := fieldAt b 8 4, refs := fieldAt b 12 4,
              depth := fieldAt b 16 4, flags := fieldAt b 20 1, model := fieldAt b 21 1, page := fieldAt b 24 8,
              key := slice b 32 64 }

def State.setNode (s : State) (p n : Nat) (x : Node) : State := s.wr (s.nodeAddr p n) x.bytes
def Node.hasPage (x : Node) : Bool := bit x.flags 1

/-- The holding of a node's page. -/
def State.nodeHold (s : State) (x : Node) : Option Nat :=
  if x.hasPage then (s.tier.holdings.find? (fun e => e.2.base == x.page)).map (·.1) else none

/-- Set REFS; a page that requests name is never a victim (R399). -/
def State.setRefs (s : State) (p n : Nat) (x : Node) (refs : Nat) : State :=
  let s := s.setNode p n { x with refs := refs }
  match s.nodeHold x with
  | some id => (match s.hold? id with | some h => s.setHold id { h with gen := decide (refs ≠ 0) } | none => s)
  | none => s

/-- Nodes below and including `n`, depth first. -/
def State.subtree (s : State) (p : Nat) : Nat → List Nat → List Nat
  | 0, _ => []
  | _, [] => []
  | fuel + 1, n :: r =>
    if n = noNode then State.subtree s p fuel r
    else
      match s.node? p n with
      | none => State.subtree s p fuel r
      | some x => n :: State.subtree s p fuel (x.child :: x.sibling :: r)

/-- The subtree of `n` alone, without its siblings. -/
def State.branch (s : State) (p n : Nat) : List Nat :=
  let fuel := 2 * (s.srvPart p).nodes.length + 4
  match s.node? p n with
  | some x => n :: s.subtree p fuel [x.child]
  | none => [n]

/-- Take `n` out of its parent's list of children. -/
def State.unlinkNode (s : State) (p n next : Nat) : State :=
  ((s.srvPart p).nodes.map (·.1)).foldl (fun s m =>
    match s.node? p m with
    | some x =>
      if m ≠ n && (x.child = n || x.sibling = n) then
        s.setNode p m { x with child := if x.child = n then next else x.child,
                               sibling := if x.sibling = n then next else x.sibling }
      else s
    | none => s) s

/-- Release a tree holding unless a request still names it. -/
def State.freeTreeHold (s : State) (p id : Nat) : State :=
  let named := (s.reqsOf p).any (fun e => e.2.pages.any (fun g => g.2.kind == 2 && g.2.hold == id))
    || s.srv.left.any (fun x => x.part == p && x.shared.any (fun g => g.2.2 == id))
  if named then s
  else
    match s.hold? id with
    | some h => (match h.by_ with | .tree _ => s.freeHold id | _ => s)
    | none => s

/-- Release the pages of a branch and return its nodes to the free list (R399). -/
def State.discardNode (s : State) (p n : Nat) : State :=
  let ns := s.branch p n
  let next := match s.node? p n with | some x => x.sibling | none => noNode
  let s := s.unlinkNode p n next
  let s := ns.foldl (fun s m => match (s.node? p m).bind s.nodeHold with | some id => s.freeTreeHold p id | none => s) s
  let s := ns.foldl (fun s m => s.setNode p m { flags := 0 }) s
  s.modSrvPart p (fun v => { v with nodes := v.nodes.filter (fun e => !ns.contains e.1) })

/-- DISCARD of a tree page by the eviction machine: its node is found by the page's address. -/
def State.discardPage (s : State) (p id : Nat) : State :=
  match s.hold? id with
  | none => s
  | some h =>
    match ((s.srvPart p).nodes.map (·.1)).find? (fun n => match s.node? p n with | some x => x.hasPage && x.page == h.base | none => false) with
    | some n => s.discardNode p n
    | none => s.freeTreeHold p id

/-- Nodes of model `m` that its root no longer reaches, and tree pages no reachable node names, are given up. -/
def State.sweepTree (s : State) (p m : Nat) : State :=
  let live := s.branch p m
  let gone := ((s.srvPart p).nodes.filter (fun e => e.1 ≥ 16 && !live.contains e.1 && e.2 == m)).map (·.1)
  let s := s.modSrvPart p (fun v => { v with nodes := v.nodes.filter (fun e => !gone.contains e.1) })
  let s := gone.foldl (fun s n => s.setNode p n { flags := 0 }) s
  let pages := live.filterMap (fun n => (s.node? p n).bind s.nodeHold)
  let holds := s.tier.holdings.filter (fun e => e.2.owner == p && decide (e.2.by_ = .tree m) && !pages.contains e.1)
  holds.foldl (fun s e => s.freeTreeHold p e.1) s

/-- A request no longer names a tree page: REFS falls (R390). -/
def State.unshare (s : State) (p node id : Nat) : State :=
  match (NMap.get? (s.srvPart p).nodes node).bind (fun _ => s.node? p node) with
  | some x => if s.nodeHold x = some id then s.setRefs p node x (x.refs - 1) else s.freeTreeHold p id
  | none => s.freeTreeHold p id

/-! ### What ended requests leave (R377, R382, R390) -/

/-- A chunk in progress still writes page `n`. -/
def State.chunkCovers (s : State) (p serial n : Nat) : Bool :=
  (s.srvPart p).out.any (fun c => c.serial == serial && decide (c.first < 64 * (n + 1)) && decide (64 * n < c.first + c.tokens))

/-- Release what can be released of one leftover; none when nothing of it stays. -/
def State.settleLeft (s : State) (x : Leftover) : Option Leftover × State :=
  if x.atWrap then (some x, s)
  else
    let busy (g : Nat × Nat) : Bool :=
      s.chunkCovers x.part x.serial g.2 || (match s.hold? g.1 with | some h => h.state == 2 | none => false)
    let stay := x.pages.filter busy
    let s := (x.pages.filter (fun g => !busy g)).foldl (fun s g => s.freeHold g.1) s
    if !stay.isEmpty || (s.srvPart x.part).out.any (fun c => c.serial == x.serial) then
      (some { x with pages := stay, slot := none }, s)
    else
      let s := { s with srv := { s.srv with left := s.srv.left.filter (fun y => decide (y ≠ x)) } }
      let s := x.shared.foldl (fun s g => s.unshare x.part g.2.1 g.2.2) s
      (none, match x.hold with | some id => s.freeHold id | none => s)

/-- Try every leftover. -/
def State.settleLeftovers (s : State) : State :=
  let all := s.srv.left
  let (keep, s) := all.foldl (fun (acc : List Leftover × State) x =>
    let (k, s') := acc.2.settleLeft x
    (match k with | some y => acc.1 ++ [y] | none => acc.1, s')) (([] : List Leftover), s)
  { s with srv := { s.srv with left := keep } }

/-- The step wraps: what waited for the wrap is released (R377, R382). -/
def State.wrapLeftovers (s : State) : State :=
  State.settleLeftovers { s with srv := { s.srv with left := s.srv.left.map (fun (x : Leftover) => { x with atWrap := false }) } }

end Sys2Proof.Machine
end

