-- ==== Sys2Proof/Machine/Serving.lean ====
section
/-! DEFINITION. The request lifecycle, FSM 0x03, with prefill entries, handover, pausing, the generation list, and models
with their swaps (R361 to R384, R388, R389, R406, R412, R414). -/
namespace Sys2Proof.Machine

/-! ### Entries of a request for its host (R473, R483) -/

/-- Function of the partition's VF. -/
def State.fnOf (s : State) (p : Nat) : Nat := ((s.part? p).map (·.vf)).getD 0

/-- A request's final entry becomes ready. -/
def State.finalEntry (s : State) (p tag result code tokens record : Nat) (own : Bool) : State :=
  s.ready (s.fnOf p) {
    tag := tag, kind := 2, result := result, code := code, v32 := tokens, v64 := record, own := own,
    frees := decide (record < 32768) }

/-- A DELAYED notice becomes ready; it takes the place of one not yet written. -/
def State.postNotice (s : State) (p tag reason position steps record : Nat) : State :=
  let f := s.fnOf p
  let x := s.fnSt f
  let s := s.setFn f { x with ready := x.ready.filter (fun c => !(c.kind == 3 && c.v64 == record)) }
  s.ready f { tag := tag, kind := 3, result := 4, code := 0x0800 + reason, aux := position, v32 := steps, v64 := record,
              own := false }

/-- Position of a waiting request in its account's order; 0xFFFF when it does not wait. -/
def State.positionOf (s : State) (r : Nat) : Nat :=
  match s.req? r with
  | some x => if x.waiting then
      ((s.waitingOf x.part x.account).findIdx? (fun e => e.1 == r)).getD 0xFFFF else 0xFFFF
  | none => 0xFFFF

/-- Steps a request has been delayed. -/
def State.stepsDelayed (s : State) (x : Req) : Nat :=
  match x.delayedFrom with | some q => min 0xFFFF (s.cad.step - q) | none => 0

/-! ### The end of a request (R382, R390) -/

/-- What a request holds goes to the leftovers; `wrap` keeps it to the next wrap. -/
def State.leave (s : State) (r : Nat) (x : Req) (slot : Option Nat) (wrap : Bool) : State :=
  let own (t : NMap KvPage) : List (Nat × Nat) := (t.filter (fun g => g.2.kind ≠ 2)).map (fun g => (g.2.hold, g.1))
  let shared := (x.pages.filter (fun g => g.2.kind == 2)).map (fun g => (x.model, g.2.node, g.2.hold))
  let l : Leftover := { part := x.part, serial := x.serial, slot := slot, pages := own x.pages ++ own x.dpages, shared := shared,
                        hold := x.hold, commit := x.commit, atWrap := wrap }
  let s := s.setReq r { x with slot := none, pages := [], dpages := [], hold := none, commit := 0 }
  { s with srv := { s.srv with left := s.srv.left ++ [l] } }.settleLeftovers

/-- Nothing more is done for the request: no chunk, walk, insertion or park MOVE. -/
def State.forget (s : State) (p r serial : Nat) : State :=
  let s := s.modSrvPart p (fun v => { v with
    offers := v.offers.filter (fun e => e.2 != serial), walks := v.walks.filter (fun e => e.2 != serial),
    inserts := v.inserts.filter (fun e => e.2.1 != serial) })
  s.dropPark p r

/-- The request ends with its final entry: RESULT 1 SERVED, 2 REFUSED, 3 ENDED. -/
def State.endReq (s : State) (r result code : Nat) : State :=
  match s.req? r with
  | none => s
  | some x =>
    let p := x.part
    let was := x.waiting
    let inGen := x.stage == .generating || x.stage == .resuming
    let s := s.setReq r { x with stage := .ended }
    let s := (s.forget p r x.serial).issue (if result = 3 && (code = 0x0701 || code = 0x0702) then code else 0) { part := p }
    let s := match x.resumeCmd with
      | some (fn, tag) => s.cplError fn tag (if code = 0 then 0x0706 else code)
      | none => s
    let s := if was then s.queueLeft p x.account
      else s.leave r { x with stage := .ended, resumeCmd := none } (if inGen then x.slot else none) inGen
    s.finalEntry p x.tag result code x.streamed r false

/-! ### Prefill (R373, R374, R388, R414) -/

/-- Write bytes at a local address that SRV uses. -/
def State.srvWrite (s : State) (a : Nat) (bs : List Byte) : State :=
  match s.target a with
  | .ok (.here l) =>
    if isValley l then
      match NMap.get? s.hif.windows ((l - valleyBase 0) / valleySize) with
      | some g => s.emit (.hostWrite g.fn (g.bus + (l - valleyBase ((l - valleyBase 0) / valleySize))) bs)
      | none => s
    else if (s.decode l bs.length).isOk then s.wr l bs else s
  | _ => s

/-- A prefill entry (Table 13.4). -/
def State.chunkBytes (s : State) (r : Nat) (x : Req) (first tokens : Nat) (last : Bool) : List Byte :=
  leBytes 4 r ++ leBytes 1 x.model ++ leBytes 1 (b2n last) ++ leBytes 2 0 ++ leBytes 4 first ++ leBytes 4 tokens
    ++ leBytes 8 (x.paddr + 4 * first) ++ leBytes 8 (s.devAddr (s.tableBase x))

/-- What offering the next chunk came to. -/
inductive Offer where
  | written | stop | wait
  deriving DecidableEq, Repr

/-- Tokens of the next chunk of a request. -/
def State.chunkTokens (s : State) (p : Nat) (x : Req) : Nat :=
  let rest := x.plen - 1 - x.next
  let m := min (min (s.rnat .admChunk p) rest) (s.srvPart p).promptLeft
  if m = rest then m else m / 64 * 64

def State.offerChunk (s : State) (p r : Nat) (x : Req) : Offer × State :=
  let m := s.chunkTokens p x
  let v := s.srvPart p
  if m = 0 then (.stop, s)
  else if v.out.length ≥ s.rnat .srvPlistLen p then (.wait, s)
  else
    match s.needPages r (x.next / 64) (ceilDiv (x.next + m) 64) 0xFF with
    | none => (.wait, s)
    | some s =>
      let last := decide (m = x.plen - 1 - x.next)
      let v := s.srvPart p
      let s := s.srvWrite (s.rnat .srvPlistAddr p + 32 * (v.written % s.rnat .srvPlistLen p)) (s.chunkBytes r x x.next m last)
      let s := s.setSrvPart p { v with
        written := v.written + 1, promptLeft := v.promptLeft - m,
        out := v.out ++ [({ req := r, serial := x.serial, first := x.next, tokens := m, last := last } : Chunk)] }
      let s := s.modReq r (fun y => { y with started := true, next := x.next + m })
      (.written, s.hwAdd p (bits (s.rnat .srvListCairns p) 31 16) 1)

/-- Write the chunks that are due, in order, as far as budget and ring allow. -/
def State.runOffers (s : State) (p : Nat) : Nat → State
  | 0 => s
  | fuel + 1 =>
    let v := s.srvPart p
    if v.promptStop then s
    else
      match v.offers with
      | [] => s
      | (r, serial) :: rest =>
        let skip (s : State) : State := s.modSrvPart p (fun v => { v with offers := rest })
        match s.req? r with
        | none => State.runOffers (skip s) p fuel
        | some x =>
          if x.serial ≠ serial || x.stage ≠ .prefill || x.next ≥ x.plen - 1 then State.runOffers (skip s) p fuel
          else
            match s.offerChunk p r x with
            | (.written, s) => State.runOffers (skip s) p fuel
            | (.wait, s) => s
            | (.stop, s) => s.modSrvPart p (fun v => { v with promptStop := true, offers := [] })

def State.offerAll (s : State) (p : Nat) : State := s.runOffers p ((s.srvPart p).offers.length + 1)

/-- The chunks of a step: the budget anew, and every request in PREFILL in the order of its ADMIT (R414). -/
def State.offerWrap (s : State) (p : Nat) : State :=
  let xs := (s.reqsOf p).filter (fun e => e.2.stage == .prefill && e.2.walked)
  let order := (sortNats (xs.map (fun e => e.2.admitted * 32768 + e.1))).map (· % 32768)
  let offers := order.filterMap (fun r => (s.req? r).map (fun x => (r, x.serial)))
  (s.modSrvPart p (fun v => { v with offers := offers, promptLeft := s.rnat .admPromptTokens p, promptStop := false })).offerAll p

/-! ### Handover (R375) -/

/-- Pages of a request that handover has still to move. -/
def KvPage.toMove (g : KvPage) : Bool := g.kind == 1 && !g.handed
def Req.toMove (x : Req) : Bool := x.pages.any (fun g => g.2.toMove) || x.dpages.any (fun g => g.2.toMove)

/-- The next page of the partition to be handed over: record, table, page. -/
def State.nextHandover (s : State) (p : Nat) : Option (Nat × Bool × Nat × KvPage) :=
  let ok (g : Nat × KvPage) : Bool :=
    g.2.toMove && g.2.done && !g.2.pend && (match s.hold? g.2.hold with | some h => h.state == 1 | none => false)
  (s.reqsOf p).findSome? (fun e =>
    if e.2.stage ≠ .prefill && e.2.stage ≠ .handover then none
    else
      match e.2.pages.find? ok with
      | some g => some (e.1, false, g.1, g.2)
      | none => (e.2.dpages.find? ok).map (fun g => (e.1, true, g.1, g.2)))

/-- Put the next page on the handover stream when its channel is free and the slot's stack has room. -/
def State.handoverNext (s : State) (p : Nat) : State :=
  let cfg := s.rnat .srvHandoverCfg p
  let st := bits cfg 5 0
  if !bit cfg 6 || !s.streamFree st then s
  else
    match s.nextHandover p with
    | none => s
    | some (r, draft, n, g) =>
      match s.req? r, s.hold? g.hold with
      | some x, some h =>
        (match s.placeKv p (s.slotStack p (x.slot.getD 0)) h.size with
        | (some b, s) =>
          let (d, c) := s.streamChan st
          (s.setHold g.hold { h with dest := some b, destSize := h.size }).putItem d c (.handover r (2 * n + b2n draft))
            (moveDesc (s.devAddr h.base) (s.devAddr b) (h.size * granule)) (some g.hold)
        | (none, s) => s)
      | _, _ => s

/-- A page has changed home: its entry in the record and the table (R389), and while its conversation is paused the
commitment that a parked page gives back (R412). -/
def State.pageNote (s : State) (id : Nat) : State :=
  let find (draft : Bool) : Option (Nat × Req × Nat × KvPage) :=
    s.srv.reqs.findSome? (fun e => ((e.2.table draft).find? (fun g => g.2.hold == id && g.2.kind != 2)).map
      (fun g => (e.1, e.2, g.1, g.2)))
  let upd (draft : Bool) (q : Nat × Req × Nat × KvPage) : State :=
    let low := match s.hold? id with | some h => !inFast h.base | none => false
    let x := q.2.1
    let u := ((s.hold? id).map (fun _ => (s.model x.part (if draft then x.samp.draft else x.model)).pageUnits)).getD 0
    let x := if low && q.2.2.2.kind == 1 && x.stage == .paused then { x with commit := x.commit - u } else x
    s.putPage q.1 x draft q.2.2.1 { q.2.2.2 with kind := if low then 3 else 1 }
  match find false, find true with
  | some q, _ => upd false q
  | none, some q => upd true q
  | none, none => s

/-! ### FSM 0x03 -/

/-- START: the slot is taken, the request holding made and the walk asked for (R373, R385). -/
def State.startReq (s : State) (r slot : Nat) : State :=
  match s.req? r with
  | none => s
  | some x =>
    let cap := capacityOf (s.model x.part x.model) x.plen x.samp
    let (hold, s) := s.allocKv x.part (s.slotStack x.part slot) (holdingUnits cap x.samp) 0 (.page r)
    let (hold, s) := match hold with
      | some h => (some h, s)
      | none => s.allocKv x.part 0xFF (holdingUnits cap x.samp) 0 (.page r)
    let y := { x with stage := .prefill, slot := some slot, cap := cap, hold := hold, admitted := s.srv.nextAdmit }
    let s := (s.setReq r y).ptInit r y
    let s := { s with srv := { s.srv with nextAdmit := s.srv.nextAdmit + 1 } }
    (s.modSrvPart x.part (fun v => { v with walks := v.walks ++ [(r, x.serial)] })).queueLeft x.part x.account

/-- Owned pages are, or are no longer, those of an admitted generation slot (R126). -/
def State.setGen (s : State) (x : Req) (b : Bool) : State :=
  let f (s : State) (t : NMap KvPage) : State := t.foldl (fun s g =>
    if g.2.kind = 2 then s
    else match s.hold? g.2.hold with | some h => s.setHold g.2.hold { h with gen := b } | none => s) s
  f (f s x.pages) x.dpages

/-- PARK: the slot is left at the next wrap, and the Scaler parks the owned pages (R185, R406). -/
def State.parkReq (s : State) (r ttl : Nat) : State :=
  match s.req? r with
  | none => s
  | some x =>
    let s := (s.ptPut x false 4 4 0).ptPut x false 22 1 0
    let s := s.setReq r { x with stage := .paused, slot := none, joined := false }
    let l : Leftover := Leftover.mk x.part x.serial x.slot [] [] none 0 true
    let s := { s with srv := { s.srv with left := s.srv.left ++ [l] } }
    let own (t : NMap KvPage) : List Nat := (t.filter (fun g => g.2.kind ≠ 2)).map (fun g => g.2.hold)
    (s.setGen x false).parkEnter x.part r ttl (own x.pages ++ own x.dpages)

/-- UNPARK: a slot is taken and the pages come back into its stack (R187, R412). -/
def State.unparkReq (s : State) (r slot : Nat) : State :=
  match s.req? r with
  | none => s
  | some x =>
    let p := x.part
    let full := x.cap * ((s.model p x.model).pageUnits + (if x.samp.specK = 0 then 0 else (s.model p x.samp.draft).pageUnits))
      + holdingUnits x.cap x.samp
    let s := s.setReq r { x with stage := .resuming, slot := some slot, commit := full }
    let s := if (s.parkOf p r).isSome then s
      else
        let own (t : NMap KvPage) : List ParkPage := (t.filter (fun g => g.2.kind ≠ 2)).map (fun g =>
          ({ hold := g.2.hold, parked := g.2.kind == 3 } : ParkPage))
        { s with scl := { s.scl with park := s.scl.park ++ [
          ({ part := p, req := r, expiry := 0, pages := own x.pages ++ own x.dpages, resuming := true } : Parked)] } }
    s.parkResume p r (s.slotStack p slot)

/-- An action of Table 13.7; `arg` is the event's reason, code, slot or TTL. The event that follows in the next clk. -/
def State.reqAction (s : State) (r act arg : Nat) : Option Nat × State :=
  match s.req? r with
  | none => (none, s)
  | some x =>
    match act with
    | 1 =>
      let s := s.modReq r (fun y => { y with stage := .delayed })
      (none, s.postNotice x.part x.tag arg (s.positionOf r) (s.stepsDelayed x) r)
    | 2 => (none, s.startReq r arg)
    | 3 =>
      let s := s.modReq r (fun y => { y with stage := .handover })
      if x.toMove then (none, s.handoverNext x.part) else (some 8, s)
    | 4 => (none, (s.modReq r (fun y => { y with stage := .generating, joined := false })).setGen x true)
    | 5 => (none, s.parkReq r arg)
    | 6 => (none, s.unparkReq r arg)
    | 7 => (none, (s.endReq r 1 0).count .srvServed 1 x.part)
    | 8 => (none, (s.endReq r 3 (if x.started then 0x0702 else 0x0701)).count .srvCancels 1 x.part)
    | 9 => (none, (s.endReq r 3 arg).rputN .srvReqInfo r x.part)
    | 10 => (none, s.endReq r 2 (0x0800 + arg))
    | _ => (none, s)

/-- Apply an event to a request, and those its action brings about (R89 to R91). -/
def State.reqEventFuel : Nat → State → Nat → Nat → Nat → State
  | 0, s, _, _, _ => s
  | fuel + 1, s, r, ev, arg =>
    match s.req? r with
    | none => s
    | some x =>
      if s.fsmDead x.part 3 x.st then s
      else
        match s.fsmTake x.part 3 x.st ev with
        | none => s.fsmNoTransition
        | some c =>
          let s := (s.setReq r { x with st := c.next }).fsmLog x.part 3 r x.st ev c
          match s.reqAction r c.action arg with
          | (some e, s) => State.reqEventFuel fuel s r e 0
          | (none, s) => s

def State.reqEvent (s : State) (r ev : Nat) (arg : Nat := 0) : State := State.reqEventFuel 4 s r ev arg

/-- An event would find a valid cell; the cell. -/
def State.reqCell (s : State) (r ev : Nat) : Option Cell :=
  match s.req? r with
  | some x => if s.fsmDead x.part 3 x.st then none else s.fsmTake x.part 3 x.st ev
  | none => none

/-! ### Progress of prefill and handover -/

/-- The prompt has been processed: NEXT and LENGTH (R388), then PREFILL_DONE. -/
def State.prefillDone (s : State) (r : Nat) : State :=
  match s.req? r with
  | none => s
  | some x =>
    let s := (s.ptPut x false 0 4 (x.plen - 1)).ptPut x false 24 4 x.lastTok
    let s := if x.samp.specK = 0 then s else s.ptPut x true 0 4 (x.plen - 1)
    (s.modReq r (fun y => { y with started := true })).reqEvent r 7

/-- Pages whose last token the completed chunk has written. -/
def markDone (upto : Nat) (last : Bool) (t : NMap KvPage) : NMap KvPage :=
  t.map (fun g => if last || 64 * (g.1 + 1) ≤ upto then (g.1, { g.2 with done := true }) else g)

/-- A chunk of a live request has completed: pages are ready for insertion (R398) or handover. -/
def State.chunkDone (s : State) (p : Nat) (c : Chunk) (x : Req) : State :=
  let upto := c.first + c.tokens
  let ins := s.rbit .srvTreeCfg 1 p && bit x.samp.flags 1
  let cand := if ins then
      (x.pages.filter (fun g => g.2.kind == 1 && !g.2.done && decide (64 * (g.1 + 1) ≤ upto) && decide (64 * (g.1 + 1) ≤ x.plen - 1))).map
        (·.1)
    else []
  let pages := (markDone upto c.last x.pages).map (fun g => if cand.contains g.1 then (g.1, { g.2 with pend := true }) else g)
  let s := s.setReq c.req { x with pages := pages, dpages := markDone upto c.last x.dpages }
  let s := s.modSrvPart p (fun v => { v with inserts := v.inserts ++ cand.map (fun n => (c.req, c.serial, n)) })
  (if c.last then s.prefillDone c.req else s).handoverNext p

/-- An add to PDONE completes the oldest outstanding entry (R374). -/
def State.prefillChunkDone (s : State) (p : Nat) : State :=
  let v := s.srvPart p
  match s.localRef p (bits (s.rnat .srvListCairns p) 47 32) with
  | .error _ => s
  | .ok i =>
    let val := s.cairn i
    if val = v.pdSeen || !holds val (v.pdSeen + 1) then s
    else
      let s := s.setSrvPart p { v with pdSeen := (v.pdSeen + 1) % 2 ^ 32 }
      match v.out with
      | [] => s
      | c :: rest =>
        let s := s.modSrvPart p (fun v => { v with out := rest })
        let s := match s.req? c.req with
          | some x => if x.serial == c.serial && x.stage == Stage.prefill then s.chunkDone p c x else s
          | none => s
        (s.settleLeftovers).offerAll p

/-- The request whose page a handover channel moves has no page left to move: HANDOVER_DONE. -/
def State.handoverCheck (s : State) (r : Nat) : State :=
  match s.req? r with
  | some x => if x.stage == .handover && !x.toMove then s.reqEvent r 8 else s
  | none => s

/-- A handover MOVE fails (R375). -/
def State.handoverFailed (s : State) (d n r code : Nat) : State :=
  let s := (s.freeChan d n).settleLeftovers
  match s.req? r with
  | some x =>
    let s := if x.stage == .prefill || x.stage == .handover then s.reqEvent r 2 code else s
    s.handoverNext x.part
  | none => s

/-- HANDOVER_MOVE_DONE: the MOVE on channel (d, n) ends. -/
def State.handoverDone (s : State) (d n : Nat) (ecc : Ecc) : State :=
  let c := s.chan d n
  match c.work, c.moving.bind (fun id => (s.hold? id).map (fun h => (id, h))) with
  | .handover r page, some (id, h) =>
    if c.st ≠ .run then s
    else
      let p := h.owner
      (match ecc with
      | .uncorrectable a => (((s.eccUncorrected a).failChan d n 0x0303 a)).handoverFailed d n r 0x0303
      | .poison => ((s.raise .sclTierEvent 2).failChan d n 0x0304 c.desc.src).handoverFailed d n r 0x0304
      | e =>
        let s := if e = .corrected then s.eccCorrected else s
        match s.carryData d n h .plain [] with
        | .error code => (s.failChan d n code c.desc.src).handoverFailed d n r code
        | .ok (len, s) =>
          let s := ((s.arrived id len).freeChan d n).settleLeftovers
          let draft := page % 2 == 1
          let s := match s.req? r with
            | some x =>
              (match NMap.get? (x.table draft) (page / 2) with
              | some g => if g.hold = id then s.putPage r x draft (page / 2) { g with handed := true } else s
              | none => s)
            | none => s
          (s.handoverCheck r).handoverNext p)
  | _, _ => s

/-! ### Errors of a serving partition's work (R383) -/

def State.servingError (s : State) (p code : Nat) : State :=
  if !(((s.part? p).map (·.serving)).getD false) then s
  else
    let v := s.srvPart p
    let hit := (s.reqsOf p).filter (fun e =>
      v.out.any (fun c => c.req == e.1 && c.serial == e.2.serial) || v.list.any (fun g => g.req == e.1 && g.serial == e.2.serial))
    let s := hit.foldl (fun s e => s.reqEvent e.1 2 code) s
    let s := s.rputN .srvPartCtrl 0 p
    (s.raise .srvEvent 2 p).rputN .srvLastErr code p

/-! ### The generation list (R376, R388) -/

/-- Pages a generating request needs for the step that begins. -/
def State.genPages (s : State) (r : Nat) (x : Req) : Option State :=
  let need := min x.cap (ceilDiv (s.ptGet x false 0 4 + 1 + x.samp.specK) 64)
  match s.needPages r 0 need (s.slotStack x.part (x.slot.getD 0)) with
  | none => none
  | some s =>
    some (s.modReq r (fun y =>
      { y with pages := y.pages.map (fun g => (g.1, { g.2 with done := true, handed := true })),
               dpages := y.dpages.map (fun g => (g.1, { g.2 with done := true, handed := true })) }))

/-- Requests in GENERATING by ascending slot. -/
def State.generatingOf (s : State) (p : Nat) : List (Nat × Req) :=
  let xs := (s.reqsOf p).filter (fun e => e.2.stage == .generating)
  (sortNats (xs.map (fun e => e.2.slot.getD 0 * 32768 + e.1))).filterMap (fun v =>
    (s.req? (v % 32768)).map (fun x => (v % 32768, x)))

/-- Write the list of the step that begins, then add to GLIST. -/
def State.genListWrite (s : State) (p : Nat) : State :=
  let slots := s.rnat .srvSlots p
  if slots = 0 then s
  else
    let s := (s.generatingOf p).foldl (fun s e => (s.genPages e.1 e.2).getD s) s
    let es := s.generatingOf p
    let base := s.rnat .srvGlistAddr p + s.cad.step % 2 * (16 + 16 * slots)
    let hdr := leBytes 6 s.cad.step ++ leBytes 2 0 ++ leBytes 4 es.length ++ leBytes 4 0
    let body := es.flatMap (fun e =>
      leBytes 2 (e.2.slot.getD 0) ++ leBytes 1 e.2.model ++ leBytes 1 (b2n (!e.2.joined)) ++ leBytes 4 e.1
        ++ leBytes 8 (s.devAddr (s.tableBase e.2)))
    let s := s.srvWrite base (hdr ++ body)
    let s := es.foldl (fun s e => s.modReq e.1 (fun y => { y with joined := true })) s
    let s := s.modSrvPart p (fun v => { v with
      list := es.map (fun e => ({ slot := e.2.slot.getD 0, req := e.1, serial := e.2.serial } : GenEntry)), toSample := true })
    s.hwAdd p (bits (s.rnat .srvListCairns p) 15 0) 1

/-- Serving partitions of the image. -/
def State.servingParts (s : State) : List Nat := (s.parts.filter (·.serving)).map (·.id)

/-- What serving does at a wrap (R377, R388, R376, R414, R415). -/
def State.servingWrap (s : State) : State :=
  let s := s.wrapLeftovers
  s.servingParts.foldl (fun s p =>
    let s := (s.genListWrite p).offerWrap p
    s.modSrvPart p (fun v => { v with evalDue := true })) s

/-- The Scaler reports an expired conversation (R186). -/
def State.expireReq (s : State) (p r : Nat) : State :=
  match s.req? r with
  | some x => if x.part = p then s.reqEvent r 3 0x040D else s
  | none => s

/-- The Scaler's resume completion (R187): the conversation leaves the park table and RESUMED is raised. -/
def State.resumeComplete (s : State) (p r : Nat) : State :=
  match s.parkOf p r with
  | none => s
  | some x =>
    if !x.resuming then s
    else if s.parkLost x then
      (match s.req? r with
      | some y =>
        (match y.resumeCmd with
        | some (fn, tag) => (s.modReq r (fun y => { y with resumeCmd := none })).cplError fn tag 0x030D
        | none => s)
      | none => s).reqEvent r 2 0x030D
    else if !x.home then s.returnNext p r
    else
      let s := s.dropPark p r
      match s.req? r with
      | none => s
      | some y =>
        let s := match y.resumeCmd with
          | some (fn, tag) => (s.modReq r (fun y => { y with resumeCmd := none })).cplDone fn tag
          | none => s
        s.reqEvent r 11

/-! ### Models (R366, R367) -/

/-- Slope ranges of a model. -/
def Model.slopes (m : Model) : List (Nat × Nat) := m.pieces.map (fun g => (g.slope, g.size))

/-- Two models' Slope ranges meet. -/
def Model.meets (a b : Model) : Bool :=
  a.slopes.any (fun x => b.slopes.any (fun y => overlaps x.1 (x.2 * granule) y.1 (y.2 * granule)))

/-- A model record that keeps to Table 13.1. -/
def modelRecOk (b : List Byte) : Bool :=
  let f := fieldAt b 0 1
  bit f 0 && decide (f < 8) && decide (1 ≤ fieldAt b 1 1) && decide (fieldAt b 1 1 ≤ 32) && zeroAt b 2 2
    && decide (1 ≤ fieldAt b 4 4) && decide (fieldAt b 4 4 ≤ 2 ^ 24) && decide (64 ≤ fieldAt b 8 4) && decide (fieldAt b 8 4 ≤ 1048576)
    && decide (2 ≤ fieldAt b 12 4) && decide (fieldAt b 12 4 ≤ 262144) && decide (fieldAt b 16 8 % 64 = 0) && zeroAt b 24 36
    && decide (fieldAt b 60 4 = crc32c (slice b 0 60))

/-- A piece that keeps to Table 13.2. -/
def pieceOk (b : List Byte) : Bool :=
  let lo := fieldAt b 0 8
  let rest := fieldAt b 8 8
  let size := fieldAt b 16 4
  decide (lo % granule = 0) && decide (rest % granule = 0) && decide (1 ≤ size) && zeroAt b 20 12
    && decide (slopeBase 0 ≤ lo) && decide (lo + size * granule ≤ slopeBase 8)
    && ((isFoothill rest && isFoothill (rest + size * granule - 1)) || (isValley rest && decide (rest + size * granule ≤ 2 ^ 45)))

/-- The host's holding of exactly a range, HELD (R366). -/
def State.exactHold (s : State) (p base size : Nat) : Option Nat :=
  (s.tier.holdings.find? (fun e => e.2.base == base && e.2.size == size && e.2.owner == p && e.2.state == 1
    && decide (e.2.by_ = .host))).map (·.1)

/-- Range of a piece that may not be reserved: another partition's reservation, or a host holding but its own piece's. -/
def State.rangeTaken (s : State) (p base size : Nat) (own : List Nat) : Bool :=
  s.tier.reserves.any (fun r => (r.part != p || !r.model) && overlaps r.base (r.size * granule) base (size * granule))
    || s.tier.holdings.any (fun e => !own.contains e.1 && (e.2.owner != p || decide (e.2.by_ = .host))
        && e.2.meets base (size * granule))

/-- Bytes of a structure at a local address; those of a Valley address are given. -/
def State.localBytes (s : State) (a n : Nat) (ext : List Byte) : Option (List Byte) :=
  match s.decode a n with
  | .ok _ => some (if isValley a then slice ext 0 n else s.rd a n)
  | .error _ => none

/-- The checks of DEFINE: the model it makes, if they all hold. -/
def State.defineCheck (s : State) (p m : Nat) (rec pcs : List Byte) : Option Model :=
  match s.localBytes (s.rnat .srvModelAddr p + 64 * m) 64 rec with
  | none => none
  | some b =>
    if !modelRecOk b then none
    else
      let k := fieldAt b 1 1
      match s.localBytes (fieldAt b 16 8) (32 * k) pcs with
      | none => none
      | some l =>
        let raw := (List.range k).map (fun i => slice l (32 * i) 32)
        let rs := raw.map (fun g => (fieldAt g 0 8, fieldAt g 8 8, fieldAt g 16 4))
        let ranges := rs.flatMap (fun r => [(r.1, r.2.2), (r.2.1, r.2.2)])
        let disjoint := (List.range ranges.length).all (fun i => (List.range i).all (fun j =>
          match ranges[i]?, ranges[j]? with
          | some a, some b => !overlaps a.1 (a.2 * granule) b.1 (b.2 * granule)
          | _, _ => true))
        let wins := ranges.all (fun r => s.windowOk p r.1 (r.2 * granule) 3)
        let held := rs.map (fun r => (s.exactHold p r.1 r.2.2, s.exactHold p r.2.1 r.2.2))
        let one := held.all (fun h => h.1.isSome != h.2.isSome)
        let same := held.all (fun h => h.1.isSome) || held.all (fun h => h.2.isSome)
        let own := held.filterMap (fun h => h.1.orElse (fun _ => h.2))
        let clear := ranges.all (fun r => !s.rangeTaken p r.1 r.2 own)
        if !raw.all pieceOk || !wins || !disjoint || !one || !same || !clear then none
        else
          let inSlope := held.all (fun h => h.1.isSome)
          some { state := if inSlope then 3 else 1, auto := bit (fieldAt b 0 1) 1, stay := bit (fieldAt b 0 1) 2,
                 kvBytes := fieldAt b 4 4, maxContext := fieldAt b 8 4, vocab := fieldAt b 12 4,
                 pieces := (rs.zip own).map (fun q => { slope := q.1.1, rest := q.1.2.1, size := q.1.2.2, hold := q.2, inSlope := inSlope }) }

/-- SRV_MODEL_CMD DEFINE. -/
def State.modelDefine (s : State) (p m : Nat) (rec pcs : List Byte) : State :=
  if (s.model p m).state ≠ 0 then s.issue 0x0707 { part := p }
  else
    match s.defineCheck p m rec pcs with
    | none => s.issue 0x0707 { part := p }
    | some x =>
      let s := s.setModel p m x
      let s := x.pieces.foldl (fun s g => match s.hold? g.hold with
        | some h => s.setHold g.hold { h with by_ := .piece m }
        | none => s) s
      let rs := x.pieces.flatMap (fun g => [g.slope, g.rest].map (fun b =>
        ({ part := p, base := b, size := g.size, arena := false, model := true } : Reserve)))
      { s with tier := { s.tier with reserves := s.tier.reserves ++ rs } }

/-- UNDEFINE is accepted (R367). -/
def State.undefineOk (s : State) (p m : Nat) : Bool :=
  let st := (s.model p m).state
  (st == 1 || st == 3 || st == 5)
    && !(s.reqsOf p).any (fun e => e.2.stage != .ended && (e.2.model == m || (e.2.samp.specK != 0 && e.2.samp.draft == m)))

def dropOne (r : Reserve) : List Reserve → List Reserve
  | [] => []
  | x :: xs => if x = r then xs else x :: dropOne r xs

/-- SRV_MODEL_CMD UNDEFINE: the pieces return to the host where they lie. -/
def State.modelUndefine (s : State) (p m : Nat) : State :=
  let x := s.model p m
  let s := x.pieces.foldl (fun s g => match s.hold? g.hold with
    | some h => s.setHold g.hold { h with by_ := .host }
    | none => s) s
  let rs := x.pieces.flatMap (fun g => [g.slope, g.rest].map (fun b =>
    ({ part := p, base := b, size := g.size, arena := false, model := true } : Reserve)))
  let s := { s with tier := { s.tier with reserves := rs.foldl (fun acc r => dropOne r acc) s.tier.reserves } }
  let s := s.modSrvPart p (fun v => { v with swaps := v.swaps.filter (fun q => q.model != m) })
  s.setModel p m {}

/-! ### Swaps (R368 to R371) -/

/-- RESIDENT models that a swap-in of `m` displaces. -/
def State.displaces (s : State) (p m : Nat) : List Nat :=
  (List.range 16).filter (fun k => k != m && (s.model p k).state == 3 && (s.model p k).meets (s.model p m))

/-- A queued or waiting swap will displace a resident model (Table 13.3). -/
def State.toGo (s : State) (p k : Nat) : Bool :=
  let v := s.srvPart p
  v.swaps.any (fun q => if q.out then q.model == k else (s.displaces p q.model).contains k)

/-- A model is busy (R368). -/
def State.modelBusy (s : State) (p m : Nat) : Bool :=
  (s.reqsOf p).any (fun e => e.2.model == m
    && (e.2.stage == .prefill || e.2.stage == .handover || e.2.stage == .generating || e.2.stage == .resuming))

def State.queueSwap (s : State) (p : Nat) (q : SwapReq) : State :=
  s.modSrvPart p (fun v => { v with swaps := v.swaps ++ [q] })

/-- A request names an ABSENT model with AUTO: the swap is queued, once, unless a STAY model stands in its way (R369). -/
def State.autoSwap (s : State) (p m : Nat) : Option State :=
  if (s.displaces p m).any (fun k => (s.model p k).stay) then none
  else if (s.srvPart p).swaps.any (fun q => q.model == m && !q.out) then some s
  else some (s.queueSwap p { model := m, out := false, auto := true })

/-- SRV_MODEL_CMD SWAP_IN and SWAP_OUT. -/
def State.modelSwap (s : State) (p m : Nat) (out : Bool) : State :=
  let st := (s.model p m).state
  if st = 0 || st = 5 || (out && st = 1) || (!out && st = 3) then s else s.queueSwap p { model := m, out := out, auto := false }

/-- Start pieces on the streams that are free: A, then B (R370). -/
def State.swapPump (s : State) (p : Nat) : State :=
  let cfg := s.rnat .srvSwapCfg p
  let streams := (if bit cfg 7 then [bits cfg 5 0] else []) ++ (if bit cfg 15 then [bits cfg 13 8] else [])
  streams.foldl (fun s st =>
    match (s.srvPart p).swap with
    | none => s
    | some w =>
      match w.todo with
      | [] => s
      | (m, i) :: rest =>
        if !s.streamFree st then s
        else
          match (s.model p m).pieces[i]?.bind (fun g => (s.hold? g.hold).map (fun h => (g, h))) with
          | none => s
          | some (g, h) =>
            let b := if g.inSlope then g.rest else g.slope
            let (d, n) := s.streamChan st
            let s := s.modSrvPart p (fun v => { v with swap := some { w with todo := rest, flying := w.flying ++ [(m, i)] } })
            (s.setHold g.hold { h with dest := some b, destSize := g.size }).putItem d n (.piece p m i)
              (moveDesc (s.devAddr h.base) (s.devAddr b) (g.size * granule)) (some g.hold)) s

/-- Bring the model in once everything displaced is out (R368). -/
def State.swapBring (s : State) (p : Nat) : State :=
  match (s.srvPart p).swap with
  | none => s
  | some w =>
    if !w.todo.isEmpty || !w.flying.isEmpty then s
    else if w.out || w.bringing then s.modSrvPart p (fun v => { v with swap := none })
    else
      let x := s.model p w.model
      let s := s.setModel p w.model { x with state := 2 }
      (s.modSrvPart p (fun v => { v with swap := some { w with
        bringing := true, todo := (List.range x.pieces.length).map (fun i => (w.model, i)) } })).swapPump p

/-- SWAP_START: the first queued swap starts once no model it displaces is busy. -/
def State.swapStart (s : State) (p : Nat) : State :=
  let v := s.srvPart p
  match v.swap, v.swaps with
  | none, q :: rest =>
    let st := (s.model p q.model).state
    let drop := s.setSrvPart p { v with swaps := rest }
    if st = 0 || st = 5 || (!q.out && st = 3) || (q.out && st = 1) then drop
    else
      let ks := if q.out then [q.model] else s.displaces p q.model
      if ks.any (s.modelBusy p) then s
      else
        let s := ks.foldl (fun s k => s.setModel p k { s.model p k with state := 4 }) drop
        let todo := ks.flatMap (fun k => (List.range (s.model p k).pieces.length).map (fun i => (k, i)))
        let s := s.modSrvPart p (fun v => { v with
          swap := some { model := q.model, out := q.out, displaced := ks, todo := todo } })
        if todo.isEmpty then s.swapBring p else s.swapPump p
  | _, _ => s

/-- A piece has arrived at its other range. -/
def State.pieceArrived (s : State) (p m i : Nat) : State :=
  let x := s.model p m
  let x := match x.pieces[i]? with
    | some g => { x with pieces := x.pieces.set i { g with inSlope := !g.inSlope } }
    | none => x
  let s := s.setModel p m x
  match (s.srvPart p).swap with
  | none => s
  | some w =>
    let w := { w with flying := w.flying.filter (fun e => decide (e ≠ (m, i))) }
    let s := s.modSrvPart p (fun v => { v with swap := some w })
    let s :=
      if !w.bringing && x.state = 4 && x.pieces.all (fun g => !g.inSlope) then s.setModel p m { x with state := 1 }
      else if w.bringing && x.pieces.all (fun g => g.inSlope) then
        ((s.setModel p m { x with state := 3 }).raise .srvEvent 0 p).count .srvSwaps 1 p
      else s
    (s.swapPump p).swapBring p

/-- A piece MOVE fails: the swap stops and the model moved is BROKEN (R371). -/
def State.pieceFailed (s : State) (d n p m code : Nat) : State :=
  let s := s.freeChan d n
  let s := match (s.srvPart p).swap with
    | none => s
    | some w =>
      let s := s.modSrvPart p (fun v => { v with swap := none })
      (w.model :: w.displaced).foldl (fun s k =>
        let x := s.model p k
        if k = m || !(x.state == 2 || x.state == 4) then s
        else if x.pieces.all (fun g => g.inSlope == (x.state == 4)) then s.setModel p k { x with state := if x.state = 4 then 3 else 1 }
        else s.setModel p k { x with state := 5 }) s
  let s := (s.setModel p m { s.model p m with state := 5 }).raise .srvEvent 1 p
  let s := (s.issue 0x0704 { part := p }).rputN .srvLastErr code p
  let hit := (s.reqsOf p).filter (fun e => e.2.waiting && e.2.model == m)
  hit.foldl (fun s e => s.reqEvent e.1 2 0x0704) s

/-- SWAP_PIECE_DONE: the MOVE on channel (d, n) ends; `ext` gives host memory's bytes. -/
def State.swapPieceDone (s : State) (d n : Nat) (ext : List Byte) (ecc : Ecc) : State :=
  let c := s.chan d n
  match c.work, c.moving.bind (fun id => (s.hold? id).map (fun h => (id, h))) with
  | .piece p m i, some (id, h) =>
    if c.st ≠ .run then s
    else
      (match ecc with
      | .uncorrectable a => ((s.eccUncorrected a).failChan d n 0x0303 a).pieceFailed d n p m 0x0303
      | .poison => ((s.raise .sclTierEvent 2).failChan d n 0x0304 c.desc.src).pieceFailed d n p m 0x0304
      | e =>
        let s := if e = .corrected then s.eccCorrected else s
        match s.carryData d n h .plain ext with
        | .error code => (s.failChan d n code c.desc.src).pieceFailed d n p m code
        | .ok (len, s) => ((s.arrived id len).freeChan d n).pieceArrived p m i)
  | _, _ => s

end Sys2Proof.Machine
end

