-- ==== Sys2Proof/Machine/Generation.lean ====
section
/-! DEFINITION. The prefix tree's walker, the sampler with verification and rollback, and the stream records (R380, R381,
R391 to R405, R475, R484). -/
namespace Sys2Proof.Machine

/-! ### The prompt -/

/-- Bytes at a device address; those of host memory or of another device are given. -/
def State.devBytes (s : State) (a n : Nat) (ext : List Byte) : List Byte :=
  match s.target a with
  | .ok (.here l) => if isValley l then slice ext 0 n else s.rd l n
  | _ => slice ext 0 n

/-- The prompt cut into blocks of 16 tokens. -/
def promptBlocks (b : List Byte) (k : Nat) : List (List Byte) := (List.range k).map (fun i => slice b (64 * i) 64)

/-! ### Walks (R396, R397, R400) -/

/-- What a search among children came to. -/
inductive Child where
  | found (n : Nat)
  | absent
  | damaged
  deriving DecidableEq, Repr

/-- The child with a key, in sibling order; a node whose CRC fails ends the search. -/
def State.childWith (s : State) (p : Nat) (key : List Byte) : Nat → Nat → Child
  | 0, _ => .absent
  | fuel + 1, n =>
    if n = noNode then .absent
    else
      match s.node? p n with
      | none => .damaged
      | some x => if x.key = key then .found n else State.childWith s p key fuel x.sibling

/-- Nodes of the path that match the blocks, and whether a damaged node ended it. -/
def State.walkPath (s : State) (p : Nat) : Nat → List (List Byte) → List Nat × Bool
  | n, bs =>
    match bs with
    | [] => ([], (s.node? p n).isNone)
    | b :: r =>
      match s.node? p n with
      | none => ([], true)
      | some x =>
        match s.childWith p b ((s.srvPart p).nodes.length + 1) x.child with
        | .absent => ([], false)
        | .damaged => ([], true)
        | .found c =>
          let q := State.walkPath s p c r
          (c :: q.1, q.2)

/-- Leading pages of a path: the node at every fourth block, as long as it holds a page. -/
def State.pathPages (s : State) (p : Nat) (path : List Nat) : List (Nat × Nat) :=
  (((List.range (path.length / 4)).map (fun k => path.getD (4 * k + 3) noNode)).map (fun n =>
    (n, (s.node? p n).bind s.nodeHold))).takeWhile (fun e => e.2.isSome) |>.filterMap (fun e => e.2.map (fun h => (e.1, h)))

/-- A walk shares page `k` (R397). -/
def State.shareOne (s : State) (p r k node id : Nat) : State :=
  let s := match s.node? p node with | some x => s.setRefs p node x (x.refs + 1) | none => s
  let s := s.touchHold id
  match s.req? r with
  | some x => s.putPage r x false k { kind := 2, hold := id, node := node, done := true, handed := true }
  | none => s

/-! ### The count table (R404) -/

def countHash (t : Nat) : Nat := t * 0x9E3779B1 % 2 ^ 32 / 2 ^ 20

/-- The count table of a request: (TOKEN + 1, COUNT) by entry. -/
def State.countTable (s : State) (x : Req) : NMap (Nat × Nat) :=
  if s.ptGet x false 40 8 = 0 then []
  else
    let b := s.rd (s.countBase x) 32768
    (List.range 4096).filterMap (fun i =>
      if fieldAt b (8 * i) 4 = 0 then none else some (i, (fieldAt b (8 * i) 4, fieldAt b (8 * i + 4) 2)))

def countOf (c : NMap (Nat × Nat)) (t : Nat) : Nat := ((c.find? (fun e => e.2.1 == t + 1)).map (fun e => e.2.2)).getD 0

/-- Enter a token from entry `i` upward; `none` when the table is full. -/
def countEnter (c : NMap (Nat × Nat)) (t : Nat) : Nat → Nat → Option (NMap (Nat × Nat))
  | 0, _ => none
  | fuel + 1, i =>
    match NMap.get? c i with
    | none => some (NMap.put c i (t + 1, 1))
    | some (k, n) => if k = t + 1 then some (NMap.put c i (k, min 65535 (n + 1))) else countEnter c t fuel ((i + 1) % 4096)

/-- Count tokens in order: the table, and how many found it full. -/
def countAll : List Nat → NMap (Nat × Nat) → NMap (Nat × Nat) × Nat
  | [], c => (c, 0)
  | t :: ts, c =>
    match countEnter c t 4096 (countHash t) with
    | some c => countAll ts c
    | none => let q := countAll ts c; (q.1, q.2 + 1)

/-- Write the table back. -/
def State.putCounts (s : State) (x : Req) (c : NMap (Nat × Nat)) : State :=
  if s.ptGet x false 40 8 = 0 then s
  else c.foldl (fun s e => s.wr (s.countBase x + 8 * e.1) (leBytes 4 e.2.1 ++ leBytes 2 e.2.2 ++ leBytes 2 0)) s

/-! ### WALK_COMPLETE and INSERTION -/

/-- The walk that ends next: the oldest ADMIT of all partitions (R396). -/
def State.nextWalk (s : State) : Option (Nat × Nat × Req) :=
  let xs := (List.range 8).flatMap (fun p => (s.srvPart p).walks.filterMap (fun e =>
    (s.req? e.1).bind (fun x => if x.serial = e.2 then some (p, e.1, x) else none)))
  xs.foldl (fun m e => match m with
    | none => some e
    | some y => if e.2.2.admitted < y.2.2.admitted then some e else some y) none

/-- A prefix walk ends (R373, R397): `ext` is the prompt when it lies outside the device. -/
def State.walkComplete (s : State) (ext : List Byte) : State :=
  match s.nextWalk with
  | none => s
  | some (p, r, x) =>
    let prompt := s.devBytes x.paddr (4 * x.plen) ext
    let s := s.modSrvPart p (fun v => { v with walks := v.walks.filter (fun e => decide (e ≠ (r, x.serial))) })
    let (path, bad) := if s.rbit .srvTreeCfg 0 p then s.walkPath p x.model (promptBlocks prompt ((x.plen - 1) / 16)) else ([], false)
    let s := if bad then (s.issue 0x070A { part := p }).raise .srvGenEvent 0 p else s
    let pages := s.pathPages p path
    let s := ((List.range pages.length).zip pages).foldl (fun s e => s.shareOne p r e.1 e.2.1 e.2.2) s
    let k := pages.length
    let s := s.count .srvWalkHits k p
    let s := s.modReq r (fun y => { y with walked := true, next := 64 * k, lastTok := fieldAt prompt (4 * (x.plen - 1)) 4 })
    match s.req? r with
    | none => s
    | some y =>
      let s := (s.ptPut y false 16 4 k).ptPut y false 0 4 (64 * k)
      let s := if bit y.samp.flags 0 && y.samp.penalised then
          let c := countAll ((List.range y.plen).map (fun i => fieldAt prompt (4 * i) 4)) (s.countTable y)
          (s.putCounts y c.1).count .srvPenOverflow c.2 p
        else s
      if y.next ≥ y.plen - 1 then s.prefillDone r
      else (s.modSrvPart p (fun v => { v with offers := if v.promptStop then v.offers else v.offers ++ [(r, y.serial)] })).offerAll p

/-- Lowest free nodes of the area, at most `k`. -/
def State.freeNodes (s : State) (p k : Nat) : List Nat :=
  (((List.range (s.rnat .srvTreeNodes p - 16)).map (· + 16)).filter (fun n => (NMap.get? (s.srvPart p).nodes n).isNone)).take k

/-- Create the missing nodes of a path below `parent`. -/
def State.growPath (s : State) (p m : Nat) : Nat → Nat → List (List Byte) → List Nat → State × Nat
  | parent, depth, b :: bs, n :: ns =>
    match s.node? p parent with
    | none => (s, parent)
    | some x =>
      let s := s.setNode p n { parent := parent, sibling := x.child, depth := depth + 1, model := m, key := b }
      let s := s.setNode p parent { x with child := n }
      let s := s.modSrvPart p (fun v => { v with nodes := NMap.put v.nodes n m })
      State.growPath s p m n (depth + 1) bs ns
  | parent, _, _, _ => (s, parent)

/-- Insert page `n` of a request (R398). -/
def State.insertPage (s : State) (p r : Nat) (x : Req) (n : Nat) (g : KvPage) (prompt : List Byte) : State :=
  let blocks := promptBlocks prompt (4 * (n + 1))
  let (path, bad) := s.walkPath p x.model blocks
  if bad then s
  else
    let missing := blocks.drop path.length
    let fresh := s.freeNodes p missing.length
    if fresh.length < missing.length then s.count .srvTreeSkips 1 p
    else
      let (s, node) := s.growPath p x.model (path.getLastD x.model) path.length missing fresh
      match s.node? p node, s.hold? g.hold with
      | some y, some h =>
        if y.hasPage then s
        else
          let s := s.setHold g.hold { h with by_ := .tree x.model }
          let s := s.setRefs p node { y with flags := 3, page := h.base } 1
          let s := s.putPage r x false n { g with kind := 2, node := node, pend := false, handed := true }
          (match s.req? r with | some z => s.ptPut z false 16 4 (n + 1) | none => s)
      | _, _ => s

/-- INSERTION: the walker decides the partition's next candidate page. -/
def State.insertion (s : State) (p : Nat) (ext : List Byte) : State :=
  match (s.srvPart p).inserts with
  | [] => s
  | (r, serial, n) :: rest =>
    let s := s.modSrvPart p (fun v => { v with inserts := rest })
    match s.req? r with
    | none => s
    | some x =>
      if x.serial ≠ serial then s
      else
        match NMap.get? x.pages n with
        | none => s
        | some g =>
          if g.kind ≠ 1 || !g.pend then s
          else
            let x := { x with pages := NMap.put x.pages n { g with pend := false } }
            let s := s.setReq r x
            let prev := n = 0 || (match NMap.get? x.pages (n - 1) with | some q => q.kind == 2 | none => false)
            let s := if prev then s.insertPage p r x n { g with pend := false } (s.devBytes x.paddr (4 * x.plen) ext) else s
            (s.handoverCheck r).handoverNext p

/-- SRV_TREE_CMD INIT: the model's tree becomes its root (R396). -/
def State.treeInit (s : State) (p m : Nat) : State :=
  let s := s.modSrvPart p (fun v => { v with nodes := NMap.put v.nodes m m })
  (s.setNode p m { parent := m, model := m }).sweepTree p m

/-- SRV_TREE_CMD FLUSH: every page of the model that no request names goes, and damaged nodes with what hangs below them
(R399, R400). -/
def State.treeFlush (s : State) (p m : Nat) : State :=
  let mine := ((s.srvPart p).nodes.filter (fun e => e.2 == m && e.1 ≥ 16)).map (·.1)
  let s := mine.foldl (fun s n =>
    match (NMap.get? (s.srvPart p).nodes n).bind (fun _ => s.node? p n) with
    | some x => if x.hasPage && x.refs = 0 then s.discardNode p n else s
    | none => s) s
  let s := mine.foldl (fun s n =>
    if (NMap.get? (s.srvPart p).nodes n).isSome && (s.node? p n).isNone then s.unlinkNode p n noNode else s) s
  s.sweepTree p m

/-! ### The sampler (R391, R392, R403) -/

def negInf : Nat := 0xFF800000

/-- Order of logits, with both zeros equal. -/
def logitKey (l : Nat) : Int := if l % 2 ^ 31 = 0 then 0 else f32Key l

def isNanPat (l : Nat) : Bool := (f32v l).isNan

/-- Step 1 for one token. -/
def penalise (x : Sampling) (l c : Nat) : Nat :=
  let v :=
    if c = 0 then l
    else
      let a := if logitKey l > 0 && !isNanPat l then f32Div l x.rep else f32Mul l x.rep
      f32Sub (f32Sub a (f32Mul x.freq (f32OfNat c))) x.presence
  if isNanPat v then negInf else v

/-- (token, logit) pairs: `a` comes before `b`. -/
def candBefore (a b : Nat × Nat) : Bool :=
  decide (logitKey a.2 > logitKey b.2) || (logitKey a.2 == logitKey b.2 && decide (a.1 < b.1))

def candInsert (x : Nat × Nat) : List (Nat × Nat) → List (Nat × Nat)
  | [] => [x]
  | y :: ys => if candBefore x y then x :: y :: ys else y :: candInsert x ys

/-- The `k` first candidates in order. -/
def topCands (k : Nat) (ls : List (Nat × Nat)) : List (Nat × Nat) := ls.foldl (fun acc x => (candInsert x acc).take k) []

/-- Running sums C_i of step 4. -/
def runSums : List Nat → CompE → List Nat
  | [], _ => []
  | e :: es, a => let b := a.addPair e 0 false; f32Add b.s b.c :: runSums es b

/-- FP32 `a ≥ b` and `a > b`, false with a NaN. -/
def f32Ge (a b : Nat) : Bool := !isNanPat a && !isNanPat b && decide (logitKey a ≥ logitKey b)
def f32Gt (a b : Nat) : Bool := !isNanPat a && !isNanPat b && decide (logitKey a > logitKey b)

/-- One position: the token, or none when every candidate is −∞ (R403, R405). `q` is its position. -/
def samplePosition (x : Sampling) (counts : NMap (Nat × Nat)) (logits : List Nat) (q : Nat) : Option Nat :=
  let ls := ((List.range logits.length).zip logits).map (fun e => (e.1, penalise x e.2 (countOf counts e.1)))
  let greedy := x.temp % 2 ^ 31 = 0
  let kk := if x.topK = 0 then 256 else x.topK
  let first := topCands (if greedy then 1 else kk) ls
  match first with
  | [] => none
  | t :: _ =>
    if t.2 = negInf then none
    else if greedy then some t.1
    else
      let cs := topCands kk (ls.map (fun e => (e.1, f32Div e.2 x.temp)))
      let m := (cs.headD (0, 0)).2
      let es := cs.map (fun e => (f32Exp2R {} (f32Mul (f32Sub e.2 m) 0x3FB8AA3B)).v)
      let sums := runSums es { s := 0, c := 0 }
      let all := sums.getLastD 0
      let n := ((List.range sums.length).find? (fun i => f32Ge (sums.getD i 0) (f32Mul x.topP all))).getD (sums.length - 1) + 1
      let w := mix (x.seed % 2 ^ 32) ((q + x.seed / 2 ^ 32 * 2 ^ 32) % 2 ^ 64)
      let u := (fFP32.round {} false (w / 256) (-24)).v
      let h := f32Mul u (sums.getD (n - 1) 0)
      let i := ((List.range n).find? (fun i => f32Gt (sums.getD i 0) h)).getD (n - 1)
      (cs[i]?).map (·.1)

/-- What sampling a request gave. -/
structure Sampled where
  toks : List Nat := []
  counts : NMap (Nat × Nat) := []
  overflow : Nat := 0
  code : Nat := 0
  finished : Bool := false
  deriving DecidableEq, Repr

/-- Sampling and verifying from offset `j` on (R392, R395). -/
def State.verify (s : State) (p e : Nat) (x : Req) (len k emitted : Nat) (drafts : List Nat) : Nat → Nat → Sampled → Sampled
  | 0, _, o => o
  | fuel + 1, j, o =>
    let m := s.model p x.model
    let base := s.rnat .srvLogitsAddr p + (e * (s.rnat .srvSpecMax p + 1) + j) * 1048576
    let b := s.rd base (4 * m.vocab)
    let logits := (List.range m.vocab).map (fun i => fieldAt b (4 * i) 4)
    match samplePosition x.samp o.counts logits (len + 1 + j) with
    | none => { o with code := 0x070B }
    | some t =>
      let c := if x.samp.penalised then countAll [t] o.counts else (o.counts, 0)
      let o := { o with toks := o.toks ++ [t], counts := c.1, overflow := o.overflow + c.2 }
      let fin := decide (emitted + o.toks.length ≥ x.samp.maxNew) || x.samp.stop.contains t
        || decide (len + 1 + j + 1 ≥ m.maxContext)
      if fin then { o with finished := true }
      else if j < k && drafts.getD j 0 = t then State.verify s p e x len k emitted drafts fuel (j + 1) o
      else o

/-- Serve one entry of the generation list. -/
def State.sampleEntry (s : State) (p e : Nat) (x : Req) : Sampled :=
  let len := s.ptGet x false 0 4
  let k := if x.samp.specK = 0 then 0 else s.ptGet x false 22 1
  let drafts := (List.range (min k 8)).map (fun i => s.ptGet x false (64 + 4 * i) 4)
  if k > x.samp.specK || drafts.any (fun t => decide (t ≥ (s.model p x.model).vocab)) then { code := 0x0708 }
  else s.verify p e x len k (s.ptGet x false 28 4) drafts (k + 1) 0 { counts := s.countTable x }

/-- Commit a request's step (R393, R402, R419): counts, page tables, streamed tokens and the account's charge. -/
def State.commitReq (s : State) (p r : Nat) (x : Req) (o : Sampled) : State :=
  let len := s.ptGet x false 0 4
  let k := if x.samp.specK = 0 then 0 else s.ptGet x false 22 1
  let a := o.toks.length - 1
  let s := (s.putCounts x o.counts).count .srvPenOverflow o.overflow p
  let s := (s.ptPut x false 0 4 (len + 1 + a)).ptPut x false 24 4 (o.toks.getLastD 0)
  let s := ((s.ptPut x false 4 4 0).ptPut x false 28 4 (s.ptGet x false 28 4 + a + 1)).ptPut x false 22 1 0
  let s := if x.samp.specK = 0 then s else s.ptPut x true 0 4 (min (len + 1 + a) (len + k))
  let s := (s.count .srvSpecDrafted k p).count .srvSpecAccepted a p
  let s := (s.modReq r (fun y => { y with streamed := y.streamed + a + 1 })).count .srvTokens (a + 1) p
  s.charge p x.account (a + 1)

/-- Stream payload entries of a request (Table 13.9). -/
def streamEntries (tag len : Nat) (o : Sampled) : List (List Byte) :=
  ((List.range o.toks.length).zip o.toks).map (fun e =>
    let lastOne := decide (e.1 + 1 = o.toks.length)
    leBytes 4 tag ++ leBytes 4 (e.2 % 2 ^ 18) ++ leBytes 4 (len + 1 + e.1)
      ++ leBytes 1 (b2n lastOne + 2 * b2n (lastOne && o.finished)) ++ leBytes 3 0)

/-! ### The stream ring (R475, R484) -/

/-- Largest record of a partition. -/
def streamMax (slots spec : Nat) : Nat := alignUp (256 + 16 * slots * (spec + 1)) 256

def State.streamLmax (s : State) (p : Nat) : Nat := streamMax (s.rnat .srvSlots p) (s.rnat .srvSpecMax p)

/-- The ring of the partition's function can take the largest record. -/
def State.streamRoom (s : State) (p : Nat) : Bool :=
  let f := s.fnOf p
  let x := s.fnSt f
  let len := s.rnat .hifStrLen f * 65536
  let l := s.streamLmax p
  let need := if x.strTail + l > len then (len - x.strTail) + l else l
  let room := (x.strHead + 2 * len - x.strTail - 256) % len
  s.rbit .hifRingCtrl 2 f && decide (room ≥ need)

/-- A record header (Table 18.9), with the CRC over it and the payload. -/
def recordHeader (step part : Nat) (phase wrap : Bool) (entries len fin gen : Nat) (payload : List Byte) : List Byte :=
  let h := leBytes 6 step ++ leBytes 1 part ++ leBytes 1 (b2n phase + 2 * b2n wrap) ++ leBytes 4 entries ++ leBytes 4 len
    ++ leBytes 4 fin ++ leBytes 4 gen ++ leBytes 228 0
  h ++ leBytes 4 (crc32c (h ++ payload))

/-- Move the stream tail, inverting the phase when it wraps. -/
def State.strAdvance (s : State) (f by_ : Nat) : State :=
  let x := s.fnSt f
  let len := s.rnat .hifStrLen f * 65536
  let t := x.strTail + by_
  s.setFn f { x with strTail := if t ≥ len then 0 else t, strPhase := if t ≥ len then !x.strPhase else x.strPhase }

/-- Write a record, after a WRAP header where it would pass the end of the ring, then send the vector (R474). -/
def State.writeRecord (s : State) (p : Nat) (es : List (List Byte)) (fin gen : Nat) : State :=
  let f := s.fnOf p
  let base := s.rnat .hifStrBase f
  let len := s.rnat .hifStrLen f * 65536
  let rec_ := alignUp (256 + 16 * es.length) 256
  let x := s.fnSt f
  let s := if x.strTail + rec_ > len then
      (s.emit (.hostWrite f (base + x.strTail) (recordHeader s.cad.step p x.strPhase true 0 (len - x.strTail) 0 0 []))).strAdvance f
        (len - x.strTail)
    else s
  let x := s.fnSt f
  let payload := es.flatten
  let s := s.emit (.hostWrite f (base + x.strTail)
    (recordHeader s.cad.step p x.strPhase false es.length rec_ fin gen payload ++ payload))
  let s := s.strAdvance f rec_
  let v := s.rnat .hifRingVec f
  if bit v 31 then s.sendVector f (bits v 26 16) else s

/-! ### SAMPLER_SERVE (R380, R402) -/

/-- The LOGITS cairn has reached the value of the GLIST cairn. -/
def State.logitsReady (s : State) (p : Nat) : Bool :=
  match s.localRef p (bits (s.rnat .srvSampleCairns p) 15 0), s.localRef p (bits (s.rnat .srvListCairns p) 15 0) with
  | .ok a, .ok b => holds (s.cairn a) (s.cairn b)
  | _, _ => false

/-- The entries of the list that are GENERATING now, with what sampling gave. -/
def State.samples (s : State) (p : Nat) : List (Nat × Req × Sampled) :=
  let l := (s.srvPart p).list
  ((List.range l.length).zip l).filterMap (fun e =>
    match s.req? e.2.req with
    | some x => if x.serial == e.2.serial && x.stage == Stage.generating then some (e.2.req, x, s.sampleEntry p e.1 x) else none
    | none => none)

/-- Fail the requests whose sampling failed. -/
def State.sampleFails (s : State) (p : Nat) (xs : List (Nat × Req × Sampled)) : State :=
  xs.foldl (fun s e =>
    if e.2.2.code = 0 then s
    else
      let s := s.issue e.2.2.code { part := p }
      let s := if e.2.2.code = 0x070B then s.raise .srvGenEvent 1 p else s
      s.reqEvent e.1 2 e.2.2.code) s

def State.samplerServe (s : State) (p : Nat) : State :=
  let v := s.srvPart p
  if !v.toSample || !s.logitsReady p then s
  else
    let f := s.fnOf p
    if !s.streamRoom p then
      let x := s.fnSt f
      if x.streamWait then s else (s.setFn f { x with streamWait := true }).count .hifStreamWaits 1 f
    else
      let s := s.setFn f { s.fnSt f with streamWait := false }
      let s := s.modSrvPart p (fun v => { v with toSample := false })
      let xs := s.samples p
      let s := s.sampleFails p xs
      let good := xs.filter (fun e => e.2.2.code == 0)
      let lens := good.map (fun e => s.ptGet e.2.1 false 0 4)
      let s := good.foldl (fun s e => s.commitReq p e.1 e.2.1 e.2.2) s
      let es := (good.zip lens).flatMap (fun e => streamEntries e.1.2.1.tag e.2 e.1.2.2)
      let fin := (good.filter (fun e => e.2.2.finished)).length
      let s := if es.isEmpty then s else s.writeRecord p es fin (s.generatingOf p).length
      let s := (good.filter (fun e => e.2.2.finished)).foldl (fun s e => s.reqEvent e.1 9) s
      s.hwAdd p (bits (s.rnat .srvSampleCairns p) 31 16) 1

end Sys2Proof.Machine
end

