-- ==== Sys2Proof/Machine/Admission.lean ====
section
/-! DEFINITION. Submission, admission's evaluation through FSM 0x02, and the host's request commands (R361, R379, R401,
R408 to R429, R480, R481). -/
namespace Sys2Proof.Machine

/-! ### Commands taken (R472, R482) -/

/-- The oldest command of function `f` not yet carried out, if its OP is `op`. -/
def State.takeCmd (s : State) (f op : Nat) : Option (Taken × State) :=
  match (s.fnSt f).taken with
  | c :: r => if c.op = op then some (c, s.setFn f { s.fnSt f with taken := r }) else none
  | [] => none

/-! ### The sampling block (Table 14.4, R401) -/

def parseSampling (b : List Byte) : Sampling := {
  temp := fieldAt b 0 4, topP := fieldAt b 4 4, rep := fieldAt b 8 4, presence := fieldAt b 12 4, freq := fieldAt b 16 4,
  topK := fieldAt b 20 2, specK := fieldAt b 22 1, draft := fieldAt b 23 1, flags := fieldAt b 24 1, maxNew := fieldAt b 28 4,
  seed := fieldAt b 32 8, stop := (List.range 4).map (fun i => fieldAt b (40 + 4 * i) 4) }

/-- The block keeps to Table 14.4 and R401. VOCAB is not judged for a model that is not defined. -/
def State.samplingOk (s : State) (p m : Nat) (b : List Byte) : Bool :=
  let x := parseSampling b
  let md := s.model p m
  let fin (v : Nat) : Bool := f32Finite v
  let pos (v : Nat) : Bool := decide (logitKey v > 0)
  decide (fieldAt b 60 4 = crc32c (slice b 0 60)) && zeroAt b 25 3 && zeroAt b 56 4 && decide (x.flags < 4)
    && fin x.temp && decide (logitKey x.temp ≥ 0) && fin x.topP && pos x.topP && decide (logitKey x.topP ≤ logitKey f32One)
    && fin x.rep && pos x.rep && fin x.presence && fin x.freq && decide (x.topK ≤ 256)
    && decide (x.specK ≤ s.rnat .srvSpecMax p)
    && (if x.specK = 0 then x.draft == 0xFF
        else decide (x.draft < 16) && (s.model p x.draft).state != 0 && (md.state == 0 || (s.model p x.draft).vocab == md.vocab))
    && decide (1 ≤ x.maxNew) && decide (x.maxNew ≤ 1048576)
    && x.stop.all (fun t => t == 0xFFFFFFFF || md.state == 0 || decide (t < md.vocab))

/-! ### Verdicts and their counts (R409, R410, R427) -/

/-- Limit in force on the commitments of a partition (R411). -/
def State.kvLimit (s : State) (p : Nat) : Nat :=
  let v := (s.srvPart p).kvNow
  if v = 0 then s.shareUnits p else v

def State.online (s : State) (p : Nat) : Bool := s.rbit .srvPartCtrl 0 p && decide (s.rnat .srvSlots p ≠ 0)

def satInc (n : Nat) : Nat := min 0xFFFFFFFF (n + 1)

/-- A refusal is counted, against the account too. -/
def State.countRefusal (s : State) (p a reason : Nat) : State :=
  let x := s.acct p a
  let s := s.setAcct p a { x with refused := satInc x.refused, last := reason }
  ((s.count .admRefusals 1 p).raise .admEvent 2 p).issue (0x0800 + reason) { part := p }

/-- A DELAY verdict (R426): it is counted, and raises DELAY where a notice is due. -/
def State.delayReq (s : State) (r reason : Nat) : State :=
  match s.req? r with
  | none => s
  | some x =>
    let p := x.part
    let due := x.notified.isNone || x.notified != some reason || decide (s.cad.step - x.noticeStep ≥ s.rnat .admNoticeGap p)
    let s := s.setReq r { x with
      lastReason := reason, delayedFrom := some (x.delayedFrom.getD s.cad.step),
      notified := if due then some reason else x.notified, noticeStep := if due then s.cad.step else x.noticeStep }
    let a := s.acct p x.account
    let s := s.setAcct p x.account { a with last := reason, delayed := if due then satInc a.delayed else a.delayed }
    let s := ((s.count .admDelays 1 p).raise .admEvent 1 p).issue (0x0800 + reason) { part := p }
    if due then s.reqEvent r 5 reason else s

/-! ### Submission (R421, R480) -/

/-- A commitment that can never fit, or a prompt that does not fit MAX_CONTEXT (R417). -/
def State.neverFits (s : State) (p m plen : Nat) (x : Sampling) : Bool :=
  decide (s.commitmentOf p m plen x > s.kvLimit p) || decide (plen ≥ (s.model p m).maxContext)

/-- The tenant's spend has reached its hard limit (R417). -/
def State.overHard (s : State) (p a : Nat) : Bool :=
  !s.weighted p && (s.acct p a).hardNow != 0 && decide ((s.acct p a).spent ≥ (s.acct p a).hardNow)

/-- The lowest request record not in use, within SRV_REQ_MAX (R363). -/
def State.freeReq (s : State) (p : Nat) : Option Nat :=
  if (s.reqsOf p).length ≥ s.rnat .srvReqMax p then none
  else (List.range (s.srv.reqs.length + 1)).find? (fun r => decide (r < 32768) && (s.req? r).isNone)

/-- A partial load of the partition is PENDING (R96). -/
def State.partPending (s : State) (p : Nat) : Bool := decide (s.img.state = .pending) && decide (s.img.part = p)

/-- What the model's state makes of a submission (Table 13.3): a code, or whether it is delayed and the state. -/
def State.modelVerdict (s : State) (p m : Nat) : Except Nat (Bool × State) :=
  match (s.model p m).state with
  | 0 => .error 0x0703
  | 1 => if (s.model p m).auto then (match s.autoSwap p m with | some s => .ok (true, s) | none => .error 0x0703) else .error 0x0703
  | 3 => .ok (s.toGo p m, s)
  | 5 => .error 0x0704
  | _ => .ok (true, s)

/-- The arrival checks and the record of a request that passes. `own` names the command's tag; a final entry made here
uses the command's reservation. -/
def State.arrive (s : State) (p tag m a plen paddr : Nat) (x : Sampling) : State :=
  let noRec : Nat := 2 ^ 64 - 1
  let refuse (reason : Nat) : State := (s.countRefusal p a reason).finalEntry p tag 2 (0x0800 + reason) 0 noRec true
  let ends (code : Nat) : State := (s.issue code { part := p }).finalEntry p tag 3 code 0 noRec true
  if a ≥ s.rnat .admAccounts p then ends 0x0801
  else if !s.online p then refuse 0x24
  else
    match s.freeReq p with
    | none => refuse 0x21
    | some r =>
      if (s.waitingOf p a).length ≥ s.rnat .admQdepth p then refuse 0x21
      else if (s.model p m).state ≠ 0 && s.neverFits p m plen x then refuse 0x22
      else if s.overHard p a then refuse 0x23
      else
        match s.modelVerdict p m with
        | .error code => ends code
        | .ok (delay, s) =>
          let f := s.fnOf p
          let y := s.fnSt f
          let s := s.setFn f { y with reserved := y.reserved - 1 }
          let q : Req := { part := p, tag := tag, st := fsmInitial (s.fsmBody p 3), model := m, account := a, plen := plen,
                           paddr := paddr, samp := x, serial := s.srv.nextSerial }
          let s := { s with srv := { s.srv with nextSerial := s.srv.nextSerial + 1 } }
          let s := s.setReq r q
          if delay then s.delayReq r 0x14 else s

/-- Command SUBMIT of function `f`; `ext` is the sampling block when it lies outside the device. -/
def State.cmdSubmit (s : State) (f : Nat) (ext : List Byte) : State :=
  match s.takeCmd f 0x20, s.partOfFn f with
  | some (c, s), some pr =>
    let p := pr.id
    let m := fieldAt c.bytes 8 1
    let saddr := fieldAt c.bytes 24 8
    let noRec : Nat := 2 ^ 64 - 1
    let ends (code : Nat) : State := (s.issue code { part := p }).finalEntry p c.tag 3 code 0 noRec true
    if (s.reqsOf p).any (fun e => e.2.tag == c.tag) then ends 0x070C
    else
      match s.checkAccess p saddr 64 1 with
      | some code => ends code
      | none =>
        let b := s.devBytes saddr 64 ext
        if !s.samplingOk p m b then ends 0x0705
        else s.arrive p c.tag m (fieldAt c.bytes 10 2) (fieldAt c.bytes 12 4) (fieldAt c.bytes 16 8) (parseSampling b)
  | _, _ => s

/-! ### CANCEL, PAUSE, RESUME (R379, R412, R481) -/

/-- The request of the partition that a TAG names. -/
def State.tagged (s : State) (p tag : Nat) : Option Nat := ((s.reqsOf p).find? (fun e => e.2.tag == tag)).map (·.1)

/-- A request command: its command entry, its request and the cell its event would take. -/
def State.reqCommand (s : State) (f op ev : Nat) (go : Taken → Nat → Cell → State → State) : State :=
  match s.takeCmd f op, s.partOfFn f with
  | some (c, s), some pr =>
    (match s.tagged pr.id c.tag with
    | none => (s.issue 0x070D { part := pr.id }).cplError f c.tag 0x070D
    | some r =>
      match s.reqCell r ev with
      | none => ((s.reqEvent r ev).issue 0x0706 { part := pr.id }).cplError f c.tag 0x0706
      | some cell => go c r cell s)
  | _, _ => s

def State.cmdCancel (s : State) (f : Nat) : State :=
  s.reqCommand f 0x21 0 (fun c r _ s => (s.reqEvent r 0).cplDone f c.tag)

def State.cmdPause (s : State) (f : Nat) : State :=
  s.reqCommand f 0x22 10 (fun c r cell s =>
    let full := cell.action == 5 && decide (s.scl.park.length ≥ 16384)
    let s := s.reqEvent r 10 (fieldAt c.bytes 8 4)
    if full then s.cplError f c.tag 0x040E else s.cplDone f c.tag)

/-- Units a paused conversation must commit again to come back (R412). -/
def State.resumeNeed (s : State) (x : Req) : Nat :=
  let p := x.part
  let ud := if x.samp.specK = 0 then 0 else (s.model p x.samp.draft).pageUnits
  x.cap * ((s.model p x.model).pageUnits + ud) + holdingUnits x.cap x.samp - x.commit

def State.cmdResume (s : State) (f : Nat) : State :=
  s.reqCommand f 0x23 1 (fun c r cell s =>
    match s.req? r with
    | none => s
    | some x =>
      let p := x.part
      if cell.action ≠ 6 then (s.reqEvent r 1).cplDone f c.tag
      else
        match s.freeSlotOf p with
        | none => (s.issue 0x0709 { part := p }).cplError f c.tag 0x0709
        | some slot =>
          if s.committed p + s.resumeNeed x > s.kvLimit p then (s.issue 0x0802 { part := p }).cplError f c.tag 0x0802
          else if (match s.parkOf p r with | some k => s.parkLost k | none => false) then
            (s.issue 0x030D { part := p }).cplError f c.tag 0x030D
          else (s.setReq r { x with resumeCmd := some (f, c.tag) }).reqEvent r 1 slot)

/-! ### Evaluation (R415 to R422) -/

/-- What an evaluation carries from candidate to candidate. -/
structure Eval where
  blocked : Bool := false
  credited : List Nat := []
  /-- slots and units of ADMITs that FSM 0x03 discarded, kept back to the end of the evaluation (R420) -/
  ghosts : List Nat := []
  ghostUnits : Nat := 0

/-- The partition's accounts as the evaluation begins: HARD latched, and in budget mode SPENT and BALANCE (R419). -/
def State.refill (s : State) (p : Nat) : State :=
  let period := s.rnat .admPeriod p
  let reset := period != 0 && s.cad.step % period == 0
  let n := s.rnat .admAccounts p
  let w := s.weighted p
  { s with srv := { s.srv with accts := s.srv.accts.map (fun e =>
      if e.1 / 4096 ≠ p then e
      else
        let a := { e.2 with hardNow := e.2.hard }
        if w then (e.1, a)
        else
          let a := if reset then { a with spent := 0 } else a
          if e.1 % 4096 < n then (e.1, { a with balance := min (a.burst : Int) (a.balance + a.rate) }) else (e.1, a)) } }

/-- Candidates in visit order (R416). -/
def State.visitOrder (s : State) (p : Nat) : List Nat :=
  let xs := (s.reqsOf p).filter (fun e => e.2.waiting)
  if s.weighted p then
    (List.range 64).flatMap (fun i => (s.waitingOf p ((s.cad.step + i) % 64)).map (·.1))
  else (sortNats (xs.map (fun e => e.2.serial * 32768 + e.1))).map (· % 32768)

/-- A queue whose head is visited gains its credit once per evaluation (R418). -/
def State.creditQueue (s : State) (p r : Nat) (x : Req) (e : Eval) : Eval × State :=
  if !s.weighted p || e.blocked || e.credited.contains x.account || s.positionOf r ≠ 0 then (e, s)
  else
    let a := s.acct p x.account
    ({ e with credited := x.account :: e.credited },
     s.setAcct p x.account { a with deficit := min 0xFFFFFFFF (a.deficit + a.rate % 256 * s.rnat .admQuantum p) })

/-- Free slots and room as an evaluation sees them. -/
def State.evalSlot (s : State) (p : Nat) (e : Eval) : Option Nat :=
  (List.range (s.rnat .srvSlots p)).find? (fun n => !(s.slotsUsed p).contains n && !e.ghosts.contains n)

/-- Events of FSM 0x02 that a candidate raises, in ascending order (R417, Table 15.2). -/
def State.checks (s : State) (p r : Nat) (x : Req) (e : Eval) : List Nat :=
  let w := s.weighted p
  let a := s.acct p x.account
  let c := s.commitmentOf p x.model x.plen x.samp
  let fails :=
    (if s.neverFits p x.model x.plen x.samp then [0] else [])
    ++ (if s.overHard p x.account then [1] else [])
    ++ (if (s.model p x.model).state ≠ 3 || s.toGo p x.model || s.partPending p then [3] else [])
    ++ (if !w && a.balance ≤ 0 then [4] else [])
    ++ (if w && (s.positionOf r ≠ 0 || a.deficit < x.plen) then [5] else [])
    ++ (if e.blocked || (s.evalSlot p e).isNone || s.committed p + e.ghostUnits + c > s.kvLimit p then [6] else [])
  if fails.isEmpty then [7] else fails

/-- Apply the events to a fresh instance of FSM 0x02: the action and PARAM of the cell that ends it. -/
def State.judgeFits (s : State) (p r : Nat) : Nat → List Nat → Option (Nat × Nat) → Option (Nat × Nat) × State
  | _, [], v => (v, s)
  | st, ev :: evs, v =>
    if s.fsmDead p 2 st then (v, s)
    else
      match s.fsmTake p 2 st ev with
      | none => State.judgeFits s.fsmNoTransition p r st evs v
      | some c => State.judgeFits (s.fsmLog p 2 r st ev c) p r c.next evs (some (c.action, c.param))

/-- ADMIT: the slot, the commitment and the charge, given back where FSM 0x03 discards the event (R420, R426). -/
def State.admitReq (s : State) (p r : Nat) (x : Req) (e : Eval) : Eval × State :=
  match s.evalSlot p e with
  | none => (e, s)
  | some slot =>
    let c := s.commitmentOf p x.model x.plen x.samp
    let a := s.acct p x.account
    let s := s.setAcct p x.account { a with admitted := satInc a.admitted, last := 0 }
    let s := ((s.count .admAdmits 1 p).raise .admEvent 0 p).tally1 0x1018
    match s.reqCell r 6 with
    | none => ({ e with ghosts := slot :: e.ghosts, ghostUnits := e.ghostUnits + c }, s.reqEvent r 6 slot)
    | some _ =>
      let s := s.charge p x.account x.plen
      let a := s.acct p x.account
      let s := if s.weighted p then s.setAcct p x.account { a with deficit := a.deficit - x.plen } else s
      (e, (s.modReq r (fun y => { y with commit := c, lastReason := 0 })).reqEvent r 6 slot)

/-- Judge one candidate. -/
def State.evalOne (s : State) (p r : Nat) (e : Eval) : Eval × State :=
  match s.req? r with
  | none => (e, s)
  | some x =>
    if !x.waiting then (e, s)
    else
      let (e, s) := s.creditQueue p r x e
      match s.judgeFits p r (fsmInitial (s.fsmBody p 2)) (s.checks p r x e) none with
      | (some (1, _), s) => s.admitReq p r x e
      | (some (2, reason), s) =>
        let s := s.delayReq r reason
        if reason = 0x13 then ({ e with blocked := true }, s.raise .admEvent 3 p) else (e, s)
      | (some (3, reason), s) =>
        (e, ((s.modReq r (fun y => { y with lastReason := reason })).countRefusal p x.account reason).reqEvent r 4 reason)
      | (_, s) => (e, s)

/-- The evaluation of a partition. -/
def State.evaluate (s : State) (p : Nat) : State :=
  let s := s.modSrvPart p (fun v => { v with evalDue := false, kvNow := s.rnat .admKvLimit p })
  let s := s.refill p
  if !s.rbit .srvPartCtrl 0 p then
    (s.visitOrder p).foldl (fun s r =>
      match s.req? r with
      | some x => ((s.modReq r (fun y => { y with lastReason := 0x24 })).countRefusal p x.account 0x24).reqEvent r 4 0x24
      | none => s) s
  else ((s.visitOrder p).foldl (fun (acc : Eval × State) r => acc.2.evalOne p r acc.1) (({} : Eval), s)).2

/-- ADMISSION_EVALUATION: every partition whose evaluation is due, in ascending number. -/
def State.evaluateAll (s : State) : State :=
  (List.range 8).foldl (fun s p => if (s.srvPart p).evalDue then s.evaluate p else s) s

/-- ADM_ACCT_CMD RESET (Table 15.7). -/
def State.acctReset (s : State) (p a : Nat) : State :=
  s.setAcct p a { s.acct p a with spent := 0, admitted := 0, delayed := 0, refused := 0 }

/-- ADM_REQ_INFO of a record. -/
def State.reqInfo (s : State) (p r : Nat) : Nat :=
  match s.req? r with
  | some x => if x.part ≠ p then 0
    else s.stepsDelayed x * 2 ^ 48 + s.positionOf r % 65536 * 2 ^ 32 + x.account * 65536 + x.lastReason
  | none => 0

end Sys2Proof.Machine
end

