-- ==== Sys2Proof/Machine/Media.lean ====
section
/-! DEFINITION. From decoded media to the bytes of an intake job's output (R442 to R447, R451). -/
namespace Sys2Proof.Machine

open Sys2Proof.Config (Decoded)

/-! ### LPCM (Table 16.5) -/

/-- Bytes per sample of an LPCM format. -/
def pcmBytes (fmt : Nat) : Nat := match fmt with | 1 => 2 | 2 => 3 | _ => 4

/-- The samples of an LPCM stream; a cut last frame is a truncation (Table 16.8). FP32 samples keep their pattern. -/
def decodePcm (j : JobRec) (b : List Byte) : Decoded :=
  let fmt := bits j.pcm 7 4
  let ch := bits j.pcm 3 0 + 1
  let w := pcmBytes fmt
  let n := b.length / (w * ch)
  let one (c i : Nat) : Int :=
    let v := fieldAt b ((i * ch + c) * w) w
    if fmt = 4 then (v : Int) else signed (8 * w) v
  { depth := 8 * w, channels := ch, rate := j.param, samples := (List.range ch).map (fun c => (List.range n).map (one c)),
    fault := if b.length % (w * ch) = 0 then none else some (n * w * ch) }

/-- What the decoder of a job makes of the bytes of its stream. -/
def decodeJob (j : JobRec) (b : List Byte) : Decoded :=
  if j.codec = 0x30 then decodePcm j b else Config.decode j.codec (bit j.flags 3) b

/-! ### Pictures (R444, R445) -/

def isVideo (codec : Nat) : Bool := codec == 0x20 || codec == 0x21 || codec == 0x28
def isAudio (codec : Nat) : Bool := codec == 0x30 || codec == 0x31

/-- Width and height divisors of chroma by CHROMA. -/
def chromaDiv (c : Nat) : Nat × Nat := match c with | 1 => (2, 2) | 2 => (2, 1) | 4 => (1, 2) | _ => (1, 1)

/-- Width and rows of plane `i` of a picture as coded. -/
def planeDim (d : Decoded) (i : Nat) : Nat × Nat :=
  if i = 0 then (d.width, d.height)
  else (ceilDiv d.width (chromaDiv d.chroma).1, ceilDiv d.height (chromaDiv d.chroma).2)

/-- A number as BF16 of r / (2^b − 1), rounded once (R445). -/
def unitBf16 (r b : Nat) : Nat :=
  let q := r * 2 ^ 60 / (2 ^ b - 1)
  (fBF16.round {} false q (-60) (decide (r * 2 ^ 60 % (2 ^ b - 1) ≠ 0))).v

/-- Component `c` of a pixel (R445). -/
def rgbOf (m : List Int) (o : List Int) (b : Nat) (c y cb cr : Nat) : Nat :=
  let k (i : Nat) : Int := m.getD (3 * c + i) 0
  let v := k 0 * y + k 1 * cb + k 2 * cr + o.getD c 0 * (2 ^ (b - 8) : Nat)
  let r := (v + 32768) / 65536
  (max 0 (min r ((2 ^ b - 1 : Nat) : Int))).toNat

/-- R, G and B of pixel (x, y) of a picture. -/
def pixel (d : Decoded) (m o : List Int) (planes : List (Array Nat)) (x y : Nat) : List Nat :=
  let get (i px py : Nat) : Nat := (planes.getD i #[]).getD (py * (planeDim d i).1 + px) 0
  let l := get 0 x y
  if d.chroma = 0 then [l, l, l]
  else
    let cx := x / (chromaDiv d.chroma).1
    let cy := y / (chromaDiv d.chroma).2
    (List.range 3).map (fun c => rgbOf m o d.depth c l (get 1 cx cy) (get 2 cx cy))

/-- Rows of the output planes of one picture: for each plane its pitch and, row by row, its bytes. -/
def outPlanes (outfmt : Nat) (d : Decoded) (m o : List Int) (pic : List (List Nat)) : List (Nat × List (List Byte)) :=
  let planes := pic.map List.toArray
  let xs := List.range d.width
  let ys := List.range d.height
  match outfmt with
  | 1 =>
    let w := if d.depth > 8 then 2 else 1
    (List.range (if d.chroma = 0 then 1 else 3)).map (fun i =>
      let q := planeDim d i
      (alignUp (q.1 * w) 64, (List.range q.2).map (fun y => (List.range q.1).flatMap (fun x =>
        leBytes w ((planes.getD i #[]).getD (y * q.1 + x) 0)))))
  | 2 =>
    [(alignUp (3 * d.width) 64, ys.map (fun y => xs.flatMap (fun x =>
      (pixel d m o planes x y).flatMap (fun v => leBytes 1 (v / 2 ^ (d.depth - 8))))))]
  | _ =>
    (List.range 3).map (fun c => (alignUp (2 * d.width) 64, ys.map (fun y => xs.flatMap (fun x =>
      leBytes 2 (unitBf16 ((pixel d m o planes x y).getD c 0) d.depth)))))

/-- Bytes of the planes of a picture. -/
def planesBytes (outfmt : Nat) (d : Decoded) : Nat :=
  match outfmt with
  | 1 =>
    let w := if d.depth > 8 then 2 else 1
    ((List.range (if d.chroma = 0 then 1 else 3)).map (fun i => alignUp ((planeDim d i).1 * w) 64 * (planeDim d i).2)).sum
  | 2 => alignUp (3 * d.width) 64 * d.height
  | _ => 3 * (alignUp (2 * d.width) 64 * d.height)

/-- FRAME_BYTES of a video frame. -/
def frameBytes (outfmt : Nat) (d : Decoded) : Nat := alignUp (planesBytes outfmt d) 4096

/-- Writes of the planes from offset `base`, `rows` counting luma rows (all of them for a video frame). -/
def planeWrites (ps : List (Nat × List (List Byte))) (rows height : Nat) : Nat → List (Nat × List Byte)
  | base =>
    match ps with
    | [] => []
    | (pitch, rs) :: rest =>
      let n := if rows ≥ height then rs.length else rs.length * rows / (max 1 height)
      ((List.range n).map (fun y => (base + y * pitch, rs.getD y [])))
        ++ planeWrites rest rows height (base + pitch * rs.length)

/-- Bytes that `rows` luma rows of the planes take. -/
def rowsBytes (outfmt : Nat) (d : Decoded) (rows : Nat) : Nat :=
  if rows ≥ d.height then planesBytes outfmt d else planesBytes outfmt d * rows / (max 1 d.height)

/-! ### Audio (R446) -/

/-- A sample as FP32. -/
def sampleF32 (j : JobRec) (d : Decoded) (v : Int) : Nat :=
  if j.codec = 0x30 && bits j.pcm 7 4 = 4 then v.toNat
  else (fFP32.round {} (decide (v < 0)) v.natAbs (1 - (d.depth : Int))).v

/-- Output sample `k` of a channel after resampling; `coef` reads h. -/
def resampled (coef : Nat → Nat) (inR outR : Nat) (xs : Array Nat) (k : Nat) : Nat :=
  let i := k * inR / outR
  let phi := 256 * (k * inR % outR) / outR
  (List.range 64).foldl (fun (acc q : Nat) =>
    let pos : Int := (i : Int) - 31 + (q : Int)
    let v := if pos < 0 then 0 else xs.getD pos.toNat 0
    f32Add acc (f32Mul (coef (64 * phi + q)) v)) 0

/-- Samples of each channel at the output rate. -/
def audioOut (coef : Nat → Nat) (j : JobRec) (d : Decoded) : List (Array Nat) :=
  let chans := d.samples.map (fun c => (c.map (sampleF32 j d)).toArray)
  if j.outRate = 0 || j.outRate = d.rate || d.rate = 0 then chans
  else chans.map (fun c => ((List.range (ceilDiv (c.size * j.outRate) d.rate)).map (resampled coef d.rate j.outRate c)).toArray)

/-- One output sample: S16 or F32. The value of a NaN as S16 is open. -/
def audioBytes (outfmt v : Nat) : List Byte :=
  if outfmt = 0x11 then leBytes 4 v
  else
    match f32v v with
    | .nan => leBytes 2 (Config.freeNat v)
    | .inf neg => leBytes 2 (if neg then 0x8000 else 0x7FFF)
    | .fin neg m e => leBytes 2 (roundInt 16 {} neg m (e + 15)).v

/-! ### What a job writes -/

/-- Output of a job: writes by offset from DST, UNITS and BYTES. -/
structure JobOut where
  writes : List (Nat × List Byte) := []
  units : Nat := 0
  bytes : Nat := 0

/-- Bytes of the output and of the work area that the stream needs, once its size is known (R447). -/
def needs (j : JobRec) (d : Decoded) (samples : Nat) : Nat × Nat :=
  if j.op = 1 then (j.length, 0)
  else if isAudio j.codec then (samples * d.channels * (if j.outfmt = 0x10 then 2 else 4), 0)
  else if isVideo j.codec then
    ((max 1 (if j.param = 0 then d.pictures.length else j.param)) * frameBytes j.outfmt d, 10 * frameBytes 1 d + 16 * 2 ^ 20)
  else (planesBytes j.outfmt d, if d.progressive then
      2 * ((List.range (if d.chroma = 0 then 1 else 3)).map (fun i => (planeDim d i).1 * (planeDim d i).2)).sum else 0)

/-- The space given holds what the stream needs. -/
def spaceOk (j : JobRec) (d : Decoded) (samples : Nat) : Bool :=
  let q := needs j d samples
  decide (q.1 ≤ j.dstLen * granule) && decide (q.2 ≤ j.workLen * granule)

/-- The leading output that a job writes from the bytes of its stream and their decoding. -/
def jobOutput (coef : Nat → Nat) (m o : List Int) (j : JobRec) (stream : List Byte) (d : Decoded) : JobOut :=
  if j.op = 1 then { writes := [(0, stream)], units := 0, bytes := stream.length }
  else if isAudio j.codec then
    let cs := audioOut coef j d
    let n := (cs.headD #[]).size
    let b := (List.range n).flatMap (fun i => cs.flatMap (fun c => audioBytes j.outfmt (c.getD i 0)))
    { writes := [(0, b)], units := n, bytes := b.length }
  else if isVideo j.codec then
    let pics := if j.param = 0 then d.pictures else d.pictures.take j.param
    let fb := frameBytes j.outfmt d
    { writes := ((List.range pics.length).zip pics).flatMap (fun e =>
        planeWrites (outPlanes j.outfmt d m o e.2) d.height d.height (e.1 * fb)),
      units := pics.length, bytes := pics.length * fb }
  else
    let rows := if d.fault.isNone then d.height else min d.rows d.height
    { writes := planeWrites (outPlanes j.outfmt d m o (d.pictures.headD [])) rows d.height 0, units := rows,
      bytes := rowsBytes j.outfmt d rows }

end Sys2Proof.Machine
end

