-- ==== Sys2Proof/Machine/Intake.lean ====
section
/-! DEFINITION. The intake unit: enumeration, rings, jobs, reads, retries and the end of jobs (R430 to R452). -/
namespace Sys2Proof.Machine

open Sys2Proof.Config (Decoded)

def State.ctrl (s : State) (c : Nat) : Ctrl := NMap.getD s.intake.ctrls c { st := 0 }
def State.setCtrl (s : State) (c : Nat) (x : Ctrl) : State :=
  { s with intake := { s.intake with ctrls := NMap.put s.intake.ctrls c x } }

def intakeItem (p num : Nat) : Item := .intake (Fin.ofNat 8 p) num

def State.job? (s : State) (p num : Nat) : Option IJob := s.intake.jobs.find? (fun j => j.part == p && j.num == num)

def State.modJob (s : State) (p num : Nat) (f : IJob → IJob) : State :=
  { s with intake := { s.intake with jobs := s.intake.jobs.map (fun j => if j.part == p && j.num == num then f j else j) } }

def State.dropJob (s : State) (p num : Nat) : State :=
  { s with intake := { s.intake with jobs := s.intake.jobs.filter (fun j => !(j.part == p && j.num == num)) } }

/-- Jobs of the ring in flight (INT_RING_STATUS). -/
def State.inFlight (s : State) (p : Nat) : Nat := (s.intake.jobs.filter (fun j => j.part == p)).length

/-- Late mode of the ring: STALL. -/
def State.ringStall (s : State) (p : Nat) : Bool := s.rbit .intRingCfg 1 p

def State.nsAt (s : State) (n : Nat) : Option NsEntry := s.intake.ns[n]?

/-! ### Enumeration (R431 to R434) -/

/-- Enumeration begins: controllers are ENUMERATING and every owner mask is cleared. -/
def State.beginEnumeration (s : State) : State :=
  { s with intake := { s.intake with
      scanning := true, bifurcate := bits (s.rnat .intPortCfg) 1 0,
      ctrls := s.intake.ctrls.map (fun e => (e.1, { e.2 with st := 1, tmo := 0 })),
      ns := s.intake.ns.map (fun n => { n with owner := 0 }) } }

/-- RESCAN is refused while an intake job is in flight (R431). -/
def State.rescanRefused (s : State) : Bool := !s.intake.jobs.isEmpty

/-- A controller fails (Table 16.2). -/
def State.ctrlFailed (s : State) (c : Nat) : State :=
  (((s.setCtrl c { s.ctrl c with st := 4 }).raise .intEvent 3).issue 0x0908).logAdd (hwEntry 10 0x0908 0xFF 5 c)

/-- Enter the namespaces of the controllers found; true if one was not entered. -/
def enterNs : List (Nat × FoundNs) → List NsEntry × Bool
  | [] => ([], false)
  | (c, n) :: r =>
    let t := enterNs r
    if (n.lba = 512 || n.lba = 4096) && n.metadata = 0 then ({ ctrl := c, nsid := n.nsid, lba := n.lba, cap := n.cap } :: t.1, t.2)
    else (t.1, true)

/-- Enumeration ends. `found` lists the NVMe controllers in the order of the walk, `excess` tells of other functions
left disabled, and `links` is the mask of links that are up. -/
def State.enumeration (s : State) (found : List FoundCtrl) (excess : Bool) (links : Nat) : State :=
  if !s.intake.scanning || !s.domainOn domIntake then s
  else
    let cs := found.take 16
    let idx := (List.range cs.length).zip cs
    let ns := enterNs (idx.flatMap (fun e => if e.2.ok then e.2.nss.map (fun n => (e.1, n)) else []))
    let s := { s with intake := { s.intake with
      scanning := false, links := links, ns := ns.1.take 64,
      ctrls := idx.map (fun e => (e.1, { st := 2, queues := min 8 e.2.granted, link := e.2.link })) } }
    let s := idx.foldl (fun s e => if e.2.ok then s else s.ctrlFailed e.1) s
    let s := if excess || found.length > 16 then s.raise .intEvent 1 else s
    if ns.2 || ns.1.length > 64 then s.raise .intEvent 2 else s

/-! ### Jobs (Table 16.3, R439) -/

def parseJobRec (b : List Byte) : JobRec :=
  { op := fieldAt b 0 1, flags := fieldAt b 1 1, codec := fieldAt b 2 1, outfmt := fieldAt b 3 1, ns := fieldAt b 4 1,
    pcm := fieldAt b 5 1, offset := fieldAt b 6 2, slba := fieldAt b 8 8, length := fieldAt b 16 4,
    extents := fieldAt b 20 2, param := fieldAt b 24 4, outRate := fieldAt b 28 4, dst := fieldAt b 32 8,
    work := fieldAt b 40 8, dstLen := fieldAt b 48 4, workLen := fieldAt b 52 4, s := fieldAt b 56 2, d := fieldAt b 58 2,
    signal := fieldAt b 60 2 }

/-- The pair of CODEC and OUTFMT is one that Table 16.6 allows. -/
def mediaPairOk (j : JobRec) : Bool :=
  if j.op = 1 then j.codec == 0 && j.outfmt == 0
  else if isAudio j.codec then j.outfmt == 0x10 || j.outfmt == 0x11
  else (j.codec == 0x10 || isVideo j.codec) && decide (1 ≤ j.outfmt) && decide (j.outfmt ≤ 3)

/-- A video job and a progressive JPEG need a work area; a JPEG job that gives one must give a good one. -/
def needsWork (j : JobRec) : Bool := j.op == 2 && (isVideo j.codec || (j.codec == 0x10 && decide (j.workLen ≠ 0)))

/-- The form of a job apart from what its namespace decides. -/
def formOk (b : List Byte) (j : JobRec) : Bool :=
  (j.op == 1 || j.op == 2) && decide (j.flags < 32) && zeroAt b 22 2 && zeroAt b 62 2 && mediaPairOk j
    && decide (1 ≤ j.length) && decide (j.extents ≤ 4096) && decide (j.dst % 64 = 0) && decide (j.work % granule = 0)
    && (isVideo j.codec || j.codec == 0x30 || j.param == 0)
    && (j.codec != 0x30 || (decide (1 ≤ bits j.pcm 7 4) && decide (bits j.pcm 7 4 ≤ 4)))

/-- A range lies in a Crest or Slope window of the partition and in one HELD holding (R439). -/
def State.fastHeld (s : State) (p a len acc : Nat) : Bool :=
  decide (a < slopeBase 8) && s.windowOk p a len acc && (match s.decode a len with | .ok _ => true | .error _ => false)
    && (match s.holdAt a len with | some (_, h) => h.owner == p && h.state == 1 | none => false)

/-- The extents of a job as (SLBA, count). -/
def State.extentsOf (s : State) (j : JobRec) (lba : Nat) : List (Nat × Nat) :=
  if j.extents = 0 then [(j.slba, ceilDiv (j.offset + j.length) lba)]
  else (List.range j.extents).map (fun i => (s.rdNat (j.slba + 16 * i) 8, s.rdNat (j.slba + 16 * i + 8) 4))

/-- The entries of an extent list keep Table 16.3. -/
def State.extentsOk (s : State) (j : JobRec) : Bool :=
  (List.range j.extents).all (fun i =>
    let n := s.rdNat (j.slba + 16 * i + 8) 4
    decide (1 ≤ n) && decide (n ≤ 65536) && s.rdNat (j.slba + 16 * i + 12) 4 == 0)

/-- The checks of R439 in order: what the form, the namespace, the extents and the capacity give. -/
def State.jobCheck (s : State) (p : Nat) (b : List Byte) (j : JobRec) : Except Nat NsEntry :=
  if !formOk b j then .error 0x0901
  else if j.op = 2 && !s.domainOn domMedia then .error 0x0901
  else if !s.fastHeld p j.dst (max 1 (j.dstLen * granule)) 2 then .error 0x0901
  else if j.extents ≠ 0 && !(s.fastHeld p j.slba (16 * j.extents) 1 && s.extentsOk j) then .error 0x0901
  else if needsWork j && !(decide (slopeBase 0 ≤ j.work) && s.fastHeld p j.work (max 1 (j.workLen * granule)) 3) then
    .error 0x0901
  else
    match s.nsAt j.ns with
    | none => .error 0x0902
    | some n =>
      if !bit n.owner p then .error 0x0902
      else
        let es := s.extentsOf j n.lba
        if j.offset ≥ n.lba || (es.map (·.2)).sum * n.lba < j.offset + j.length then .error 0x0901
        else if es.any (fun e => decide (e.1 + e.2 > n.cap)) then .error 0x0903
        else .ok n

/-- Cut an extent into Reads of at most 65,536 LBAs. -/
def cutReads : Nat → Nat → Nat → List NvmeRead
  | 0, _, _ => []
  | fuel + 1, lba, n =>
    if n = 0 then []
    else { lba := lba, count := min n 65536 } :: cutReads fuel (lba + min n 65536) (n - min n 65536)

/-! ### The end of a job (R438, R451) -/

/-- The bytes read without a gap from the start of the stream. -/
def streamSoFar (rec_ : JobRec) : List NvmeRead → List Byte
  | rs => (((rs.takeWhile (fun r => decide (r.st = .done))).flatMap (·.data)).drop rec_.offset).take rec_.length

def State.rsCoef (s : State) (k : Nat) : Nat := s.rnat .intRsCoef k

/-- The output of job `j` from `stream`. -/
def State.outputOf (s : State) (j : IJob) (stream : List Byte) (d : Decoded) : JobOut :=
  jobOutput s.rsCoef ((List.range 9).map (fun c => signed 32 (s.rnat .intCscM j.part c)))
    ((List.range 3).map (fun c => signed 32 (s.rnat .intCscO j.part c))) j.rec_ stream d

/-- Samples per channel of an audio output. -/
def State.outSamples (s : State) (j : IJob) (d : Decoded) : Nat :=
  if isAudio j.rec_.codec then ((audioOut s.rsCoef j.rec_ d).headD #[]).size else 0

/-- The result record (Table 16.4). -/
def resultBytes (j : JobRec) (code : Nat) (d : Decoded) (o : JobOut) (fault drive : Nat) : List Byte :=
  let audio := isAudio j.codec
  let pic := j.op == 2 && !audio
  leBytes 2 code ++ leBytes 1 (if pic then d.chroma else 0) ++ leBytes 1 (if j.op = 2 then d.depth else 0)
    ++ leBytes 4 (if audio then d.channels else if pic then d.width else 0)
    ++ leBytes 4 (if audio then (if j.outRate = 0 then d.rate else j.outRate) else if pic then d.height else 0)
    ++ leBytes 4 o.units ++ leBytes 8 o.bytes ++ leBytes 4 fault ++ leBytes 4 drive

/-- DONE additions follow ring order (R438). -/
def State.addDone (s : State) (p : Nat) : Nat → State
  | 0 => s
  | fuel + 1 =>
    let k := NMap.getD s.intake.done p 0
    if s.intake.ended.contains (p, k) then
      let s := { s with intake := { s.intake with
        ended := s.intake.ended.filter (fun e => decide (e ≠ (p, k))), done := NMap.put s.intake.done p (k + 1) } }
      State.addDone (s.hwAdd p (bits (s.rnat .intRingCairns p) 31 16) 1) p fuel
    else s

/-- Write the result record of job `num` where the partition may write it, and make the additions. -/
def State.jobResult (s : State) (p num : Nat) (j : JobRec) (code : Nat) (bytes : List Byte) : State :=
  let len := max 1 (s.rnat .intRingLen p)
  let a := s.rnat .intResultBase p + 32 * (num % len)
  let s := match s.rangeCheck p a 32 2 with | .ok _ => s.wr a bytes | .error _ => s
  let s := { s with intake := { s.intake with ended := s.intake.ended ++ [(p, num)] } }
  let s := s.addDone p 65536
  if code = 0 then (if bit j.flags 0 then s.hwAdd p j.signal 1 else s)
  else s.errCairn (some p) (s.rnat .intRingCairns p / 2 ^ 32)

/-- Count the end of a job by its code; a code that the cadence or the loader ends work with has been issued there. -/
def State.countJob (s : State) (p ns code : Nat) : State :=
  let s := if code = 0x0D04 || code = 0x0D08 || code = 0x0B0C then s else s.issue code { part := p, ns := ns }
  if code = 0 then s.count .intJobs
  else if 0x0904 ≤ code && code ≤ 0x0908 then s.count .intDriveErrs
  else if code = 0x090A || code = 0x090D then s.count .intCorrupt
  else s

/-- Retries of the Reads of a job that ends are observed (Table 21.4). -/
def State.observeReads (s : State) (j : IJob) : State :=
  (j.reads.filter (fun r => decide (r.tries ≠ 0 ∧ r.st ≠ .done))).foldl (fun s r => s.observe 2 (min 31 r.tries)) s

/-- A job in flight ends with `code`, its output being what `d` makes of `stream`; nothing is written when the space
falls short. -/
def State.endJob (s : State) (j : IJob) (code : Nat) (d : Decoded) (stream : List Byte) (fault drive : Nat) : State :=
  let o : JobOut := if code = 0x090B || code = 0x0909 || stream.isEmpty || !spaceOk j.rec_ d (s.outSamples j d) then {} else s.outputOf j stream d
  let s := o.writes.foldl (fun s w => s.wr (j.rec_.dst + w.1) w.2) s
  let s := (s.observeReads j).dropJob j.part j.num
  let s := (s.countJob j.part j.rec_.ns code).jobResult j.part j.num j.rec_ code (resultBytes j.rec_ code d o fault drive)
  s.holdEnd (intakeItem j.part j.num)

/-- What the decoder has made of the bytes read so far. -/
def soFar (j : IJob) : List Byte × Decoded :=
  let st := if j.stage = .run then streamSoFar j.rec_ j.reads else []
  (st, if st.isEmpty then {} else decodeJob j.rec_ st)

/-- Lateness: counted, recorded, and in STALL mode HOLD_N is driven; in ERROR mode the job ends with 0x0D02 (R440). -/
def State.lateJob (s : State) (j : IJob) : State :=
  let stall := s.ringStall j.part
  let s := s.late (intakeItem j.part j.num) 0 (some j.part) stall 0x0D02 s.phaseInt
  if stall then s.modJob j.part j.num (fun x => { x with late := true })
  else let f := soFar j; s.endJob j 0x0D02 f.2 f.1 0xFFFFFFFF 0

/-- D has been reached and lateness has not been taken. -/
def State.jobDue (s : State) (j : IJob) : Bool :=
  match j.deadline with
  | some d => !j.late && decide (s.stepPhase ≥ d)
  | none => false

/-- DEADLINE_REACHED for a job. -/
def State.intakeDeadline (s : State) (p num : Nat) : State :=
  match s.job? p num with
  | some j => if s.jobDue j then s.lateJob j else s
  | none => s

/-- A failure ends a job. Lateness of the same clk comes first (R452): in ERROR mode the job ends with 0x0D02 and the
failure is counted. -/
def State.failJob (s : State) (p num code fault drive : Nat) : State :=
  match s.job? p num with
  | none => s
  | some j =>
    let due := s.jobDue j
    let s := if due then s.lateJob j else s
    match s.job? p num with
    | none => s.issue code { part := p, ns := j.rec_.ns }
    | some j => let f := soFar j; s.endJob j code f.2 f.1 fault drive

/-- DRIVE of Table 16.4. -/
def driveWord (ns sct sc : Nat) : Nat := ns * 2 ^ 24 + sct * 256 + sc

/-! ### Reads (R450) -/

/-- Outstanding commands of queue `q` of controller `c`. -/
def State.queueLoad (s : State) (c q : Nat) : Nat :=
  (s.intake.jobs.map (fun j => if j.ctrl = c then (j.reads.filter (fun r => decide (r.st = .outstanding ∧ r.queue = q))).length else 0)).sum

/-- The queue with the fewest outstanding commands, the lowest on ties. -/
def State.bestQueue (s : State) (c : Nat) : Nat → Nat
  | 0 => 0
  | n + 1 => let b := State.bestQueue s c n; if n ≠ 0 && s.queueLoad c n < s.queueLoad c b then n else b

def setAt {α : Type} (xs : List α) (i : Nat) (f : α → α) : List α :=
  (List.range xs.length).zip xs |>.map (fun e => if e.1 = i then f e.2 else e.2)

/-- Issue the next Reads of a job in stream order while fewer than 32 are in flight; a FAILED controller ends the job. -/
def State.issueReads (s : State) (p num : Nat) : Nat → State
  | 0 => s
  | fuel + 1 =>
    match s.job? p num with
    | none => s
    | some j =>
      match j.reads.findIdx? (fun r => decide (r.st = .unissued)) with
      | none => s
      | some i =>
        let c := s.ctrl j.ctrl
        if j.stage ≠ .run || (j.reads.filter (fun r => decide (r.st = .outstanding))).length ≥ 32 then s
        else if c.st = 4 then s.failJob p num 0x0908 0xFFFFFFFF 0
        else if c.st ≠ 2 then s
        else
          let q := s.bestQueue j.ctrl c.queues
          State.issueReads (s.modJob p num (fun j => { j with
            reads := setAt j.reads i (fun r => { r with st := .outstanding, queue := q }) })) p num fuel

def State.issueAll (s : State) : State :=
  (s.intake.jobs.map (fun j => (j.part, j.num))).foldl (fun s e => s.issueReads e.1 e.2 64) s

/-- A Read fails. In STALL mode a retryable failure waits for its gap while attempts are left (R450). -/
def State.readFailed (s : State) (p num i code : Nat) (retryable : Bool) (drive : Nat) : State :=
  match s.job? p num with
  | none => s
  | some j =>
    let r := j.reads.getD i { lba := 0, count := 0 }
    if s.ringStall p && retryable && r.tries < bits (s.rnat .intRetry) 23 16 then
      s.modJob p num (fun j => { j with reads := setAt j.reads i (fun r => { r with st := .gap }) })
    else s.failJob p num code 0xFFFFFFFF drive

/-- Every outstanding Read of a controller fails with `code`. -/
def State.failOutstanding (s : State) (c code : Nat) : State :=
  let xs := s.intake.jobs.flatMap (fun j =>
    if j.ctrl = c then ((List.range j.reads.length).zip j.reads).filterMap (fun e =>
      if e.2.st = .outstanding then some (j.part, j.num, e.1) else none) else [])
  xs.foldl (fun s e =>
    match s.job? e.1 e.2.1 with
    | some j => if (j.reads.getD e.2.2 { lba := 0, count := 0 }).st = .outstanding then s.readFailed e.1 e.2.1 e.2.2 code true 0 else s
    | none => s) s

/-- A READY controller goes to RESETTING (Table 16.2). -/
def State.resetCtrl (s : State) (c code : Nat) : State :=
  if (s.ctrl c).st ≠ 2 then s else (s.setCtrl c { s.ctrl c with st := 3, tmo := 0 }).failOutstanding c code

def State.ctrlFatal (s : State) (c : Nat) : State := s.resetCtrl c 0x0906

/-- A link goes down: its READY controllers reset. -/
def State.intakeLinkDown (s : State) (l : Nat) : State :=
  if !bit s.intake.links l then s
  else
    let s := { s with intake := { s.intake with links := s.intake.links - 2 ^ l } }.raise .intEvent 0
    (s.intake.ctrls.map (·.1)).foldl (fun s c => if (s.ctrl c).link = l then s.resetCtrl c 0x0907 else s) s

/-- A RESETTING controller becomes READY, or FAILED; jobs with commands left for a FAILED one end. -/
def State.ctrlResetEnd (s : State) (c : Nat) (ok : Bool) : State :=
  if (s.ctrl c).st ≠ 3 then s
  else if ok then
    let s := s.setCtrl c { s.ctrl c with st := 2 }
    let l := (s.ctrl c).link
    let s := if bit s.intake.links l then s else { s with intake := { s.intake with links := s.intake.links + 2 ^ l } }
    (s.raise .intEvent 4).issueAll
  else (s.ctrlFailed c).issueAll

/-- Code of an NVMe status other than success (Table 16.8). -/
def nvmeCode (sct sc : Nat) : Nat := if sct = 2 && 0x80 ≤ sc && sc ≤ 0x87 then 0x0905 else 0x0904

/-- The header shows the stream to be unsupported, or the space to be short (R442, R447). -/
def State.headerCheck (s : State) (p num : Nat) : State :=
  match s.job? p num with
  | none => s
  | some j =>
    let f := soFar j
    if j.rec_.op = 1 || f.1.isEmpty then s
    else
      match f.2.unsupported with
      | some o => s.failJob p num 0x0909 o 0
      | none => if spaceOk j.rec_ f.2 (s.outSamples j f.2) then s else s.failJob p num 0x090B 0xFFFFFFFF 0

/-- A completion queue entry of Read `i` arrives: status SCT and SC, DNR, and the data. -/
def State.nvmeCompletion (s : State) (p num i sct sc : Nat) (dnr : Bool) (data : List Byte) : State :=
  match s.job? p num with
  | none => s
  | some j =>
    match j.reads[i]? with
    | none => s
    | some r =>
      if r.st ≠ .outstanding then s
      else
        let s := s.setCtrl j.ctrl { s.ctrl j.ctrl with tmo := 0 }
        if sct = 0 && sc = 0 then
          let n := r.count * ((s.nsAt j.rec_.ns).map (·.lba)).getD 512
          let s := s.count .intReadBytes n
          let s := if r.tries = 0 then s else s.observe 2 (min 31 r.tries)
          let s := s.modJob p num (fun j => { j with reads := setAt j.reads i (fun r => { r with st := .done, data := slice data 0 n }) })
          (s.headerCheck p num).issueReads p num 64
        else
          let w := driveWord j.rec_.ns sct sc
          let s := s.logAdd (hwEntry 10 (nvmeCode sct sc) p 5 j.rec_.ns 0 w)
          (s.readFailed p num i (nvmeCode sct sc) (!dnr) w).issueReads p num 64

/-- No completion within INT_CMD_TIMEOUT; enough consecutive timeouts reset the controller. -/
def State.nvmeTimeout (s : State) (p num i : Nat) : State :=
  match s.job? p num with
  | none => s
  | some j =>
    if (j.reads.getD i { lba := 0, count := 0 }).st ≠ .outstanding then s
    else
      let c := s.ctrl j.ctrl
      let s := s.setCtrl j.ctrl { c with tmo := c.tmo + 1 }
      let s := s.readFailed p num i 0x0906 true 0
      if c.tmo + 1 ≥ s.rnat .intTmoLimit then s.resetCtrl j.ctrl 0x0906 else s.issueReads p num 64

/-- INTAKE_RETRY: a failed Read is reissued. -/
def State.intakeRetry (s : State) (p num i : Nat) : State :=
  match s.job? p num with
  | none => s
  | some j =>
    if (j.reads.getD i { lba := 0, count := 0 }).st ≠ .gap then s
    else
      let s := (s.count .intRetries).tally1 0x1010
      (s.modJob p num (fun j => { j with
        reads := setAt j.reads i (fun r => { r with st := .unissued, tries := r.tries + 1 }) })).issueReads p num 64

/-! ### Taking and starting jobs (R437, R440, R448) -/

/-- Engine kind of a job: 0 none, 1 video, 2 JPEG, 3 audio. -/
def engineKind (j : JobRec) : Nat :=
  if j.op = 1 then 0 else if isVideo j.codec then 1 else if isAudio j.codec then 3 else 2

def engines (kind : Nat) : Nat := match kind with | 1 => 8 | 2 => 4 | 3 => 2 | _ => 0

def State.engineFree (s : State) (kind : Nat) : Bool :=
  kind == 0 || decide ((s.intake.jobs.filter (fun j => decide (engineKind j.rec_ = kind ∧ j.stage = .run))).length < engines kind)

def State.runJob (s : State) (p num : Nat) : State :=
  (s.modJob p num (fun j => { j with stage := .run })).issueReads p num 64

/-- The start phase has been reached: the job runs, or waits for an engine of its kind. -/
def State.intakeStart (s : State) (p num : Nat) : State :=
  match s.job? p num with
  | some j =>
    if j.stage ≠ .start || s.heldByCommit (some p) j.startAt then s
    else if s.engineFree (engineKind j.rec_) then s.runJob p num
    else s.modJob p num (fun j => { j with stage := .engine })
  | none => s

/-- A free engine takes the waiting job of its kind that was taken first. -/
def State.engineStart (s : State) (kind : Nat) : State :=
  if !s.engineFree kind then s
  else
    let w := s.intake.jobs.filter (fun j => decide (j.stage = .engine ∧ engineKind j.rec_ = kind))
    match w.find? (fun j => w.all (fun k => decide (j.order ≤ k.order))) with
    | some j => s.runJob j.part j.num
    | none => s

/-- A job that ends at its taking. -/
def State.badJob (s : State) (p num : Nat) (j : JobRec) (code : Nat) : State :=
  (s.countJob p j.ns code).jobResult p num j code (resultBytes j code {} {} 0xFFFFFFFF 0)

/-- The ring can take its next job (R437). -/
def State.canTake (s : State) (p : Nat) : Bool :=
  s.rbit .intRingCfg 0 p && s.domainOn domIntake && (s.part? p).isSome && decide (s.inFlight p < 16) &&
    (match s.localRef p (bits (s.rnat .intRingCairns p) 15 0) with
    | .ok i => holds (s.cairn i) (NMap.getD s.intake.taken p 0 + 1)
    | .error _ => false)

/-- JOB_TAKE. -/
def State.takeJob (s : State) (p : Nat) : State :=
  if !s.canTake p then s
  else
    let num := NMap.getD s.intake.taken p 0
    let s := { s with intake := { s.intake with taken := NMap.put s.intake.taken p (num + 1) } }
    let a := s.rnat .intRingBase p + 64 * (num % max 1 (s.rnat .intRingLen p))
    match s.rangeCheck p a 64 1 with
    | .error _ => s.badJob p num default 0x0901
    | .ok _ =>
      let b := s.rd a 64
      let j := parseJobRec b
      match s.jobCheck p b j with
      | .error code => s.badJob p num j code
      | .ok n =>
        if j.op = 1 && !spaceOk j {} 0 then s.badJob p num j 0x090B
        else
          let k := s.cad.step + b2n (bit j.flags 2)
          let phased := bit j.flags 1
          let x : IJob := {
            part := p, num := num, rec_ := j, ctrl := n.ctrl, order := s.intake.nextOrder,
            startAt := if phased then some (k * 65536 + j.s) else none,
            deadline := if phased then some ((k + (if j.d < j.s then 1 else 0)) * 65536 + j.d) else none,
            reads := (s.extentsOf j n.lba).flatMap (fun e => cutReads 65537 e.1 e.2) }
          let s := { s with intake := { s.intake with jobs := s.intake.jobs ++ [x], nextOrder := s.intake.nextOrder + 1 } }
          if !phased || s.stepPhase ≥ k * 65536 + j.s then s.intakeStart p num else s

/-- PHASE_POINT_REACHED for a job. -/
def State.intakePhase (s : State) (p num : Nat) : State :=
  match s.job? p num with
  | some j =>
    match j.startAt with
    | some v => if s.stepPhase ≥ v then s.intakeStart p num else s
    | none => s
  | none => s

/-! ### Ends reported by the decoder and the ring -/

/-- A decoder finds a stream fault, or an unsupported stream, in the bytes read (R442, R451). -/
def State.streamFault (s : State) (p num : Nat) : State :=
  match s.job? p num with
  | none => s
  | some j =>
    let f := soFar j
    if j.rec_.op = 1 || f.1.isEmpty then s
    else
      match f.2.unsupported, f.2.fault with
      | some o, _ => s.failJob p num 0x0909 o 0
      | none, some o => s.failJob p num 0x090A o 0
      | none, none => s

/-- A job whose stream has been read whole ends (R438, R447, R449). -/
def State.jobEnd (s : State) (p num : Nat) : State :=
  match s.job? p num with
  | none => s
  | some j =>
    if j.stage ≠ .run || j.reads.any (fun r => decide (r.st ≠ .done)) then s
    else
      let f := soFar j
      if j.rec_.op = 1 then s.endJob j 0 {} f.1 0xFFFFFFFF 0
      else
        match f.2.unsupported with
        | some o => s.failJob p num 0x0909 o 0
        | none =>
          if !spaceOk j.rec_ f.2 (s.outSamples j f.2) then s.failJob p num 0x090B 0xFFFFFFFF 0
          else
            match f.2.fault with
            | some o => s.failJob p num 0x090A o 0
            | none =>
              if j.rec_.codec = 0x31 && bit j.rec_.flags 4 && f.2.md5Bad then s.failJob p num 0x090D 0xFFFFFFFF 0
              else s.endJob j 0 f.2 f.1 0xFFFFFFFF 0

/-- ENABLE has been cleared: every job of the ring in flight ends, in ring order (R441). -/
def State.ringStopped (s : State) (p : Nat) : State :=
  ((s.intake.jobs.filter (fun j => j.part == p)).map (·.num)).foldl (fun s num => 
    match s.job? p num with
    | some j => let f := soFar j; s.endJob j 0x090C f.2 f.1 0xFFFFFFFF 0
    | none => s) s

/-- An Asynchronous Event Request completes (R433). -/
def State.asyncEvent (s : State) (c : Nat) : State :=
  if (s.ctrl c).st ≠ 2 then s else (s.raise .intEvent 5).logAdd (hwEntry 10 0 0xFF 5 c)

/-! ### Views -/

/-- Set bits of a mask. -/
def popcount (n w : Nat) : Nat := ((List.range w).filter (fun i => bit n i)).length

/-- INT_PORT_STATUS. -/
def State.portStatus (s : State) : Nat :=
  popcount s.intake.links 4 * 65536 + (s.intake.ctrls.filter (fun e => e.2.st == 2)).length * 256 + s.intake.ns.length

/-- INT_CTRL_STATE. -/
def State.ctrlStates (s : State) : Nat := ((List.range 16).map (fun c => (s.ctrl c).st * 16 ^ c)).sum

/-- INT_NS_INFO of namespace `n`. -/
def State.nsInfo (s : State) (n : Nat) : Nat :=
  match s.nsAt n with
  | some e => 2 ^ 63 + e.ctrl * 2 ^ 59 + b2n (e.lba == 4096) * 2 ^ 58 + e.nsid
  | none => 0

/-- The owner mask of namespace `n` is written. -/
def State.nsOwnerSet (s : State) (n mask : Nat) : State :=
  { s with intake := { s.intake with ns := setAt s.intake.ns n (fun e => { e with owner := mask }) } }

end Sys2Proof.Machine
end

