-- ==== Sys2Proof/Machine/Align.lean ====
section
/-! DEFINITION. The stream alignment unit: group records, ticks, time and space alignment, refinement (R453 to R464). -/
namespace Sys2Proof.Machine

def State.group (s : State) (g : Nat) : Group := NMap.getD s.aln.groups g {}
def State.setGroup (s : State) (g : Nat) (x : Group) : State :=
  { s with aln := { s.aln with groups := NMap.put s.aln.groups g x } }

def AlnStream.video (x : AlnStream) : Bool := x.kind == 1 || x.kind == 2

/-- FRAME_BYTES of a source frame (R444). -/
def AlnStream.frame (x : AlnStream) : Nat :=
  if x.kind = 1 then alignUp (alignUp (3 * x.width) 64 * x.height) 4096
  else alignUp (3 * (alignUp (2 * x.width) 64 * x.height)) 4096

/-- Bytes of the source ring. -/
def AlnStream.ringBytes (x : AlnStream) : Nat :=
  if x.video then x.retain * x.frame else x.retain * 4 * x.channels

/-- Bytes that a stream takes in a slot (R455). -/
def Group.partBytes (x : Group) (t : AlnStream) : Nat :=
  if t.video then alignUp (3 * (alignUp (2 * x.cw) 64 * x.ch)) 4096 else alignUp (x.audioN * t.channels * 4) 4096

def Group.slotBytes (x : Group) : Nat := alignUp ((x.streams.map x.partBytes).sum) granule

/-! ### START (R453) -/

/-- A stream record with its tables as they lie in memory. -/
def State.alnStream (s : State) (a : Nat) : AlnStream :=
  let b := s.rd a 64
  let ga := fieldAt b 40 8
  let oa := fieldAt b 48 8
  { kind := fieldAt b 0 1, channels := fieldAt b 1 1, width := fieldAt b 4 2, height := fieldAt b 6 2,
    firstPts := signed 64 (fieldAt b 8 8), period := fieldAt b 16 4, ready := fieldAt b 20 2, src := fieldAt b 24 8,
    retain := fieldAt b 32 4,
    offsets := (List.range (min 256 (fieldAt b 56 2))).map (fun i =>
      (signed 64 (s.rdNat (oa + 16 * i) 8), signed 64 (s.rdNat (oa + 16 * i + 8) 8))),
    geom := if fieldAt b 0 1 = 3 then [] else (List.range 76).map (fun i => s.rdNat (ga + 4 * i) 4) }

/-- The group that a record describes. -/
def State.alnRecord (s : State) (g a : Nat) : Group :=
  let b := s.rd a 64
  let n := min 16 (fieldAt b 0 1)
  { st := 1, part := bits (s.rnat .alnGCfg g) 2 0, refine_ := fieldAt b 1 1 == 1, ref := fieldAt b 2 1, cw := fieldAt b 4 2,
    ch := fieldAt b 6 2, t0 := signed 64 (fieldAt b 8 8), period := fieldAt b 16 4, rate := fieldAt b 20 4,
    audioN := fieldAt b 24 4, frames := fieldAt b 28 2, step := fieldAt b 30 2, out := fieldAt b 32 8, slots := fieldAt b 40 4,
    drift := fieldAt b 44 4, streams := (List.range n).map (fun i => s.alnStream (a + 64 + 64 * i)),
    shifts := List.replicate n (0, 0) }


/-- The header keeps Table 17.1. -/
def headerOk (b : List Byte) (x : Group) : Bool :=
  let audio := x.streams.any (fun t => t.kind == 3)
  let refine := fieldAt b 1 1 == 1
  inRange (fieldAt b 0 1) 1 16 && decide (fieldAt b 1 1 ≤ 1) && zeroAt b 3 1 && zeroAt b 48 12
    && inRange x.cw 16 8192 && inRange x.ch 16 8192 && inRange x.period 1000 1000000000
    && (if audio then inRange x.rate 8000 192000 && inRange x.audioN 1 65536 else x.rate == 0 && x.audioN == 0)
    && (if refine then inRange x.frames 1 65535 && ((x.streams[x.ref]?).map AlnStream.video).getD false
        else x.frames == 0 && x.ref == 0)
    && inRange x.step 1 64 && decide (x.out % granule = 0) && inRange x.slots 1 1024 && decide (x.drift ≤ 32767)

/-- A stream record keeps Table 17.2. -/
def streamOk (b : List Byte) (t : AlnStream) : Bool :=
  inRange t.kind 1 3 && zeroAt b 2 2 && zeroAt b 22 2 && zeroAt b 36 4 && zeroAt b 58 6
    && (if t.video then t.channels == 0 && inRange t.width 16 16384 && inRange t.height 16 16384 && decide (1 ≤ t.period)
          && decide (fieldAt b 40 8 % 64 = 0)
        else inRange t.channels 1 16 && t.width == 0 && t.height == 0 && t.period == 0 && fieldAt b 40 8 == 0)
    && decide (t.src % 64 = 0) && decide (1 ≤ t.retain) && decide (fieldAt b 48 8 % 16 = 0) && inRange (fieldAt b 56 2) 1 256

def risingInts : List Int → Bool
  | a :: b :: r => decide (a < b) && risingInts (b :: r)
  | _ => true

/-- Every value of a geometry table is finite and RINV is above 0. -/
def geomOk (t : AlnStream) : Bool :=
  !t.video || (t.geom.all f32Finite && f32Lt 0 (t.geom.getD 11 0))

/-- The ranges of a stream lie where R453 wants them. -/
def State.streamRanges (s : State) (p : Nat) (b : List Byte) (t : AlnStream) : Bool :=
  s.fastHeld p t.src t.ringBytes 1 && s.fastHeld p (fieldAt b 48 8) (16 * fieldAt b 56 2) 1
    && (!t.video || s.fastHeld p (fieldAt b 40 8) 304 1)

/-- A reference that is added to keeps R277. -/
def State.addRefOk (s : State) (p ref : Nat) : Bool :=
  if bit ref 15 then
    let r := s.rnat .crnRemote (bits ref 9 0)
    bits ref 14 10 == 0 && bit r 31 && bits r 30 28 == p && bit s.members (bits r 24 19)
  else match s.localRef p ref with | .ok _ => true | .error _ => false

def State.waitRefOk (s : State) (p ref : Nat) : Bool := match s.waitRef p ref with | .ok _ => true | .error _ => false

/-- The cairn references of a group. -/
def State.alnRefs (s : State) (g : Nat) (x : Group) : Bool :=
  let c := s.rnat .alnGCairns g
  s.waitRefOk x.part (bits c 15 0) && s.addRefOk x.part (bits c 31 16) && (!bit c 48 || s.addRefOk x.part (bits c 47 32))
    && x.streams.all (fun t => s.waitRefOk x.part t.ready)

/-- START finds nothing to refuse with 0x0E01. -/
def State.groupOk (s : State) (g : Nat) : Bool :=
  let a := s.rnat .alnGAddr g
  let x := s.alnRecord g a
  let b := s.rd a 64
  let n := fieldAt b 0 1
  let all := s.rd a (64 + 64 * n)
  s.fastHeld x.part a 64 1 && inRange n 1 16 && s.fastHeld x.part a (64 + 64 * n) 1
    && fieldAt b 60 4 == crc32c (all.take 60 ++ all.drop 64)
    && headerOk b x
    && ((List.range n).zip x.streams).all (fun e =>
      let sb := slice all (64 + 64 * e.1) 64
      streamOk sb e.2 && s.streamRanges x.part sb e.2 && risingInts (e.2.offsets.map (·.1)) && geomOk e.2)
    && s.fastHeld x.part x.out (x.slots * x.slotBytes) 2 && s.alnRefs g x

/-- START through a function that may start the group, or through another (R453). -/
def State.alnStart (s : State) (g : Nat) (allowed : Bool) : State :=
  if (s.group g).st = 1 || !s.domainOn domAlign then s
  else if !allowed then s.issue 0x0E02 { unit := g }
  else if !s.groupOk g then (s.raise .alnEvent 0).issue 0x0E01 { unit := g }
  else s.setGroup g (s.alnRecord g (s.rnat .alnGAddr g))

/-- STOP: at once between ticks, else at the end of the tick in progress (R457). -/
def State.alnStop (s : State) (g : Nat) : State :=
  let x := s.group g
  if x.st ≠ 1 then s
  else if x.ready.isNone then s.setGroup g { x with st := 0 }
  else s.setGroup g { x with stopping := true }

/-! ### Time alignment (R458 to R460) -/

/-- Event time of the tick in progress. -/
def Group.time (x : Group) : Int := x.t0 + (x.tick : Int) * (x.period : Int)

/-- OFFSET in force at `t`. -/
def offsetAt (es : List (Int × Int)) (t : Int) : Int :=
  ((es.filter (fun e => decide (e.1 ≤ t))).getLast?.getD (es.headD (0, 0))).2

/-- Local time of a stream. -/
def AlnStream.local_ (x : AlnStream) (t : Int) : Int := t - offsetAt x.offsets t - x.firstPts

/-- The frame that a video stream contributes, if any, and whether it is the wanted one (R459). -/
def AlnStream.pick (x : AlnStream) (t : Int) (r : Nat) : Option Nat × Bool :=
  let n := (max 0 (x.local_ t / (max 1 x.period : Nat))).toNat
  if r = 0 then (none, false)
  else if n ≥ r then (some (r - 1), false)
  else if (n : Int) < (r : Int) - x.retain then (some (r - x.retain), false)
  else (some n, true)

/-- The first sample that an audio stream contributes, and whether it is the wanted one (R460). -/
def AlnStream.pickAudio (x : AlnStream) (t : Int) (rate n r : Nat) : Int × Bool :=
  let j := x.local_ t * rate / 1000000000
  if j + n > (r : Int) then ((r : Int) - n, false)
  else if j < (r : Int) - x.retain then ((r : Int) - x.retain, false)
  else (j, true)

/-! ### Space alignment (R461) -/

/-- Floor of a finite FP32 value. -/
def f32FloorInt (p : Nat) : Option Int :=
  match f32v p with
  | .fin neg m e =>
    let v : Int := if neg then -(m : Int) else (m : Int)
    some (if e ≥ 0 then v * (2 ^ e.toNat : Nat) else v / (2 ^ (-e).toNat : Nat))
  | _ => none

/-- A whole number as FP32. -/
def f32OfInt (v : Int) : Nat := (fFP32.round {} (decide (v < 0)) v.natAbs 0).v

/-- Sample of plane `c` at (i, j) of the frame at address `a`, as FP32. -/
def State.srcSample (s : State) (x : AlnStream) (a c : Nat) (i j : Int) : Nat :=
  if i < 0 || j < 0 || i ≥ x.width || j ≥ x.height then 0
  else if x.kind = 1 then
    f32Div (f32OfNat (s.rdNat (a + j.toNat * alignUp (3 * x.width) 64 + 3 * i.toNat + c) 1)) (f32OfNat 255)
  else
    let pitch := alignUp (2 * x.width) 64
    s.rdNat (a + c * pitch * x.height + j.toNat * pitch + 2 * i.toNat) 2 * 65536

/-- The radial curve. -/
def alnCurve (cs : List Nat) (q : Nat) : Nat :=
  if (f32v q).isNan || !f32Lt q 0x40000000 then cs.getD 63 0
  else
    let e := f32Mul q 0x41FC0000
    let m := min ((f32FloorInt e).getD 0).toNat 62
    let f := f32Sub e (f32OfNat m)
    f32Add (cs.getD m 0) (f32Mul (f32Sub (cs.getD (m + 1) 0) (cs.getD m 0)) f)

/-- A shift in 1/16 pixel as FP32. -/
def shiftF32 (v : Int) : Nat := (fFP32.round {} (decide (v < 0)) v.natAbs (-4)).v

/-- The output sample of plane `c` at canvas point (px, py), as BF16. -/
def State.alnSample (s : State) (x : AlnStream) (frame : Option Nat) (c px py : Nat) (sh : Int × Int) : Nat :=
  match frame with
  | none => 0
  | some n =>
    let a := x.src + n % max 1 x.retain * x.frame
    let h (k : Nat) : Nat := x.geom.getD k 0
    let half := 0x3F000000
    let xf := f32Add (f32OfNat px) half
    let yf := f32Add (f32OfNat py) half
    let row (k : Nat) : Nat := f32Add (f32Add (f32Mul (h k) xf) (f32Mul (h (k + 1)) yf)) (h (k + 2))
    let w := row 6
    let u := f32Add (f32Div (row 0) w) (shiftF32 sh.1)
    let v := f32Add (f32Div (row 3) w) (shiftF32 sh.2)
    if !(f32Lt 0 w) || !f32Finite u || !f32Finite v then 0
    else
      let du := f32Sub u (h 9)
      let dv := f32Sub v (h 10)
      let ru := f32Mul du (h 11)
      let rv := f32Mul dv (h 11)
      let k := alnCurve (x.geom.drop 12) (f32Add (f32Mul ru ru) (f32Mul rv rv))
      let pu := f32Sub (f32Add (h 9) (f32Mul du k)) half
      let pv := f32Sub (f32Add (h 10) (f32Mul dv k)) half
      let i := f32FloorInt pu
      let j := f32FloorInt pv
      let fu := f32Sub pu ((i.map f32OfInt).getD pu)
      let fv := f32Sub pv ((j.map f32OfInt).getD pv)
      let gu := f32Sub f32One fu
      let gv := f32Sub f32One fv
      let p (di dj : Int) : Nat :=
        match i, j with
        | some i, some j => s.srcSample x a c (i + di) (j + dj)
        | _, _ => 0
      let out := f32Add (f32Mul (f32Add (f32Mul (p 0 0) gu) (f32Mul (p 1 0) fu)) gv)
        (f32Mul (f32Add (f32Mul (p 0 1) gu) (f32Mul (p 1 1) fu)) fv)
      (outRound 4 {} false (f32v out)).v

/-! ### Ticks (R454, R455) -/

/-- A tick stops the group (R464). -/
def State.alnStopped (s : State) (g code : Nat) : State :=
  let x := s.group g
  let s := (s.setGroup g { x with st := 2, ready := none, stopping := false }).raise .alnEvent 1
  (s.issue 0x0E03 { unit := g, trig := code }).errCairn (some x.part) (s.rnat .alnGCairns g / 2 ^ 32)

/-- TICK_START: GO holds and no tick is in progress; every READY cairn is sampled. -/
def State.tickStart (s : State) (g : Nat) : State :=
  let x := s.group g
  if x.st ≠ 1 || x.ready.isSome then s
  else
    match s.waitRef x.part (bits (s.rnat .alnGCairns g) 15 0) with
    | .error code => s.alnStopped g code
    | .ok i =>
      if !holds (s.cairn i) (x.tick + 1) then s
      else
        match x.streams.findSome? (fun t => match s.waitRef x.part t.ready with | .error c => some c | .ok _ => none) with
        | some code => s.alnStopped g code
        | none => s.setGroup g { x with ready := some (x.streams.map (fun t => s.cairn t.ready)) }

/-- Bytes of the part of stream `i`, with the offsets at which they lie in the part, and whether it was stale. -/
def State.alnPart (s : State) (x : Group) (i : Nat) (t : AlnStream) : List (Nat × List Byte) × Bool :=
  let r := (x.ready.getD []).getD i 0
  if t.video then
    let f := t.pick x.time r
    let sh := x.shifts.getD i (0, 0)
    let pitch := alignUp (2 * x.cw) 64
    ((List.range 3).flatMap (fun c => (List.range x.ch).map (fun y =>
      (c * pitch * x.ch + y * pitch, (List.range x.cw).flatMap (fun px => leBytes 2 (s.alnSample t f.1 c px y sh))))), !f.2)
  else
    let j := t.pickAudio x.time x.rate x.audioN r
    ([(0, (List.range x.audioN).flatMap (fun (k : Nat) =>
      let pos : Int := j.1 + (k : Int)
      if pos < 0 then List.replicate (4 * t.channels) 0
      else s.rd (t.src + pos.toNat % max 1 t.retain * 4 * t.channels) (4 * t.channels)))], !j.2)

/-- A stale contribution is counted (R459, R460). -/
def State.stale (s : State) (g : Nat) (b : Bool) : State :=
  if b then ((s.count .alnGStale 1 g).tally1 0x1011).raise .alnEvent 2 else s

/-- Offset of the part of stream `i` in a slot. -/
def Group.partAt (x : Group) (i : Nat) : Nat := ((x.streams.take i).map x.partBytes).sum

def Group.slotAddr (x : Group) : Nat := x.out + x.tick % max 1 x.slots * x.slotBytes

/-- Write the parts of the first `n` streams of the slot, all of them computed from memory as the tick finds it. -/
def State.writeSlot (s : State) (g n : Nat) : State :=
  let x := s.group g
  ((List.range (min n x.streams.length)).zip x.streams).foldl (fun s' e =>
    let r := s.alnPart x e.1 e.2
    r.1.foldl (fun s' w => s'.wr (x.slotAddr + x.partAt e.1 + w.1) w.2) (s'.stale g r.2)) s

/-- Access of a tick fails with `code` after the parts of `n` streams were written. -/
def State.accessFailed (s : State) (g code n : Nat) : State :=
  let x := s.group g
  if x.st ≠ 1 || x.ready.isNone then s else (s.writeSlot g n).alnStopped g code

/-- ACCESS_FAILED: an access of the tick at `a` fails once `n` parts of the slot are written. -/
def State.tickFailed (s : State) (g : Nat) (f : Fail) (a n : Nat) : State :=
  let x := s.group g
  if x.st ≠ 1 || x.ready.isNone then s
  else (if f = .uncorrectable then s.eccUncorrected a else s).accessFailed g f.code n

/-- The first range of the tick that fails, with the number of streams before it. -/
def State.tickCheck (s : State) (x : Group) : Option (Nat × Nat) :=
  match s.rangeCheck x.part x.slotAddr x.slotBytes 2 with
  | .error c => some (c, 0)
  | .ok _ => ((List.range x.streams.length).zip x.streams).findSome? (fun e =>
      match s.rangeCheck x.part e.2.src e.2.ringBytes 1 with
      | .error c => some (c, e.1)
      | .ok _ => none)

/-! ### Refinement (R462) -/

/-- Canvas points at which candidates are scored, in raster order. -/
def Group.points (x : Group) : List (Nat × Nat) :=
  ((List.range (ceilDiv x.ch 64)).flatMap (fun q => (List.range (ceilDiv x.cw 64)).map (fun p => (64 * p + 32, 64 * q + 32)))).filter
    (fun e => decide (e.1 < x.cw) && decide (e.2 < x.ch))

/-- Score of a candidate shift of a stream against the reference's samples. -/
def State.score (s : State) (x : Group) (t : AlnStream) (f : Option Nat) (refs : List Nat) (sh : Int × Int) : Nat :=
  (x.points.zip refs).foldl (fun acc e =>
    let v := s.alnSample t f 1 e.1.1 e.1.2 sh * 65536
    f32Add acc (f32Sub v e.2 % 2 ^ 31)) 0

/-- The nine candidates, (0, 0) first, then by row. -/
def shiftCandidates : List (Int × Int) := [(0, 0), (-1, -1), (0, -1), (1, -1), (-1, 0), (1, 0), (-1, 1), (0, 1), (1, 1)]

def clampTo (m : Nat) (v : Int) : Int := max (-(m : Int)) (min (m : Int) v)

/-- The new shift of a stream: the first candidate of least score. -/
def State.newShift (s : State) (x : Group) (t : AlnStream) (f : Option Nat) (refs : List Nat) (sh : Int × Int) : Int × Int :=
  let cs := shiftCandidates.map (fun c => (sh.1 + c.1 * x.step, sh.2 + c.2 * x.step))
  let sc := cs.map (fun c => (s.score x t f refs c, c))
  match sc with
  | [] => sh
  | a :: r => (r.foldl (fun b e => if f32Lt e.1 b.1 then e else b) a).2

/-- One refinement after the slot has been written. -/
def State.refine (s : State) (g : Nat) : State :=
  let x := s.group g
  if !x.refine_ || (x.tick + 1) % max 1 x.frames ≠ 0 then s
  else
    match x.streams[x.ref]? with
    | none => s
    | some rt =>
      let rf := rt.pick x.time ((x.ready.getD []).getD x.ref 0)
      if !rf.2 then s
      else
        let refs := x.points.map (fun e => s.alnSample rt rf.1 1 e.1 e.2 (x.shifts.getD x.ref (0, 0)) * 65536)
        let res := ((List.range x.streams.length).zip x.streams).map (fun e =>
          let old := x.shifts.getD e.1 (0, 0)
          let f := e.2.pick x.time ((x.ready.getD []).getD e.1 0)
          if e.1 = x.ref || !e.2.video || !f.2 then (old, false)
          else
            let n := s.newShift x e.2 f.1 refs old
            let c := (clampTo x.drift n.1, clampTo x.drift n.2)
            (c, decide (c ≠ n)))
        let s := (s.setGroup g { x with shifts := res.map (·.1) }).count .alnGRefines 1 g
        ((List.range res.length).zip res).foldl (fun s e =>
          if e.2.2 then (s.raise .alnEvent 3).logAdd (hwEntry 11 0 x.part 5 (g * 16 + e.1)) else s) s

/-- TICK_END: the slot is written, DONE is added to, and the group goes on or stops. -/
def State.tickEnd (s : State) (g : Nat) : State :=
  let x := s.group g
  if x.st ≠ 1 || x.ready.isNone then s
  else
    match s.tickCheck x with
    | some e => s.accessFailed g e.1 e.2
    | none =>
      let s := (s.writeSlot g x.streams.length).hwAdd x.part (bits (s.rnat .alnGCairns g) 31 16) 1
      let s := s.refine g
      let y := s.group g
      let s := s.setGroup g { y with tick := y.tick + 1, ready := none, st := if y.stopping then 0 else 1, stopping := false }
      { s with aln := { s.aln with ticks := NMap.put s.aln.ticks g (NMap.getD s.aln.ticks g 0 + 1) } }

/-- The stream alignment domain goes off (Table 17.3). -/
def State.alnOff (s : State) : State := { s with aln := {} }

/-- ALN_G_SHIFT for stream `i`. -/
def State.shiftView (s : State) (g i : Nat) : Nat :=
  let h := (s.group g).shifts.getD i (0, 0)
  unsignedOf 16 h.2 * 65536 + unsignedOf 16 h.1

end Sys2Proof.Machine
end

