-- ==== Sys2Proof/Machine/Training.lean ====
section
/-! DEFINITION. Training support: update units, jobs, the arithmetic of an update, moment codes, the step gate and the
loss-scale loop (R298 to R327). -/
namespace Sys2Proof.Machine

/-! ### Jobs (Table 11.1, R301) -/

def parseJob (b : List Byte) : Job := {
  op := fieldAt b 0 1, flags := fieldAt b 1 1, gfmt := fieldAt b 2 1, wfmt := fieldAt b 3 1, mfmt := fieldAt b 4 1,
  hset := fieldAt b 5 1, wscale := fieldAt b 6 1, count := fieldAt b 8 4, s := fieldAt b 12 2, d := fieldAt b 14 2,
  p := fieldAt b 16 8, g := fieldAt b 24 8, m := fieldAt b 32 8, v := fieldAt b 40 8, w := fieldAt b 48 8,
  waitRef := fieldAt b 56 2, signalRef := fieldAt b 58 2, waitTarget := fieldAt b 60 4 }

def Job.gated (j : Job) : Bool := bit j.flags 5
def Job.global (j : Job) : Bool := bit j.flags 4
def Job.phased (j : Job) : Bool := bit j.flags 3
/-- CLIP of ADAMW and MOMENTUM, FIRST of GACC. -/
def Job.clipFirst (j : Job) : Bool := bit j.flags 2
def Job.waits (j : Job) : Bool := bit j.flags 1
def Job.signals (j : Job) : Bool := bit j.flags 0
def Job.isGacc (j : Job) : Bool := j.op == 3

/-- Bytes of one gradient element. -/
def Job.gSize (j : Job) : Nat := if j.gfmt = 9 then 8 else fmtSize j.gfmt

/-- Bytes of a moment array (R314). -/
def momentBytes (mfmt count : Nat) : Nat := if mfmt = 5 then 4 * count else alignUp count 64 + ceilDiv count 64

/-- Ranges a job uses: (address, bytes, ACCESS bits). -/
def Job.ranges (j : Job) : List (Nat × Nat × Nat) :=
  if j.isGacc then [(j.g, j.gSize * j.count, 1), (j.m, 8 * j.count, 3)]
  else
    [(j.p, 4 * j.count, 3), (j.g, j.gSize * j.count, 1), (j.m, momentBytes j.mfmt j.count, 3)]
      ++ (if j.op = 1 then [(j.v, momentBytes j.mfmt j.count, 3)] else [])
      ++ (if j.wfmt = 0 then [] else [(j.w, fmtSize j.wfmt * j.count, 2)])

def f32Bad (v : Nat) : Bool := !f32Finite v || (bit v 31 && v % 2 ^ 31 != 0)

/-- Code map of a moment format: 256 FP32 entries (Table 11.2). -/
def State.codeMap (s : State) (p sub : Nat) : List Nat :=
  match s.img.body? 0x000A p (4 * 256 + sub) with
  | some b => (List.range 256).map (fun i => fieldAt b (16 + 4 * i) 4)
  | none => []

/-- The partition carries the moment format. -/
def State.momentFmt (s : State) (p f : Nat) : Option (Nat × Nat) :=
  match s.img.body? 0x0009 p f with
  | some b => if fieldAt b 0 1 = 2 then some (fieldAt b 2 1, fieldAt b 3 1) else none
  | none => none

def Hyper.set (h : Hyper) (k : Nat) : Nat × Nat × Nat × Nat := h.hp.getD k (0, 0, 0, 0)

/-- A job breaks R301. -/
def State.jobBad (s : State) (u p : Nat) (b : List Byte) (h : Hyper) : Bool :=
  let j := parseJob b
  let (lr, eps, wd, clip) := h.set (j.hset % 16)
  let inStack (a : Nat) : Bool := decide (slopeBase u ≤ a) && decide (a < slopeBase u + slopeSize)
  let al (a : Nat) : Bool := a % 64 == 0
  let ws := signed 8 j.wscale
  j.op = 0 || j.op > 3 || bits j.flags 7 6 ≠ 0 || !((1 ≤ j.gfmt && j.gfmt ≤ 5) || j.gfmt = 9) || j.wfmt > 4
    || !zeroAt b 7 1 || j.count = 0 || j.count > 2 ^ 28 || ws > 64 || ws < -64 || bits j.hset 7 4 ≠ 0
    || !(al j.p && al j.g && al j.m && al j.v && al j.w)
    || !inStack j.g || !inStack j.m
    || (if j.isGacc then
          j.mfmt ≠ 0 || j.p ≠ 0 || j.v ≠ 0 || j.w ≠ 0 || j.wfmt ≠ 0 || j.hset ≠ 0 || j.wscale ≠ 0 || j.gated || j.global
        else
          !inStack j.p || (if j.op = 1 then !inStack j.v else j.v ≠ 0)
            || (if j.wfmt = 0 then j.w ≠ 0 else !(j.w < centralEnd || (slopeBase 0 ≤ j.w && j.w < slopeBase 8)))
            || !(j.mfmt = 5 || (16 ≤ j.mfmt && j.mfmt ≤ 31 && (s.momentFmt p j.mfmt).isSome))
            || f32Bad lr || f32Bad wd || f32Bad h.b1
            || (j.op = 1 && (f32Bad eps || f32Bad h.b2 || f32Bad h.pow1 || f32Bad h.pow2))
            || (j.clipFirst && (f32Bad clip || clip % 2 ^ 31 = 0)))
    || (j.phased && j.d < j.s)

/-! ### The arithmetic of an update (R307 to R312) -/

/-- fp32(x × 2^k). -/
def f32Scale (x : Nat) (k : Int) : Nat := (outRound 5 {} false ((f32v x).scale k)).v

/-- The gradient of an element from its stored bytes (R307). -/
def gradOf (gfmt : Nat) (e : Int) (bs : List Byte) : Nat :=
  let g := if gfmt = 9 then f32Add (fieldAt bs 0 4) (fieldAt bs 4 4)
    else if gfmt = 5 then fieldAt bs 0 4
    else vldLane gfmt (leNat bs)
  f32Scale g (-e)

/-- Split a byte string into elements of `n` bytes. -/
def splitEvery (n : Nat) : Nat → List Byte → List (List Byte)
  | 0, _ => []
  | k + 1, bs => bs.take n :: splitEvery n k (bs.drop n)

/-- All gradients of a job. -/
def State.grads (s : State) (j : Job) (e : Int) : List Nat :=
  (splitEvery j.gSize j.count (s.rd j.g (j.gSize * j.count))).map (gradOf j.gfmt e)

/-- Norm of a check pass (R308). -/
def normOf (gs : List Nat) : Nat :=
  let a := gs.foldl (fun (a : CompE) g => a.addPair (f32Mul g g) 0 false) {}
  (f32SqrtR {} (f32Add a.s a.c)).v

/-- Clip factor of a norm (R308). -/
def clipOf (on : Bool) (norm clip : Nat) : Nat := if on && f32Lt clip norm then f32Div clip norm else f32One

/-- What the arithmetic of an element takes and gives. -/
structure Elem where
  p : Nat
  m : Nat
  v : Nat
  deriving DecidableEq, Repr

/-- Constants of an apply pass. -/
structure UpdK where
  f : Nat
  b1 : Nat
  b2 : Nat
  ob1 : Nat
  ob2 : Nat
  bc1 : Nat
  bc2 : Nat
  lr : Nat
  eps : Nat
  wd : Nat

def Hyper.q1 (h : Hyper) : Nat := f32Mul h.pow1 h.b1
def Hyper.q2 (h : Hyper) : Nat := f32Mul h.pow2 h.b2

def Hyper.consts (h : Hyper) (k f : Nat) : UpdK :=
  let (lr, eps, wd, _) := h.set k
  { f := f, b1 := h.b1, b2 := h.b2, ob1 := f32Sub f32One h.b1, ob2 := f32Sub f32One h.b2, bc1 := f32Sub f32One h.q1,
    bc2 := f32Sub f32One h.q2, lr := lr, eps := eps, wd := wd }

/-- One element of ADAMW (R309). -/
def adamw (c : UpdK) (x : Elem) (g0 : Nat) : Elem :=
  let g := f32Mul g0 c.f
  let m := f32Add (f32Mul x.m c.b1) (f32Mul g c.ob1)
  let v := f32Add (f32Mul x.v c.b2) (f32Mul (f32Mul g g) c.ob2)
  let mh := f32Div m c.bc1
  let vh := f32Div v c.bc2
  let u := f32Div mh (f32Add (f32SqrtR {} vh).v c.eps)
  { p := f32Sub x.p (f32Mul c.lr (f32Add u (f32Mul c.wd x.p))), m := m, v := v }

/-- One element of MOMENTUM (R309). -/
def momentum (c : UpdK) (x : Elem) (g0 : Nat) : Elem :=
  let g := f32Mul g0 c.f
  let m := f32Add (f32Mul x.m c.b1) g
  { p := f32Sub x.p (f32Mul c.lr (f32Add m (f32Mul c.wd x.p))), m := m, v := x.v }

/-- Working copy of a master (R311). -/
def workCopy (wfmt : Nat) (ws : Int) (p : Nat) : Nat := (outRound wfmt { sat := true } false (f32v (f32Scale p ws))).v

/-! ### Moment codes (R314, R315) -/

/-- Exact comparison of finite values. -/
def FVal.le (a b : FVal) : Bool :=
  match a, b with
  | .fin na ma ea, .fin nb mb eb =>
    let base := min ea eb
    decide (finInt na ma ea base ≤ finInt nb mb eb base)
  | _, _ => false

/-- Decode one code of a block. -/
def momentDec (map : List Nat) (e8 code : Nat) : Nat :=
  if e8 = 0 then 0
  else if e8 = 0xFF then fFP32.nanPat
  else f32Scale (map.getD code 0) ((e8 : Int) - 127)

/-- Least e with a ≤ 2^e, for a finite positive value. -/
def leastExp (a : Nat) : Int :=
  match f32v a with
  | .fin _ m e => if m = 2 ^ log2 m then (log2 m : Int) + e else (log2 m : Int) + e + 1
  | _ => 0

/-- Code of one value of a block. -/
def momentCode (map : List Nat) (e8 x : Nat) : Nat :=
  let n2 := (f32v x).scale (128 - (e8 : Int))
  ((List.range 255).find? (fun i => n2.le ((f32v (map.getD i 0)).add (f32v (map.getD (i + 1) 0))))).getD 255

/-- Encode a block: scale byte and codes. -/
def momentEnc (map : List Nat) (xs : List Nat) : Nat × List Nat :=
  let a := (xs.map (· % 2 ^ 31)).foldl max 0
  if xs.any (fun x => !f32Finite x) then (0xFF, xs.map (fun _ => 0))
  else if a = 0 then (0, xs.map (fun _ => 0))
  else
    let e8 := (max (leastExp a) (-126) + 127).toNat
    (e8, xs.map (momentCode map e8))

def blocks64 : Nat → List Nat → List (List Nat)
  | 0, _ => []
  | n + 1, xs => if xs.isEmpty then [] else xs.take 64 :: blocks64 n (xs.drop 64)

/-- Read a moment array of `count` elements. -/
def State.readMoments (s : State) (p mfmt a count : Nat) (second : Bool) : List Nat :=
  if mfmt = 5 then (splitEvery 4 count (s.rd a (4 * count))).map leNat
  else
    let map := s.codeMap p (((s.momentFmt p mfmt).map (fun q => if second then q.2 else q.1)).getD 0)
    let codes := (s.rd a count).map (·.toNat)
    let sc := (s.rd (a + alignUp count 64) (ceilDiv count 64)).map (·.toNat)
    ((blocks64 count codes).zip sc).flatMap (fun q => q.1.map (momentDec map q.2))

/-- Write a moment array, or its leading `n` elements or whole blocks (R306). -/
def State.writeMoments (s : State) (p mfmt a count n : Nat) (second : Bool) (xs : List Nat) : State :=
  if mfmt = 5 then s.wr a ((xs.take n).flatMap (leBytes 4))
  else
    let map := s.codeMap p (((s.momentFmt p mfmt).map (fun q => if second then q.2 else q.1)).getD 0)
    let bs := ((blocks64 count xs).take (if n ≥ count then ceilDiv count 64 else n / 64)).map (momentEnc map)
    let s := s.wr a (bs.flatMap (fun b => b.2.map (BitVec.ofNat 8)))
    s.wr (a + alignUp count 64) (bs.map (fun b => BitVec.ofNat 8 b.1))

/-! ### Runs and jobs (R299 to R303) -/

def updItem (u : Nat) : Item := .update (Fin.ofNat 8 u)
def State.unitStall (s : State) (u : Nat) : Bool := s.rbit .updCfg 1 u

/-- Latch the hyperparameters at the opening of a run (R300). -/
def State.latchHyper (s : State) (p : Nat) : Hyper := {
  hp := (List.range 16).map (fun h => (s.rnat .updHpLr p h, s.rnat .updHpEps p h, s.rnat .updHpWd p h, s.rnat .updHpClip p h)),
  b1 := s.rnat .updB1 p, b2 := s.rnat .updB2 p, pow1 := s.rnat .updPow1 p, pow2 := s.rnat .updPow2 p,
  exp := bits (s.rnat .updLsExp p) 7 0 }

/-- The run closes (R299, R323). -/
def State.closeRun (s : State) (u p : Nat) : State :=
  let x := s.unit u
  let st := if (s.train p).faulted && s.rbit .updCfg 2 u then UnitState.halted
    else if x.disarm then .idle else .armed
  s.setUnit u { x with st := st, disarm := false, pass := .none }

/-- Record an error of a unit: its registers, its code and the step fault (R322). -/
def State.unitError (s : State) (u p code elem : Nat) (quiet : Bool := false) : State :=
  let s := (s.rputN .updErrJob (s.unit u).job u).rputN .updErrElem elem u
  let s := (if quiet then s else s.issue code { unit := u, part := p, cx := u / 2 }).rputN .updLastErr code u
  s.stepFault p code

/-- Read jobs from the current index until one is good and waits, or the run closes; a job that breaks R301 ends at
once. -/
def State.readJobs (s : State) (u p : Nat) : Nat → State
  | 0 => s.closeRun u p
  | fuel + 1 =>
    let x := s.unit u
    if x.job ≥ bits (s.rnat .updTableCount u) 12 0 then s.closeRun u p
    else
      let a := s.rnat .updTableAddr u + 64 * x.job
      let next (s : State) : State := State.readJobs (s.setUnit u { s.unit u with job := x.job + 1 }) u p fuel
      match s.rangeCheck p a 64 1 with
      | .error code => next (s.unitError u p code 0)
      | .ok _ =>
        let b := s.rd a 64
        if s.jobBad u p b x.hyper then next (s.unitError u p 0x0A01 0)
        else
          let j := parseJob b
          let st := if j.phased then some (s.cad.step * 65536 + j.s) else none
          let s := s.setUnit u { x with
            cur := j, pass := .waiting, startAt := st, deadline := if j.phased then some (s.cad.step * 65536 + j.d) else none,
            startReached := match st with | some v => decide (s.stepPhase ≥ v) | none => true,
            waitDone := !j.waits, late := false }
          if !j.waits then s
          else
            match s.waitRef p j.waitRef with
            | .error code => next (s.unitError u p code 0)
            | .ok i => s.registerWait (.update u) p i j.waitTarget

/-- The current job ends, in whatever way; the next one is read. -/
def State.nextJob (s : State) (u p : Nat) : State :=
  let s := (s.cancelWait (.update u)).holdEnd (updItem u)
  let x := s.unit u
  State.readJobs (s.setUnit u { x with job := x.job + 1, pass := .none, late := false, deadline := none, startAt := none }) u p 4097

/-- A job ends with an error. -/
def State.jobError (s : State) (u p code elem : Nat) (quiet : Bool := false) : State :=
  (s.unitError u p code elem quiet).nextJob u p

/-- A job completes: its SIGNAL is issued (R302, R273). -/
def State.jobDone (s : State) (u p : Nat) : State :=
  let j := (s.unit u).cur
  let s := if j.signals then s.hwAdd p j.signalRef 1 else s
  s.nextJob u p

/-- A job is skipped as non-finite or by the gate (R316, R317). -/
def State.jobSkipped (s : State) (u p : Nat) : State :=
  let s := ((s.count .updSkips 1 u).tally1 0x100D).raise .updEvent 2 p
  let s := s.rputN .updRunSkip (s.rnat .updRunSkip u + 1) u
  let s := s.setTrain p { s.train p with skipped := true }
  s.jobDone u p

/-- NF becomes set (R317): a gated apply pass that has started is a breach. -/
def State.setNf (s : State) (u p : Nat) : State :=
  let t := s.train p
  let s := s.setTrain p { t with nf := true }
  if t.gatedStarted && !t.breached then
    let s := (s.setTrain p { s.train p with breached := true }).raise .updEvent 5 p
    let s := (s.issue 0x0A05 { unit := u, part := p }).rputN .updLastErr 0x0A05 u
    s.stepFault p 0x0A05
  else s

/-- The apply pass starts, unless a step fault or the gate prevents it (R317, R323). -/
def State.startApply (s : State) (u p : Nat) : State :=
  let j := (s.unit u).cur
  let t := s.train p
  if t.faulted then s.jobDone u p
  else if j.gated && t.nf then s.jobSkipped u p
  else
    let s := if j.gated then s.setTrain p { t with gatedStarted := true } else s
    s.setUnit u { s.unit u with pass := .apply }

/-- An eligible job begins its pass, once its ranges have been checked (R301, R302). -/
def State.jobEligible (s : State) (u : Nat) : State :=
  match s.unitPart u with
  | none => s
  | some p =>
    let x := s.unit u
    let fired := x.waitDone || ((s.waitOf (.update u)).map (·.fired)).getD false
    if x.st ≠ .running || x.pass ≠ .waiting || !x.startReached || !fired || s.heldByCommit (some p) x.startAt then s
    else
      let s := (s.cancelWait (.update u)).setUnit u { x with waitDone := true }
      match x.cur.ranges.findSome? (fun r => match s.rangeCheck p r.1 r.2.1 r.2.2 with | .error c => some c | .ok _ => none) with
      | some code => s.jobError u p code 0
      | none =>
        if x.cur.isGacc then s.startApply u p
        else s.setUnit u { s.unit u with pass := .check }

/-- An uncorrectable error at element `i` of the gradient. -/
def State.gradError (s : State) (j : Job) (i : Nat) : State := s.eccUncorrected (j.g + j.gSize * i)

/-- The check pass ends (R308, R316); `bad` is the element whose read failed. -/
def State.checkEnd (s : State) (u : Nat) (bad : Option Nat) : State :=
  match s.unitPart u with
  | none => s
  | some p =>
    let x := s.unit u
    let j := x.cur
    if x.st ≠ .running || x.pass ≠ .check then s
    else
      match bad with
      | some i => (s.gradError j i).jobError u p 0x0303 i
      | none =>
        let gs := s.grads j (signed 8 x.hyper.exp)
        let norm := normOf gs
        let clip := (x.hyper.set j.hset).2.2.2
        let s := s.rputN .updLastNorm norm u
        if gs.any (fun g => !f32Finite g) || (j.clipFirst && !f32Finite norm) then
          (if j.global then s.setNf u p else s).jobSkipped u p
        else
          (s.setUnit u { s.unit u with clip := clipOf j.clipFirst norm clip }).startApply u p

/-- First index at which something non-finite came from finite inputs. -/
def firstNonfinite (ins outs : List (List Nat)) : Option Nat :=
  (List.range ins.length).find? (fun i =>
    (ins.getD i []).all f32Finite && (outs.getD i []).any (fun v => !f32Finite v))

/-- The writes of an apply pass over its leading `n` elements, and the first element that became non-finite (R306, R309
to R312). -/
def State.applyWrites (s : State) (u p n : Nat) : State × Option Nat :=
  let x := s.unit u
  let j := x.cur
  let gs := s.grads j (signed 8 x.hyper.exp)
  if j.isGacc then
    let acc := (splitEvery 8 j.count (s.rd j.m (8 * j.count))).map CompE.ofBytes
    let raw := (splitEvery j.gSize j.count (s.rd j.g (j.gSize * j.count)))
    let out := (acc.zip raw).map (fun q =>
      let pair := j.gfmt = 9
      let a : CompE := if pair then CompE.ofBytes q.2 else { s := gradOf j.gfmt 0 q.2 }
      if j.clipFirst then (if pair then ({ s := f32Add a.s a.c } : CompE) else a) else q.1.addPair a.s a.c pair)
    (s.wr j.m ((out.take n).flatMap CompE.bytes), none)
  else
    let c := x.hyper.consts j.hset x.clip
    let ps := (splitEvery 4 j.count (s.rd j.p (4 * j.count))).map leNat
    let ms := s.readMoments p j.mfmt j.m j.count false
    let vs := if j.op = 1 then s.readMoments p j.mfmt j.v j.count true else List.replicate j.count 0
    let ins : List Elem := (ps.zip (ms.zip vs)).map (fun q => { p := q.1, m := q.2.1, v := q.2.2 })
    let outs := (ins.zip gs).map (fun q => if j.op = 1 then adamw c q.1 q.2 else momentum c q.1 q.2)
    let ws := if j.wfmt = 0 then [] else outs.map (fun (e : Elem) => workCopy j.wfmt (signed 8 j.wscale) e.p)
    let s := s.wr j.p ((outs.take n).flatMap (fun e => leBytes 4 e.p))
    let s := s.writeMoments p j.mfmt j.m j.count n false (outs.map (·.m))
    let s := if j.op = 1 then s.writeMoments p j.mfmt j.v j.count n true (outs.map (·.v)) else s
    let s := if j.wfmt = 0 then s else s.wr j.w ((ws.take n).flatMap (leBytes (fmtSize j.wfmt)))
    let wbad (i : Nat) : Bool := match ws[i]? with
      | some w => (match elemVal j.wfmt w with | .fin _ _ _ => false | _ => true)
      | none => false
    let bad := firstNonfinite ((ins.zip gs).map (fun q => [q.1.p, q.1.m, q.1.v, q.2])) (outs.map (fun e => [e.p, e.m, e.v]))
    let badW := (List.range j.count).find? (fun i => wbad i && f32Finite ((outs.map (·.p)).getD i 0))
    (s, match bad, badW with | some a, some b => some (min a b) | some a, none => some a | none, b => b)

/-- The apply pass ends (R309, R312); `bad` is the element whose read failed (R306). -/
def State.applyEnd (s : State) (u : Nat) (bad : Option Nat) : State :=
  match s.unitPart u with
  | none => s
  | some p =>
    let x := s.unit u
    let j := x.cur
    if x.st ≠ .running || x.pass ≠ .apply then s
    else
      match bad with
      | some i =>
        let (s, _) := s.applyWrites u p (min i j.count)
        (s.gradError j i).jobError u p 0x0303 i
      | none =>
        let (s, nf) := s.applyWrites u p j.count
        let s := (s.rputN .updRunDone (s.rnat .updRunDone u + 1) u).count .updJobs 1 u
        let s := s.count .updElems j.count u
        match nf with
        | some i =>
          let s := if j.signals then s.hwAdd p j.signalRef 1 else s
          s.jobError u p 0x0A03 i
        | none => s.jobDone u p

/-! ### Commands, deadlines and ends -/

/-- ARM is refused: by a function without the unit, for a partition without TRAINING, or in a wrong state (R298, R299). -/
def State.armOk (s : State) (u : Nat) : Bool :=
  (s.unitPart u).isSome && ((s.unit u).st == .idle || (s.unit u).st == .halted)

def State.armUnit (s : State) (u : Nat) : State :=
  (s.setUnit u { s.unit u with st := .armed, disarm := false }).startOfWork

/-- DISARM: at once when no run is open, else at its close. -/
def State.disarmUnit (s : State) (u : Nat) : State :=
  let x := s.unit u
  match x.st with
  | .armed => s.setUnit u { x with st := .idle }
  | .running => s.setUnit u { x with disarm := true }
  | _ => s

/-- D of a phased job is reached before it completes (R303). -/
def State.updDeadline (s : State) (u : Nat) : State :=
  let x := s.unit u
  match s.unitPart u, x.deadline with
  | some p, some d =>
    if x.st ≠ .running || x.pass = .none || x.late || s.stepPhase < d then s
    else
      let stall := s.unitStall u
      let s := s.late (updItem u) 0 (some p) stall 0x0D01 s.phaseInt
      if stall then s.setUnit u { s.unit u with late := true } else s.jobError u p 0x0D01 0
  | _, _ => s

/-- The current job is ended from outside with a code that has been issued. -/
def State.endUpdate (s : State) (u code : Nat) (quiet : Bool) : State :=
  match s.unitPart u with
  | none => s
  | some p => if (s.unit u).st = .running && (s.unit u).pass ≠ .none then s.jobError u p code 0 quiet else s

/-! ### The wrap (R300, R305, R318 to R320, R325, R327) -/

/-- Curve 0x03 at the clean count. -/
def State.growth (s : State) (p c : Nat) : Nat :=
  match s.curve? p 3 0 with
  | some pts => evalCurve pts c
  | none => 0

/-- Judge the step that has ended (R318, R319). -/
def State.lossLoop (s : State) (p : Nat) : State :=
  let t := s.train p
  let us := s.unitsOf p
  if !us.any (fun u => (s.unit u).ran) then s
  else
    let h := ((us.find? (fun u => (s.unit u).ran)).map (fun u => (s.unit u).hyper)).getD {}
    let s := if t.faulted || t.skipped then s
      else (s.rputN .updPow1 h.q1 p).rputN .updPow2 h.q2 p
    if s.rbit .updLsCfg 0 p || t.faulted then s
    else
      let e := signed 8 (s.rnat .updLsExp p)
      let lo := signed 8 (bits (s.rnat .updLsRange p) 7 0)
      let hi := signed 8 (bits (s.rnat .updLsRange p) 15 8)
      let (e', c') :=
        if t.skipped then (e - (bits (s.rnat .updLsCfg p) 7 4 : Int), 0)
        else
          let c := min 0xFFFFFFFF (t.clean + 1)
          let g := s.growth p c
          if !f32Lt g f32One then (e + (f32Floor g : Int), 0) else (e, c)
      let k := max lo (min hi e')
      let s := s.setTrain p { t with clean := c' }
      let s := if k ≠ e' then
          ((s.raise .updEvent 4 p).issue 0x0A07 { unit := us.headD 0, part := p }).logAdd
            (hwEntry 5 0x0A07 p (old := unsignedOf 8 e') (new := unsignedOf 8 k))
        else s
      if k = e then s
      else
        let s := (s.rputN .updLsExp (unsignedOf 8 k) p).raise .updEvent 3 p
        s.logAdd (hwEntry 5 0 p (old := unsignedOf 8 e) (new := unsignedOf 8 k))

/-- Open a run on every armed unit; one still open is an overrun (R299, R305). -/
def State.openRun (s : State) (u : Nat) : State :=
  match s.unitPart u with
  | none => s
  | some p =>
    let x := s.unit u
    match x.st with
    | .armed =>
      let s := (s.rputN .updRunDone 0 u).rputN .updRunSkip 0 u
      State.readJobs (s.setUnit u { x with st := .running, job := 0, hyper := s.latchHyper p, ran := true, pass := .none }) u p 4097
    | .running =>
      let s := ((s.setUnit u { x with ran := true }).raise .updEvent 1 p).issue 0x0A09 { unit := u, part := p }
      (s.rputN .updLastErr 0x0A09 u).stepFault p 0x0A09
    | _ => s

/-- The clk after the wrap: the loss scale is mirrored and announced (R320). -/
def State.mirrorScale (s : State) (p : Nat) : State :=
  let t := s.train p
  if !t.mirror then s
  else
    let s := s.setTrain p { t with mirror := false }
    let a := s.rnat .updLsMirror p
    let s := if a = 0 then s else s.wrNat a 4 (f32Scale f32One (signed 8 (s.rnat .updLsExp p)))
    s.errCairn (some p) (s.rnat .updLsCairn p)

/-- Training's wrap actions. -/
def State.trainWrap (s : State) : State :=
  let ps := (s.parts.filter (·.training)).map (·.id)
  let s := ps.foldl (fun s p => s.lossLoop p) s
  let s := ps.foldl (fun s p =>
    let t := s.train p
    s.setTrain p { t with
      nf := false, faulted := false, skipped := false, gatedStarted := false, breached := false,
      mirror := !(s.unitsOf p).isEmpty }) s
  let s := (List.range 8).foldl (fun s u => s.setUnit u { s.unit u with ran := false }) s
  let s := (List.range 8).foldl (fun s p => s.setTrain p { s.train p with grid := bits (s.rnat .updGrid p) 15 0 }) s
  let s := { s with upd := { s.upd with keyRotate := bits (s.rnat .updKeyRotate) 15 0 } }
  let s := (List.range 8).foldl (fun s u => s.openRun u) s
  ps.foldl (fun s p => s.mirrorScale p) s

end Sys2Proof.Machine
end

