-- ==== Sys2Proof/Machine/FabricLink.lean ====
section
/-! DEFINITION. The Nynal link layer: frames, RS correction, retry, credits, training and port states (R330 to R337,
R341, Tables 12.2, 12.3). -/
namespace Sys2Proof.Machine

/-! ### GF(2^8) and the RS(136,132) codewords (R332). The order of the bytes as coefficients, first byte highest, is
PRESUMED (log entry 13). -/

def gfDouble (a : Nat) : Nat := if a ≥ 128 then (a * 2) % 256 ^^^ 0x1D else a * 2

def gfMulN : Nat → Nat → Nat → Nat
  | 0, _, _ => 0
  | n + 1, a, b => (if b % 2 = 1 then a else 0) ^^^ gfMulN n (gfDouble a) (b / 2)

def gfMul (a b : Nat) : Nat := gfMulN 8 a b

def gfPow (a : Nat) : Nat → Nat
  | 0 => 1
  | n + 1 => gfMul a (gfPow a n)

/-- a^254 = 1/a. -/
def gfInv (a : Nat) : Nat :=
  let a2 := gfMul a a
  let a4 := gfMul a2 a2
  let a8 := gfMul a4 a4
  let a16 := gfMul a8 a8
  let a32 := gfMul a16 a16
  let a64 := gfMul a32 a32
  let a128 := gfMul a64 a64
  gfMul a128 (gfMul a64 (gfMul a32 (gfMul a16 (gfMul a8 (gfMul a4 a2)))))

/-- Generator with roots α^0 to α^3, highest coefficient first, without the leading 1. -/
def rsGen : List Nat :=
  let step (g : List Nat) (r : Nat) : List Nat := ((g ++ [0]).zip (0 :: g)).map (fun (q : Nat × Nat) => q.1 ^^^ gfMul r q.2)
  (step (step (step (step [1] 1) 2) 4) 8).drop 1

/-- Parity of a codeword's data: the remainder of data · x^4. -/
def rsParity (data : List Nat) : List Nat :=
  data.foldl (fun reg d =>
    let f := d ^^^ reg.headD 0
    ((reg.drop 1 ++ [0]).zip rsGen).map (fun (q : Nat × Nat) => q.1 ^^^ gfMul f q.2)) [0, 0, 0, 0]

/-- Value of a word at x, first byte highest. -/
def rsEval (w : List Nat) (x : Nat) : Nat := w.foldl (fun a c => gfMul a x ^^^ c) 0

def rsSyndromes (w : List Nat) : List Nat := [rsEval w 1, rsEval w 2, rsEval w 4, rsEval w 8]

/-- Flip error values at positions counted from the end. -/
def rsFix (w : List Nat) (es : List (Nat × Nat)) : List Nat :=
  es.foldl (fun w e => let i := w.length - 1 - e.1; w.set i (w.getD i 0 ^^^ e.2)) w

/-- Correct up to two byte errors: the word and the number of bytes corrected. -/
def rsCorrect (w : List Nat) : Option (List Nat × Nat) :=
  let s := rsSyndromes w
  let s0 := s.getD 0 0
  let s1 := s.getD 1 0
  let s2 := s.getD 2 0
  let s3 := s.getD 3 0
  if s.all (· == 0) then some (w, 0)
  else
    let pos := (List.range w.length).map (fun i => (i, gfPow 2 i))
    let one := if s0 = 0 then none
      else pos.find? (fun q => gfMul s0 q.2 == s1 && gfMul s1 q.2 == s2 && gfMul s2 q.2 == s3)
    match one with
    | some (i, _) => some (rsFix w [(i, s0)], 1)
    | none =>
      let det := gfMul s1 s1 ^^^ gfMul s0 s2
      if det = 0 then none
      else
        let inv := gfInv det
        let l1 := gfMul (gfMul s1 s2 ^^^ gfMul s0 s3) inv
        let l2 := gfMul (gfMul s1 s3 ^^^ gfMul s2 s2) inv
        let roots := pos.filter (fun q => gfMul q.2 q.2 ^^^ gfMul l1 q.2 ^^^ l2 == 0)
        match roots with
        | [(i, x), (j, y)] =>
          let e2 := gfMul (gfMul s0 x ^^^ s1) (gfInv (x ^^^ y))
          let e1 := s0 ^^^ e2
          let w' := rsFix w [(i, e1), (j, e2)]
          if (rsSyndromes w').all (· == 0) then some (w', 2) else none
        | _ => none

def everyOther : List Nat → List Nat
  | a :: _ :: r => a :: everyOther r
  | [a] => [a]
  | [] => []

def weave : List Nat → List Nat → List Nat
  | a :: as, b :: bs => a :: b :: weave as bs
  | _, _ => []

/-! ### Frames (Table 12.2) -/

/-- The 272 bytes of a frame. -/
def linkFrameBytes (kind vc seq ack : Nat) (payload : List Byte) : List Byte :=
  let head := leBytes 4 (kind * 2 ^ 28 + vc * 2 ^ 26 + seq % 4096 * 2 ^ 14 + ack % 4096 * 4) ++ slice payload 0 256
  let body := head ++ leBytes 4 (crc32c head)
  let ns := body.map (·.toNat)
  let par := weave (rsParity (everyOther ns)) (rsParity (everyOther (ns.drop 1)))
  body ++ par.map (BitVec.ofNat 8)

/-- A received frame after correction: its bytes and the number of bytes corrected; none when it is discarded. -/
def correctFrame (bs : List Byte) : Option (List Byte × Nat) :=
  if bs.length ≠ 272 then none
  else
    let ns := bs.map (·.toNat)
    match rsCorrect (everyOther ns), rsCorrect (everyOther (ns.drop 1)) with
    | some (a, x), some (b, y) =>
      let out := (weave a b).map (BitVec.ofNat 8)
      if fieldAt out 260 4 = crc32c (out.take 260) then some (out, x + y) else none
    | _, _ => none

/-! ### Sending (R333, R334) -/

/-- The order in which a slot tries the virtual channels. -/
def slotOrder (slot : Nat) : List Nat :=
  let own := match slot % 4 with | 0 => 2 | 1 => 1 | 2 => 2 | _ => 0
  3 :: own :: [2, 1, 0].filter (· != own)

def Port.credit (q : Port) (vc : Nat) : Nat := NMap.getD q.credits vc 256
def Port.queue (q : Port) (vc : Nat) : List TxFrame := NMap.getD q.txq vc []
def Port.owes (q : Port) (vc : Nat) : Nat := NMap.getD q.owed vc 0
def Port.ack (q : Port) : Nat := (q.rxNext + 4095) % 4096

/-- The virtual channel whose frame a slot sends. -/
def Port.pick (q : Port) : Option Nat :=
  if q.retry.length ≥ 4095 then none
  else (slotOrder q.slot).find? (fun vc => !(q.queue vc).isEmpty && decide (q.credit vc > 0))

/-- One frame slot of a port that is UP: a frame being resent, a frame by R334, a CONTROL frame where credits are owed
and nothing else is sendable (DESIGN CHOICE, log entry 14), or an IDLE frame. -/
def State.sendLinkFrame (s : State) (p : Nat) : State :=
  let q := s.port p
  if q.st ≠ 3 then s
  else
    let q' := { q with slot := (q.slot + 1) % 16 }
    match q.resendQ with
    | (seq, f) :: r =>
      let s := (s.setPort p { q' with resendQ := r }).count .nynPortRetry 1 p
      s.emit (.fabFrame p (linkFrameBytes f.kind f.vc seq q.ack f.payload))
    | [] =>
      match q.pick with
      | some vc =>
        (match q.queue vc with
        | f :: r =>
          let s := s.setPort p { q' with
            txq := NMap.put q.txq vc r, credits := NMap.put q.credits vc (q.credit vc - 1),
            retry := q.retry ++ [(q.nextSeq, f)], nextSeq := (q.nextSeq + 1) % 4096 }
          s.emit (.fabFrame p (linkFrameBytes f.kind vc q.nextSeq q.ack f.payload))
        | [] => s)
      | none =>
        if [0, 1, 2, 3].any (fun vc => decide (q.owes vc > 0)) then
          let pay := [0, 1, 2, 3].flatMap (fun vc => leBytes 2 (q.owes vc))
          (s.setPort p { q' with owed := [] }).emit (.fabFrame p (linkFrameBytes 3 0 q.nextSeq q.ack pay))
        else (s.setPort p q').emit (.fabFrame p (linkFrameBytes 0 0 q.nextSeq q.ack []))

/-! ### Receiving -/

/-- Frames whose SEQ the far end has acknowledged leave the retry buffer. -/
def ackTo (ack : Nat) (retry : List (Nat × TxFrame)) : List (Nat × TxFrame) :=
  match retry.findIdx? (fun e => e.1 == ack) with
  | some i => retry.drop (i + 1)
  | none => retry

/-- A payload of an accepted frame joins its packet; a whole packet goes to the receive store. -/
def Port.takePayload (q : Port) (first : Bool) (vc : Nat) (pay : List Byte) : Port :=
  let cur := if first then pay else NMap.getD q.part vc [] ++ pay
  if cur.length ≥ packetSize cur then
    { q with part := NMap.put q.part vc [],
             store := NMap.put q.store vc (NMap.getD q.store vc [] ++ [(parsePacket cur, cur.length / 256)]) }
  else { q with part := NMap.put q.part vc cur }

/-- LINK_FRAME_RECEIVE (R332, R333). -/
def State.linkReceive (s : State) (p : Nat) (bs : List Byte) : State :=
  let q := s.port p
  if q.st ≠ 3 then s
  else
    match correctFrame bs with
    | none => s
    | some (fr, n) =>
      let s := if n = 0 then s else s.count .nynPortFec n p
      let h := fieldAt fr 0 4
      let kind := bits h 31 28
      let vc := bits h 27 26
      let seq := bits h 25 14
      let retry := ackTo (bits h 13 2) q.retry
      let q := { q with
        retry := retry, resends := if retry.length < q.retry.length then 0 else q.resends,
        resendQ := q.resendQ.filter (fun e => retry.any (fun r => r.1 == e.1)) }
      match kind with
      | 3 =>
        s.setPort p { q with credits := [0, 1, 2, 3].map (fun v => (v, q.credit v + fieldAt fr (4 + 2 * v) 2)) }
      | 1 => if seq = q.rxNext then s.setPort p ({ q with rxNext := (seq + 1) % 4096 }.takePayload true vc (slice fr 4 256)) else s.setPort p q
      | 2 => if seq = q.rxNext then s.setPort p ({ q with rxNext := (seq + 1) % 4096 }.takePayload false vc (slice fr 4 256)) else s.setPort p q
      | _ => s.setPort p q

/-! ### Port states (Table 12.3) -/

def State.strapsWord (s : State) : Nat := s.pwr.straps.getD 0
def State.slotGrp (s : State) : Nat := bits s.strapsWord 6 4
def State.slotPos (s : State) : Nat := bits s.strapsWord 3 0

/-- The port may leave DISABLED. -/
def State.portAllowed (s : State) (p : Nat) : Bool :=
  s.domainOn (domPort p) && bit s.portMask p && s.rbit .nynPortCtrl 0 p && decide (s.slotPos ≤ 8)

/-- A notice of a change of an own port to every neighbour that is UP (R337). -/
def State.sendNotice (s : State) (dev p : Nat) (up : Bool) (but : Option Nat) : State :=
  (List.range 14).foldl (fun s k => if s.portUp k && but ≠ some k then s.emit (.notice k dev p up) else s) s

/-- Packets wholly held in a list of frames. -/
def packetsIn (fs : List TxFrame) (cur : NMap (List Byte)) : List Packet :=
  match fs with
  | [] => []
  | f :: r =>
    let b := if f.kind = 1 then f.payload else
      (match NMap.getD cur f.vc [] with | [] => [] | x => x ++ f.payload)
    if b.isEmpty then packetsIn r cur
    else if b.length ≥ packetSize b then parsePacket b :: packetsIn r (NMap.put cur f.vc [])
    else packetsIn r (NMap.put cur f.vc b)

/-- Return an undeliverable packet to its source (R338); `p` is the port it could not leave by. -/
def State.bounce (s : State) (p : Nat) (k : Packet) : State :=
  if k.op = 12 || k.src = s.ownId then s
  else (s.count .nynPortBounces 1 p).sendPacket { k with dst := k.src, src := s.ownId, op := 12, data := [], want := 0 }

/-- Whole packets that a port had received stay to be dealt with; the credits of their frames lapse with the link. -/
def Port.kept (q : Port) : NMap (List (Packet × Nat)) := q.store.map (fun e => (e.1, e.2.map (fun x => (x.1, 0))))

/-- Act on the frames a port held when it went down (R341): packets in transit are bounced. -/
def State.dropPort (s : State) (p : Nat) (st : Nat) : State :=
  let q := s.port p
  let before := s
  let held := packetsIn ((q.retry.map (·.2)) ++ [3, 2, 1, 0].flatMap (fun vc => q.queue vc)) []
  let s := s.setPort p { st := st, standby := q.standby, store := if s.domainOn (domPort p) then q.kept else [] }
  let s := (if q.st = 3 then (((s.count .nynPortDowns 1 p).raise .nynEvent 0).sendNotice s.ownId p false none) else s)
  let s := held.foldl (fun s k => s.bounce p k) s
  s.resendRerouted before

/-- Begin training: standby lanes when the faced ID is set in NYN_FAILED (R335). -/
def State.trainPort (s : State) (p : Nat) : State :=
  let q := s.port p
  if q.st ≠ 1 || !s.portAllowed p then s
  else s.setPort p { q with st := 2, standby := bit (s.rnat .nynFailed) (facing s.ownId p) }

/-- Training finds a peer: UP when it is the expected one (R335), else back to DOWN with 0x0603. -/
def State.trainingResult (s : State) (p machine peerId peerPort : Nat) : State :=
  let q := s.port p
  if q.st ≠ 2 then s
  else if machine = s.img.machineId && peerId = facing s.ownId p && peerPort = farPort p then
    let before := s
    let s := s.setPort p { st := 3, standby := q.standby, peerId := peerId, peerPort := peerPort, store := q.kept }
    let s := (s.raise .nynEvent 1).sendNotice s.ownId p true none
    let s := s.resendRerouted before
    if s.fab.assumed && (List.range 14).all (fun k => !bit s.portMask k || s.portUp k) then s.raise .nynEvent 7 else s
  else
    let s := ((s.setPort p { st := 1, store := q.kept }).raise .nynEvent 2).issue 0x0603
    s.rputN .nynLastInfo (peerId * 2 ^ 24 + p)

def State.trainingTimeout (s : State) (p : Nat) : State :=
  if (s.port p).st = 2 then s.setPort p { st := 1, store := (s.port p).kept } else s

/-- RETRAIN, or the retrain gap of a DOWN port. -/
def State.retrain (s : State) (p : Nat) : State := s.trainPort p

/-- An unacknowledged frame reaches 2 µs (R333). -/
def State.linkResend (s : State) (p : Nat) : State :=
  let q := s.port p
  if q.st ≠ 3 || q.retry.isEmpty then s
  else if q.resends ≥ 8 then s.dropPort p 1
  else s.setPort p { q with resends := q.resends + 1, resendQ := q.retry }

def State.lossOfLock (s : State) (p : Nat) : State := if (s.port p).st = 3 then s.dropPort p 1 else s

/-- Ports that may not or may again run, after a change of their domain, PORT_MASK, straps or ENABLE. -/
def State.settlePort (s : State) (p : Nat) : State :=
  let q := s.port p
  if s.portAllowed p then if q.st = 0 then s.setPort p { st := 1, store := q.kept } else s
  else if q.st = 0 then s
  else s.dropPort p 0

def State.settlePorts (s : State) : State := (List.range 14).foldl (fun s p => s.settlePort p) s

/-- A write of NYN_FAILED: ports facing an ID whose bit changed go DOWN and retrain on the other lanes (Table 12.3,
R360). -/
def State.failedWritten (s : State) (old : Nat) : State :=
  (List.range 14).foldl (fun s p =>
    let id := facing s.ownId p
    if bit old id != bit (s.rnat .nynFailed) id && (s.port p).st = 3 then (s.dropPort p 1).trainPort p else s) s

/-- A notice of a port change (R337): it is noted, passed on once, and requests whose route changes are resent. -/
def State.noticeIn (s : State) (from_ dev p : Nat) (up : Bool) : State :=
  let known := s.fab.downLinks.contains (dev, p)
  if known != up || dev = s.ownId then s
  else
    let before := s
    let s := { s with fab := { s.fab with
      downLinks := if up then s.fab.downLinks.filter (fun x => decide (x ≠ (dev, p))) else s.fab.downLinks ++ [(dev, p)] } }
    (s.sendNotice dev p up (some from_)).resendRerouted before

end Sys2Proof.Machine
end

