-- ==== Sys2Proof/Machine/Collective.lean ====
section
/-! DEFINITION. The collective sequencer: entries, product sets, the fixed fold order, stragglers and carry (R342 to
R355). The numbering of a packet's chunk field, and the mask that goes before results, are the model's (DESIGN CHOICE,
log entry 15). -/
namespace Sys2Proof.Machine

/-! ### Entries -/

def parseCEntry (b : List Byte) : CEntry := {
  op := fieldAt b 0 1, ifmt := fieldAt b 1 1, flags := fieldAt b 2 1, root := fieldAt b 3 1, count := fieldAt b 4 4,
  s := fieldAt b 8 2, d := fieldAt b 10 2, src := fieldAt b 16 8, dst := fieldAt b 24 8, carry := fieldAt b 32 8,
  members := fieldAt b 40 8, waitRef := fieldAt b 48 2, signalRef := fieldAt b 50 2, waitTarget := fieldAt b 52 4,
  tag := fieldAt b 56 4, sig := crc32c (slice b 0 16 ++ slice b 40 8 ++ slice b 56 4) }

def CEntry.carries (e : CEntry) : Bool := bit e.flags 7
def CEntry.skip (e : CEntry) : Bool := bit e.flags 6
def CEntry.waits (e : CEntry) : Bool := bit e.flags 1
def CEntry.signals (e : CEntry) : Bool := bit e.flags 0
def CEntry.reduces (e : CEntry) : Bool := e.op == 1 || e.op == 2

/-- EXACT form (R344); otherwise PAIR for a reduction. -/
def CEntry.exact (e : CEntry) : Bool := e.ifmt == 1 || e.ifmt == 2 || e.ifmt == 6 || e.ifmt == 10

/-- Bytes of an element as it lies in SRC, and in its form. -/
def CEntry.native (e : CEntry) : Nat := if e.ifmt = 0 then 1 else if e.ifmt = 9 then 8 else if e.ifmt = 10 then 16 else fmtSize e.ifmt
def CEntry.ext (e : CEntry) : Nat := if e.ifmt = 0 then 1 else if e.exact then 16 else 8

def idsOf (mask : Nat) : List Nat := (List.range 64).filter (bit mask)
/-- Index set J and group set H (R345). -/
def CEntry.js (e : CEntry) : List Nat := (List.range 8).filter (fun j => (idsOf e.members).any (fun m => m % 8 == j))
def CEntry.hs (e : CEntry) : List Nat := (List.range 8).filter (fun h => (idsOf e.members).any (fun m => m / 8 == h))
def CEntry.product (e : CEntry) : Bool := e.hs.all (fun h => e.js.all (fun j => bit e.members (h * 8 + j)))

/-- An entry breaks R343. -/
def State.collBad (s : State) (b : List Byte) : Bool :=
  let e := parseCEntry b
  let fits := if e.reduces then (1 ≤ e.ifmt && e.ifmt ≤ 6) || e.ifmt = 9 || e.ifmt = 10 else e.ifmt = 0
  e.op = 0 || e.op > 4 || !fits || bits e.flags 5 2 ≠ 0 || (e.op ≠ 4 && e.root ≠ 0) || (e.op = 4 && !bit e.members e.root)
    || e.count = 0 || e.count > 2 ^ 26 || !zeroAt b 12 4 || !zeroAt b 60 4
    || (if e.carries then !e.skip || !e.reduces else e.carry ≠ 0)
    || !bit e.members s.ownId || (idsOf e.members).any (fun m => !bit s.members m) || !e.product || e.d < e.s

/-! ### Slices, chunks and portions (R345) -/

/-- The span of part `i` of `n` equal parts of `count`. -/
def partSpan (count n i : Nat) : Nat × Nat :=
  let len := ceilDiv count n
  let a := min count (i * len)
  (a, min count (a + len) - a)

/-- First element and length of slice `j`. -/
def CEntry.slice (e : CEntry) (j : Nat) : Nat × Nat := partSpan e.count e.js.length j

def CEntry.chunkElems (e : CEntry) : Nat := 65536 / e.native
def CEntry.chunks (e : CEntry) (j : Nat) : Nat := ceilDiv (e.slice j).2 e.chunkElems
/-- First element in the slice and length of chunk `c` of slice `j`. -/
def CEntry.chunk (e : CEntry) (j c : Nat) : Nat × Nat :=
  let n := (e.slice j).2
  let a := min n (c * e.chunkElems)
  (a, min n (a + e.chunkElems) - a)

/-- The part of chunk `c` of slice `j` in sub-slice `k`: first element in the slice, and length. -/
def CEntry.portion (e : CEntry) (j c k : Nat) : Nat × Nat :=
  let (a, n) := e.chunk j c
  let (b, m) := partSpan (e.slice j).2 e.hs.length k
  let lo := max a b
  (lo, min (a + n) (b + m) - lo)

/-- Position of a device in the sets, and the member at a position. -/
def indexIn (xs : List Nat) (x : Nat) : Nat := (xs.findIdx? (· == x)).getD xs.length
def CEntry.memberAt (e : CEntry) (k j : Nat) : Nat := e.hs.getD k 0 * 8 + e.js.getD j 0

/-- The chunk field of a packet: stage (0 contribution, 1 group partial, 2 result), sub-slice, slice, chunk, piece. -/
def collField (stage k j c piece : Nat) : Nat := piece + c * 16 + j * 2 ^ 18 + k * 2 ^ 21 + stage * 2 ^ 24

/-! ### Forms (R344) -/

/-- A contribution element in its form. -/
def CEntry.toForm (e : CEntry) (bs : List Byte) : List Byte :=
  if e.ifmt = 0 || e.ifmt = 9 || e.ifmt = 10 then bs
  else if e.exact then (ExactE.addProduct {} (elemVal e.ifmt (leNat bs))).bytes
  else CompE.bytes { s := gradOf e.ifmt 0 bs }

/-- Fold two partials element by element. -/
def CEntry.foldBytes (e : CEntry) (a b : List Byte) : List Byte :=
  let n := a.length / e.ext
  ((splitEvery e.ext n a).zip (splitEvery e.ext n b)).flatMap (fun q =>
    if e.exact then (ExactE.combine (ExactE.ofBytes q.1) (ExactE.ofBytes q.2)).bytes
    else (CompE.combine (CompE.ofBytes q.1) (CompE.ofBytes q.2)).bytes)

def CEntry.foldAll (e : CEntry) : List (List Byte) → List Byte
  | [] => []
  | a :: r => r.foldl e.foldBytes a

/-- This member's contribution to elements `a` to `a + n - 1`, in form; with a valid carry, carry ⊕ SRC (R351). -/
def State.contribution (s : State) (e : CEntry) (carry : Bool) (a n : Nat) : List Byte :=
  let own := (splitEvery e.native n (s.rd (e.src + a * e.native) (n * e.native))).flatMap e.toForm
  if carry then e.foldBytes (s.rd (e.carry + a * e.ext) (n * e.ext)) own else own

/-! ### Instances -/

def State.collPart (s : State) : Nat := bits (s.rnat .nynCollCfg) 6 4
def State.inst? (s : State) (i : Nat) : Option Inst := s.coll.insts.find? (fun x => x.entry == i)
def State.setInst (s : State) (x : Inst) : State :=
  { s with coll := { s.coll with insts := s.coll.insts.map (fun (y : Inst) => if y.entry = x.entry then x else y) } }
def collItem (i : Nat) : Item := .coll i

/-- The instance stops holding the line. -/
def State.collRelease (s : State) (i : Nat) : State :=
  if s.cad.holdColl.contains i then
    State.updateHold { s with cad := { s.cad with holdColl := s.cad.holdColl.filter (· != i) } }
  else s

/-- The run closes when every entry has completed or ended (R299, R342). -/
def State.collClose (s : State) : State :=
  if s.coll.st = 2 && s.coll.insts.all (fun x => x.st == .done || x.st == .failed) then
    { s with coll := { s.coll with st := if s.coll.disarm then 0 else 1, disarm := false } }
  else s

/-- An instance ends with an error (R343, R352 to R354); `quiet` when the code has been issued. -/
def State.collFail (s : State) (i code who : Nat) (quiet : Bool := false) : State :=
  match s.inst? i with
  | none => s
  | some x =>
    if x.st = .done || x.st = .failed then s
    else
      let s := (s.cancelWait (.coll i)).setInst { x with st := .failed, pieces := [] }
      let s := s.collRelease i
      let s := (if quiet then s else s.issue code { part := s.collPart }).raise .nynEvent 6
      let s := if code = 0x0606 then s.raise .nynEvent 4 else s
      let s := s.rputN .nynLastInfo (who * 2 ^ 24 + i * 65536)
      (s.stepFault s.collPart code).collClose

/-- What the instance must have written before it is complete (R346). -/
def CEntry.needed (e : CEntry) (own : Nat) : List Nat :=
  let mine (j k : Nat) : Bool := e.op == 1 || (e.js.getD j 99 == own % 8 && e.hs.getD k 99 == own / 8)
  (List.range e.js.length).flatMap (fun j => (List.range e.hs.length).flatMap (fun k =>
    if mine j k then
      (List.range (e.chunks j)).filterMap (fun c => if (e.portion j c k).2 = 0 then none else some (collField 2 k j c 0))
    else []))

/-- Contributors whose bytes an ALLGATHER or BROADCAST takes. -/
def CEntry.givers (e : CEntry) : List Nat := if e.op = 4 then [e.root] else idsOf e.members

def State.instComplete (s : State) (x : Inst) : Bool :=
  if x.e.reduces then (x.e.needed s.ownId).all (fun f => x.written.contains f)
  else x.e.givers.all (fun m => x.got.contains m)

/-- Completion at this member (R346). -/
def State.collDone (s : State) (i : Nat) : State :=
  match s.inst? i with
  | none => s
  | some x =>
    if x.st ≠ .running || !s.instComplete x then s
    else
      let s := s.setInst { x with st := .done }
      let s := if x.e.signals then s.hwAdd s.collPart x.e.signalRef 1 else s
      s.collClose

/-- Send bytes to a member in packets of at most 65,536 data bytes. -/
def State.collSend (s : State) (i : Nat) (x : Inst) (dst stage k j c : Nat) (bs : List Byte) : State :=
  let n := max 1 (ceilDiv bs.length 65536)
  (List.range n).foldl (fun s q =>
    let f := collField stage k j c q
    match s.sendRequest { dst := dst, op := 7, addr := x.e.tag + f * 2 ^ 32, aux := x.e.sig, data := (bs.drop (q * 65536)).take 65536 }
        (.coll i) with
    | .ok s => s
    | .error s => s) s

/-- Bytes gathered so far from one sender for one chunk field, pieces in order. -/
def Inst.gathered (x : Inst) (src base : Nat) : List Byte :=
  (List.range 16).flatMap (fun q =>
    match x.pieces.find? (fun p => p.src == src && p.field == base + q) with | some p => p.bytes | none => [])

def Inst.dropPieces (x : Inst) (base : Nat) : Inst :=
  { x with pieces := x.pieces.filter (fun p => p.field / 16 * 16 != base) }

def Inst.omittedIn (x : Inst) (c : Nat) : Nat := NMap.getD x.omitted c 0

/-- Members of the own group that contribute to a chunk of the own slice. -/
def State.groupIds (s : State) (e : CEntry) : List Nat := e.js.map (fun j => s.ownId / 8 * 8 + j)

/-- Write a result portion to DST and note its missing mask (R346, R350). -/
def State.collWrite (s : State) (i k j c : Nat) (mask : Nat) (bs : List Byte) : State :=
  match s.inst? i with
  | none => s
  | some x =>
    let f := collField 2 k j c 0
    if x.written.contains f || x.st = .failed then s
    else
      let off := (x.e.slice j).1 + (x.e.portion j c k).1
      let s := s.wr (x.e.dst + off * x.e.ext) bs
      let s := s.rput .nynCollMiss (s.rget .nynCollMiss ||| BitVec.ofNat 64 mask)
      s.setInst { x with written := x.written ++ [f], missing := x.missing ||| mask }

/-- A result reaches this member; an intra root passes it on to its group (R345, R346). -/
def State.collResult (s : State) (i k j c mask : Nat) (bs : List Byte) : State :=
  match s.inst? i with
  | none => s
  | some x =>
    let own := s.ownId
    let relays := x.e.js.getD j 99 == own % 8
    let s := s.collWrite i k j c mask bs
    let s := if relays then
        ((s.groupIds x.e).filter (· != own)).foldl (fun s m => s.collSend i x m 2 k j c (leBytes 8 mask ++ bs)) s
      else s
    s.collDone i

/-- The inter root of a sub-slice folds a portion once every group's partial has come (R345). -/
def State.foldInter (s : State) (i j c : Nat) : State :=
  match s.inst? i with
  | none => s
  | some x =>
    let e := x.e
    let own := s.ownId
    let k := indexIn e.hs (own / 8)
    let key := c * 8 + k
    let base := collField 1 k j c 0
    let want := (e.portion j c k).2 * e.ext
    if want = 0 || x.foldedInter.contains key || x.st = .failed then s
    else
      let parts := e.hs.map (fun h => x.gathered (h * 8 + own % 8) base)
      if parts.any (fun b => b.length ≠ want + 8) then s
      else
        let mask := parts.foldl (fun m b => m ||| fieldAt b 0 8) 0
        let res := e.foldAll (parts.map (fun b => b.drop 8))
        let s := s.setInst { (x.dropPieces base) with foldedInter := x.foldedInter ++ [key] }
        if e.op = 2 then (s.collWrite i k j c mask res).collDone i
        else
          let s := ((e.hs.map (fun h => h * 8 + own % 8)).filter (· != own)).foldl
            (fun s m => s.collSend i x m 2 k j c (leBytes 8 mask ++ res)) s
          s.collResult i k j c mask res

/-- A piece for this member itself: kept as if it had arrived. -/
def State.keepPiece (s : State) (i : Nat) (p : Piece) : State :=
  match s.inst? i with
  | some x => s.setInst { x with pieces := x.pieces ++ [p] }
  | none => s

/-- The intra root folds a chunk of its slice once every member's piece has come or been omitted, and hands the partial
to the inter roots (R345, R350). -/
def State.foldIntra (s : State) (i c : Nat) : State :=
  match s.inst? i with
  | none => s
  | some x =>
    let e := x.e
    let own := s.ownId
    let j := indexIn e.js (own % 8)
    if x.folded.contains c || x.st = .failed || c ≥ e.chunks j then s
    else
      let base := collField 0 0 j c 0
      let want := (e.chunk j c).2 * e.ext
      let om := x.omittedIn c
      let ms := (s.groupIds e).filter (fun m => !bit om m)
      let parts := ms.map (fun m => x.gathered m base)
      if parts.any (fun b => b.length ≠ want) then s
      else
        let part := if ms.isEmpty then List.replicate want 0 else e.foldAll parts
        let s := s.setInst { (x.dropPieces base) with folded := x.folded ++ [c] }
        let a := (e.chunk j c).1
        (List.range e.hs.length).foldl (fun s k =>
          let (lo, n) := e.portion j c k
          if n = 0 then s
          else
            let bs := leBytes 8 om ++ (part.drop ((lo - a) * e.ext)).take (n * e.ext)
            let to_ := e.memberAt k j
            if to_ = own then
              (s.keepPiece i { src := own, field := collField 1 k j c 0, bytes := bs }).foldInter i j c
            else s.collSend i x to_ 1 k j c bs) s

/-! ### Taking part (R347, R350, R351) -/

/-- A chunk of this member has been answered SKIPPED, or its own root has omitted it: carried or dropped, and counted
once (R350, R355). `a` is the first element in all COUNT. -/
def State.chunkSkipped (s : State) (i j c a : Nat) (bs : List Byte) : State :=
  match s.inst? i with
  | none => s
  | some x =>
    let e := x.e
    let s := if e.carries then
        let n := bs.length / e.ext
        let s := s.wr (e.carry + a * e.ext) (e.foldBytes (s.rd (e.carry + a * e.ext) (n * e.ext)) bs)
        { s with coll := { s.coll with carryValid := if s.coll.carryValid.contains i then s.coll.carryValid else s.coll.carryValid ++ [i] } }
      else s
    let key := j * 65536 + c
    if x.counted.contains key then s
    else
      let s := s.setInst { x with counted := x.counted ++ [key] }
      ((if e.carries then s.count .nynCarried else s.count .nynSkipped)).raise .nynEvent 5

/-- The contribution chunk by chunk: slice, chunk, first element and bytes in form. -/
def State.shares (s : State) (e : CEntry) (carry : Bool) : List (Nat × Nat × Nat × List Byte) :=
  (List.range e.js.length).flatMap (fun j => (List.range (e.chunks j)).map (fun c =>
    let a := (e.slice j).1 + (e.chunk j c).1
    (j, c, a, s.contribution e carry a (e.chunk j c).2)))

/-- This member sends its contribution to the intra roots of its group. -/
def State.contribute (s : State) (i : Nat) (x : Inst) : List (Nat × Nat × Nat × List Byte) → State
  | [] => s
  | (j, c, a, bs) :: r =>
    let own := s.ownId
    let root := own / 8 * 8 + x.e.js.getD j 0
    let s :=
      if root ≠ own then s.collSend i x root 0 0 j c bs
      else if bit (((s.inst? i).getD x).omittedIn c) own then s.chunkSkipped i j c a bs
      else (s.keepPiece i { src := own, field := collField 0 0 j c 0, bytes := bs }).foldIntra i c
    State.contribute s i x r

/-- ALLGATHER and BROADCAST: the bytes go to every other member, and to the own DST. -/
def State.give (s : State) (i : Nat) (x : Inst) : State :=
  let e := x.e
  let own := s.ownId
  if !e.givers.contains own then s
  else
    let off := if e.op = 4 then 0 else indexIn (idsOf e.members) own * e.count
    let s := ((idsOf e.members).filter (· != own)).foldl (fun s m =>
      (List.range (ceilDiv e.count 65536)).foldl (fun s c =>
        s.collSend i x m 2 0 0 c (s.rd (e.src + c * 65536) (min 65536 (e.count - c * 65536)))) s) s
    let s := s.wr (e.dst + off) (s.rd e.src e.count)
    let y := (s.inst? i).getD x
    s.setInst { y with got := y.got ++ [own] }

/-- Ranges of an entry checked as accesses of its partition (R342). -/
def State.collAccess (s : State) (e : CEntry) : Option Nat :=
  let n := e.count * e.native
  let out := if e.reduces then e.count * e.ext else if e.op = 3 then n * (idsOf e.members).length else n
  let chk (a len acc : Nat) : Option Nat := match s.rangeCheck s.collPart a len acc with | .error c => some c | .ok _ => none
  (chk e.src n 1).orElse (fun _ => (chk e.dst out 2).orElse (fun _ =>
    if e.carries then chk e.carry (e.count * e.ext) 3 else none))

/-- COLL_ENTRY_START (R347). -/
def State.collStart (s : State) (i : Nat) : State :=
  match s.inst? i with
  | none => s
  | some x =>
    let fired := x.waitDone || ((s.waitOf (.coll i)).map (·.fired)).getD false
    if x.st ≠ .waiting || !x.startReached || !fired
        || (s.coll.insts.filter (fun y => y.st == .running)).length ≥ 16
        || s.heldByCommit (some s.collPart) (some (s.cad.step * 65536 + x.e.s)) then s
    else
      let s := s.cancelWait (.coll i)
      match s.collAccess x.e with
      | some code => s.collFail i code s.ownId
      | none =>
        let x := { x with st := .running, waitDone := true }
        let s := s.setInst x
        let carry := x.e.carries && s.coll.carryValid.contains i
        let s := if x.e.reduces then
            let sh := s.shares x.e carry
            -- a carry taken is zeroed and no longer valid (R351)
            let s := if carry then
                { s with coll := { s.coll with carryValid := s.coll.carryValid.filter (· != i) } }.zero x.e.carry (x.e.count * x.e.ext)
              else s
            s.contribute i x sh
          else s.give i x
        s.collDone i

/-! ### COLL_DATA at this device (R343, R345, R350) -/

/-- What a COLL_DATA is answered with: an acknowledgement, SKIPPED, or FAIL with a code. -/
inductive CollAns where
  | ack
  | skipped
  | fail (code : Nat)
  deriving DecidableEq, Repr

/-- A piece takes effect in its instance. -/
def State.takePiece (s : State) (i : Nat) (p : Piece) : State :=
  match s.inst? i with
  | none => s
  | some x =>
    let e := x.e
    let stage := p.field / 2 ^ 24 % 4
    let k := p.field / 2 ^ 21 % 8
    let j := p.field / 2 ^ 18 % 8
    let c := p.field / 16 % 2 ^ 14
    let base := p.field / 16 * 16
    let y := if x.pieces.any (fun q => q.src == p.src && q.field == p.field) then x else { x with pieces := x.pieces ++ [p] }
    let s := s.setInst y
    if !e.reduces then
      let off := (if e.op = 4 then 0 else indexIn (idsOf e.members) p.src * e.count) + c * 65536
      let s := s.wr (e.dst + off) p.bytes
      let y := { y with written := if y.written.contains (p.src * 65536 + c) then y.written else y.written ++ [p.src * 65536 + c],
                        pieces := [] }
      let all := (List.range (ceilDiv e.count 65536)).all (fun c => y.written.contains (p.src * 65536 + c))
      let y := if all && !y.got.contains p.src then { y with got := y.got ++ [p.src] } else y
      (s.setInst y).collDone i
    else match stage with
    | 0 => s.foldIntra i c
    | 1 => s.foldInter i j c
    | _ =>
      let bs := y.gathered p.src base
      let want := (e.portion j c k).2 * e.ext
      if bs.length ≠ want + 8 then s
      else (s.setInst (y.dropPieces base)).collResult i k j c (fieldAt bs 0 8) (bs.drop 8)

/-- The contribution of `m` at this root is complete. -/
def State.contributed (s : State) (x : Inst) (m : Nat) : Bool :=
  if x.e.reduces then
    let j := indexIn x.e.js (s.ownId % 8)
    (List.range (x.e.chunks j)).all (fun c =>
      x.folded.contains c || bit (x.omittedIn c) m
        || (x.gathered m (collField 0 0 j c 0)).length == (x.e.chunk j c).2 * x.e.ext)
  else x.got.contains m

/-- Members whose contributions this device needs as a root. -/
def State.contributors (s : State) (e : CEntry) : List Nat := if e.reduces then s.groupIds e else e.givers

/-- Everything a root waited for has come: its hold ends (R352). -/
def State.collHoldCheck (s : State) (i : Nat) : State :=
  match s.inst? i with
  | some x => if (s.contributors x.e).all (fun m => s.contributed x m) then s.collRelease i else s
  | none => s

/-- A COLL_DATA addressed to this device. -/
def State.collData (s : State) (src tag field sig : Nat) (bs : List Byte) : CollAns × State :=
  match s.coll.insts.find? (fun x => x.e.tag == tag) with
  | none => (.ack, { s with coll := { s.coll with early := s.coll.early ++ [(tag, sig, Piece.mk src field bs)] } })
  | some x =>
    if x.e.sig ≠ sig then (.fail 0x0605, s.collFail x.entry 0x0605 src)
    else
      let c := field / 16 % 2 ^ 14
      let stage := field / 2 ^ 24 % 4
      let skipped := if x.e.reduces then stage = 0 && bit (x.omittedIn c) src
        else x.got.contains src && !x.written.contains (src * 65536 + c)
      if skipped then (.skipped, s)
      else (.ack, (s.takePiece x.entry (Piece.mk src field bs)).collHoldCheck x.entry)

/-- D of an entry is reached at this root (R349, R350, R352, R355). -/
def State.collDeadline (s : State) (i : Nat) : State :=
  match s.inst? i with
  | none => s
  | some x =>
    if x.deadlineDone || x.st = .failed || s.phaseInt < x.e.d then s
    else
      let lates := (s.contributors x.e).filter (fun m => !s.contributed x m)
      let s := s.setInst { x with deadlineDone := true }
      let s := lates.foldl (fun s _ => s.late (collItem i) 0 (some s.collPart) false 0 s.phaseInt) s
      if lates.isEmpty then s
      else if x.e.skip then
        if x.e.reduces then
          let j := indexIn x.e.js (s.ownId % 8)
          (List.range (x.e.chunks j)).foldl (fun s c =>
            match s.inst? i with
            | none => s
            | some x =>
              if x.folded.contains c then s
              else
                let gone := (s.groupIds x.e).filter (fun m =>
                  (x.gathered m (collField 0 0 j c 0)).length != (x.e.chunk j c).2 * x.e.ext)
                let s := s.setInst { x with
                  omitted := NMap.put x.omitted c (x.omittedIn c ||| (gone.map (2 ^ ·)).sum) }
                ((s.count .nynSkipped gone.length).foldIntra i c)) s
        else
          let n := ceilDiv x.e.count 65536
          let mask := (lates.map (2 ^ ·)).sum
          let s := s.rput .nynCollMiss (s.rget .nynCollMiss ||| BitVec.ofNat 64 mask)
          let s := s.count .nynSkipped (lates.length * n)
          (match s.inst? i with
          | some x => (s.setInst { x with got := x.got ++ lates, missing := x.missing ||| mask }).collDone i
          | none => s)
      else State.updateHold { s with cad := { s.cad with holdColl := s.cad.holdColl ++ [i] } }

/-- Tell every member that one of them has failed (R352). -/
def State.sendFail (s : State) (x : Inst) (who : Nat) : State :=
  ((idsOf x.e.members).filter (· != s.ownId)).foldl (fun s m =>
    s.sendPacket { dst := m, src := s.ownId, op := 11, status := 0x0606, addr := x.e.tag, aux := who }) s

/-- REPLACE: the wait for a contribution runs out (R352). -/
def State.replaceExpiry (s : State) (i code : Nat) : State :=
  match s.inst? i with
  | none => s
  | some x =>
    if !s.cad.holdColl.contains i then s
    else
      match (s.contributors x.e).filter (fun m => !s.contributed x m) with
      | [] => s.collRelease i
      | who :: _ => (s.sendFail x who).collFail i code who

/-- NYN_COLL_GRACE after D with no results for some slice (R353). -/
def State.graceExpiry (s : State) (i : Nat) : State :=
  match s.inst? i with
  | none => s
  | some x =>
    if x.st ≠ .running || s.phaseInt < x.e.d then s
    else if x.e.reduces then
      match (List.range x.e.js.length).find? (fun j =>
        let fs := (x.e.needed s.ownId).filter (fun f => f / 2 ^ 18 % 8 == j)
        !fs.isEmpty && fs.all (fun f => !x.written.contains f)) with
      | some j => s.collFail i 0x0606 (s.ownId / 8 * 8 + x.e.js.getD j 0)
      | none => s
    else
      match x.e.givers.find? (fun m => !x.got.contains m) with
      | some m => s.collFail i 0x0606 m
      | none => s

/-- A FAIL for a collective instance (R352). -/
def State.collFailIn (s : State) (tag code who : Nat) : State :=
  match s.coll.insts.find? (fun x => x.e.tag == tag) with
  | some x => s.collFail x.entry code who
  | none => s

/-- A COLL_ACK of status SKIPPED for one piece sent (R350). -/
def State.collSkipped (s : State) (i field : Nat) (bs : List Byte) : State :=
  match s.inst? i with
  | none => s
  | some x =>
    let j := field / 2 ^ 18 % 8
    let c := field / 16 % 2 ^ 14
    if x.e.reduces then
      s.chunkSkipped i j c ((x.e.slice j).1 + (x.e.chunk j c).1 + field % 16 * (65536 / x.e.ext)) bs
    else s.chunkSkipped i 0 c 0 bs

/-! ### Runs (R342) -/

/-- Open a run: its entries are read, and those that break R343 end at once. -/
def State.collOpen (s : State) : State :=
  let p := s.collPart
  let n := bits (s.rnat .nynCollCount) 8 0
  let a := s.rnat .nynCollTable
  let k := s.cad.step
  let early := s.coll.early
  let mk (i : Nat) : Inst :=
    let e := parseCEntry (s.rd (a + 64 * i) 64)
    { entry := i, e := e, startReached := decide (s.stepPhase ≥ k * 65536 + e.s), waitDone := !e.waits }
  let s := { s with coll := { s.coll with st := 2, insts := (List.range n).map mk, early := [] } }
  (List.range n).foldl (fun s i =>
    match s.rangeCheck p (a + 64 * i) 64 1 with
    | .error code => s.collFail i code s.ownId
    | .ok _ =>
      let b := s.rd (a + 64 * i) 64
      if s.collBad b then s.collFail i 0x0604 s.ownId
      else
        let e := parseCEntry b
        let s := if e.waits then
            (match s.waitRef p e.waitRef with
            | .ok r => s.registerWait (.coll i) p r e.waitTarget
            | .error code => s.collFail i code s.ownId)
          else s
        (early.filter (fun q => q.1 == e.tag && q.2.1 == e.sig)).foldl (fun s q => s.takePiece i q.2.2) s) s

/-- The sequencer is powered while any port domain is on. -/
def State.collPowered (s : State) : Bool := (List.range 14).any (fun p => s.domainOn (domPort p))

def State.collWrap (s : State) : State :=
  if !s.collPowered then s
  else if s.coll.st = 1 then s.collOpen.collClose
  else if s.coll.st = 2 then (s.issue 0x0608 { part := s.collPart }).stepFault s.collPart 0x0608
  else s

def State.collArm (s : State) : State := ({ s with coll := { s.coll with st := 1, disarm := false } }).startOfWork
def State.collDisarm (s : State) : State :=
  if s.coll.st = 1 then { s with coll := { s.coll with st := 0 } }
  else if s.coll.st = 2 then { s with coll := { s.coll with disarm := true } } else s

end Sys2Proof.Machine
end

