-- ==== Sys2Proof/Machine/Host.lean ====
section
/-! DEFINITION. The host port: rings, doorbells, commands, completions, Valley windows, the aperture and function-level
reset (R465 to R488). -/
namespace Sys2Proof.Machine

/-! ### Refused writes in the log (R528) -/

/-- Local address of register instance (i, j). -/
def RegName.localAddr (n : RegName) (i j : Nat) : Nat :=
  0x40000000 + n.row.base + i * n.row.s1 + j * n.row.s2

/-- A REFUSED entry for a register. -/
def State.logRefusedReg (s : State) (origin idx part : Nat) (n : RegName) (i j : Nat) (old value : Nat) : State :=
  s.logAdd { kind := 2, origin := origin, originIdx := idx, part := part, tkind := 0, target := n.localAddr i j, old := old, new := value }

/-- Partition that function `f` serves, as the log names it. -/
def State.partByte (s : State) (f : Nat) : Nat := ((s.partOfFn f).map (·.id)).getD 0xFF

/-! ### Rings (R471 to R477) -/

def State.ringOn (s : State) (f b : Nat) : Bool := s.rbit .hifRingCtrl b f
/-- Entries of the command ring and of the completion ring. -/
def State.cmdSize (s : State) (f : Nat) : Nat := 2 ^ (bits (s.rnat .hifRingSize f) 3 0 + 4)
def State.cplSize (s : State) (f : Nat) : Nat := 2 ^ (bits (s.rnat .hifRingSize f) 7 4 + 4)

/-- A doorbell is discarded (R477). -/
def State.dbRefused (s : State) (f value : Nat) : State :=
  (s.raise .hifEvent 1).logAdd { kind := 2, origin := 1, originIdx := f, part := s.partByte f, new := value }

/-- HIF_DB_CMD. -/
def State.dbCmd (s : State) (f value : Nat) : State :=
  let t := bits value 15 0
  if s.ringOn f 0 && t < s.cmdSize f then s.setFn f { s.fnSt f with cmdTail := t } else s.dbRefused f value

/-- HIF_DB_CPL. -/
def State.dbCpl (s : State) (f value : Nat) : State :=
  let h := bits value 15 0
  if s.ringOn f 1 && h < s.cplSize f then s.setFn f { s.fnSt f with cplHead := h } else s.dbRefused f value

/-- HIF_DB_STR. -/
def State.dbStr (s : State) (f value : Nat) : State :=
  if s.ringOn f 2 && value % 256 = 0 && value < s.rnat .hifStrLen f * 65536 then s.setFn f { s.fnSt f with strHead := value }
  else s.dbRefused f value

/-- The effect of an accepted write of HIF_RING_CTRL: enabling a ring sets its head and tail to 0 and its phase to 1. -/
def State.ringCtrlWritten (s : State) (f old : Nat) : State :=
  let v := s.rnat .hifRingCtrl f
  let rise (b : Nat) : Bool := bit v b && !bit old b
  let x := s.fnSt f
  let x := if rise 0 then { x with cmdHead := 0, cmdTail := 0 } else x
  let x := if rise 1 then { x with cplHead := 0, cplTail := 0, cplPhase := true } else x
  let x := if rise 2 then { x with strHead := 0, strTail := 0, strPhase := true } else x
  s.setFn f x

/-- Entries of the completion ring written and not yet read by the host. -/
def State.cplUsed (s : State) (f : Nat) : Nat :=
  let x := s.fnSt f
  (x.cplTail + s.cplSize f - x.cplHead % s.cplSize f) % s.cplSize f

/-- The completion ring has no room for one more entry. -/
def State.cplFull (s : State) (f : Nat) : Bool := decide (s.cplUsed f + 1 ≥ s.cplSize f)

/-- A command can be taken (R472); a disabled completion ring has no free entry. -/
def State.canTakeCmd (s : State) (f : Nat) : Bool :=
  let x := s.fnSt f
  s.ringOn f 0 && s.ringOn f 1 && decide (f ≤ s.hif.numVfs) && decide (x.cmdHead ≠ x.cmdTail)
    && decide (s.cplUsed f + x.reserved + 1 < s.cplSize f)

/-! ### The form of an entry (R479, Tables 18.4 to 18.6) -/

/-- An operand: its offset, its bytes and whether a value is in range. -/
structure Operand where
  off : Nat
  len : Nat
  ok : Nat → Bool

def upTo (n : Nat) : Nat → Bool := fun v => decide (v ≤ n)
def anyVal : Nat → Bool := fun _ => true
/-- HINT is one of Table 4.6. -/
def hintOk (v : Nat) : Bool := decide (v ≤ 7) && v != 3

/-- Operands of an OP; none for a reserved one. -/
def operandsOf (op : Nat) : Option (List Operand) :=
  let cx : List Operand := [{ off := 8, len := 1, ok := upTo 3 }, { off := 9, len := 1, ok := upTo 63 }]
  let tile : List Operand := [{ off := 8, len := 1, ok := upTo 23 }, { off := 9, len := 1, ok := upTo 3 }]
  let hold : Operand := { off := 8, len := 4, ok := upTo 131071 }
  match op with
  | 0x00 => some []
  | 0x01 => some [{ off := 8, len := 1, ok := upTo 3 }, { off := 9, len := 1, ok := hintOk },
      { off := 10, len := 1, ok := fun v => decide (v ≤ 7) || v == 0xFF }, { off := 11, len := 1, ok := upTo 7 },
      { off := 12, len := 4, ok := fun v => decide (1 ≤ v) }, { off := 16, len := 8, ok := fun v => decide (v % granule = 0) }]
  | 0x02 => some [hold]
  | 0x03 => some [hold, { off := 12, len := 1, ok := upTo 3 }, { off := 13, len := 1, ok := upTo 63 },
      { off := 16, len := 8, ok := fun v => decide (v % granule = 0) && decide (v < 2 ^ 56) }]
  | 0x04 => some [hold]
  | 0x10 => some (cx ++ [{ off := 16, len := 8, ok := anyVal }])
  | 0x11 => some cx
  | 0x12 => some cx
  | 0x18 => some (tile ++ [{ off := 16, len := 8, ok := fun v => decide (v < 2 ^ 56) }])
  | 0x19 => some tile
  | 0x1A => some tile
  | 0x20 => some [{ off := 8, len := 1, ok := upTo 15 }, { off := 10, len := 2, ok := anyVal },
      { off := 12, len := 4, ok := fun v => decide (1 ≤ v) && decide (v ≤ 1048576) },
      { off := 16, len := 8, ok := fun v => decide (v % 4 = 0) }, { off := 24, len := 8, ok := fun v => decide (v % 64 = 0) }]
  | 0x21 => some []
  | 0x22 => some [{ off := 8, len := 4, ok := anyVal }]
  | 0x23 => some []
  | 0x30 => some [{ off := 8, len := 1, ok := upTo 63 }, { off := 16, len := 8, ok := fun v => decide (v % 2097152 = 0) },
      { off := 24, len := 4, ok := fun v => decide (1 ≤ v) && decide (v ≤ 131072) }]
  | 0x31 => some [{ off := 8, len := 1, ok := upTo 63 }]
  | _ => none

/-- ADDR of an ALLOC lies in the pool range of TIER, or lets the pool choose where it may (Table 18.5). -/
def poolAddrOk (tier a : Nat) : Bool :=
  if a = 0 then decide (tier ≠ 3)
  else match tier with
    | 0 => decide (centralBase ≤ a) && decide (a < centralEnd)
    | 1 => decide (slopeBase 0 ≤ a) && decide (a < slopeBase 8)
    | 2 => isFoothill a
    | _ => isValley a && decide (a < valleyBase 64)

/-- Offset of the first offending byte of an entry of function `f`, if any. -/
def malformed (f : Nat) (b : List Byte) : Option Nat :=
  let op := fieldAt b 0 1
  match operandsOf op with
  | none => some 0
  | some os =>
    (List.range 64).find? (fun k =>
      if k = 0 then false
      else if k < 4 then !zeroAt b k 1
      else if k < 8 then false
      else match os.find? (fun o => decide (o.off ≤ k) && decide (k < o.off + o.len)) with
        | none => !zeroAt b k 1
        | some o => decide (k = o.off) && (!o.ok (fieldAt b o.off o.len)
            || (op == 1 && k == 11 && decide (f ≠ 0) && !zeroAt b 11 1)
            || (op == 1 && k == 16 && !poolAddrOk (fieldAt b 8 1) (fieldAt b 16 8))))

/-- DETAIL of NOT_PERMITTED for an OP that function `f` may not give (R466, Table 18.5). -/
def State.opDenied (s : State) (f op : Nat) : Option Nat :=
  if f ≠ 0 && op ≠ 0 && (s.partOfFn f).isNone then some 1
  else if f = 0 && 0x20 ≤ op && op ≤ 0x23 then some 2
  else none

/-- COMMAND_TAKE: the entry at HIF_CMD_HEAD, whose bytes the read brings, is taken (R472, R479). -/
def State.commandTake (s : State) (f : Nat) (entry : List Byte) : State :=
  if !s.canTakeCmd f then s
  else
    let b := slice entry 0 64
    let x := s.fnSt f
    let s := (s.setFn f { x with cmdHead := (x.cmdHead + 1) % s.cmdSize f, reserved := x.reserved + 1 }).count .hifCmdTaken 1 f
    let tag := fieldAt b 4 4
    let op := fieldAt b 0 1
    match malformed f b with
    | some k => s.complete f tag 2 k
    | none =>
      match s.opDenied f op with
      | some d => s.cplNotPermitted f tag d
      | none => let y := s.fnSt f; s.setFn f { y with taken := y.taken ++ [{ tag := tag, op := op, bytes := b }] }

/-! ### Completion entries (R473, R474, Table 18.7) -/

/-- Bytes of a completion entry. -/
def Cpl.bytes (c : Cpl) (phase : Bool) (step : Nat) : List Byte :=
  leBytes 4 c.tag ++ leBytes 1 c.kind ++ leBytes 1 (b2n phase) ++ leBytes 1 c.result ++ leBytes 1 c.detail
    ++ leBytes 2 c.code ++ leBytes 2 c.aux ++ leBytes 4 c.v32 ++ leBytes 8 c.v64 ++ leBytes 6 step ++ leBytes 2 0

/-- Write ready entries in order while the ring has room; the number written. -/
def State.writeCpls (s : State) (f : Nat) : Nat → Nat × State
  | 0 => (0, s)
  | fuel + 1 =>
    let x := s.fnSt f
    match x.ready with
    | [] => (0, s)
    | c :: r =>
      if s.cplFull f then (0, s)
      else
        let t := (x.cplTail + 1) % s.cplSize f
        let s := s.emit (.hostWrite f (s.rnat .hifCplBase f + 32 * x.cplTail) (c.bytes x.cplPhase s.cad.step))
        let s := s.setFn f { x with
          ready := r, cplTail := t, cplPhase := if t = 0 then !x.cplPhase else x.cplPhase,
          reserved := if c.own then x.reserved - 1 else x.reserved }
        let s := if c.frees then s.freeRecord c.v64 else s
        let q := State.writeCpls s f fuel
        (q.1 + 1, q.2)

/-- COMPLETION_WRITE. -/
def State.completionWrite (s : State) (f : Nat) : State :=
  if !s.ringOn f 1 then s
  else
    let q := s.writeCpls f (s.fnSt f).ready.length
    let v := q.2.rnat .hifRingVec f
    if q.1 ≠ 0 && bit v 15 then q.2.sendVector f (bits v 10 0) else q.2

/-! ### Commands on memory (Table 18.5) -/

/-- The holding that a command of function `f` names, if it is one of the function's partition. -/
def State.namedHold (s : State) (f id : Nat) : Option Holding :=
  match s.hold? id with
  | some h => if f = 0 || (s.partOfFn f).map (·.id) == some h.owner then some h else none
  | none => none

/-- A command that names a holding made by the Scaler or the serving unit is refused and logged (R162). -/
def State.refuseScalerHold (s : State) (f tag op id : Nat) : State :=
  (s.logAdd { kind := 2, origin := 1, originIdx := f, part := s.partByte f, tkind := 4, target := 0xFFFFFFFF * 2 ^ 32 + id,
              new := op }).cplNotPermitted f tag 4

/-- Command NOP. -/
def State.cmdNop (s : State) (f : Nat) : State :=
  match s.takeCmd f 0x00 with
  | some (c, s) => s.cplDone f c.tag
  | none => s

/-- Command ALLOC. -/
def State.cmdAlloc (s : State) (f : Nat) : State :=
  match s.takeCmd f 0x01 with
  | none => s
  | some (c, s) =>
    let addr := fieldAt c.bytes 16 8
    let size := fieldAt c.bytes 12 4
    let part := if f = 0 then (s.part? (fieldAt c.bytes 11 1)).map (·.id) else (s.partOfFn f).map (·.id)
    match part with
    | none => s.cplNotPermitted f c.tag 4
    | some p =>
      let code := if addr = 0 then 0 else
        match s.decode addr (size * granule) with
        | .error code => code
        | .ok _ => if f ≠ 0 && !s.windowOk p addr (size * granule) 0 then 0x0302 else 0
      if code ≠ 0 then (s.issue code { part := p }).cplError f c.tag code
      else s.hostAlloc f c.tag { part := p, tier := fieldAt c.bytes 8 1, addr := addr, stack := fieldAt c.bytes 10 1, size := size,
                                 hint := fieldAt c.bytes 9 1 }

/-- Command RELEASE (R119). -/
def State.cmdRelease (s : State) (f : Nat) : State :=
  match s.takeCmd f 0x02 with
  | none => s
  | some (c, s) =>
    let id := fieldAt c.bytes 8 4
    match s.namedHold f id with
    | none => (s.issue 0x0309).cplError f c.tag 0x0309
    | some h =>
      if h.by_ ≠ .host then s.refuseScalerHold f c.tag 2 id
      else if h.state = 2 then (s.issue 0x0308).cplError f c.tag 0x0308
      else
        let s := if (s.evictOf id).isSome then s.dropEvict id else s
        (s.freeHold id).cplDone f c.tag

/-- Command TOUCH (R124, R162). -/
def State.cmdTouch (s : State) (f : Nat) : State :=
  match s.takeCmd f 0x04 with
  | none => s
  | some (c, s) =>
    let id := fieldAt c.bytes 8 4
    match s.namedHold f id with
    | none => (s.issue 0x0309).cplError f c.tag 0x0309
    | some _ => (s.touchHold id).cplDone f c.tag

/-- Command MOVE: one MOVE descriptor on an IDLE partition channel of the holding's partition. -/
def State.cmdMove (s : State) (f : Nat) : State :=
  match s.takeCmd f 0x03 with
  | none => s
  | some (c, s) =>
    let id := fieldAt c.bytes 8 4
    let d := fieldAt c.bytes 12 1
    let n := fieldAt c.bytes 13 1
    match s.namedHold f id with
    | none => (s.issue 0x0309).cplError f c.tag 0x0309
    | some h =>
      if h.by_ ≠ .host then s.refuseScalerHold f c.tag 3 id
      else
        let code := if n = 63 || s.scalerOwned d n || s.ownerChan d n != some h.owner then 0x0107
          else if (s.chan d n).st ≠ .idle then 0x0106 else 0
        if code ≠ 0 then (s.issue code { cx := d, ch := n, part := h.owner }).cplError f c.tag code
        else
          let x := moveDesc (s.devAddr h.base) (s.devAddr (fieldAt c.bytes 16 8)) (h.size * granule)
          s.startOfWork.setChan d n { s.chan d n with
            st := .wait, work := .hostMove f c.tag, desc := x, cur := 0, hops := 0, startReached := true, waitDone := true,
            startAt := none, deadline := none, xfer := .none, done := 0, late := false }

/-! ### Commands to channels and contexts -/

/-- A command that the state of its channel or context discards. -/
def State.cmdDiscarded (s : State) (f tag : Nat) (n : RegName) (i j value : Nat) : State :=
  (s.logRefusedReg 1 f (s.partByte f) n i j 0 value).cplNotPermitted f tag 4

/-- Command DMA_GO (R216). -/
def State.cmdDmaGo (s : State) (f : Nat) : State :=
  match s.takeCmd f 0x10 with
  | none => s
  | some (c, s) =>
    let d := fieldAt c.bytes 8 1
    let n := fieldAt c.bytes 9 1
    let head := fieldAt c.bytes 16 8
    match s.startRefusal ((s.partOfFn f).map (·.id)) d n head with
    | some code => (s.issue code { cx := d, ch := n }).cplError f c.tag code
    | none => (s.startChain d n head).cplDone f c.tag

/-- Commands DMA_ABORT and DMA_CLEAR: `bitv` is the bit of DMA_CH_CTRL that does the same. -/
def State.chanCmd (s : State) (f op bitv : Nat) (act : State → Nat → Nat → Option State) : State :=
  match s.takeCmd f op with
  | none => s
  | some (c, s) =>
    let d := fieldAt c.bytes 8 1
    let n := fieldAt c.bytes 9 1
    if f ≠ 0 && s.ownerChan d n != (s.partOfFn f).map (·.id) then
      (s.issue 0x0107 { cx := d, ch := n }).cplError f c.tag 0x0107
    else
      match if n = 63 then none else act s d n with
      | some s => s.cplDone f c.tag
      | none => s.cmdDiscarded f c.tag .dmaChCtrl d n bitv

def State.cmdDmaAbort (s : State) (f : Nat) : State := s.chanCmd f 0x11 2 State.abortChan
def State.cmdDmaClear (s : State) (f : Nat) : State := s.chanCmd f 0x12 4 State.clearChan

/-- Command CTX_GO (R264). -/
def State.cmdCtxGo (s : State) (f : Nat) : State :=
  match s.takeCmd f 0x18 with
  | none => s
  | some (c, s) =>
    let t := fieldAt c.bytes 8 1
    let x := fieldAt c.bytes 9 1
    match s.ctxGoRefusal ((s.partOfFn f).map (·.id)) t x with
    | some code => (s.issue code).cplError f c.tag code
    | none => (s.ctxGo t x (fieldAt c.bytes 16 8)).cplDone f c.tag

/-- Commands CTX_STOP and CTX_CLEAR. -/
def State.ctxCmd (s : State) (f op bitv : Nat) (act : State → Nat → Nat → Option State) : State :=
  match s.takeCmd f op with
  | none => s
  | some (c, s) =>
    let t := fieldAt c.bytes 8 1
    let x := fieldAt c.bytes 9 1
    if f = 0 || s.ownerTile t != (s.partOfFn f).map (·.id) then (s.issue 0x0A25).cplError f c.tag 0x0A25
    else
      match act s t x with
      | some s => s.cplDone f c.tag
      | none => s.cmdDiscarded f c.tag .tilCtxCtrl t x bitv

def State.cmdCtxStop (s : State) (f : Nat) : State := s.ctxCmd f 0x19 2 State.ctxStop
def State.cmdCtxClear (s : State) (f : Nat) : State := s.ctxCmd f 0x1A 4 State.ctxClear

/-! ### Valley windows (R131, R132, R487, R488) -/

/-- Command GRANT. -/
def State.cmdGrant (s : State) (f : Nat) : State :=
  match s.takeCmd f 0x30 with
  | none => s
  | some (c, s) =>
    let w := fieldAt c.bytes 8 1
    if s.rnat .hifWinFunc w ≠ f then s.cplNotPermitted f c.tag 3
    else if (NMap.get? s.hif.windows w).isSome then s.cplNotPermitted f c.tag 4
    else
      let g : Window := { fn := f, bus := fieldAt c.bytes 16 8, size := fieldAt c.bytes 24 4 }
      State.cplDone { s with hif := { s.hif with windows := NMap.put s.hif.windows w g } } f c.tag

/-- A descriptor in progress accesses the range. -/
def Chan.touches (c : Chan) (a n : Nat) : Bool := c.ranges.any (fun r => overlaps r.1 r.2 a n)

/-- Unmap a window: accesses in progress end with 0x0307, and its holdings become LOST (R132). -/
def State.revokeWindow (s : State) (w : Nat) : State :=
  match NMap.get? s.hif.windows w with
  | none => s
  | some g =>
    let a := valleyBase w
    let n := g.size * 2097152
    let held := s.tier.holdings.any (fun e => e.2.meets a n)
    let busy := (s.dma.chans.filter (fun e => decide (e.2.st = .run) && e.2.touches a n)).map (·.1)
    let s := busy.foldl (fun s k => s.failChan (k / 64) (k % 64) 0x0307 a) s
    let s := s.loseRange a n
    let s := { s with hif := { s.hif with windows := NMap.del s.hif.windows w } }
    if held then s.raise .sclTierEvent 6 else s

/-- Command REVOKE: the window is gone at once, and the completion waits for the requests already issued. -/
def State.cmdRevoke (s : State) (f : Nat) : State :=
  match s.takeCmd f 0x31 with
  | none => s
  | some (c, s) =>
    let w := fieldAt c.bytes 8 1
    if s.rnat .hifWinFunc w ≠ f then s.cplNotPermitted f c.tag 3
    else if (NMap.get? s.hif.windows w).isNone then s.cplNotPermitted f c.tag 4
    else
      let s := s.revokeWindow w
      { s with hif := { s.hif with revoking := s.hif.revoking ++ [(w, f, some c.tag)] } }

/-- REVOKE_COMPLETE: every device request to window `w` has ended. -/
def State.revokeComplete (s : State) (w : Nat) : State :=
  match s.hif.revoking.find? (fun r => r.1 == w) with
  | none => s
  | some (_, f, tag) =>
    let s := { s with hif := { s.hif with revoking := s.hif.revoking.filter (fun r => r.1 != w) } }
    match tag with
    | some t => s.cplDone f t
    | none => s

/-! ### The aperture (R467) -/

/-- The code that an aperture access of `n` bytes at `a` by function `f` meets before any data moves. -/
def State.apertureCode (s : State) (f a n acc : Nat) : Nat :=
  match s.decode a n with
  | .error code => code
  | .ok r =>
    if (match r with | .valley _ => true | _ => false) then 0x0301
    else
      let inWindow := f = 0 || (match s.partOfFn f with | some p => s.windowOk p.id a n acc | none => false)
      if !inWindow then 0x0302
      else match r with
        | .foothill p => if s.tier.fhDown.contains p then 0x0306 else 0
        | _ => 0

/-- A failing aperture access. -/
def State.apertureFailed (s : State) (f code : Nat) : State :=
  (((s.issue code).rputN .hifLastErr (f * 2 ^ 28 + code)).count .hifAptErrs 1 f).raise .hifEvent 2

/-- APERTURE_ACCESS: a read of `n` bytes at BAR offset `off`, or a write of `data`. -/
def State.aperture (s : State) (f off n : Nat) (data : Option (List Byte)) (ecc : Ecc) : State :=
  let n := match data with | some d => d.length | none => n
  let a := s.rnat .hifAptBase f + off
  if n = 0 || off + n > 2 ^ 34 || f > s.hif.numVfs then s
  else
    let code := s.apertureCode f a n (if data.isSome then 2 else 1)
    match data with
    | some d => if code = 0 then s.wr a d else s.apertureFailed f code
    | none =>
      if code ≠ 0 then (s.apertureFailed f code).emit (.aperture f 1 [])
      else
        match ecc with
        | .uncorrectable b => ((s.eccUncorrected b).apertureFailed f 0x0303).emit (.aperture f 2 (s.rd a n))
        | .poison => ((s.raise .sclTierEvent 2).apertureFailed f 0x0304).emit (.aperture f 2 (s.rd a n))
        | .corrected => s.eccCorrected.emit (.aperture f 0 (s.rd a n))
        | .clean => s.emit (.aperture f 0 (s.rd a n))

/-! ### The end of commands (R469, R478) -/

/-- Commands of function `f` that have been carried out and wait for an event lose their completion; `code`, when given,
completes them with ERROR. -/
def State.dropWaiting (s : State) (f : Nat) (code : Option Nat) : State :=
  let fin (s : State) (tag : Nat) : State := match code with | some c => (s.issue c).cplError f tag c | none => s
  let moves := s.dma.chans.filterMap (fun e => match e.2.work with | .hostMove g tag => if g = f then some (e.1, tag) else none | _ => none)
  let s := moves.foldl (fun s e =>
    fin (s.setChan (e.1 / 64) (e.1 % 64) { s.chan (e.1 / 64) (e.1 % 64) with work := .chain }) e.2) s
  let ws := s.tier.waits.filterMap (fun w => match w.by_ with | .host g tag => if g = f then some (w.id, tag) else none | _ => none)
  let s := ws.foldl (fun s e =>
    fin { s with tier := { s.tier with waits := s.tier.waits.filter (fun w => w.id != e.1) } } e.2) s
  let rs := s.hif.revoking.filterMap (fun r => if r.2.1 = f then r.2.2 else none)
  let s := { s with hif := { s.hif with revoking := s.hif.revoking.map (fun r => if r.2.1 = f then (r.1, f, none) else r) } }
  rs.foldl fin s

/-- A full commit or an UNLOAD ends every command in flight with 0x0B0C (R478); a SUBMIT not yet carried out ends with
its REQUEST entry (R483). -/
def State.endCommands (s : State) : State :=
  (List.range 9).foldl (fun s f =>
    let ts := (s.fnSt f).taken
    let s := s.setFn f { s.fnSt f with taken := [] }
    let s := ts.foldl (fun s c =>
      let s := s.issue 0x0B0C
      if c.op = 0x20 then s.ready f { tag := c.tag, kind := 2, result := 3, code := 0x0B0C, v64 := 2 ^ 64 - 1, own := true }
      else s.cplError f c.tag 0x0B0C) s
    s.dropWaiting f (some 0x0B0C)) s

/-- Unwritten entries of function `f` are discarded, and the records of ended requests among them are free. -/
def State.discardCpls (s : State) (f : Nat) : State :=
  let s := (s.fnSt f).ready.foldl (fun s c => if c.frees then s.freeRecord c.v64 else s) s
  s.dropCpls f

/-- Function-level reset of one function (R469). -/
def State.flrOne (s : State) (f : Nat) : State :=
  let s := s.rputN .hifRingCtrl 0 f
  let s := (s.dropWaiting f none).discardCpls f
  let forget (x : Req) : Req := match x.resumeCmd with
    | some (g, _) => if g = f then { x with resumeCmd := none } else x
    | none => x
  let s : State := { s with srv := { s.srv with reqs := s.srv.reqs.map (fun e => (e.1, forget e.2)) } }
  let ws := s.hif.windows.filterMap (fun e => if e.2.fn = f then some e.1 else none)
  let s := ws.foldl (fun s w => s.revokeWindow w) s
  match s.partOfFn f with
  | none => s
  | some p =>
    let s := (List.range 64).foldl (fun s h =>
      if s.ownerHostCairn h = some p.id then
        (s.cancelWatch h).rputN .crnHcWcfg (s.rnat .crnHcWcfg h - (if s.rbit .crnHcWcfg 16 h then 65536 else 0)) h
      else s) s
    let s := s.rputN .srvPartCtrl (s.rnat .srvPartCtrl p.id - (if s.rbit .srvPartCtrl 0 p.id then 1 else 0)) p.id
    let s := ((s.reqsOf p.id).map (·.1)).foldl (fun s r => s.reqEvent r 0) s
    s.discardCpls f

/-- FUNCTION_LEVEL_RESET or entry to D3hot: PF0's resets every function. -/
def State.flr (s : State) (f : Nat) : State :=
  let s := if f = 0 then (List.range 9).foldl State.flrOne s else s.flrOne f
  s.raise .hifEvent 3

/-! ### Views -/

/-- HIF_RING_STATUS. FLR_PENDING reads 0: a reset is one event (DESIGN CHOICE, log entry 10). -/
def State.ringStatus (s : State) (f : Nat) : Nat :=
  let x := s.fnSt f
  x.reserved * 65536 + b2n x.streamWait * 4 + b2n (s.cplFull f) * 2

/-- Vector `v` lies in the own range of function `f` (R485). -/
def State.ownVector (s : State) (f v : Nat) : Bool := s.vectorOf f v

/-- HIF_LINK. -/
def State.hostLink (s : State) : Nat := if s.hif.linkUp then s.hif.width * 16 + s.hif.rate else 0

end Sys2Proof.Machine
end

