-- ==== Sys2Proof/Machine/EndWork.lean ====
section
/-! DEFINITION. Ending items and work from outside: a HOLD timeout (R72), a discontinuity (R59), a forced partial reload
(R98, R365) and an UNLOAD (Table 3.12). The code has been issued by whoever ends the work. -/
namespace Sys2Proof.Machine

/-! ### One item -/

/-- A context runs or waits. -/
def Ctx.busy (x : Ctx) : Bool := x.st == .run || x.st == .wait

/-- A channel has a chain, a MOVE or an item in hand. -/
def Chan.busy (c : Chan) : Bool := !(c.st == .idle || c.st == .stopped)

/-- End an item with a code (R59, R72). -/
def State.endItem (s : State) (i : Item) (code : Nat) : State :=
  match i with
  | .tileCtx t c => if (s.ctx t c).busy then s.ctxFault t c code true else s
  | .dmaCh d n =>
    if (s.chan d n).busy then
      match (s.chan d n).moving with
      | some id => (s.moveFailed id 1).stopChan d n code (s.chan d n).cur true
      | none => s.stopChan d n code (s.chan d n).cur true
    else s
  | .scaler p k => s.endScaler p k code
  | .update u => s.endUpdate u code true
  | .coll e => s.collFail e code s.ownId true
  | .intake p j => s.failJob p j code 0xFFFFFFFF 0

/-! ### Items scheduled up to a step -/

/-- A scheduled phase point lies before the end of step `k`. -/
def pointBy (k : Nat) (a : Option Nat) : Bool :=
  match a with
  | some v => decide (v < (k + 1) * 65536)
  | none => false

/-- A scheduled phase point lies in step `k`. -/
def pointIn (k : Nat) (a : Option Nat) : Bool :=
  match a with
  | some v => v / 65536 == k
  | none => false

def allCtxs : List (Nat × Nat) := (List.range 24).flatMap (fun t => (List.range 4).map (fun c => (t, c)))

/-- Contexts in which a phased operator is open, judged by `pt` on its points. -/
def State.phasedCtxs (s : State) (pt : Option Nat → Bool) : List (Nat × Nat) :=
  allCtxs.filter (fun e => (s.ctx e.1 e.2).busy && (pt (s.ctx e.1 e.2).startAt || pt (s.ctx e.1 e.2).deadline))

def State.phasedChans (s : State) (pt : Option Nat → Bool) : List (Nat × Nat) :=
  (s.dma.chans.filter (fun e => e.2.busy && (pt e.2.startAt || pt e.2.deadline))).map (fun e => (e.1 / 64, e.1 % 64))

def State.phasedJobs (s : State) (pt : Option Nat → Bool) : List IJob :=
  s.intake.jobs.filter (fun j => pt j.startAt || pt j.deadline)

def State.phasedUnits (s : State) (pt : Option Nat → Bool) : List Nat :=
  (List.range 8).filter (fun u => (s.unit u).st == .running && (s.unit u).pass != .none
    && (pt (s.unit u).startAt || pt (s.unit u).deadline))

/-- End every item given. -/
def State.endItems (s : State) (items : List Item) (code : Nat) : State := items.foldl (fun s i => s.endItem i code) s

def State.scheduledItems (s : State) (pt : Option Nat → Bool) (part : Nat → Bool) : List Item :=
  ((s.phasedCtxs pt).filter (fun e => (s.ownerTile e.1).any part)).map (fun e => ctxItem e.1 e.2)
  ++ ((s.phasedChans pt).filter (fun e => (s.chanPart e.1 e.2).any part)).map (fun e => chItem e.1 e.2)
  ++ ((s.scl.runs.filter (fun e => part (e.1 / 131072))).map (fun e => scalerItem (e.1 / 131072) (e.1 % 131072)))
  ++ ((s.phasedUnits pt).filter (fun u => (s.unitPart u).any part)).map updItem
  ++ (if part s.collPart then (s.coll.insts.filter (fun x => x.st == .waiting || x.st == .running)).map (fun x => collItem x.entry) else [])
  ++ ((s.phasedJobs pt).filter (fun j => part j.part)).map (fun j => intakeItem j.part j.num)

/-- A discontinuity ends the work scheduled in this step and the next (R59). -/
def State.endAllScheduled (s : State) (code : Nat) : State :=
  s.endItems (s.scheduledItems (pointBy (s.cad.step + 1)) (fun _ => true)) code

/-! ### A partition's work (R96, R98, R365) -/

/-- A request that an ADMIT has taken and that has not ended. -/
def Req.admitted? (x : Req) : Bool := !(x.stage == .queued || x.stage == .delayed || x.stage == .ended)

/-- The partition is drained for the step that begins (R96). -/
def State.drained (s : State) (p : Nat) : Bool :=
  let k := s.cad.step
  (s.reqsOf p).all (fun e => !e.2.admitted?)
    && (s.phasedCtxs (pointIn k)).all (fun e => s.ownerTile e.1 != some p)
    && (s.phasedChans (pointIn k)).all (fun e => s.chanPart e.1 e.2 != some p)
    && (s.phasedJobs (pointIn k)).all (fun j => j.part != p)
    && (match (s.ledger p).inForce with | some pl => pl.entries.isEmpty | none => true)
    && s.scl.runs.all (fun e => e.1 / 131072 != p || e.2.closed || e.2.failed || e.2.inReady)
    && (s.unitsOf p).all (fun u => !(s.unit u).isArmed)
    && (s.coll.st == 0 || s.collPart != p)

/-- Give up the MOVEs of pages on a partition's channels: the pages they move go with their requests. -/
def State.dropPageMoves (s : State) (p : Nat) : State :=
  let xs := s.dma.chans.filter (fun e => match e.2.work with
    | .park q _ _ _ => q == p
    | .handover r _ => (s.req? r).any (fun x => x.part == p)
    | _ => false)
  xs.foldl (fun s e =>
    let s := match e.2.moving with
      | some id => s.moveFailed id 1
      | none => s
    s.freeChan (e.1 / 64) (e.1 % 64)) s

/-- Free what a list of requests left behind, at once. -/
def State.releaseLeft (s : State) (p : Nat) : State :=
  let s := s.modSrvPart p (fun v => { v with out := [], list := [], toSample := false, offers := [], walks := [], inserts := [] })
  State.settleLeftovers { s with srv := { s.srv with left := s.srv.left.map (fun (x : Leftover) =>
    if x.part = p then { x with atWrap := false } else x) } }

/-- Free a request's record before its final entry has been written (R365). -/
def State.freeEarly (s : State) (p r : Nat) : State :=
  let f := s.fnOf p
  let x := s.fnSt f
  let s := s.setFn f { x with ready := x.ready.map (fun (c : Cpl) => if c.frees && c.v64 == r then { c with frees := false } else c) }
  s.freeRecord r

/-- Admitted requests of a partition end with a code; their pages, slots and records are freed (R98, R365). -/
def State.endRequests (s : State) (p code : Nat) : State :=
  let rs := ((s.reqsOf p).filter (fun e => e.2.admitted?)).map (·.1)
  let s := s.dropPageMoves p
  let s := rs.foldl (fun s r => (s.parkRelease p r).endReq r 3 code) s
  rs.foldl (fun s r => s.freeEarly p r) (s.releaseLeft p)

/-- A FORCE reload ends the admitted requests and unfinished items of the partition and releases what they hold
(R98). -/
def State.endPartWork (s : State) (p code : Nat) : State :=
  let s := s.endItems (s.scheduledItems (fun a => a.isSome) (fun q => q == p)) code
  let ks := (s.scl.runs.filter (fun e => e.1 / 131072 == p)).map (fun e => e.1 % 131072)
  let s := ks.foldl (fun s k => ((s.dropLegWait p k).closeRaw p k).freeRest p k) s
  s.endRequests p code

/-! ### All work (UNLOAD, Table 3.12) -/

/-- Holdings made by the Scaler or by SRV are released; those of host software stay. -/
def State.freeMade (s : State) : State :=
  let ids := (s.tier.holdings.filter (fun e => e.2.by_ != .host)).map (·.1)
  ids.foldl (fun s id => s.freeHold id) s

/-- Channels of the Scaler's and of SRV's items go idle; their holdings are dealt with apart. -/
def State.endTransfers (s : State) (code : Nat) : State :=
  (s.dma.chans.map (·.1)).foldl (fun s key =>
    let d := key / 64
    let n := key % 64
    let c := s.chan d n
    if !c.busy then s
    else
      let s := match c.moving with
        | some id => s.moveFailed id 1
        | none => s
      if c.work.isScaler || n = 63 then s.freeChan d n else s.stopChan d n code c.cur true) s

/-- UNLOAD ends all work with `code`; domains and registers keep their state. -/
def State.endAllWork (s : State) (code : Nat) : State :=
  let s := (s.intake.jobs.map (fun j => (j.part, j.num))).foldl (fun s e => s.failJob e.1 e.2 code 0xFFFFFFFF 0) s
  let s := (List.range 16).foldl (fun s g => if (s.group g).st = 1 then s.alnStopped g code else s) s
  let s := (s.coll.insts.map (·.entry)).foldl (fun s e => s.collFail e code s.ownId true) s
  let s := (List.range 8).foldl (fun s u =>
    match s.unitPart u with
    | some p =>
      let s := if (s.unit u).st = .running && (s.unit u).pass ≠ .none then s.unitError u p code 0 true else s
      s.setUnit u { s.unit u with st := .idle, pass := .none, disarm := false }
    | none => s) s
  let s := allCtxs.foldl (fun s e => s.endItem (ctxItem e.1 e.2) code) s
  let s := s.endTransfers code
  let s := (s.srv.reqs.map (·.1)).foldl (fun s r => match s.req? r with | some x => if x.stage = .ended then s else s.endReq r 3 code | none => s) s
  let s := { s with
    scl := {}, upd := { s.upd with parts := [] }, coll := {}, dma := { s.dma with routeQ := [] },
    srv := { s.srv with parts := [], left := [] },
    crn := { s.crn with waits := s.crn.waits.filter (fun w => match w.who with | .hostWatch _ => true | _ => false) },
    tier := { s.tier with evict := [], evictQueue := [], reserves := [] } }
  let s := { s with cad := { s.cad with holdItems := [], holdColl := [] } }.updateHold
  s.freeMade.endCommands

end Sys2Proof.Machine
end

