-- ==== Sys2Proof/Machine/Crypto.lean ====
section
/-! DEFINITION. SHA-384 (FIPS 180-4) and the verification of ECDSA signatures on P-384 (FIPS 186-5), which R77 names.
The constants are those of the two standards. -/
namespace Sys2Proof.Machine

/-! ### SHA-384 -/

def shaInit : List Nat :=
  [0xCBBB9D5DC1059ED8, 0x629A292A367CD507, 0x9159015A3070DD17, 0x152FECD8F70E5939,
   0x67332667FFC00B31, 0x8EB44A8768581511, 0xDB0C2E0D64F98FA7, 0x47B5481DBEFA4FA4]

def shaK0 : List Nat :=
  [0x428A2F98D728AE22, 0x7137449123EF65CD, 0xB5C0FBCFEC4D3B2F, 0xE9B5DBA58189DBBC,
   0x3956C25BF348B538, 0x59F111F1B605D019, 0x923F82A4AF194F9B, 0xAB1C5ED5DA6D8118,
   0xD807AA98A3030242, 0x12835B0145706FBE, 0x243185BE4EE4B28C, 0x550C7DC3D5FFB4E2,
   0x72BE5D74F27B896F, 0x80DEB1FE3B1696B1, 0x9BDC06A725C71235, 0xC19BF174CF692694,
   0xE49B69C19EF14AD2, 0xEFBE4786384F25E3, 0x0FC19DC68B8CD5B5, 0x240CA1CC77AC9C65,
   0x2DE92C6F592B0275, 0x4A7484AA6EA6E483, 0x5CB0A9DCBD41FBD4, 0x76F988DA831153B5,
   0x983E5152EE66DFAB, 0xA831C66D2DB43210, 0xB00327C898FB213F, 0xBF597FC7BEEF0EE4,
   0xC6E00BF33DA88FC2, 0xD5A79147930AA725, 0x06CA6351E003826F, 0x142929670A0E6E70,
   0x27B70A8546D22FFC, 0x2E1B21385C26C926, 0x4D2C6DFC5AC42AED, 0x53380D139D95B3DF,
   0x650A73548BAF63DE, 0x766A0ABB3C77B2A8, 0x81C2C92E47EDAEE6, 0x92722C851482353B]

def shaK1 : List Nat :=
  [0xA2BFE8A14CF10364, 0xA81A664BBC423001, 0xC24B8B70D0F89791, 0xC76C51A30654BE30,
   0xD192E819D6EF5218, 0xD69906245565A910, 0xF40E35855771202A, 0x106AA07032BBD1B8,
   0x19A4C116B8D2D0C8, 0x1E376C085141AB53, 0x2748774CDF8EEB99, 0x34B0BCB5E19B48A8,
   0x391C0CB3C5C95A63, 0x4ED8AA4AE3418ACB, 0x5B9CCA4F7763E373, 0x682E6FF3D6B2B8A3,
   0x748F82EE5DEFB2FC, 0x78A5636F43172F60, 0x84C87814A1F0AB72, 0x8CC702081A6439EC,
   0x90BEFFFA23631E28, 0xA4506CEBDE82BDE9, 0xBEF9A3F7B2C67915, 0xC67178F2E372532B,
   0xCA273ECEEA26619C, 0xD186B8C721C0C207, 0xEADA7DD6CDE0EB1E, 0xF57D4F7FEE6ED178,
   0x06F067AA72176FBA, 0x0A637DC5A2C898A6, 0x113F9804BEF90DAE, 0x1B710B35131C471B,
   0x28DB77F523047D84, 0x32CAAB7B40C72493, 0x3C9EBE0A15C9BEBC, 0x431D67C49C100D4C,
   0x4CC5D4BECB3E42B6, 0x597F299CFC657E2A, 0x5FCB6FAB3AD6FAEC, 0x6C44198C4A475817]

def w64 (n : Nat) : Nat := n % 2 ^ 64
def rotr64 (x n : Nat) : Nat := x / 2 ^ n ||| (x * 2 ^ (64 - n)) % 2 ^ 64
def shaS0 (x : Nat) : Nat := rotr64 x 28 ^^^ rotr64 x 34 ^^^ rotr64 x 39
def shaS1 (x : Nat) : Nat := rotr64 x 14 ^^^ rotr64 x 18 ^^^ rotr64 x 41
def shaR0 (x : Nat) : Nat := rotr64 x 1 ^^^ rotr64 x 8 ^^^ x / 2 ^ 7
def shaR1 (x : Nat) : Nat := rotr64 x 19 ^^^ rotr64 x 61 ^^^ x / 2 ^ 6
def shaCh (x y z : Nat) : Nat := (x &&& y) ^^^ ((2 ^ 64 - 1 - x) &&& z)
def shaMaj (x y z : Nat) : Nat := (x &&& y) ^^^ (x &&& z) ^^^ (y &&& z)

/-- The message schedule: the words so far with the newest first, and the words still to make. -/
def shaSchedule : Nat → List Nat → List Nat
  | 0, ws => ws.reverse
  | n + 1, ws =>
    shaSchedule n (w64 (shaR1 (ws.getD 1 0) + ws.getD 6 0 + shaR0 (ws.getD 14 0) + ws.getD 15 0) :: ws)

structure ShaRegs where
  a : Nat
  b : Nat
  c : Nat
  d : Nat
  e : Nat
  f : Nat
  g : Nat
  h : Nat
  deriving DecidableEq, Repr

def shaRound (r : ShaRegs) (kw : Nat × Nat) : ShaRegs :=
  let t1 := r.h + shaS1 r.e + shaCh r.e r.f r.g + kw.1 + kw.2
  let t2 := shaS0 r.a + shaMaj r.a r.b r.c
  { a := w64 (t1 + t2), b := r.a, c := r.b, d := r.c, e := w64 (r.d + t1), f := r.e, g := r.f, h := r.g }

def shaBlock (h : List Nat) (words : List Nat) : List Nat :=
  let v (i : Nat) : Nat := h.getD i 0
  let r0 : ShaRegs := { a := v 0, b := v 1, c := v 2, d := v 3, e := v 4, f := v 5, g := v 6, h := v 7 }
  let r := ((shaK0 ++ shaK1).zip (shaSchedule 64 words.reverse)).foldl shaRound r0
  (h.zip [r.a, r.b, r.c, r.d, r.e, r.f, r.g, r.h]).map (fun p => w64 (p.1 + p.2))

/-- Words of 64 bits, first octet most significant. -/
def beWords : Nat → List Byte → List Nat
  | 0, _ => []
  | n + 1, bs => beNat (bs.take 8) :: beWords n (bs.drop 8)

def beBytes (n v : Nat) : List Byte := (leBytes n v).reverse

def shaPad (bs : List Byte) : List Byte :=
  let z := (239 - bs.length % 128) % 128
  bs ++ [0x80] ++ List.replicate z 0 ++ beBytes 16 (bs.length * 8)

def shaBlocks : Nat → List Nat → List Byte → List Nat
  | 0, h, _ => h
  | n + 1, h, bs => shaBlocks n (shaBlock h (beWords 16 (bs.take 128))) (bs.drop 128)

/-- The 48 octets of SHA-384. -/
def sha384 (bs : List Byte) : List Byte :=
  let p := shaPad bs
  ((shaBlocks (p.length / 128) shaInit p).take 6).flatMap (beBytes 8)

/-! ### P-384 -/

def p384 : Nat := 2 ^ 384 - 2 ^ 128 - 2 ^ 96 + 2 ^ 32 - 1
def n384 : Nat := 0xFFFFFFFFFFFFFFFFFFFFFFFFFFFFFFFFFFFFFFFFFFFFFFFFC7634D81F4372DDF581A0DB248B0A77AECEC196ACCC52973
def b384 : Nat := 0xB3312FA7E23EE7E4988E056BE3F82D19181D9C6EFE8141120314088F5013875AC656398D8A2ED19D2A85C8EDD3EC2AEF
def gx384 : Nat := 0xAA87CA22BE8B05378EB1C71EF320AD746E1D3B628BA79B9859F741E082542A385502F25DBF55296C3A545E3872760AB7
def gy384 : Nat := 0x3617DE4A96262C6F5D9E98BF9292DC29F8F41DBD289A147CE9DA3113B5F0B8C00A60B1CE1D7E819D7A431D7C90EA0E5F

/-- x^e mod m, over the bits of e from bit `n - 1` down. -/
def powMod (x e m : Nat) : Nat → Nat
  | 0 => 1 % m
  | n + 1 =>
    let r := powMod x (e / 2) m n
    let q := r * r % m
    if e % 2 = 1 then q * x % m else q

def invMod (x m : Nat) : Nat := powMod x (m - 2) m 384
def subP (a b : Nat) : Nat := (a + p384 - b % p384) % p384

/-- A point in Jacobian coordinates; z = 0 is the point at infinity. -/
structure JPoint where
  x : Nat
  y : Nat
  z : Nat
  deriving DecidableEq, Repr

def JPoint.dbl (q : JPoint) : JPoint :=
  if q.z = 0 || q.y = 0 then { x := 1, y := 1, z := 0 }
  else
    let d := q.z * q.z % p384
    let g := q.y * q.y % p384
    let b := q.x * g % p384
    let a := 3 * (subP q.x d) * (q.x + d) % p384
    let x := subP (a * a) (8 * b)
    { x := x, y := subP (a * subP (4 * b) x) (8 * g * g), z := 2 * q.y * q.z % p384 }

def JPoint.add (q r : JPoint) : JPoint :=
  if q.z = 0 then r else if r.z = 0 then q
  else
    let qz := q.z * q.z % p384
    let rz := r.z * r.z % p384
    let u1 := q.x * rz % p384
    let u2 := r.x * qz % p384
    let s1 := q.y * rz * r.z % p384
    let s2 := r.y * qz * q.z % p384
    if u1 = u2 then if s1 = s2 then q.dbl else { x := 1, y := 1, z := 0 }
    else
      let h := subP u2 u1
      let k := subP s2 s1
      let hh := h * h % p384
      let hhh := h * hh % p384
      let v := u1 * hh % p384
      let x := subP (subP (k * k) hhh) (2 * v)
      { x := x, y := subP (k * subP v x) (s1 * hhh), z := h * q.z * r.z % p384 }

/-- k times a point, over `n` bits of k. -/
def JPoint.mul (q : JPoint) (k : Nat) : Nat → JPoint
  | 0 => { x := 1, y := 1, z := 0 }
  | n + 1 =>
    let r := (JPoint.mul q (k / 2) n).dbl
    if k % 2 = 1 then r.add q else r

def onCurve384 (x y : Nat) : Bool :=
  decide (x < p384) && decide (y < p384) && (y * y % p384 == (subP (x * x * x) (3 * x) + b384) % p384)

/-- ECDSA verification of (r, s) over a 48-octet digest under the public key (qx, qy). -/
def ecdsaVerify (qx qy r s : Nat) (digest : List Byte) : Bool :=
  onCurve384 qx qy && decide (1 ≤ r) && decide (r < n384) && decide (1 ≤ s) && decide (s < n384) &&
    (let w := invMod s n384
     let u1 := beNat digest * w % n384
     let u2 := r * w % n384
     let t := (JPoint.mul { x := gx384, y := gy384, z := 1 } u1 384).add
       (JPoint.mul { x := qx, y := qy, z := 1 } u2 384)
     if t.z = 0 then false
     else
       let zi := invMod t.z p384
       t.x * zi % p384 * zi % p384 % n384 == r)

end Sys2Proof.Machine
end

