-- ==== Sys2Proof/Machine/RegChecks.lean ====
section
/-! DEFINITION. Where a register window offset leads, and which values a field can hold (R7, R10, R88, Table 23.3). -/
namespace Sys2Proof.Machine

/-! ### Offsets -/

/-- Indices of an offset in a row's array, and whether it names the upper half of a 64-bit register. -/
def RegRow.locate (r : RegRow) (off : Nat) : Option (Nat × Nat × Bool) :=
  let at_ (o : Nat) : Option (Nat × Nat × Bool) :=
    if o = 0 then some (0, 0, false) else if r.w64 && o = 4 then some (0, 0, true) else none
  if off < r.base then none
  else
    let d := off - r.base
    let i := if r.s1 = 0 then 0
      else if r.s2 = 0 || r.s2 < r.s1 then d / r.s1 else (d % r.s2) / r.s1
    let j := if r.s2 = 0 then 0
      else if r.s1 = 0 || r.s1 < r.s2 then d / r.s2 else (d % r.s1) / r.s2
    if i < r.c1 && j < r.c2 && i * r.s1 + j * r.s2 ≤ d then
      (at_ (d - i * r.s1 - j * r.s2)).map (fun t => (i, j, t.2.2))
    else none

def locateIn (off : Nat) : List RegName → Option (RegName × Nat × Nat × Bool)
  | [] => none
  | n :: ns =>
    match n.row.locate off with
    | some (i, j, up) => some (n, i, j, up)
    | none => locateIn off ns

/-- The register at a 4-byte aligned window offset (Tables 23.2 and 23.3); a gap has none. -/
def findReg (off : Nat) : Option (RegName × Nat × Nat × Bool) :=
  if off % 4 = 0 then locateIn off (regsAt off) else none

/-! ### Reserved encodings (R10) -/

/-- FP32 value in 0 ≤ b < 1, as UPD_B1 and UPD_B2 ask (Table 11.5): a negative zero is 0. -/
def unitBelowOne (v : Nat) : Bool := decide (v < 0x3F800000) || v == 0x80000000

/-- At most one of the two low bits. -/
def oneOfTwo (v : Nat) : Bool := bits v 1 0 != 3
/-- At most one of the three low bits. -/
def oneOfThree (v : Nat) : Bool := let b := bits v 2 0; b == 0 || b == 1 || b == 2 || b == 4

/-- HIF_APT_BASE: 16 GiB aligned, in the Crest, Slope or Foothill range (Tables 18.11, 23.1). -/
def aptBaseOk (v : Nat) : Bool :=
  v % 2 ^ 34 == 0 && (decide (v < 0x10000000) || inRange v 0x001000000000 0x006FFFFFFFFF
    || inRange v 0x010000000000 0x08FFFFFFFFFF)

/-- No field of instance `i` of the register holds a reserved encoding, an out-of-range value or an unaligned address
(R10), for a value whose reserved bits are 0. -/
def RegName.fieldOk (n : RegName) (i : Nat) (v : Nat) : Bool :=
  match n with
  | .hifWinFunc => decide (v ≤ 8) || v == 15
  | .hifRingSize => decide (bits v 3 0 ≤ 12) && decide (bits v 7 4 ≤ 12)
  | .hifCmdBase | .hifCplBase | .hifStrBase => v % 4096 == 0
  | .hifStrLen => inRange v 1 16384
  | .hifAptBase => aptBaseOk v
  | .imgCmd => inRange (bits v 3 0) 1 6
  | .imgWaitMax => inRange v 1 60000000
  | .imgKeyCmd => inRange (bits v 3 2) 1 2
  | .cadFlyMax => inRange v 1 10000
  | .cadHoldMax => inRange v 1 1000000
  | .cadSlipLimit => inRange v 41 65535
  | .cadMasterPeriod => decide (0x200 ≤ v)
  | .pwrSsc => inRange (bits v 15 8) 60 66 && decide (bits v 4 0 ≤ if i = 0 then 20 else 10)
  | .pwrTempWarn => decide (v ≤ 0x730)
  | .sclTierRetry => decide (1 ≤ bits v 23 16) && inRange (bits v 15 0) 1 1000
  | .sclLedgerCmd => inRange (bits v 3 0) 1 3
  | .sclPlanRatio => decide (1 ≤ bits v 31 24) && decide (1 ≤ bits v 23 16) && decide (1 ≤ bits v 15 8)
  | .sclKvTtl => decide (1 ≤ v)
  | .dmaHopLimit => decide (1 ≤ v)
  | .dmaReadTimeout => inRange v 1 10000
  | .dmaChCtrl | .tilCtxCtrl => oneOfThree v
  | .crnWaitTmo => inRange v 1 100000000
  | .crnRemoteTmo => inRange v 1 10000
  | .crnHcMirror => v % 4 == 0
  | .updCtrl | .nynCollCtrl | .alnGCtrl => oneOfTwo v
  | .updTableAddr =>
    v % 64 == 0 && inRange v (0x001000000000 + i * 0x000C00000000) (0x001000000000 + (i + 1) * 0x000C00000000 - 1)
  | .updTableCount => inRange v 1 4096
  | .updLsCfg => decide (1 ≤ bits v 7 4)
  | .updLsExp => let e := signed 8 v; decide (-64 ≤ e) && decide (e ≤ 64)
  | .updLsRange => decide (signed 8 (bits v 7 0) ≤ signed 8 (bits v 15 8))
  | .updB1 | .updB2 => unitBelowOne v
  | .nynE2eCfg => decide (1 ≤ bits v 23 16) && inRange (bits v 15 0) 1 1000
  | .nynRetrainGap => inRange v 1 100000
  | .nynCollTable | .srvGlistAddr | .srvPlistAddr | .intRingBase | .alnGAddr => v % 64 == 0
  | .nynCollCount => inRange v 1 256
  | .nynReplaceWait | .nynCollGrace => inRange v 1 1000000
  | .srvSlots => decide (v ≤ 1024)
  | .srvModelCmd => inRange (bits v 2 0) 1 4
  | .srvPlistLen | .intRingLen => decide (1 ≤ v)
  | .srvTreeAddr | .srvLogitsAddr => v % 65536 == 0
  | .srvTreeNodes => inRange v 16 1048576
  | .srvTreeCmd => inRange (bits v 1 0) 1 2
  | .srvSpecMax => decide (v ≤ 8)
  | .admQdepth => inRange v 1 32768
  | .admNoticeGap => decide (1 ≤ v)
  | .admQuantum => inRange v 1 0xFFFFFF
  | .admAccounts => inRange v 1 4096
  | .admPromptTokens => inRange v 64 1048576
  | .admChunk => v % 64 == 0 && inRange v 64 65536
  | .intPortCfg => v != 3
  | .intRetry => decide (1 ≤ bits v 23 16) && inRange (bits v 15 0) 1 10000
  | .intCmdTimeout => inRange v 100 1000000
  | .intTmoLimit => inRange v 1 255
  | .intResultBase => v % 32 == 0
  | _ => true

/-- A REGISTERS record may address the register: it is not RO, WO, RC or W1C (R88). -/
def RegName.recordable (n : RegName) : Bool := n.row.acc == .rw

/-- The 32 bits of a 64-bit register a half names. -/
def halfShift (up : Bool) : Nat := if up then 32 else 0

/-- The value a record leaves (R87): (old AND NOT MASK) OR (VALUE AND MASK), in the half it addresses. -/
def recordValue (old val mask : Nat) (up : Bool) : Nat :=
  let sh := halfShift up
  let m := mask * 2 ^ sh
  (old &&& (2 ^ 64 - 1 - m)) ||| ((val &&& mask) * 2 ^ sh)

end Sys2Proof.Machine
end

