-- ==== Sys2Proof/Machine/ImageCheck.lean ====
section
/-! DEFINITION. What the loader checks of a staged image: header, signature, section table and section bodies, in that
order (R76 to R99, R108, R158, R206, R313, R331, R336, R378, R424). -/
namespace Sys2Proof.Machine

/-- A check that failed: its code, and for IMG_REJECT_INFO the section and the record or cell (R95). -/
structure Reject where
  code : Nat
  sec : Nat := 0xFFFF
  item : Nat := 0xFFFF
  deriving DecidableEq, Repr

/-- The header of an image (Table 3.1). -/
structure Header where
  full : Bool
  part : Nat
  total : Nat
  count : Nat
  sig : Nat
  security : Nat
  version : Nat
  base : List Byte
  machine : Nat
  deriving DecidableEq, Repr

def parseHeader (b : List Byte) : Header := {
  full := fieldAt b 6 1 == 1, part := fieldAt b 7 1, total := fieldAt b 12 4, count := fieldAt b 16 2,
  sig := fieldAt b 20 4, security := fieldAt b 24 4, version := fieldAt b 28 4, base := slice b 40 8,
  machine := fieldAt b 48 8 }

/-- The longest image of each kind (R76). -/
def Header.limit (h : Header) : Nat := if h.full then 8 * 2 ^ 20 else 2 ^ 20

/-- The KIND a load command takes; VERIFY_ONLY takes either. -/
def kindFits (op : LoadOp) (full : Bool) : Bool :=
  match op with
  | .full | .flash => full
  | .part => !full
  | .verify => true

/-- Bytes 56 to 127 and 18 to 19 are zero (R84). -/
def headerReserved (b : List Byte) : Bool := zeroAt b 18 2 && zeroAt b 56 72

/-- The header (R76, R81, R95), for a source of `avail` bytes. -/
def State.checkHeader (s : State) (op : LoadOp) (b : List Byte) (avail : Nat) : Option Reject :=
  let h := parseHeader b
  let kind := fieldAt b 6 1
  if fieldAt b 0 4 ≠ 0x51415548 then some { code := 0x0B01 }
  else if fieldAt b 8 2 ≠ 0x1A64 || fieldAt b 10 1 ≠ 1 || fieldAt b 11 1 > bits (s.rnat .hifIdent) 7 0 then
    some { code := 0x0B02 }
  else if fieldAt b 4 1 ≠ 1 || (kind ≠ 1 && kind ≠ 2) || !kindFits op h.full then some { code := 0x0B03 }
  else if h.full && (h.part ≠ 0xFF || h.base.any (· != 0)) then some { code := 0x0B03 }
  else if h.total % 16 ≠ 0 || h.total > h.limit || h.sig + 256 ≠ h.total || !inRange h.count 1 1024
      || !headerReserved b || h.total > avail || 128 + 32 * h.count > h.sig || h.total > b.length then
    some { code := 0x0B04 }
  else if !h.full && ((s.part? h.part).isNone || h.base ≠ s.img.digest.take 8 || s.img.sections.isEmpty) then
    some { code := 0x0B0B }
  else none

/-! ### Keys and signature -/

/-- The hash a key slot holds: slot 0 from manufacture, the others once programmed (R78). -/
def Img.keyHash (m : Img) (slot : Nat) : Option (List Byte) :=
  if slot = 0 then some ((List.range 48).map Config.afmondKeyHash) else NMap.get? m.keys slot

/-- Programmed and not revoked. -/
def Img.keyUsable (m : Img) (slot : Nat) : Bool :=
  decide (slot ≤ 3) && (slot == 0 || (NMap.get? m.keys slot).isSome) && !m.revoked.contains slot

/-- The signature block (R77, R84) and the security version (R79), in the order of their codes. -/
def State.checkSignature (s : State) (b : List Byte) : Option Reject :=
  let h := parseHeader b
  let g := slice b h.sig 256
  let slot := fieldAt g 0 1
  if !s.img.keyUsable slot || s.img.keyHash slot ≠ some (sha384 (slice g 8 96)) then some { code := 0x0B05 }
  else if fieldAt g 1 1 ≠ 1 || !zeroAt g 2 6 || !zeroAt g 200 56
      || !ecdsaVerify (fieldAt g 8 48) (fieldAt g 56 48) (fieldAt g 104 48) (fieldAt g 152 48)
        (sha384 (b.take h.sig)) then some { code := 0x0B06 }
  else if h.security < s.img.svFloor then some { code := 0x0B07 }
  else none

/-! ### The section table -/

/-- An entry of the section table with its body. -/
structure SecEntry where
  idx : Nat
  sec : Section
  off : Nat
  len : Nat
  crc : Nat
  deriving DecidableEq, Repr

def parseSections (b : List Byte) : List SecEntry :=
  (List.range (parseHeader b).count).map (fun k =>
    let e := slice b (128 + 32 * k) 32
    let off := fieldAt e 8 4
    let len := fieldAt e 12 4
    { idx := k, off := off, len := len, crc := fieldAt e 16 4,
      sec := { type := fieldAt e 0 2, scope := fieldAt e 2 1, flags := fieldAt e 3 1, inst := fieldAt e 4 4,
               body := slice b off len } })

/-- Whether a type may stand in device scope, and in partition scope (Table 3.4); none for an unknown type. -/
def typeScopes : Nat → Option (Bool × Bool)
  | 1 | 2 | 3 | 5 | 6 => some (true, false)
  | 4 | 9 | 10 => some (false, true)
  | 7 | 8 | 11 => some (true, true)
  | _ => none

/-- SUBKEY of a curve (Table 3.5). -/
def subkeyOk (curve sub : Nat) : Bool :=
  match curve with
  | 1 => decide (bits sub 7 4 ≤ 3) && decide (bits sub 3 0 ≤ 3)
  | 2 | 3 => sub == 0
  | 4 => decide (sub ≤ 7)
  | _ => false

/-- INSTANCE of a section (Table 3.4). -/
def instOk (type inst : Nat) : Bool :=
  match type with
  | 1 | 2 | 3 | 4 | 5 | 6 => inst == 0
  | 7 => decide (inst ≤ 15)
  | 8 => inRange inst 1 3
  | 9 => decide (inst ≤ 31)
  | 10 => decide (inst < 65536) && subkeyOk (inst / 256) (inst % 256)
  | _ => true

/-- One entry taken alone (R82, R84, Tables 3.3 and 3.4). -/
def entryOk (h : Header) (raw : List Byte) (e : SecEntry) : Bool :=
  let x := e.sec
  decide (x.flags ≤ 1) && zeroAt raw 20 12 && (x.scope == 0xFF || decide (x.scope ≤ 7))
    && e.off % 16 == 0 && decide (16 ≤ e.len) && decide (128 + 32 * h.count ≤ e.off) && decide (e.off + e.len ≤ h.sig)
    && (match typeScopes x.type with
        | some (dev, par) =>
          (if x.scope = 0xFF then dev && h.full else par) && instOk x.type x.inst && (x.type != 11 || x.flags == 1)
            && (h.full || x.scope == h.part)
        | none => x.flags == 1 && (h.full || x.scope == h.part))

def sameKey (a b : Section) : Bool := a.type == b.type && a.scope == b.scope && a.inst == b.inst

/-- The entry shares its key or bytes with an earlier one (R82). -/
def meetsEarlier (es : List SecEntry) (e : SecEntry) : Bool :=
  es.any (fun x => decide (x.idx < e.idx) && (sameKey x.sec e.sec || (decide (x.off < e.off + e.len) && decide (e.off < x.off + x.len))))

def findSec (es : List SecEntry) (type scope inst : Nat) : Option SecEntry :=
  es.find? (fun e => e.sec.type == type && e.sec.scope == scope && e.sec.inst == inst)

/-- PART_IDs of a PARTITIONS body whose framing holds. -/
def partIds (b : List Byte) : Option (List Nat) :=
  let n := fieldAt b 0 1
  if inRange n 1 8 && b.length == 16 + 64 * n then some ((List.range n).map (fun k => fieldAt b (16 + 64 * k) 1)) else none

/-- The section table (R82 to R84). -/
def checkTable (b : List Byte) : Option Reject :=
  let h := parseHeader b
  let es := parseSections b
  let bad (e : SecEntry) : Bool := !entryOk h (slice b (128 + 32 * e.idx) 32) e || meetsEarlier es e
  match es.find? bad with
  | some e => some { code := 0x0B08, sec := e.idx }
  | none =>
    if !h.full then none
    else if [1, 2, 3, 5, 6].any (fun t => (findSec es t 0xFF 0).isNone) then some { code := 0x0B08 }
    else
      match (findSec es 2 0xFF 0).bind (fun e => partIds e.sec.body) with
      | none => none
      | some ids =>
        match es.find? (fun e => (typeScopes e.sec.type).isSome && e.sec.scope != 0xFF && !ids.contains e.sec.scope) with
        | some e => some { code := 0x0B08, sec := e.idx }
        | none =>
          if ids.all (fun p => (findSec es 4 p 0).isSome && [1, 2, 3].all (fun m => (findSec es 8 p m).isSome)) then none
          else some { code := 0x0B08 }

def checkCrcs (es : List SecEntry) : Option Reject :=
  (es.find? (fun e => crc32c e.sec.body != e.crc)).map (fun e => { code := 0x0B09, sec := e.idx })

/-! ### Section bodies. Each check answers the failing record or cell, 0xFFFF where there is none. -/

/-- The first index below `n` that is bad. -/
def firstBad (n : Nat) (bad : Nat → Bool) : Option Nat := (List.range n).find? bad

/-- Pass, or fail without an index. -/
def whole (ok : Bool) : Option Nat := if ok then none else some 0xFFFF

def checkPower (b : List Byte) : Option Nat :=
  whole (b.length == 16 && fieldAt b 7 1 == 0 && zeroAt b 8 8 && bit (fieldAt b 0 8) 48)

def checkCadence (b : List Byte) : Option Nat :=
  if b.length ≠ 64 then some 0xFFFF
  else firstBad 64 (fun n =>
    let r := fieldAt b n 1
    decide (r > 7) || (r != 0 && (List.range n).any (fun m => fieldAt b m 1 == r)))

/-- IDENTITY (R331, R336, Table 12.4). With SPARE set only FLAGS, GROUP and MEMBER_MASK are checked. -/
def State.checkIdentity (s : State) (b : List Byte) : Option Nat :=
  let spare := bit (fieldAt b 3 1) 0
  let id := fieldAt b 0 1
  let g := fieldAt b 1 1
  let i := fieldAt b 2 1
  whole (b.length == 64 && decide (fieldAt b 3 1 ≤ 1) && decide (g ≤ 7)
    && (spare || (decide (i ≤ 7) && id == 8 * g + i && bits (fieldAt b 4 2) 15 14 == 0 && zeroAt b 6 2 && zeroAt b 24 40
        && bit (fieldAt b 8 8) id))
    && g == s.slotGrp && (decide (7 < s.slotPos) || s.slotPos == i))

/-- The links of a route as pairs (device, port), one end each, or none when it does not reach `dst` (R336). -/
def routeLinks (own dst port via members mask : Nat) : Option (List ((Nat × Nat) × (Nat × Nat))) :=
  if port > 13 || !bit mask port then none
  else
    let f := facing own port
    let l1 := ((own, port), (f, farPort port))
    if via = 0xFF then if f = dst then some [l1] else none
    else if via > 63 || via = own || via = dst || !bit members via || f ≠ via then none
    else match portTo via dst with
      | some q => some [l1, ((via, q), (dst, farPort q))]
      | none => none

def sameLink (a b : (Nat × Nat) × (Nat × Nat)) : Bool := a == b || a == (b.2, b.1)

/-- ROUTES (R336, Table 12.5), beside the IDENTITY body of the same image. -/
def checkRoutes (ident b : List Byte) : Option Nat :=
  if b.length ≠ 4096 then some 0xFFFF
  else
    let spare := bit (fieldAt ident 3 1) 0
    let own := fieldAt ident 0 1
    let members := fieldAt ident 8 8
    let mask := fieldAt ident 4 2
    firstBad 64 (fun n =>
      let r := slice b (64 * n) 64
      let none4 := fieldAt r 0 4 == 0xFFFFFFFF
      if !zeroAt r 4 60 then true
      else if spare || n = own || !bit members n then !none4
      else
        match routeLinks own n (fieldAt r 0 1) (fieldAt r 1 1) members mask,
            routeLinks own n (fieldAt r 2 1) (fieldAt r 3 1) members mask with
        | some ps, some qs => ps.any (fun p => qs.any (fun q => sameLink p q))
        | _, _ => true)

/-- Capacity of the fast pool in MiB, less failed stacks (R108, R521). -/
def State.poolMib (s : State) : Nat :=
  (centralEnd - centralBase) / 2 ^ 20 + 8 * (slopeSize / 2 ^ 20)
    - ((List.range 8).filter (fun k => bit s.pwr.badStacks k)).length * (slopeSize / 2 ^ 20)

/-- PARTITIONS (R85, R214, R514), beside the DOMAINS of the same image. -/
def State.checkPartitions (s : State) (domains : Nat) (b : List Byte) : Option Nat :=
  let n := fieldAt b 0 1
  if !inRange n 1 8 || b.length ≠ 16 + 64 * n || !zeroAt b 1 15 then some 0xFFFF
  else
    let rs := parseParts b
    firstBad n (fun k =>
      let raw := slice b (16 + 64 * k) 64
      let r := parsePart raw
      let before := rs.take k
      let stop (x : PartRec) : Nat := x.msixBase + max 1 x.msixCount
      decide (r.id > 7) || decide (fieldAt raw 1 1 > 15) || !inRange r.vf 1 8 || fieldAt raw 3 1 != 0
        || decide (r.tiles ≥ 2 ^ 24) || !zeroAt raw 56 8 || r.channels.any (fun c => bit c 63)
        || before.any (fun x => x.id == r.id || x.vf == r.vf || (x.tiles &&& r.tiles) != 0
            || (x.hostCairns &&& r.hostCairns) != 0 || (x.channels.zip r.channels).any (fun c => (c.1 &&& c.2) != 0)
            || (decide (x.msixBase < stop r) && decide (r.msixBase < stop x)))
        || decide (stop r > 2048)
        || (r.serving && (r.tiles % 65536 == 0 || r.tiles / 65536 == 0))
        || (r.tiles &&& domains) != r.tiles || (r.tiles &&& s.pwr.badTiles) != 0
        || decide (((before ++ [r]).map (·.share)).sum > s.poolMib))

/-- The Table 4.1 row a window record's TIER names, at full size (R108): the stacks are one row, and so are the Valley
windows (R107). -/
def rowOk (tier lo hi : Nat) : Bool :=
  let inside (a b : Nat) : Bool := decide (a ≤ lo) && decide (hi ≤ b)
  match tier with
  | 0 => inside 0 centralBase || inside centralBase centralEnd
  | 1 => inside (slopeBase 0) (slopeBase 8)
  | 2 => (List.range 2).any (fun p => inside (foothillBase p) (foothillBase p + 2048 * gib))
  | 3 => inside (valleyBase 0) (valleyBase 64)
  | _ => false

/-- TIER_WINDOWS of a partition that owns `tiles`, beside the windows of the other partitions (R108). -/
def checkWindows (tiles : Nat) (others : List WinRec) (b : List Byte) : Option Nat :=
  let n := fieldAt b 0 1
  if !inRange n 1 63 || b.length ≠ 16 + 16 * n || !zeroAt b 1 3 || !zeroAt b 12 4 then some 0xFFFF
  else
    firstBad n (fun k =>
      let raw := slice b (16 + 16 * k) 16
      let base := fieldAt raw 0 8
      let size := fieldAt raw 8 4
      let acc := fieldAt raw 12 1
      let tier := fieldAt raw 13 1
      let hi := base + size * granule
      base % granule != 0 || decide (base ≥ 2 ^ 45) || size == 0 || decide (acc > 15) || !zeroAt raw 14 2
        || !rowOk tier base hi
        || (decide (base < centralBase) && (List.range 24).any (fun t =>
            decide (t * 0x800000 < hi) && decide (base < (t + 1) * 0x800000) && !bit tiles t))
        || (bit acc 2 && decide (tier ≥ 2)) || (bit acc 3 && tier == 3)
        || others.any (fun w => decide (w.base < hi) && decide (base < w.base + w.size * granule)))

/-! ### State machines (R89, R158, R378, R424) -/

def fsmEventsOf : Nat → Nat
  | 1 => 6
  | 2 => 8
  | _ => 12

/-- Four route codes, none above 4 and none after an end (Table 5.8). -/
def classifyOk (param : Nat) : Bool :=
  let a := bits param 15 12
  let b := bits param 11 8
  let c := bits param 7 4
  let d := bits param 3 0
  [a, b, c, d].all (fun x => decide (x ≤ 4)) && (a != 0 || b == 0) && (b != 0 || c == 0) && (c != 0 || d == 0)

/-- ACTION and PARAM of a machine's list (Tables 5.8, 13.7, 15.3). -/
def actionOk (machine action param : Nat) : Bool :=
  match machine, action with
  | 1, 1 => classifyOk param
  | 1, 2 => decide (param ≤ 1)
  | 1, a => decide (a ≤ 5) && param == 0
  | 2, 2 => inRange param 0x11 0x14
  | 2, 3 => inRange param 0x21 0x23
  | 2, a => decide (a ≤ 1) && param == 0
  | _, a => decide (a ≤ 10) && param == 0

/-- What a valid cell of each event of FSM 0x02 may do (R424). -/
def admitCellOk (ev action param : Nat) : Bool :=
  let refuse (r : Nat) : Bool := action == 3 && param == r
  let delay (r : Nat) : Bool := action == 2 && param == r
  match ev with
  | 0 => refuse 0x22
  | 1 => refuse 0x23
  | 2 => refuse 0x21
  | 3 => delay 0x14
  | 4 => delay 0x11 || refuse 0x23
  | 5 => delay 0x12 || refuse 0x21
  | 6 => delay 0x13
  | _ => action == 1

/-- An FSM section; `old` is the body it replaces, if any (R99). -/
def checkFsm (inst : Nat) (old : Option (List Byte)) (b : List Byte) : Option Nat :=
  let st := fsmStates b
  let ev := fsmEvents b
  let term := fieldAt b 4 8
  let shorter := match old with
    | some o => decide (st < fsmStates o) || decide (ev < fsmEvents o)
    | none => false
  if fieldAt b 0 1 ≠ inst || !inRange st 1 64 || !inRange ev 1 16 || b.length ≠ 16 + 4 * st * ev || !zeroAt b 12 4
      || ev ≠ fsmEventsOf inst || term / 2 ^ st ≠ 0 || fsmInitial b ≥ st || bit term (fsmInitial b) || shorter then
    some 0xFFFF
  else
    firstBad (st * ev) (fun i =>
      let c := fsmCell b (i / ev) (i % ev)
      c.valid && (decide (c.next ≥ st) || bit term (i / ev) || !actionOk inst c.action c.param
        || (inst == 2 && (!admitCellOk (i % ev) c.action c.param || (i / ev == fsmInitial b && !bit term c.next)))))

/-! ### Curves and formats (R92, R206, R313) -/

def curveY (b : List Byte) (i : Nat) : Nat := if fieldAt b 2 1 = 1 then fieldAt b (20 + 8 * i) 4 else fieldAt b (16 + 4 * i) 4

def checkCurve (inst : Nat) (b : List Byte) : Option Nat :=
  let id := fieldAt b 0 1
  let sub := fieldAt b 1 1
  let shape := fieldAt b 2 1
  let n := fieldAt b 4 2
  if !subkeyOk id sub || inst ≠ id * 256 + sub || fieldAt b 3 1 ≠ 0 || !zeroAt b 6 10
      || shape ≠ (if id = 4 then 2 else 1) || !(if shape = 1 then inRange n 2 64 else n == 256)
      || b.length ≠ 16 + (if shape = 1 then 8 else 4) * n then some 0xFFFF
  else
    firstBad n (fun i =>
      !f32Finite (curveY b i)
        || (shape == 1 && i != 0 && (decide (fieldAt b (16 + 8 * i) 4 ≤ fieldAt b (8 + 8 * i) 4)
            || !f32Finite (f32Sub (curveY b i) (curveY b (i - 1))))))

/-- Order of finite FP32 values; both zeros are one value. -/
def f32Ord (p : Nat) : Int := if bit p 31 then -((p % 2 ^ 31 : Nat) : Int) else (p : Int)

/-- A code map (R313): strictly increasing to 1.0; a signed map begins at -1.0 and holds 0.0, an unsigned one begins
at 0.0. -/
def mapOk (sgn : Bool) (b : List Byte) : Bool :=
  (List.range 255).all (fun i => decide (f32Ord (curveY b i) < f32Ord (curveY b (i + 1))))
    && curveY b 255 == 0x3F800000
    && (if sgn then curveY b 0 == 0xBF800000 && (List.range 256).any (fun i => f32Ord (curveY b i) == 0)
        else f32Ord (curveY b 0) == 0)

/-- A FORMAT section: XPC presets 0 to 15 (Table 7.5), moment codes 16 to 31 (Table 11.2). `curve` gives the map of a
SUBKEY as the image leaves it in force. -/
def checkFormat (inst : Nat) (curve : Nat → Option (List Byte)) (b : List Byte) : Option Nat :=
  if inst ≤ 15 then
    whole (b.length == 16 && fieldAt b 0 1 == 1 && fieldAt b 1 1 == inst && inRange (fieldAt b 2 2) 1 256
      && decide (fieldAt b 4 1 ≤ 1) && zeroAt b 5 11)
  else
    let good (o : Nat) (sgn : Bool) : Bool :=
      match curve (fieldAt b o 1) with
      | some m => (checkCurve (0x400 + fieldAt b o 1) m).isSome || mapOk sgn m
      | none => false
    whole (b.length == 16 && fieldAt b 0 1 == 2 && fieldAt b 1 1 == inst && decide (fieldAt b 2 1 ≤ 7)
      && decide (fieldAt b 3 1 ≤ 7) && zeroAt b 4 12 && good 2 true && good 3 false)

/-! ### REGISTERS (R86 to R88) -/

/-- A record (Table 3.8). -/
structure RegRec where
  addr : Nat
  value : Nat
  mask : Nat
  deriving DecidableEq, Repr

def parseRecs (b : List Byte) : List RegRec :=
  (List.range (b.length / 16)).map (fun k =>
    { addr := fieldAt b (16 * k) 8, value := fieldAt b (16 * k + 8) 4, mask := fieldAt b (16 * k + 12) 4 })

def windowBase : Nat := 0x40000000

/-- The register a record addresses (R565). -/
def RegRec.reg (r : RegRec) : Option (RegName × Nat × Nat × Bool) :=
  if inRange r.addr windowBase (windowBase + 0x3FFFFFFF) then findReg (r.addr - windowBase) else none

/-- A domain of DOMAINS in which register instance `i` lies is on (Table 23.2). -/
def RegDom.onIn (d : RegDom) (i domains : Nat) : Bool :=
  match d with
  | .spine => true
  | .hif => bit domains 48
  | .tile => bit domains i
  | .dma => bit domains (52 + i)
  | .stack => bit domains (24 + i)
  | .port => bit domains (32 + i)
  | .anyPort => bits domains 45 32 != 0
  | .intake => bit domains 49
  | .align => bit domains 51

/-- A partition-scope record keeps to what its partition owns (R88). -/
def ownedBy (ps : List PartRec) (scope : Nat) (n : RegName) (i j : Nat) : Bool :=
  match ps.find? (fun r => r.id == scope) with
  | none => false
  | some r =>
    match n.row.own with
    | .tile | .ctx => bit r.tiles i
    | .chan => bit (r.channels.getD i 0) j
    | .hostCairn => bit r.hostCairns i
    | .part => i == scope
    | _ => true

/-- The record sets no reserved bit of its register (R88). -/
def recordFits (n : RegName) (up : Bool) (r : RegRec) : Bool :=
  let sh := halfShift up
  (r.value &&& r.mask) * 2 ^ sh &&& n.row.mask == (r.value &&& r.mask) * 2 ^ sh

/-- R88, but for a reserved encoding in a field, which `checkRecords` judges on the value the records leave. -/
def recordBad (ps : List PartRec) (domains scope : Nat) (spare : Bool) (r : RegRec) : Bool :=
  match r.reg with
  | none => true
  | some (n, i, j, up) =>
    !n.recordable || !recordFits n up r || !n.row.dom.onIn i domains
      || (scope != 0xFF && !ownedBy ps scope n i j)
      || (spare && n == .cadCtrl && bits (r.value &&& r.mask) 6 4 != 0)

/-- The register a record writes, as one that later records of a pair may complete: a 64-bit register is judged with
both halves (R10), so the second of two neighbouring records to one register is the one judged. -/
def pairsWithNext (rs : List RegRec) (k : Nat) : Bool :=
  match rs[k]?, rs[k + 1]? with
  | some a, some b =>
    match a.reg, b.reg with
    | some (n, i, j, u), some (n', i', j', u') => n == n' && i == i' && j == j' && u != u'
    | _, _ => false
  | _, _ => false

/-- REGISTERS (R87, R88). `held` gives what a register holds before the commit. -/
def checkRecords (ps : List PartRec) (domains scope : Nat) (spare : Bool) (held : RegName → Nat → Nat → Nat)
    (b : List Byte) : Option Nat :=
  let rs := parseRecs b
  if b.length % 16 ≠ 0 || !inRange rs.length 1 4096 then some 0xFFFF
  else
    let value (k : Nat) (n : RegName) (i j : Nat) : Nat :=
      (rs.take (k + 1)).foldl (fun v r => match r.reg with
        | some (n', i', j', up) => if n' = n && i' = i && j' = j then recordValue v r.value r.mask up else v
        | none => v) (held n i j)
    firstBad rs.length (fun k =>
      match rs[k]? with
      | none => false
      | some r =>
        recordBad ps domains scope spare r ||
          (match r.reg with
           | some (n, i, j, _) => !pairsWithNext rs k && !n.fieldOk i (value k n i j)
           | none => true))

/-! ### All bodies, in section order (R80, R95) -/

/-- The body the image leaves in force for a key: its own, or for a partial image that of the image in force. -/
def State.bodyAfter (s : State) (h : Header) (es : List SecEntry) (type scope inst : Nat) : Option (List Byte) :=
  match findSec es type scope inst with
  | some e => some e.sec.body
  | none => if h.full then none else s.img.body? type scope inst

def State.checkBody (s : State) (h : Header) (es : List SecEntry) (e : SecEntry) : Option Nat :=
  let body (t : Nat) : List Byte := (s.bodyAfter h es t 0xFF 0).getD []
  let domains := fieldAt (body 3) 0 8
  let ps := if (partIds (body 2)).isSome then parseParts (body 2) else []
  let b := e.sec.body
  match e.sec.type with
  | 1 => s.checkIdentity b
  | 2 => s.checkPartitions domains b
  | 3 => checkPower b
  | 4 =>
    let tiles := ((ps.find? (fun r => r.id == e.sec.scope)).map (·.tiles)).getD 0
    let others := (ps.filter (fun r => r.id != e.sec.scope)).flatMap (fun r =>
      match findSec es 4 r.id 0 with
      | some x => if x.idx < e.idx then parseWindows x.sec.body else []
      | none =>
        match s.bodyAfter h es 4 r.id 0 with
        | some w => parseWindows w
        | none => [])
    checkWindows tiles others b
  | 5 => checkRoutes (body 1) b
  | 6 => checkCadence b
  | 7 => checkRecords ps domains e.sec.scope (bit (fieldAt (body 1) 3 1) 0) (fun n i j => s.rnat n i j) b
  | 8 => checkFsm e.sec.inst (if h.full then none else s.img.body? 8 e.sec.scope e.sec.inst) b
  | 9 => checkFormat e.sec.inst (fun sub => s.bodyAfter h es 10 e.sec.scope (0x400 + sub)) b
  | 10 => checkCurve e.sec.inst b
  | _ => none

def State.checkBodies (s : State) (h : Header) (es : List SecEntry) : List SecEntry → Option Reject
  | [] => none
  | e :: rest =>
    match s.checkBody h es e with
    | some i => some { code := 0x0B0A, sec := e.idx, item := i }
    | none => State.checkBodies s h es rest

/-- Every check of a staged image, in the order of R80; none when it passes. -/
def State.checkImage (s : State) (op : LoadOp) (b : List Byte) (avail : Nat) : Option Reject :=
  (s.checkHeader op b avail).or <| (s.checkSignature b).or <| (checkTable b).or <|
    (checkCrcs (parseSections b)).or (s.checkBodies (parseHeader b) (parseSections b) (parseSections b))

end Sys2Proof.Machine
end

