-- ==== Sys2Proof/Machine/CadRegs.lean ====
section
/-! DEFINITION. The cadence registers: what writes of CAD_CTRL, CAD_MASTER_CMD and CAD_MASTER_PERIOD do (R38, R48, R52,
R53, R55, R60, R66), and how far the next wrap is. -/
namespace Sys2Proof.Machine

/-- Units of 2^-40 pu per 0.625 ns (R41). -/
def phaseIncr (period : Nat) : Nat := if period = 0 then 0 else 25 * 2 ^ 40 / period

def Cad.frozen (c : Cad) : Bool := c.frozenHold || c.frozenHeld || c.frozenStop || c.frozenLost


def fullStep : Nat := 2 ^ 56

/-- Periods left until the local phase wraps. -/
def State.periodsToWrap (s : State) : Nat :=
  let inc := phaseIncr s.cad.period
  ceilDiv s.cad.holdBack inc + ceilDiv (fullStep - s.cad.phase) inc

def State.rankOf (s : State) : Nat := bits (s.rnat .cadCtrl) 6 4

/-- What a write of CAD_CTRL does beyond setting the register (R38, R48, R55, R60, R66). -/
def State.cadCtrlWritten (s : State) (old : Nat) : State :=
  let new := s.rnat .cadCtrl
  let s :=
    if bit old 0 && !bit new 0 then
      { s with cad := { s.cad with
          state := .acquire, phaseValid := false, master := false, backoff := false, holdLost := false, pnext := none,
          adoptedStep := none, suspect := none, shadow := none, lastRx := none, frozenLost := false,
          frozenHeld := false, frozenStop := false, firstRun := false, stopPending := false, runPending := false,
          newPeriod := none, badRun := 0, agree := 0, mismatch := 0 } }
    else if !bit old 0 && bit new 0 then
      { s with cad := { s.cad with backoff := decide (bits new 6 4 ≠ 0) && decide (s.cad.state = .acquire) } }
    else s
  let s :=
    if s.cad.master && bits new 6 4 = 0 then
      { s with cad := { s.cad with master := false, state := .flywheel, frozenStop := false } }
    else if bits new 6 4 = 0 then { s with cad := { s.cad with backoff := false } }
    else s
  s.updateHold

/-- STOP and RUN are taken at the master's next frame (R53). A device that is not master refuses both. -/
def State.masterCmd (s : State) (v : Nat) : Option State :=
  if !s.cad.master then none
  else if bit v 1 then some { s with cad := { s.cad with stopPending := true, runPending := false } }
  else if bit v 0 then some { s with cad := { s.cad with runPending := true, stopPending := false } }
  else some s

/-- A new CAD_MASTER_PERIOD takes effect at the first wrap at least 32 frame times (36,864 ns) away (R52). -/
def State.masterPeriodWritten (s : State) : State :=
  if !s.cad.master then s
  else
    let near := !s.cad.frozen && decide (s.periodsToWrap * 5 < 36864 * 8)
    let k := if near then s.cad.step + 1 else s.cad.step
    { s with cad := { s.cad with newPeriod := some (bits (s.rnat .cadMasterPeriod) 23 0, k) } }

end Sys2Proof.Machine
end

