-- ==== Sys2Proof/Machine/RegEffects.lean ====
section
/-! DEFINITION. What setting an RW register does: when a new value is taken, where it is kept, and what follows from it.
Host writes and the image's REGISTERS records both end here (R8, R87, R577). -/
namespace Sys2Proof.Machine

/-! ### Copies per access path (R577) -/

/-- Indices under which a path's copy is held: the path is the next free index. -/
def RegName.copy (n : RegName) (i j pidx : Nat) : Nat × Nat :=
  if n.perPath then (if n.row.c1 = 1 then (pidx, 0) else (i, pidx)) else (i, j)

/-- A register as a path sees it. -/
def State.pget (s : State) (pidx : Nat) (n : RegName) (i : Nat := 0) (j : Nat := 0) : Nat :=
  s.rnat n (n.copy i j pidx).1 (n.copy i j pidx).2

def State.pput (s : State) (pidx : Nat) (n : RegName) (v : Nat) (i : Nat := 0) (j : Nat := 0) : State :=
  s.rputN n v (n.copy i j pidx).1 (n.copy i j pidx).2

/-- Access paths by number: nine functions, I2C and JTAG. -/
def pathCount : Nat := 11

/-- The account a path has selected in partition `p`. -/
def State.acctSel (s : State) (pidx p : Nat) : Nat := s.pget pidx .admAcctSel p

/-! ### The value of an RW register -/

/-- A balance as ADM_ACCT_BALANCE shows it: 48 bits, sign extended. -/
def balanceWord (b : Int) : Nat := unsignedOf 64 b

/-- The value of an RW register as path `pidx` reads it, before the view of a running unit. -/
def State.rwValue (s : State) (pidx : Nat) (n : RegName) (i j : Nat) : Nat :=
  match n with
  | .imgSvFloor => s.img.svFloor
  | .admAcctRate => (s.acct i (s.acctSel pidx i)).rate
  | .admAcctBurst => (s.acct i (s.acctSel pidx i)).burst
  | .admAcctHard => (s.acct i (s.acctSel pidx i)).hard
  | .admAcctBalance => balanceWord (s.acct i (s.acctSel pidx i)).balance
  | .intNsOwner =>
    let k := s.pget pidx .intNsSel
    k * 256 + ((s.nsAt k).map (·.owner)).getD 0
  | _ => s.pget pidx n i j

/-! ### When a value is taken -/

/-- Sum of a partition register with `v` in place of partition `p`'s. -/
def State.sumWith (s : State) (n : RegName) (p v : Nat) : Nat :=
  ((List.range 8).map (fun q => if q = p then v else s.rnat n q)).sum

/-- A full stream ring of the partition's function takes twice the largest record (R476). -/
def State.streamFits (s : State) (p slots spec : Nat) : Bool :=
  let f := s.fnOf p
  f == 0 || !s.ringOn f 2 || decide (2 * streamMax slots spec ≤ s.rnat .hifStrLen f * 65536)

/-- L_max of the function's partition; 256 where it serves none (R476). -/
def State.fnLmax (s : State) (f : Nat) : Nat :=
  match s.partOfFn f with
  | some r => if r.serving then s.streamLmax r.id else 256
  | none => 256

/-- A plan in force of some partition names stream `st` (R163). -/
def State.streamInPlan (s : State) (st : Nat) : Bool :=
  s.scl.ledgers.any (fun l => (l.2.inForce.toList ++ l.2.old.toList).any (fun pl => pl.entries.any (fun e => e.stream == st)))

/-- A write of SCL_STREAM_CFG: a stream that a plan names keeps its channel (R162), a channel becomes Scaler-owned only
while IDLE (R217), and the service channel is no stream's (R214). -/
def State.streamCfgOk (s : State) (st v : Nat) : Bool :=
  let old := s.rnat .sclStreamCfg st
  let d := bits v 55 54
  let n := bits v 53 48
  let same := bit old 56 && bit v 56 && bits old 55 48 == bits v 55 48
  if same then true
  else (!bit old 56 || !s.streamInPlan st)
    && (!bit v 56 || (n != 63 && (s.scalerOwned d n || (s.chan d n).st == .idle)))

/-- The vector of a VALID field is in the range of function `f` (R485). -/
def State.vectorFieldOk (s : State) (f : Nat) (valid : Bool) (v : Nat) : Bool := !valid || s.ownVector f v

/-- GEN may be set on the context or channel (R364). -/
def State.genOk (s : State) (owner : Option Nat) : Bool :=
  match owner with
  | some p => ((s.part? p).map (·.serving)).getD false
  | none => true

/-- An array word of the tile is in progress: words are indivisible in this model, so none ever is. -/
def arrayWordBusy : Bool := false

/-- A partition's cached limit on accounts (Table 15.7). -/
def State.acctMax (s : State) (p : Nat) : Nat := if s.weighted p then 64 else 4096

/-- The new value of an RW register is accepted, beside the fixed encodings of `fieldOk` (R471, R476 and the rules that
the registers' own rows name). -/
def State.rwAccept (s : State) (pidx : Nat) (n : RegName) (i j v : Nat) : Bool :=
  match n with
  | .hifEvtVec => s.vectorFieldOk 0 (bit v 11) (bits v 10 0)
  | .hifWinFunc => (NMap.get? s.hif.windows i).isNone
  | .hifRingSize => !s.ringOn i 0 && !s.ringOn i 1
  | .hifCmdBase => !s.ringOn i 0
  | .hifCplBase => !s.ringOn i 1
  | .hifStrBase => !s.ringOn i 2
  | .hifStrLen => !s.ringOn i 2 && decide (2 * s.fnLmax i ≤ v * 65536)
  | .hifRingVec =>
    !s.ringOn i 1 && !s.ringOn i 2 && s.vectorFieldOk i (bit v 31) (bits v 26 16) && s.vectorFieldOk i (bit v 15) (bits v 10 0)
  | .hifRingCtrl => !bit v 2 || s.ringOn i 2 || decide (2 * s.fnLmax i ≤ s.rnat .hifStrLen i * 65536)
  | .imgSvFloor => decide (s.img.svFloor ≤ v)
  | .sclStreamCfg => s.streamCfgOk i v
  | .dmaChCfg => ((s.chan i j).st == .idle || (s.chan i j).st == .stopped) && (!bit v 2 || s.genOk (s.ownerChan i j))
  | .tilArrayOwner => !arrayWordBusy
  | .tilCtxCfg =>
    ((s.ctx i j).st == .idle || (s.ctx i j).st == .fault)
      && (!bit v 2 || (decide (16 ≤ i) && s.genOk (s.ownerTile i)))
  | .crnDebugRef => !bit v 15
  | .crnHcWcfg => !bit v 16 || !s.watchRefused i v
  | .updCfg => (s.unit i).st == .idle || (s.unit i).st == .halted
  | .updLsExp =>
    let r := s.rnat .updLsRange i
    decide (signed 8 (bits r 7 0) ≤ signed 8 v) && decide (signed 8 v ≤ signed 8 (bits r 15 8))
  | .nynCollCfg => s.coll.st == 0
  | .srvSlots =>
    (s.slotsUsed i).isEmpty && decide (s.sumWith .srvSlots i v ≤ 4096) && s.streamFits i v (s.rnat .srvSpecMax i)
  | .srvReqMax => decide (s.sumWith .srvReqMax i v ≤ 32768)
  | .srvTreeNodes => !s.rbit .srvTreeCfg 0 i
  | .srvSpecMax => (s.slotsUsed i).isEmpty && s.streamFits i (s.rnat .srvSlots i) v
  | .admKvLimit => decide (v ≤ ((s.part? i).map (·.share)).getD 0 * 16)
  | .admAccounts => decide (v ≤ s.acctMax i)
  | .admAcctRate => !s.weighted i || decide (v < 256)
  | .admAcctBalance =>
    decide (bits v 63 47 = 0) || decide (bits v 63 47 = 2 ^ 17 - 1)
  | .intPortCfg => s.intake.jobs.isEmpty
  | .intNsOwner => bits v 13 8 == s.pget pidx .intNsSel
  | .intRingLen => !s.rbit .intRingCfg 0 i
  | .alnGCfg => (s.group i).st != 1
  | _ => true

/-! ### The log's read buffer (R538) -/

/-- The 64 bytes of an entry (Table 21.1). -/
def LogEntry.bytes (e : LogEntry) : List Byte :=
  let b := leBytes 8 e.time ++ leBytes 6 e.step ++ leBytes 2 e.phase ++ leBytes 8 e.seq ++ leBytes 1 e.kind
    ++ leBytes 1 e.origin ++ leBytes 2 e.originIdx ++ leBytes 2 e.code ++ leBytes 1 e.part ++ leBytes 1 e.tkind
    ++ leBytes 8 e.target ++ leBytes 8 e.old ++ leBytes 8 e.new ++ leBytes 4 e.aux
  b ++ leBytes 4 (crc32c b)

/-- The read buffer's bytes of an entry whose stored CRC does not match: the spec names no bytes, so the last four are
free. -/
def damagedBytes (seq : Nat) (e : LogEntry) : List Byte :=
  e.bytes.take 60 ++ (List.range 4).map (fun k => Config.outsideByte 21 (seq * 4 + k))

/-- Status and bytes a selection gives: 0 VALID, 1 OVERWRITTEN, 2 NOT_YET, 3 CRC_BAD, 4 HIDDEN. `part` is the partition
of a VF path; none for PF0, I2C and JTAG. -/
def State.logSelect (s : State) (vf : Bool) (part : Option Nat) (seq : Nat) : Nat × List Byte :=
  let zero := List.replicate 64 0
  if s.log.nextSeq ≤ seq then (2, zero)
  else
    let mine (e : LogEntry) : Bool := !vf || some e.part == part
    match s.log.staged.find? (fun e => e.seq == seq) with
    | some e => if mine e then (0, e.bytes) else (4, zero)
    | none =>
      if seq < s.log.oldest then (1, zero)
      else
        match NMap.get? s.log.ring (seq % 131072) with
        | some (e, true) => if mine e then (0, e.bytes) else (4, zero)
        | some (e, false) => if vf then (4, zero) else (3, damagedBytes seq e)
        | none => (1, zero)

/-- A write of LOG_READ_SEQ fills the path's read buffer. -/
def State.logSelected (s : State) (pidx : Nat) : State :=
  let vf := decide (1 ≤ pidx) && decide (pidx ≤ 8)
  let r := s.logSelect vf ((s.partOfFn pidx).map (·.id)) (s.pget pidx .logReadSeq)
  let s := s.pput pidx .logReadStatus r.1
  (List.range 16).foldl (fun s k => s.pput pidx .logEntry (fieldAt r.2 (4 * k) 4) k) s

/-! ### Storing -/

/-- Change the account a path has selected. -/
def State.modAcct (s : State) (pidx p : Nat) (f : Acct → Acct) : State :=
  let a := s.acctSel pidx p
  s.setAcct p a (f (s.acct p a))

/-- Set an RW register to an accepted value through path `pidx`, with what follows from it. -/
def State.rwStore (s : State) (pidx : Nat) (n : RegName) (i j v : Nat) : State :=
  let old := s.rwValue pidx n i j
  match n with
  | .imgSvFloor => { s with img := { s.img with svFloor := max s.img.svFloor v } }
  | .admAcctRate => s.modAcct pidx i (fun a => { a with rate := v })
  | .admAcctBurst => s.modAcct pidx i (fun a => { a with burst := v })
  | .admAcctHard => s.modAcct pidx i (fun a => { a with hard := v })
  | .admAcctBalance => s.modAcct pidx i (fun a => { a with balance := signed 48 v })
  | .intNsOwner => s.nsOwnerSet (s.pget pidx .intNsSel) (bits v 7 0)
  | .cadCtrl => (s.rputN n v i j).cadCtrlWritten old
  | .cadMasterPeriod => (s.rputN n v i j).masterPeriodWritten
  | .hifRingCtrl => (s.rputN n v i j).ringCtrlWritten i old
  | .crnHcWcfg => (s.rputN n v i j).watchWritten i
  | .nynPortCtrl => (s.rputN n v i j).settlePort i
  | .nynFailed => (s.rputN n v i j).failedWritten old
  | .intRingCfg =>
    let s := s.rputN n v i j
    if bit old 0 && !bit v 0 then s.ringStopped i else s
  | .srvListCairns =>
    let s := s.rputN n v i j
    s.modSrvPart i (fun x => { x with pdSeen := match s.localRef i (bits v 47 32) with | .ok c => s.cairn c | .error _ => 0 })
  | .logReadSeq => (s.pput pidx n v i j).logSelected pidx
  | _ => s.pput pidx n v i j

/-- Set an RW register by a REGISTERS record: a register of which paths keep copies is set in every copy (R577). -/
def State.rwStoreAll (s : State) (n : RegName) (i j v : Nat) : State :=
  if n.perPath then (List.range pathCount).foldl (fun s p => s.rwStore p n i j v) s else s.rwStore 0 n i j v

end Sys2Proof.Machine
end

