-- ==== Sys2Proof/Machine/Domains.lean ====
section
/-! DEFINITION. The switched domains: what a block loses when its supply goes, the order in which domains switch on, and
the REGISTERS records that a domain receives (R87, R279, R489 to R492, R130). -/
namespace Sys2Proof.Machine

/-! ### Registers of a domain (Table 23.2) -/

/-- DOMAINS bit of the domain that instance `i` of a register lies in; none for the spine, and for the registers that
are on with any port. -/
def RegDom.bitOf (d : RegDom) (i : Nat) : Option Nat :=
  match d with
  | .spine | .anyPort => none
  | .hif => some domHost
  | .tile => some (domTile i)
  | .dma => some (domDma i)
  | .stack => some (domStack i)
  | .port => some (domPort i)
  | .intake => some domIntake
  | .align => some domAlign

/-- Registers of the windows in which domain `b` has some. -/
def regsOfDomain (b : Nat) : List RegName :=
  if b < 24 then regsOfTIL
  else if b < 32 then regsOfUPD
  else if b < 46 then regsOfNYN
  else if b = domHost then regsOfHIF
  else if b = domIntake then regsOfINT
  else if b = domAlign then regsOfALN
  else if inRange b 52 55 then regsOfDMA ++ regsOfXPC
  else []

/-- A register of domain `b`, first index `i`; `last` when `b` is the only port domain on. -/
def inDomain (b : Nat) (last : Bool) (n : RegName) (i : Nat) : Bool :=
  n.row.dom.bitOf i == some b || (last && n.row.dom == .anyPort)

/-- Registers of domain `b` take their reset values. -/
def State.resetRegs (s : State) (b : Nat) (last : Bool) : State :=
  let ns := regsOfDomain b
  { s with regs := s.regs.filter (fun e =>
      !ns.any (fun n => n.ctorIdx == e.1 % 512 && inDomain b last n (e.1 / 512 % 65536))) }

/-! ### Losing a block (R491) -/

/-- Port domains on, but for `b`. -/
def State.otherPort (s : State) (b : Nat) : Bool := (List.range 14).any (fun p => domPort p != b && s.domainOn (domPort p))

/-- The block of domain `b` loses its queues and its state; tile-local Crest and the stacks keep their contents. -/
def State.loseBlock (s : State) (b : Nat) : State :=
  if b < 24 then { s with tiles := NMap.del s.tiles b }.clearDomainCairns (48 * b) 48
  else if b < 32 then { s with upd := { s.upd with units := NMap.del s.upd.units (b - 24) } }
  else if b < 46 then
    let s := { s with fab := { s.fab with ports := NMap.del s.fab.ports (b - 32) } }
    if s.otherPort b then s else { s with coll := {} }
  else if b < 48 then
    { s with tier := { s.tier with
        fhCap := NMap.del s.tier.fhCap (b - 46), fhDown := s.tier.fhDown.filter (· != b - 46) } }
  else if b = domHost then { s with hif := { numVfs := s.hif.numVfs, windows := s.hif.windows } }
  else if b = domIntake then { s with intake := {} }
  else if b = domAlign then { s with aln := {} }
  else if inRange b 52 55 then
    let d := b - 52
    { s with dma := { s.dma with
        chans := s.dma.chans.filter (fun e => e.1 / 64 != d),
        routeQ := s.dma.routeQ.filter (fun e => e.1 != d) } }.clearDomainCairns (1152 + 64 * d) 64
  else s

/-- A domain switches off (R491): a stack goes into self-refresh first. -/
def State.switchOff (s : State) (b : Nat) : State :=
  if !bit s.pwr.domains b then s
  else
    let last := inRange b 32 45 && !s.otherPort b
    let s := (s.loseBlock b).resetRegs b last
    { s with pwr := { s.pwr with
        domains := s.pwr.domains - 2 ^ b, rising := if bit s.pwr.rising b then s.pwr.rising - 2 ^ b else s.pwr.rising,
        selfRefresh := if inRange b 24 31 then s.pwr.selfRefresh ||| 2 ^ (b - 24) else s.pwr.selfRefresh } }

/-- Every domain outside `target` switches off, and every one of `target` that is off begins to switch on (R489). -/
def State.switchTo (s : State) (target : Nat) : State :=
  let s := (List.range 56).foldl (fun s b => if bit target b then s else s.switchOff b) s
  let new := (List.range 56).foldl (fun m b => if bit target b && !bit s.pwr.domains b then m + 2 ^ b else m) 0
  State.settlePorts { s with pwr := { s.pwr with domains := s.pwr.domains ||| new, rising := s.pwr.rising ||| new } }

/-- Domains that are switching on at this moment: the lowest four still to come (R490). -/
def State.switchingOn (s : State) : List Nat := ((List.range 56).filter (fun b => bit s.pwr.rising b)).take 4

/-! ### REGISTERS records (R87, R490) -/

/-- Records of REGISTERS sections in the order they take effect, each with the index of its section: ascending INSTANCE,
device scope first within one. -/
def recordOrder (secs : List (Nat × Section)) : List (Nat × RegRec) :=
  let mine := secs.filter (fun e => e.2.type == 7)
  (List.range 16).flatMap (fun inst =>
    (255 :: List.range 8).flatMap (fun scope =>
      (mine.filter (fun e => e.2.inst == inst && e.2.scope == scope)).flatMap (fun e =>
        (parseRecs e.2.body).map (fun r => (e.1, r)))))

/-- Sections of the image in force with their places in its table. -/
def State.sectionList (s : State) : List (Nat × Section) := (List.range s.img.sections.length).zip s.img.sections

/-- The half of a register that a record addresses. -/
def recordHalf (up : Bool) (v : Nat) : Nat := if up then v / 2 ^ 32 % 2 ^ 32 else v % 2 ^ 32

/-- The CHANGE entry of a record: OLD and NEW are the 32-bit word it addresses. -/
def recordEntry (idx : Nat) (part : Nat) (r : RegRec) (up : Bool) (v v' : Nat) : LogEntry :=
  let old := recordHalf up v
  let new := recordHalf up v'
  { kind := 1, origin := 4, originIdx := idx, part := part, tkind := 0, target := r.addr, old := old, new := new }

/-- Apply records in order; the entries they write. Two neighbouring records of the two halves of one 64-bit register
take effect together. -/
def State.applyRecs (s : State) : List (Nat × RegRec) → List LogEntry × State
  | [] => ([], s)
  | [(idx, r)] =>
    match r.reg with
    | none => ([], s)
    | some (n, i, j, up) =>
      let old := s.rwValue 0 n i j
      let v := recordValue old r.value r.mask up
      ([recordEntry idx 0xFF r up old v], s.rwStoreAll n i j v)
  | (idx, r) :: (idx', r') :: rest =>
    match r.reg, r'.reg with
    | some (n, i, j, up), some (n', i', j', up') =>
      let old := s.rwValue 0 n i j
      let v := recordValue old r.value r.mask up
      if n = n' && i = i' && j = j' && up != up' then
        let v' := recordValue v r'.value r'.mask up'
        let q := State.applyRecs (s.rwStoreAll n i j v') rest
        (recordEntry idx 0xFF r up old v :: recordEntry idx' 0xFF r' up' v v' :: q.1, q.2)
      else
        let q := State.applyRecs (s.rwStoreAll n i j v) ((idx', r') :: rest)
        (recordEntry idx 0xFF r up old v :: q.1, q.2)
    | some (n, i, j, up), none =>
      let old := s.rwValue 0 n i j
      let v := recordValue old r.value r.mask up
      let q := State.applyRecs (s.rwStoreAll n i j v) ((idx', r') :: rest)
      (recordEntry idx 0xFF r up old v :: q.1, q.2)
    | none, _ => State.applyRecs s ((idx', r') :: rest)

/-- A record addresses a register of domain `b`. -/
def recordIn (b : Nat) (last : Bool) (r : RegRec) : Bool :=
  match r.reg with
  | some (n, i, _, _) => inDomain b last n i
  | none => false

/-! ### DOMAIN_POWER_ON -/

/-- The usable capacity a CXL port publishes, in GiB (R130): of a device Table 4.7 covers, up to its first 2 TiB; 0 of
another device. A port with no device publishes nothing and reads 0. -/
def State.publishFoothill (s : State) (p : Nat) (found : Option Nat) : State :=
  match found with
  | some gibs => { s with tier := { s.tier with
      fhCap := NMap.put s.tier.fhCap p (min gibs 2048), fhDown := s.tier.fhDown.filter (· != p) } }
  | none => s

/-- A domain is out of reset: its registers hold reset values, its records are applied again, and one entry is logged
with origin IMAGE (R490). `found` is the capacity in GiB that a CXL port's device reports, none where no device answers. -/
def State.domainPowerOn (s : State) (b : Nat) (found : Option Nat) : State :=
  if !s.switchingOn.contains b then s
  else
    let last := inRange b 32 45 && !s.otherPort b
    let s := (s.loseBlock b).resetRegs b last
    let s := { s with pwr := { s.pwr with
      rising := s.pwr.rising - 2 ^ b,
      selfRefresh := if inRange b 24 31 && bit s.pwr.selfRefresh (b - 24) then s.pwr.selfRefresh - 2 ^ (b - 24) else s.pwr.selfRefresh } }
    let q := s.applyRecs ((recordOrder s.sectionList).filter (fun e => recordIn b last e.2))
    let s := q.2.logAdd { kind := 1, origin := 4, originIdx := 0xFFFF, new := 2 ^ b }
    let s := if inRange b 46 47 then s.publishFoothill (b - 46) found else s
    let s := if b = domIntake then s.beginEnumeration else s
    let s := s.settlePorts
    if s.pwr.rising = 0 && s.pwr.stage = 5 then s.setStage 6 else s

end Sys2Proof.Machine
end

