-- ==== Sys2Proof/Machine/Loader.lean ====
section
/-! DEFINITION. The image loader: commands, staging, verification, full and partial commits, keys and the security
version floor (R76 to R102, R356, R357, R478, R515 to R517, R524). -/
namespace Sys2Proof.Machine

/-! ### Log entries of a load (R100) -/

/-- Local address of IMG_CMD, which acceptance and end entries name. -/
def imgCmdAddr : Nat := RegName.localAddr .imgCmd 0 0

/-- The entry that ends a load: the commit, or the rejection code. -/
def State.loadEnd (s : State) (code : Nat) (committed : Bool) : State :=
  s.logAdd (hwEntry 12 code (if s.img.op = .part then s.img.part else 0xFF) 5 0 0 (b2n committed))

/-- The acceptance entry of a load that the ROM issues. -/
def State.romAccept (s : State) (slot : Nat) : State :=
  s.logAdd { kind := 1, origin := 3, originIdx := s.pwr.stage, tkind := 0, target := imgCmdAddr, old := slot, new := 6 }

/-- CHANGE entry of a committed section. -/
def sectionEntry (idx version : Nat) (x : Section) (crc : Nat) : LogEntry :=
  { kind := 1, origin := 4, originIdx := idx, part := if x.scope = 0xFF then 0xFF else x.scope, tkind := 2,
    target := x.type + x.scope * 2 ^ 16 + x.inst * 2 ^ 32, new := crc, aux := version }

/-! ### Commands (Table 3.12) -/

/-- A load begins: STAGING. A full load that bring-up waits for takes it to IMAGE_LOAD (Table 20.2). -/
def State.beginLoad (s : State) (op : LoadOp) (force : Bool) : State :=
  let s := { s with img := { s.img with
    before := s.img.state, state := .staging, op := op, force := force, flashB := false, staged := [], due := false } }
  if (op = .full || op = .flash) && s.pwr.stage = 3 then s.setStage 4 else s

/-- Back to the state before STAGING, with nothing staged. -/
def State.dropLoad (s : State) : State :=
  let s := { s with img := { s.img with state := s.img.before, staged := [], force := false, due := false } }
  if s.pwr.stage = 4 then s.setStage 3 else s

/-- UNLOAD: all work ends with 0x0B0C; domains keep their state. -/
def State.unload (s : State) : State :=
  let s := (s.issue 0x0B0C).endAllWork 0x0B0C
  let s := { s with
    img := { s.img with state := .empty, sections := [], digest := [], version := 0, machineId := 0 },
    fab := { s.fab with reqs := [], sprSel := none, assumed := false } }
  s.settlePorts

/-- A command of IMG_CMD: accepted with its effect, or refused after recording its code. -/
def State.imgCommand (s : State) (v : Nat) : Except State State :=
  let op := bits v 3 0
  let force := bit v 4
  match s.img.state with
  | .staging | .verifying | .pending =>
    if op = 5 && !s.img.due then .ok s.dropLoad else .error (s.issue 0x0B0F)
  | .empty =>
    if op = 1 then .ok (s.beginLoad .full force)
    else if op = 3 then .ok (s.beginLoad .verify force)
    else if op = 6 then .ok (s.beginLoad .flash force)
    else if op = 2 || op = 4 then .error (s.issue 0x0B0B)
    else .error s
  | .active =>
    if op = 2 then .ok (s.beginLoad .part force)
    else if op = 3 then .ok (s.beginLoad .verify force)
    else if op = 4 then .ok s.unload
    else if op = 1 || op = 6 then .error (s.issue 0x0B0B)
    else .error s

/-- The ROM issues LOAD_FLASH on entry to IMAGE_WAIT (R515). -/
def State.romFlash (s : State) : State := (s.romAccept 0).beginLoad .flash false

/-! ### Rejection -/

/-- A check fails or the source does not answer: the code is recorded and REJECTED raised. A flash load goes on with
slot B (R515). -/
def State.rejectLoad (s : State) (r : Reject) : State :=
  let s := (s.issue r.code).raise .imgEvent 1
  let s := { s with img := { s.img with rejectInfo := r.sec * 65536 + r.item } }
  let s := s.loadEnd r.code false
  let s := if s.pwr.stage = 4 then { s with pwr := { s.pwr with bootCode := r.code } } else s
  if s.img.op = .flash && !s.img.flashB then
    { s with img := { s.img with state := .staging, staged := [], flashB := true } }
  else s.dropLoad

/-! ### Staging -/

/-- Bytes the loader reads from a local range, or none when the range has no target. -/
def State.sourceBytes (s : State) (a n : Nat) (ext : List Byte) : Option (List Byte) :=
  match s.decode a n with
  | .ok (.valley _) => some (ext.take n)
  | .ok _ => some (s.rd a n)
  | .error _ => none

/-- The source's bytes of an image, as far as IMG_SRC_LEN and the header's TOTAL_LEN go. -/
def State.readImage (s : State) (ext : List Byte) : Option (List Byte) :=
  if s.img.op = .flash then
    let n := min (8 * 2 ^ 20) (fieldAt ext 12 4)
    some (ext.take (max 128 n))
  else
    let avail := s.rnat .imgSrcLen
    match s.target (s.rnat .imgSrcAddr) with
    | .error _ => none
    | .ok (.there _ _) => some (ext.take (min avail (max 128 (min (8 * 2 ^ 20) (fieldAt ext 12 4)))))
    | .ok (.here a) =>
      match s.sourceBytes a (max 1 (min avail 128)) ext with
      | none => none
      | some h =>
        let n := min avail (max 128 (min (8 * 2 ^ 20) (fieldAt h 12 4)))
        if n = 0 then some [] else s.sourceBytes a n ext

/-- IMAGE_READ_COMPLETE: the image stands in the staging region. `ext` gives the bytes of a flash slot, of host memory or
of another device; a source in the register window or without a target ends the load with 0x0B10 (R568). -/
def State.imageRead (s : State) (ext : List Byte) : State :=
  if s.img.state ≠ .staging then s
  else
    match s.readImage ext with
    | none => s.rejectLoad { code := 0x0B10 }
    | some b => { s with img := { s.img with state := .verifying, staged := b } }

/-- The source does not respond within 50 µs. -/
def State.imageTimeout (s : State) : State :=
  if s.img.state = .staging || s.img.state = .verifying then s.rejectLoad { code := 0x0B10 } else s

/-! ### Full commit -/

/-- RANK from the CADENCE section: that of the own logical ID, 0 for a spare (R86). -/
def State.writeRank (s : State) : State :=
  let rank := if s.isSpare then 0 else fieldAt ((s.img.body? 6 0xFF 0).getD []) s.ownId 1
  let old := s.rnat .cadCtrl
  (s.rputN .cadCtrl (old - bits old 6 4 * 16 + rank * 16)).cadCtrlWritten old

/-- A full image in a spare slot without SPARE: the device assumes the identity it names (R357). -/
def State.assume (s : State) : State :=
  if s.slotPos = 8 && !s.isSpare then
    let i := s.ownId % 8
    ({ s with fab := { s.fab with sprSel := some i, assumed := true } }).logAdd
      { kind := 1, origin := 4, originIdx := 0xFFFF, new := s.ownId }
  else { s with fab := { s.fab with sprSel := none, assumed := false } }

/-- Every Crest byte is zero and every holding freed: what a cold start has (R524). -/
def State.makeCold (s : State) : State :=
  let s := ((s.issue 0x0C07).tally1 0x1001).zero 0 0x10000000
  { s with
    tier := { s.tier with holdings := [], reserves := [], tags := [] },
    pwr := { s.pwr with startKind := 0, resumeStep := 0, bootCode := 0x0C07 } }

/-- A first full image after a warm resume (R524): its digest decides. A resume commit keeps the holdings but those of
partitions with a partial image, each of whose releases is logged. -/
def State.resumeCommit (s : State) (digest : List Byte) (idx : Nat) : State :=
  match s.pwr.warm with
  | none => s
  | some r =>
    let s := { s with pwr := { s.pwr with warm := none } }
    if r.digest ≠ digest then s.makeCold
    else
      let gone := s.tier.holdings.filter (fun e => r.parts.contains e.2.owner)
      gone.foldl (fun s e =>
        (s.freeHold e.1).logAdd { kind := 1, origin := 4, originIdx := idx, part := e.2.owner, tkind := 4,
                                  target := 0xFFFFFFFF * 2 ^ 32 + e.1, old := e.2.state }) s

/-- Where the image in force came from (HIF_BOOT_STATUS.SOURCE). -/
def Img.source (m : Img) : Nat := if m.op = .flash then (if m.flashB then 2 else 1) else 3

/-- A full commit (R86, R87, R100, R279, R357, R478, R489, R518). -/
def State.commitFull (s : State) : State :=
  let b := s.img.staged
  let h := parseHeader b
  let es := parseSections b
  let dig := sha384 (b.take h.sig)
  let s := ((s.resumeCommit dig 0xFFFF).endCommands).clearCairns
  let secs := es.map (fun (e : SecEntry) => e.sec)
  let ids := parseParts (((findSec es 2 0xFF 0).map (·.sec.body)).getD [])
  let s := { s with
    img := { s.img with
      state := .active, staged := [], sections := secs, digest := dig, version := h.version, machineId := h.machine,
      partVer := ids.foldl (fun m (r : PartRec) => NMap.put m r.id h.version) s.img.partVer },
    pwr := { s.pwr with partialParts := [], source := s.img.source } }
  let s := es.foldl (fun s (e : SecEntry) => s.logAdd (sectionEntry e.idx h.version e.sec e.crc)) s
  let s := (s.switchTo s.imageDomains).writeRank
  let q := s.applyRecs (recordOrder s.sectionList)
  let s : State := ((q.2.logSeries q.1).assume).settlePorts
  let s : State := ((s.raise .imgEvent 0).raise .imgEvent 2).loadEnd 0 true
  let s : State := if s.pwr.stage = 4 then s.setStage 5 else s
  if s.pwr.stage = 5 && s.pwr.rising = 0 then s.setStage 6 else s

/-! ### Partial commit (R96 to R99) -/

/-- A wrap: a pending partial image whose partition is drained, or that has FORCE, begins its commit (R97, R98). -/
def State.partialWrap (s : State) : State :=
  if s.img.state ≠ .pending || s.img.due then s
  else if s.img.force then
    let s := (s.issue 0x0B0C).endPartWork s.img.part 0x0B0C
    { s with img := { s.img with due := true } }
  else if s.drained s.img.part then { s with img := { s.img with due := true } }
  else s

/-- Items of partition `p` do not start while its partial commit is under way (R97). -/
def State.committing (s : State) (p : Nat) : Bool := s.img.due && s.img.part == p

/-- The sections in force after those of a partial image have replaced or joined them. -/
def mergeSections (old new : List Section) : List Section :=
  old.map (fun x => (new.find? (sameKey x)).getD x) ++ new.filter (fun x => !old.any (sameKey x))

/-- PARTIAL_COMMIT. -/
def State.partialCommit (s : State) : State :=
  if s.img.state ≠ .pending || !s.img.due then s
  else
    let b := s.img.staged
    let h := parseHeader b
    let es := parseSections b
    let p := s.img.part
    let s := { s with
      img := { s.img with
        state := .active, staged := [], due := false, force := false,
        sections := mergeSections s.img.sections (es.map (fun (e : SecEntry) => e.sec)), partVer := NMap.put s.img.partVer p h.version },
      pwr := { s.pwr with partialParts := p :: s.pwr.partialParts.filter (· != p) } }
    let s := es.foldl (fun s (e : SecEntry) => s.logAdd (sectionEntry e.idx h.version e.sec e.crc)) s
    let q := s.applyRecs (recordOrder (es.map (fun (e : SecEntry) => (e.idx, e.sec))))
    ((q.2.logSeries q.1).raise .imgEvent 2).loadEnd 0 true

/-- RELOAD_TIMEOUT: IMG_WAIT_MAX has elapsed in PENDING. -/
def State.reloadTimeout (s : State) : State :=
  if s.img.state ≠ .pending || s.img.due then s
  else
    let s := ((s.issue 0x0B0D).raise .imgEvent 3).loadEnd 0x0B0D false
    { s with img := { s.img with state := .active, staged := [], force := false } }

/-! ### IMAGE_VERIFY_COMPLETE (R80, R95) -/

def State.imageVerify (s : State) : State :=
  if s.img.state ≠ .verifying then s
  else
    match s.checkImage s.img.op s.img.staged s.img.staged.length with
    | some r => s.rejectLoad r
    | none =>
      match s.img.op with
      | .verify => ((s.raise .imgEvent 0).loadEnd 0 false).dropLoad
      | .full | .flash => s.commitFull
      | .part =>
        let s := { s with img := { s.img with state := .pending, part := (parseHeader s.img.staged).part } }
        s.raise .imgEvent 0

/-! ### Keys (R78) -/

/-- PROGRAMMED and REVOKED, as IMG_KEY_STATUS shows them. -/
def Img.keyStatus (m : Img) : Nat :=
  (List.range 4).foldl (fun v k =>
    v + (if k = 0 || (NMap.get? m.keys k).isSome then 2 ^ k else 0) + (if m.revoked.contains k then 2 ^ (k + 4) else 0)) 0

/-- IMG_KEY_CMD OP program; `ext` gives the 48 bytes when they lie outside the device. None: refused. -/
def State.keyProgram (s : State) (slot : Nat) (ext : List Byte) : Option State :=
  if slot = 0 || (NMap.get? s.img.keys slot).isSome then none
  else
    let bs := match s.target (s.rnat .imgSrcAddr) with
      | .ok (.here a) => s.sourceBytes a 48 ext
      | .ok (.there _ _) => some (ext.take 48)
      | .error _ => none
    bs.map (fun b =>
      ({ s with img := { s.img with keys := NMap.put s.img.keys slot (slice b 0 48) } }).logAdd
        (hwEntry 12 (new := slot + 4)))

/-- IMG_KEY_CMD OP revoke: not of a blank slot, nor of the last unrevoked one. None: refused. -/
def State.keyRevoke (s : State) (slot : Nat) : Option State :=
  if !(slot = 0 || (NMap.get? s.img.keys slot).isSome) then none
  else if s.img.revoked.contains slot then some s
  else if !((List.range 4).any (fun k => k != slot && s.img.keyUsable k)) then none
  else
    some (({ s with img := { s.img with revoked := s.img.revoked ++ [slot] } }).logAdd (hwEntry 12 (new := slot + 8)))

/-! ### Views -/

/-- IMG_STATUS. -/
def State.imgStatus (s : State) : Nat :=
  let st := match s.img.state with | .empty => 0 | .staging => 1 | .verifying => 2 | .pending => 3 | .active => 4
  if s.img.state = .pending then st + s.img.part * 16 + b2n s.img.force * 128 else st

end Sys2Proof.Machine
end

