-- ==== Sys2Proof/Machine/Views.lean ====
section
/-! DEFINITION. What the registers that show a unit's state read as: every RO register that no other file sets, with the
RC registers of the temperature peak (the register tables' Meaning column). -/
namespace Sys2Proof.Machine

/-! ### Words -/

/-- CAD_STATUS. -/
def State.cadStatus (s : State) : Nat :=
  let c := s.cad
  let st := match c.state with | .acquire => 0 | .locking => 1 | .locked => 2 | .flywheel => 3 | .lost => 4
  b2n c.backoff * 2 ^ 11 + c.rxRank * 256 + b2n c.pnext.isSome * 128 + b2n c.holdIn * 64 + b2n s.holdDrive * 32
    + b2n (c.phaseValid && c.frozen) * 16 + b2n c.master * 8 + st

/-- PWR_STATUS: KEEP, OFF and TRIPPED are never read. -/
def State.pwrStatus (s : State) : Nat :=
  let st := match s.pwr.st with | .run => 0 | .idle => 1 | .doze => 2 | .keepPending => 3 | .keep | .off | .tripped => 0
  s.pwr.startKind * 16 + st

/-- PWR_DOMAINS: those on, not those switching on. -/
def State.domainsOn (s : State) : Nat :=
  (List.range 56).foldl (fun v b => if s.domainOn b then v + 2 ^ b else v) 0

/-- A sensor and its reading as PWR_TEMP_MAX shows them. -/
def tempWord (t : Nat × Int) : Nat := t.1 * 65536 + unsignedOf 16 t.2

/-- The highest present reading; the lowest sensor of equal ones. -/
def State.tempMax (s : State) : Option (Nat × Int) :=
  s.pwr.temps.foldl (fun m e => match m with
    | none => some (e.1, e.2.1)
    | some x => if x.2 < e.2.1 then some (e.1, e.2.1) else m) none

/-- HIF_BOOT_STATUS. -/
def State.bootStatus (s : State) : Nat :=
  s.pwr.bootCode * 65536 + s.pwr.source * 256 + s.pwr.startKind * 16 + s.pwr.stage

/-- HIF_BOOT_TIME: running until READY or FAILED (R511). -/
def State.bootTime (s : State) : Nat :=
  match s.pwr.bootUs with
  | some v => v
  | none => if s.pwr.perst then 0 else min (2 ^ 32 - 1) ((s.now - s.pwr.bootFrom) * 5 / 8 / 1000)

/-- NYN_IDENT. -/
def State.nynIdent (s : State) : Nat :=
  let valid := !s.isSpare && !s.identity.isEmpty
  s.slotPos * 2 ^ 24 + s.slotGrp * 2 ^ 20
    + (if valid then 2 ^ 15 + b2n s.fab.assumed * 2 ^ 14 + s.ownId / 8 * 2 ^ 11 + s.ownId % 8 * 256 + s.ownId else 0)

/-- NYN_REACH: members, other than this device, with a usable route. -/
def State.nynReach (s : State) : Nat :=
  (List.range 64).foldl (fun v n =>
    if n ≠ s.ownId && bit s.members n && (s.chooseRoute n).isSome then v + 2 ^ n else v) 0

/-! ### Cairns, holdings, tally -/

/-- CRN_READ_VAL on a path: `part` is the partition of a VF path, none for the others. -/
def State.readCairn (s : State) (vf : Bool) (part : Option Nat) (ref : Nat) : Nat :=
  if ref ≥ 1472 || !s.cairnOn ref || (vf && (s.cairnOwner ref != part || part.isNone)) then 0 else s.cairn ref

/-- Tier number of a local address. -/
def tierOf (a : Nat) : Nat :=
  if a < slopeBase 0 then 0 else if a < foothillBase 0 then 1 else if a < valleyBase 0 then 2 else 3

/-- SCL_HOLD_INFO of a holding. -/
def State.holdInfo (s : State) (h : Holding) : Nat :=
  h.state * 2 ^ 61 + h.owner * 2 ^ 58 + tierOf h.base * 2 ^ 56 + h.hint * 2 ^ 52 + s.age h

/-- TLY_VAL: a VF reads 0 for another partition's LATE_SLOT histogram (R539). -/
def State.tallyView (s : State) (vf : Bool) (part : Option Nat) (id : Nat) : Nat :=
  let hist := (id - 0x4000) / 0x20
  if vf && inRange id 0x4100 0x41FF && some (hist - 8) != part then 0 else s.tallyOf id

/-! ### Plans -/

/-- A plan word (SCL_PLAN_WORD). -/
def PlanWord.word (w : PlanWord) : Nat :=
  w.disp * 2 ^ 28 + b2n w.overridden * 2 ^ 27 + b2n w.fixed * 2 ^ 26 + w.tier * 2 ^ 24 + w.lead % 65536

def LedgerState.code : LedgerState → Nat
  | .idle => 0
  | .planning => 1
  | .planned => 2
  | .failed => 3
  | .dryDone => 4

/-- SCL_LEDGER_STATUS. -/
def State.ledgerStatus (s : State) : Nat := ((List.range 8).map (fun p => (s.ledger p).st.code * 16 ^ p)).sum

/-- SCL_LEDGER_ACTIVE. -/
def State.ledgerActive (s : State) : Nat :=
  ((List.range 8).map (fun p => if (s.ledger p).inForce.isSome then 2 ^ p else 0)).sum

/-- Channel items of ledger entries in progress, and REGROW runs (SCL_INFLIGHT). -/
def State.channelItems (s : State) : Nat :=
  (s.dma.chans.filter (fun e => e.2.busy && (match e.2.work with | .leg _ _ _ => true | _ => false))).length
def State.regrowRuns (s : State) : Nat :=
  (allCtxs.filter (fun e => (s.ctx e.1 e.2).busy && (s.ctx e.1 e.2).scaler)).length

/-! ### Units -/

def ChState.code : ChState → Nat
  | .idle => 0
  | .fetch => 1
  | .wait => 2
  | .run => 3
  | .stopped => 4

def CtxState.code : CtxState → Nat
  | .idle => 0
  | .run => 1
  | .wait => 2
  | .fault => 3

def UnitState.code : UnitState → Nat
  | .idle => 0
  | .armed => 1
  | .running => 2
  | .halted => 3

/-- A Scaler item on the channel is late, or the channel's own descriptor is. -/
def State.chanLate (s : State) (c : Chan) : Bool :=
  c.late || (match c.work with | .leg p k _ => ((s.run? p k).map (·.late)).getD false | _ => false)

def State.chanStatus (s : State) (d n : Nat) : Nat :=
  let c := s.chan d n
  let run := n == 63 && s.dma.routeQ.any (fun e => e.1 == d)
  b2n (n == 63) * 32 + b2n (s.scalerOwned d n) * 16 + b2n (s.chanLate c) * 8 + (if run then 3 else c.st.code)

def State.ctxStatus (s : State) (t c : Nat) : Nat :=
  let x := s.ctx t c
  b2n x.late * 16 + b2n x.scaler * 8 + x.st.code

def State.unitStatus (s : State) (u : Nat) : Nat :=
  let x := s.unit u
  x.job * 65536 + b2n x.late * 8 + x.st.code

/-- Saturating at 32 bits. -/
def sat32 (n : Nat) : Nat := min (2 ^ 32 - 1) n

/-! ### The value of an RO register -/

/-- A read-only register as path `pidx` reads it; `vf` and `part` tell a VF path and its partition. -/
def State.roValue (s : State) (pidx : Nat) (vf : Bool) (part : Option Nat) (n : RegName) (i j : Nat) : Nat :=
  let sel (r : RegName) : Nat := s.pget pidx r i
  let planOf : PassInfo := (s.ledger (sel .sclPlanPart)).pass
  let hold : Option Holding := s.hold? (sel .sclHoldSel)
  let acct : Acct := s.acct i (s.acctSel pidx i)
  match n with
  | .hifLink => s.hostLink
  | .hifBlockEvent => s.blockEvents
  | .hifBootStatus => s.bootStatus
  | .hifBootFault => s.pwr.bootFault
  | .hifBadTiles => s.pwr.badTiles
  | .hifBadStacks => s.pwr.badStacks
  | .hifResumeStep => s.pwr.resumeStep
  | .hifBootTime => s.bootTime
  | .hifLinksDown => s.pwr.linksDown
  | .hifWinSize => ((NMap.get? s.hif.windows i).map (·.size)).getD 0
  | .hifWinBus => ((NMap.get? s.hif.windows i).map (·.bus)).getD 0
  | .hifCmdHead => (s.fnSt i).cmdHead
  | .hifCplTail => (s.fnSt i).cplTail
  | .hifStrTail => (s.fnSt i).strTail
  | .hifRingStatus => s.ringStatus i
  | .imgStatus => s.imgStatus
  | .imgRejectInfo => s.img.rejectInfo
  | .imgDigest => fieldAt s.img.digest 0 8
  | .imgVersion => s.img.version
  | .imgKeyStatus => s.img.keyStatus
  | .imgPartVer => NMap.getD s.img.partVer i 0
  | .cadStatus => s.cadStatus
  | .cadPhase => s.stepPhase
  | .cadPeriod => s.cad.period
  | .pwrStatus => s.pwrStatus
  | .pwrDomains => s.domainsOn
  | .pwrTempMax => (s.tempMax.map tempWord).getD 0
  | .pwrTempPeak => (s.pwr.tempPeak.map tempWord).getD 0
  | .pwrVbak => b2n (s.pwr.vbakMv != 0 && !s.pwr.vbakLow) * 65536 + s.pwr.vbakMv % 65536
  | .pwrKeepTime => sat32 s.pwr.keepMs
  | .pwrStraps => s.strapsWord
  | .logHead => s.log.nextSeq
  | .logOldest => s.log.oldest
  | .logStaged => s.log.staged.length
  | .logTime => s.logTime
  | .tlyVal => s.tallyView vf part (sel .tlySel)
  | .sclLedgerStatus => s.ledgerStatus
  | .sclLedgerActive => s.ledgerActive
  | .sclPlanPeak => planOf.peak
  | .sclPlanKeep => planOf.keep
  | .sclPlanPack => planOf.pack
  | .sclPlanSend => planOf.send
  | .sclPlanSendpack => planOf.sendPack
  | .sclPlanRegrow => planOf.regrow
  | .sclPlanOverrides => planOf.overrides
  | .sclPlanWord => ((planOf.words[sel .sclPlanSel]?).map (·.word)).getD 0
  | .sclInflight => s.regrowRuns * 65536 + s.channelItems
  | .sclStreamMode =>
    ((List.range 64).map (fun st =>
      if s.streamValid st && s.chanStall (s.streamChan st).1 (s.streamChan st).2 then 2 ^ st else 0)).sum
  | .sclParked => s.scl.park.length
  | .sclParkPages => (s.scl.park.map (fun x => (x.pages.filter (fun g => g.parked)).length)).sum
  | .sclPoolCap => s.poolUnits / 16
  | .sclPoolFree => s.freeUnits / 16
  | .sclFhCap => NMap.getD s.tier.fhCap 1 0 * 65536 + NMap.getD s.tier.fhCap 0 0
  | .sclPartUse => ceilDiv (s.partUnits i) 16
  | .sclHoldInfo => (hold.map s.holdInfo).getD 0
  | .sclHoldBase => (hold.map (·.base)).getD 0
  | .sclHoldSize => (hold.map (·.size)).getD 0
  | .sclHoldCount => s.tier.holdings.length
  | .crnReadVal => s.readCairn vf part (sel .crnReadRef)
  | .crnHcValue => s.cairn (1408 + i)
  | .srvActive => (s.reqsOf i).length * 65536 + (s.slotsUsed i).length
  | .srvModelState => ((List.range 16).map (fun m => (s.model i m).state * 16 ^ m)).sum
  | .srvTreeUsed => (s.srvPart i).nodes.length
  | .srvTreePages =>
    (s.tier.holdings.filter (fun e => e.2.owner == i && (match e.2.by_ with | .tree _ => true | _ => false))).length
  | .admKvCommitted => s.committed i
  | .admAcctSpent => acct.spent
  | .admAcctDeficit => acct.deficit
  | .admAcctStatus => (s.waitingOf i (s.acctSel pidx i)).length * 65536 + acct.last
  | .admAcctAdmitted => sat32 acct.admitted
  | .admAcctDelayed => sat32 acct.delayed
  | .admAcctRefused => sat32 acct.refused
  | .admReqInfo => s.reqInfo i (sel .admReqSel)
  | .tilCtxStatus => s.ctxStatus i j
  | .tilCtxErr => (s.ctx i j).err
  | .tilCtxErrPc => (s.ctx i j).errPc
  | .tilCtxKeysel => (s.ctx i j).keySel
  | .tilCtxCtr => (s.ctx i j).ctr
  | .dmaOccupancy => (s.busySlots i).length * 256 + (128 - s.usedBays i)
  | .dmaChStatus => s.chanStatus i j
  | .dmaChErr => (s.chan i j).err
  | .dmaChErrAddr => (s.chan i j).errAddr
  | .dmaChCur => (s.chan i j).cur
  | .dmaChDone => (s.chan i j).done
  | .dmaChCmp => (s.chan i j).cmp
  | .dmaChFault => (s.chan i j).fault
  | .dmaChHops => (s.chan i j).hops
  | .xpcSlotsBusy => s.busyXpc i
  | .updStatus => s.unitStatus i
  | .updLsClean => (s.train i).clean
  | .updNf => b2n (s.train i).nf
  | .nynPortStatus =>
    let q := s.port i
    q.peerId * 2 ^ 24 + q.peerPort * 2 ^ 20 + b2n q.standby * 16 + q.st
  | .nynIdent => s.nynIdent
  | .nynMachineId => s.img.machineId
  | .nynMembers => fieldAt s.identity 8 8
  | .nynReach => s.nynReach
  | .nynCollStatus => (s.coll.insts.filter (fun x => x.st == .done)).length * 65536 + s.coll.st
  | .intPortStatus => s.portStatus
  | .intCtrlState => s.ctrlStates
  | .intNsInfo => s.nsInfo (sel .intNsSel)
  | .intNsCap => ((s.nsAt (sel .intNsSel)).map (·.cap)).getD 0
  | .intRingStatus => s.inFlight i
  | .intJobsTaken => NMap.getD s.intake.taken i 0 % 2 ^ 32
  | .alnGStatus => (s.group i).st
  | .alnGTicks => NMap.getD s.aln.ticks i 0 % 2 ^ 32
  | .alnGShift => s.shiftView i (sel .alnGSel)
  | _ => s.pget pidx n i j

end Sys2Proof.Machine
end

