-- ==== Sys2Proof/Machine/LogTally.lean ====
section
/-! DEFINITION. The log writer, the tally store's flush, the temperature histogram and the setting of global time (R527,
R530, R534, R536). -/
namespace Sys2Proof.Machine

/-- Move `n` entries from the staging buffer to the ring. -/
def LogUnit.drain : Nat → LogUnit → LogUnit
  | 0, l => l
  | n + 1, l => LogUnit.drain n l.drain1

/-- LOG_WRITER_DRAIN: every staged entry reaches its slot of the ring. -/
def State.logDrain (s : State) : State := { s with log := s.log.drain s.log.staged.length }

/-- TALLY_FLUSH: accumulated updates are written to MRAM, each counter saturating at 2^64 - 1. -/
def State.tallyFlush (s : State) : State :=
  let m := s.tally.acc.foldl (fun m e => NMap.put m e.1 (min (2 ^ 64 - 1) (NMap.getD m e.1 0 + e.2))) s.tally.mram
  { s with tally := { mram := m, acc := [] } }

/-- Bin of the TEMPERATURE histogram for a reading in 1/16 degree (Table 21.4). -/
def tempBin (t : Int) : Nat := if t < 640 then 0 else min 31 (((t - 640) / 40).toNat + 1)

/-- The spine has power: RUN, IDLE or DOZE. -/
def PwrState.running : PwrState → Bool
  | .run | .idle | .doze | .keepPending => true
  | .keep | .off | .tripped => false

/-- TEMPERATURE_SAMPLE, once a second in RUN, IDLE or DOZE. -/
def State.temperatureSample (s : State) : State :=
  if s.pwr.st.running then s.observe 3 (tempBin ((s.tempMax.map (·.2)).getD 0)) else s

/-- Set global time (R530): at once, or from first lock on. -/
def State.setLogTime (s : State) (v : Nat) : State :=
  if s.log.timeRuns then { s with log := { s.log with timeBase := v, timeFrom := s.now } }
  else { s with log := { s.log with timePreset := some v } }

end Sys2Proof.Machine
end

