-- ==== Sys2Proof/Machine/Power.lean ====
section
/-! DEFINITION. Power states and their transitions, loss of main power, the thermal trip, the comparator and the retention
record (R489 to R506, R512, R526). -/
namespace Sys2Proof.Machine

/-- Block index of the power unit in ORIGIN_INDEX of its EVENT entries. -/
def pwrBlock : Nat := 0x00FF

/-! ### Quiescence (R499) -/

/-- A MOVE of a park or of a swap is in flight. -/
def State.pageMoving (s : State) : Bool :=
  s.dma.chans.any (fun e => match e.2.work with
    | .park _ _ _ _ | .piece _ _ _ | .handover _ _ => e.2.busy
    | _ => false)

/-- The device is quiescent. -/
def State.quiescent (s : State) : Bool :=
  allCtxs.all (fun e => !(s.ctx e.1 e.2).busy)
    && s.dma.chans.all (fun e => !e.2.busy)
    && s.ledgerActive == 0 && s.channelItems == 0 && s.regrowRuns == 0 && !s.pageMoving
    && (List.range 8).all (fun u => !(s.unit u).isArmed) && s.coll.st == 0
    && (List.range 8).all (fun p => (s.reqsOf p).isEmpty && (s.slotsUsed p).isEmpty)
    && s.intake.jobs.isEmpty
    && (List.range 16).all (fun g => (s.group g).st != 1)
    && (s.img.state == .empty || s.img.state == .active)

/-! ### Losing the spine -/

/-- Registers that keep their contents while the spine is off (Table 19.6). -/
def keptReg (key : Nat) : Bool :=
  key % 512 == RegName.ctorIdx .pwrLastErr || key % 512 == RegName.ctorIdx .pwrRailFaults

/-- The spine and every switched domain are reset: all work ends without completions and the loader is EMPTY. The keep
domain, with the home table, the log, the tally, the key fuses and the version floor, is not reset. -/
def State.resetSpine (s : State) : State :=
  let s := { s with
    regs := s.regs.filter (fun e => keptReg e.1), latch := [], held := [],
    cad := { holdIn := s.cad.holdIn, holdSince := s.cad.holdSince },
    img := { keys := s.img.keys, revoked := s.img.revoked, svFloor := s.img.svFloor },
    hif := { numVfs := s.hif.numVfs },
    tier := { holdings := s.tier.holdings.map (fun (e : Nat × Holding) => (e.1, { e.2 with dest := none, destSize := 0 })), tags := s.tier.tags },
    scl := {}, crn := {}, fab := {}, dma := {}, tiles := [], upd := {}, coll := {}, srv := {}, intake := {}, aln := {},
    log := { s.log with timeRuns := false, timePreset := none },
    pwr := { s.pwr with
      domains := 2 ^ domHost, rising := 0, stage := 0, badTiles := 0, badStacks := 0, bootCode := 0, bootFault := 0, linksDown := 0,
      source := 0, sscInForce := [], partialParts := [], bootUs := none, resumeStep := 0, temps := [], tempPeak := none } }
  s.updateHold

/-! ### KEEP -/

/-- The resume record of a KEEP entered now (R512); before a resume commit the record found by the ROM stays (R526). -/
def State.resumeRecord (s : State) (byCommand : Bool) : Option Resume :=
  match s.pwr.warm with
  | some r => some r
  | none =>
    if s.img.state = .empty || s.img.digest.isEmpty then none
    else some { digest := s.img.digest, parts := s.pwr.partialParts, step := s.cad.step, phase := s.phaseInt, byCommand := byCommand }

/-- Enter KEEP: the record is written, accumulated tally updates are flushed, and the spine loses power. -/
def State.enterKeep (s : State) (byCommand : Bool) : State :=
  let r := s.resumeRecord byCommand
  let s := ((s.tally1 0x1003).tallyFlush).resetSpine
  { s with pwr := { s.pwr with domains := 0, st := .keep, resume := r, warm := none, keepByCmd := byCommand, keepFrom := some s.now } }

/-- The contents of every stack are lost (R503). -/
def State.loseSlope (s : State) : State :=
  { s.zero (slopeBase 0) (8 * slopeSize) with pwr := { s.pwr with selfRefresh := 0 } }

/-- Retention is void: the marker is written, 0x0C04 is recorded, and the keep domain drops (R504). -/
def State.voidRetention (s : State) : State :=
  let s := s.issue 0x0C04
  { s with pwr := { s.pwr with domains := 0, st := .off, marker := true, resume := none, warm := none, keepFrom := none, keepByCmd := false, tripLow := false } }

/-- Staged entries that the log flush could not write are gone, and their SEQ values are given out again; so are the
updates of the tally since its last flush (R533, R534). -/
def State.loseStaged (s : State) : State :=
  { s with
    log := { s.log with staged := [], batch := [], nextSeq := s.log.written, dropped := 0 },
    tally := { s.tally with acc := [] } }

/-- Loss of main power, or a rail fault, in RUN, IDLE or DOZE and in every stage (R494, R501, R507): the staged entries
and one entry with `code` reach MRAM, all of them after the loss with its TIME, STEP and PHASE. `gone` tells whether the
backup supply is below V_BAK_MIN at the first comparator window. -/
def State.powerLost (s : State) (code : Nat) (gone : Bool) : State :=
  let s : State := (s.flushBatch).issue code
  let at_ := s.stamp
  if gone then (((s.loseStaged).enterKeep false).loseSlope).voidRetention
  else
    let s := s.logDrain
    let s := { s with log := { s.log with lossStamp := some at_ } }
    let s := ((s.logAdd (hwEntry pwrBlock code)).flushBatch).logDrain
    (s.enterKeep false).loseSlope

/-- MAIN_LOST: MAIN_PG falls. In a KEEP entered by command the stacks lose their self-refresh. -/
def State.mainLost (s : State) : State :=
  if !s.pwr.mainPg then s
  else
    let s := { s with pwr := { s.pwr with mainPg := false } }
    match s.pwr.st with
    | .run | .idle | .doze | .keepPending => s.powerLost 0x0C05 s.pwr.vbakLow
    | .keep =>
      let s : State := if s.pwr.keepByCmd then s.issue 0x0C05 else s
      { s.loseSlope with pwr := { s.pwr with keepByCmd := false, selfRefresh := 0 } }
    | .off | .tripped => s

/-- RAIL_FAULT: counted, and treated as a loss of main power (R494). -/
def State.railFault (s : State) : State :=
  if s.pwr.st.running then (s.count .pwrRailFaults).powerLost 0x0C02 false else s

/-! ### PWR_CMD (Table 19.5) -/

/-- The state of the power unit changes by command. -/
def State.pwrChange (s : State) (st : PwrState) : State :=
  { s with pwr := { s.pwr with st := st } }.raise .pwrEvent 0

/-- A state request that the device is not quiescent for: recorded, and REFUSED raised. -/
def State.pwrBusy (s : State) : State := (s.issue 0x0C01).raise .pwrEvent 1

/-- DOZE: every domain but the host port's switches off, the stacks going into self-refresh. -/
def State.doze (s : State) : State := (s.switchTo (2 ^ domHost)).pwrChange .doze

/-- A write of PWR_CMD with target `v`: accepted with its effect, or refused after recording its code. -/
def State.pwrCommand (s : State) (v : Nat) : Except State State :=
  match s.pwr.st, v with
  | .run, 0 | .idle, 1 | .doze, 2 | .keepPending, 3 | .keepPending, 2 => .ok s
  | .run, 1 => if s.quiescent then .ok (s.pwrChange .idle) else .error s.pwrBusy
  | .idle, 0 => .ok (s.pwrChange .run)
  | .run, 2 | .idle, 2 => if s.quiescent then .ok s.doze else .error s.pwrBusy
  | .doze, 0 | .keepPending, 0 =>
    .ok ((s.pwrChange .run).switchTo (if s.img.state = .empty then 2 ^ domHost else s.imageDomains))
  | .doze, 3 => .ok { s with pwr := { s.pwr with st := .keepPending } }
  | _, _ => .error s

/-- HOST_L2_ENTRY: after a KEEP request the device enters KEEP; the D3hot before it resets every function (R469, R500). -/
def State.hostL2 (s : State) : State :=
  if s.pwr.st = .keepPending then (s.flr 0).enterKeep true else s

/-- KEEP_L2_TIMEOUT: no L2 within 100 ms of the KEEP request. -/
def State.keepTimeout (s : State) : State :=
  if s.pwr.st = .keepPending then { s.issue 0x0C01 with pwr := { s.pwr with st := .doze } } else s

/-! ### The thermal trip (R495, R496) -/

/-- The device trips: everything but the keep domain stops, and the marker is written. -/
def State.trip (s : State) : State :=
  let s := (s.issue 0x0C03).logAdd (hwEntry pwrBlock 0x0C03)
  let s := (s.flushBatch).resetSpine
  { s with pwr := { s.pwr with
      domains := 0, st := .tripped, tripLow := true, marker := true, trippedBefore := true, resume := none, warm := none,
      selfRefresh := 0, keepFrom := none } }

/-- THERMAL_SAMPLE: sensor `i` reads `t` in 1/16 degree. -/
def State.thermalSample (s : State) (i : Nat) (t : Int) : State :=
  if s.pwr.st = .off || s.pwr.st = .tripped || i ≥ 40 then s
  else
    let high := decide (t ≥ 1840)
    let before := ((NMap.get? s.pwr.temps i).map (·.2)).getD false
    let peak := match s.pwr.tempPeak with
      | some x => if x.2 < t then some (i, t) else some x
      | none => some (i, t)
    let s := { s with pwr := { s.pwr with temps := NMap.put s.pwr.temps i (t, high), tempPeak := peak } }
    if high && before then s.trip
    else if s.pwr.st.running && decide (t ≥ (s.rnat .pwrTempWarn : Int)) then s.raise .pwrEvent 4
    else s

/-! ### The comparator (R504, R505) -/

/-- VBAK below V_BAK_MIN, with 50 mV of hysteresis. -/
def vbakIsLow (before : Bool) (mv : Nat) : Bool := if before then decide (mv < 2600) else decide (mv < 2550)

/-- COMPARATOR_WINDOW: one sample of MAIN_PG and of VBAK. A fall of MAIN_PG while running is MAIN_LOST's own event. -/
def State.comparator (s : State) (main : Bool) (mv : Nat) : State :=
  let was := s.pwr.vbakLow
  let low := vbakIsLow was mv
  let s := { s with pwr := { s.pwr with vbakMv := mv, vbakLow := low } }
  match s.pwr.st with
  | .run | .idle | .doze | .keepPending => if low && !was && main then s.raise .pwrEvent 3 else s
  | .keep =>
    if s.pwr.mainPg then s
    else if low then
      if main then
        let s : State := s.issue 0x0C04
        { s with pwr := { s.pwr with mainPg := true, marker := true, resume := none } }
      else s.voidRetention
    else if main then { s with pwr := { s.pwr with mainPg := true } }
    else s
  | .off => { s with pwr := { s.pwr with mainPg := main } }
  | .tripped =>
    let s := { s with pwr := { s.pwr with mainPg := main } }
    if !main && low then { s with pwr := { s.pwr with st := .off, tripLow := false } } else s

end Sys2Proof.Machine
end

