-- ==== Sys2Proof/Machine/BringUp.lean ====
section
/-! DEFINITION. Bring-up: PERST#, the kind of start, self test, stack training, the end of link training, and the links of
the host port and the CXL ports (R507 to R526, R133, R134). -/
namespace Sys2Proof.Machine

/-! ### PERST# (R508, R512) -/

/-- PERST_ASSERT: the spine and every switched domain are reset. In KEEP, OFF and TRIPPED nothing is left to reset. -/
def State.perstAssert (s : State) : State :=
  let s := { s with pwr := { s.pwr with perst := true } }
  if s.pwr.st.running then
    let s : State := (s.flushBatch).resetSpine
    { s with pwr := { s.pwr with st := .run, resume := none, warm := none, selfRefresh := 0 } }
  else s

/-- The kind of start (R512): 3 TRIP, 2 VOID, 1 WARM, 0 COLD. -/
def State.startKindNow (s : State) : Nat :=
  if s.pwr.trippedBefore then 3
  else if s.pwr.marker then 2
  else if s.pwr.st = .keep && s.pwr.resume.isSome then 1
  else 0

/-- Holdings at a warm resume (R503): Crest HELD; Slope HELD where its stack was kept in self-refresh by a KEEP entered by
command, else LOST; Foothill and Valley LOST after a loss of main power. -/
def State.resumeHolding (s : State) (byCmd : Bool) (h : Holding) : Holding :=
  let held := match tierOf h.base with
    | 0 => true
    | 1 => byCmd && bit s.pwr.selfRefresh ((h.base - slopeBase 0) / slopeSize)
    | _ => byCmd && h.state != 4
  { h with state := if held then 1 else 4 }

/-- Entry to the ROM: a start begins and its clock runs. The straps are latched (R547), and the power unit's registers
show how long the KEEP before lasted. -/
def State.beginStart (s : State) (straps : Nat) : State :=
  let kept := match s.pwr.st, s.pwr.keepFrom with
    | .keep, some t => some ((s.now - t) * 5 / 8 / 1000000)
    | _, _ => none
  let s := if s.pwr.st = .run then s else s.resetSpine
  let s := match kept with
    | some ms => s.observe 4 (log2Bin ms 1)
    | none => s
  let s := { s with
    log := { s.log with lossStamp := none },
    pwr := { s.pwr with
      st := .run, perst := false, straps := some (straps &&& 0xE7F), domains := 2 ^ domHost, rising := 0, bootFrom := s.now, bootUs := none,
      keepMs := kept.getD s.pwr.keepMs, keepFrom := none } }
  s.setStage 1

/-- PERST_RELEASE with main power present: the ROM decides the kind of start; the marker and the record are cleared. -/
def State.perstRelease (s : State) (straps : Nat) : State :=
  if !s.pwr.perst || !s.pwr.mainPg || s.pwr.st = .tripped then s
  else
    let kind := s.startKindNow
    let byCmd := s.pwr.keepByCmd
    let rec_ := s.pwr.resume
    let s := s.beginStart straps
    let s : State := { s with pwr := { s.pwr with
      startKind := kind, marker := false, trippedBefore := false, resume := none, warm := none, keepByCmd := false } }
    let s := match kind with
      | 3 => s.logAdd { kind := 4, origin := 3, originIdx := 1, code := 0x0C03 }
      | 2 => s.logAdd { kind := 4, origin := 3, originIdx := 1, code := 0x0C04 }
      | _ => s
    let s := match kind, rec_ with
      | 1, some r =>
        let s := { (s.tally1 0x1002).raise .pwrEvent 2 with
          tier := { s.tier with holdings := s.tier.holdings.map (fun (e : Nat × Holding) => (e.1, s.resumeHolding byCmd e.2)) } }
        { s with pwr := { s.pwr with warm := some r, resumeStep := r.phase * 2 ^ 48 + r.step } }
      | _, _ => s.tally1 0x1001
    s.setStage 2

/-! ### Self test (R513) -/

/-- SELF_TEST_COMPLETE: `bad` names the tiles whose Crest failed, which only a cold start tests; `fault` the failing unit,
1 spine logic, 2 central Crest, 3 MRAM, 0 none. -/
def State.selfTest (s : State) (bad fault : Nat) : State :=
  if s.pwr.stage ≠ 2 then s
  else if fault ≠ 0 then
    let s : State := s.issue 0x0C06
    { s with pwr := { s.pwr with bootFault := fault, bootCode := 0x0C06 } }.setStage 15
  else
    let s := if s.pwr.startKind = 1 then s else
      { s.zero 0 0x10000000 with
        tier := { s.tier with holdings := [], reserves := [], tags := [] },
        pwr := { s.pwr with badTiles := bad % 2 ^ 24 } }
    let s := s.setStage 3
    if bit s.strapsWord 9 then s.romFlash else s

/-! ### Stacks and links (R518 to R522) -/

/-- A stack fails training: its range has no responding target, and its holdings of a warm resume are LOST (R521). -/
def State.stackFailed (s : State) (k : Nat) : State :=
  (s.issue 0x0C08).loseRange (slopeBase k) slopeSize

/-- STACK_TRAINING_END: `bad` names the enabled stacks that failed. -/
def State.stackTraining (s : State) (bad : Nat) : State :=
  if s.pwr.stage < 6 || s.pwr.stage = 15 then s
  else
    let ks := (List.range 8).filter (fun k => bit bad k && s.domainOn (domStack k))
    let s : State := ks.foldl (fun s k => State.stackFailed s k) s
    let mask : Nat := ks.foldl (fun m k => m + 2 ^ k) 0
    let s : State := { s with pwr := { s.pwr with
      badStacks := s.pwr.badStacks ||| mask, bootCode := if mask = 0 then s.pwr.bootCode else 0x0C08 } }
    if s.pwr.stage = 6 then s.setStage 7 else s

/-- Links that are not ready (HIF_LINKS_DOWN): ports of PORT_MASK not UP, and enabled CXL ports that have published
nothing. -/
def State.linksNotUp (s : State) : Nat :=
  (List.range 14).foldl (fun v p => if bit s.portMask p && !s.portUp p then v + 2 ^ p else v)
    ((List.range 2).foldl (fun v p =>
      if s.domainOn (domCxl p) && (NMap.get? s.tier.fhCap p).isNone then v + 2 ^ (14 + p) else v) 0)

/-- Bring-up writes CAD_CTRL.ENABLE where the image has left it 0 (R522). -/
def State.enableCadence (s : State) : State :=
  let old := s.rnat .cadCtrl
  if bit old 0 then s
  else
    let s := s.rputN .cadCtrl (old + 1)
    (s.cadCtrlWritten old).logAdd
      { kind := 1, origin := 3, originIdx := s.pwr.stage, tkind := 0, target := RegName.localAddr .cadCtrl 0 0, old := old, new := old + 1 }

/-- LINKS_STAGE_END. A receiver that is LOCKED, or master, already ends stage CADENCE at once. -/
def State.linksEnd (s : State) : State :=
  if s.pwr.stage ≠ 7 then s
  else
    let s := { s with pwr := { s.pwr with linksDown := s.linksNotUp } }
    let s := (s.enableCadence).setStage 8
    if s.cad.state = .locked || s.cad.master then s.setStage 9 else s

/-! ### The links of the host port and of the CXL ports -/

/-- HOST_LINK_UP with a rate code and a width in lanes (R510): only with PERST# released and the spine powered. -/
def State.hostLinkUp (s : State) (rate width : Nat) : State :=
  if s.pwr.perst || !s.pwr.st.running then s
  else { s with hif := { s.hif with linkUp := true, rate := rate, width := width } }

/-- HOST_LINK_DOWN (R133). -/
def State.hostLinkDown (s : State) : State :=
  if !s.hif.linkUp then s
  else ({ s with hif := { s.hif with linkUp := false } }.raise .hifEvent 0).raise .sclTierEvent 5

/-- FOOTHILL_LINK_DOWN of a CXL port (R134). -/
def State.foothillDown (s : State) (p : Nat) : State :=
  if !s.domainOn (domCxl p) then s
  else ({ s with tier := { s.tier with fhDown := p :: s.tier.fhDown.filter (· != p) } }).raise .sclTierEvent (3 + p)

/-- A CXL port's link is back: an access to its range has completed. -/
def State.foothillUp (s : State) (a : Nat) : State :=
  match s.region? a with
  | some (.foothill p) => { s with tier := { s.tier with fhDown := s.tier.fhDown.filter (· != p) } }
  | _ => s

end Sys2Proof.Machine
end

