-- ==== Sys2Proof/Machine/Access.lean ====
section
/-! DEFINITION. Register accesses: who may reach which register and when, the two halves of a 64-bit register, what each
access code does, the command registers, and what is logged (R5 to R13, R25, R466, R467, R470, R510, R528, R529, R539, R555,
R556, R566 to R570, R577, Tables 0.4, 18.3, 20.2). -/
namespace Sys2Proof.Machine

/-! ### Paths -/

/-- Function of a path; I2C and JTAG act with PF0's rights. -/
def Path.fnIdx : Path → Nat
  | .fn f => f.val
  | _ => 0

/-- The path is that of a VF. -/
def Path.isVf : Path → Bool
  | .fn f => f.val != 0
  | _ => false

/-- ORIGIN and ORIGIN_INDEX of what a path does (Table 21.2). -/
def Path.origin : Path → Nat × Nat
  | .fn f => (1, f.val)
  | .i2c => (2, 0)
  | .jtag => (5, 0x0100)

/-- Partition that a VF path serves. -/
def State.pathPart (s : State) (p : Path) : Option Nat := if p.isVf then (s.partOfFn p.fnIdx).map (·.id) else none

/-- The function exists (R465). -/
def State.pathExists (s : State) (p : Path) : Bool := decide (p.fnIdx ≤ s.hif.numVfs)

/-! ### Rights (Table 18.3) -/

/-- Partition that owns an instance of a register, where its class gives it one. -/
def State.regOwner (s : State) (n : RegName) (i j : Nat) : Option Nat :=
  match n.row.own with
  | .tile | .ctx => s.ownerTile i
  | .chan => s.ownerChan i j
  | .unit => s.ownerTile (16 + i)
  | .group => some (bits (s.rnat .alnGCfg i) 2 0)
  | .part => some i
  | .hostCairn => s.ownerHostCairn i
  | .func => (s.partOfFn i).map (·.id)
  | .ident | .pf0 | .logRd | .logPf0 | .ledgerCmd | .dev | .devRw => none

/-- A VF of partition `p` may read the register. -/
def State.vfReads (s : State) (f p : Nat) (n : RegName) (i j : Nat) : Bool :=
  match n.row.own with
  | .ident | .logRd | .logPf0 | .ledgerCmd | .dev | .devRw => true
  | .pf0 => false
  | .func => i == f
  | .tile | .ctx | .chan | .unit | .group | .part | .hostCairn => s.regOwner n i j == some p

/-- A VF of partition `p` may write `v` to the register. The collective sequencer takes commands of the partition it
serves (R342). -/
def State.vfWrites (s : State) (f p : Nat) (n : RegName) (i j v : Nat) : Bool :=
  match n.row.own with
  | .ident | .logPf0 | .dev => false
  | .pf0 => n == .nynCollCtrl && s.collPart == p
  | .logRd | .devRw => true
  | .ledgerCmd => bits v 6 4 == p
  | .func => i == f
  | .tile | .ctx | .chan | .unit | .group | .part | .hostCairn => s.regOwner n i j == some p

/-- The path may read the register (R466, R470, R555, R556). -/
def State.mayRead (s : State) (p : Path) (n : RegName) (i j : Nat) : Bool :=
  match p with
  | .i2c | .jtag => true
  | .fn f =>
    if f.val = 0 then true
    else match s.pathPart p with
      | some q => s.vfReads f.val q n i j
      | none => n.row.own == .ident

/-- The path may write the register. -/
def State.mayWrite (s : State) (p : Path) (n : RegName) (i j v : Nat) : Bool :=
  match p with
  | .i2c => n == .logReadSeq || n == .tlySel
  | .jtag => true
  | .fn f =>
    if f.val = 0 then true
    else match s.pathPart p with
      | some q => s.vfWrites f.val q n i j v
      | none => false

/-- Registers that answer before anything else does: HIF_IDENT, HIF_SERIAL and those of Table 20.5 (R510). -/
def RegName.bootReg : RegName → Bool
  | .hifIdent | .hifIdentRsv | .hifSerial | .hifBootStatus | .hifBootFault | .hifBadTiles | .hifBadStacks | .hifResumeStep
  | .hifBootTime | .hifLinksDown | .hifBootRom => true
  | _ => false

/-- The bring-up stage lets the path reach the register (Table 20.2, R510, R555). -/
def State.reach (s : State) (p : Path) (n : RegName) : Bool :=
  s.pwr.st.running && match p with
  | .i2c => n.bootReg || s.pwr.stage == 9
  | _ =>
    if s.pwr.stage = 0 then false
    else if s.pwr.stage ≤ 2 then (p == .jtag || s.hif.linkUp) && decide (n.row.base < 0x100000)
    else if s.pwr.stage ≤ 4 then decide (n.row.base < 0x200000)
    else if s.pwr.stage = 15 then n.bootReg
    else true

/-- The register's domain is on (R566). -/
def State.regOn (s : State) (n : RegName) (i : Nat) : Bool :=
  match n.row.dom with
  | .spine => true
  | .anyPort => s.collPowered
  | d => match d.bitOf i with
    | some b => s.domainOn b
    | none => true

/-! ### Values -/

/-- What a register reads as on a path: reserved bits 0 (R9), a write-only register 0. TIL_CTX_PC shows the word that a
running context executes. -/
def State.regValue (s : State) (p : Path) (n : RegName) (i j : Nat) : Nat :=
  let v := match n.row.acc with
    | .wo => 0
    | .rw => if n = .tilCtxPc && (s.ctx i j).busy then (s.ctx i j).pc else s.rwValue p.idx n i j
    | .w1c => s.rnat n i j
    | .ro | .rc => s.roValue p.idx p.isVf (s.pathPart p) n i j
  v &&& n.row.mask

/-- The clear of an RC register: its reset value (R8). -/
def State.rcClear (s : State) (n : RegName) (i j : Nat) : State :=
  if n = .pwrTempPeak then { s with pwr := { s.pwr with tempPeak := none } } else s.rput n (n.resetOf i j) i j

/-! ### Reads (R6, R7) -/

/-- Read a whole register: its value, and the clear of an RC register. -/
def State.readWhole (s : State) (p : Path) (n : RegName) (i j : Nat) : Nat × State :=
  (s.regValue p n i j, if n.row.acc = .rc then s.rcClear n i j else s)

/-- Read one half of a 64-bit register: the lower half latches the upper one for the path; the upper half returns what is
latched and ends the latch, or the current upper half. -/
def State.readHalf (s : State) (p : Path) (n : RegName) (i j : Nat) (up : Bool) : Nat × State :=
  if up then
    match NMap.get? s.latch p.idx with
    | some (k, v) =>
      if k = n.key i j then (v.toNat, { s with latch := NMap.del s.latch p.idx })
      else (s.regValue p n i j / 2 ^ 32, s)
    | none => (s.regValue p n i j / 2 ^ 32, s)
  else
    let r := s.readWhole p n i j
    (r.1 % 2 ^ 32, { r.2 with latch := NMap.put r.2.latch p.idx (n.key i j, BitVec.ofNat 32 (r.1 / 2 ^ 32)) })

/-- The register that a read of `n` bytes at window offset `off` reaches, if it is of a form R7 allows. -/
def accessAt (off n : Nat) : Option (RegName × Nat × Nat × Bool) :=
  if n = 4 then findReg off
  else if n = 8 && off % 8 = 0 then
    match findReg off with
    | some (r, i, j, up) => if r.row.w64 && !up then some (r, i, j, false) else none
    | none => none
  else none

/-- A read by a path: the value, and the state after it. -/
def State.busRead (s : State) (p : Path) (off n : Nat) : Nat × State :=
  match accessAt off n with
  | none => (0, s)
  | some (r, i, j, up) =>
    if !s.pathExists p || !s.mayRead p r i j || !s.reach p r || !s.regOn r i then (0, s)
    else if n = 4 && r.row.w64 then s.readHalf p r i j up
    else s.readWhole p r i j

/-- A read by a path, its value given to the path. -/
def State.readOut (s : State) (p : Path) (off n : Nat) : State :=
  let r := s.busRead p off n
  { r.2 with readVal := BitVec.ofNat 64 r.1 }

/-! ### The log of writes (R528, R529) -/

/-- Partition that an entry about a register names: that of the register, else that of the VF. -/
def State.logPart (s : State) (p : Path) (n : RegName) (i j : Nat) : Nat :=
  match s.regOwner n i j with
  | some q => q
  | none => (s.pathPart p).getD 0xFF

/-- An entry about a write to a register. -/
def State.logReg (s : State) (p : Path) (kind : Nat) (n : RegName) (i j old new : Nat) : State :=
  s.logAdd { kind := kind, origin := p.origin.1, originIdx := p.origin.2, part := s.logPart p n i j, tkind := 0,
             target := n.localAddr i j, old := old, new := new }

/-- A refused write: nothing changes, and one REFUSED entry is made. -/
def State.refuse (s : State) (p : Path) (off v : Nat) : State :=
  match findReg (off / 4 * 4) with
  | some (n, i, j, _) => s.logReg p 2 n i j (if s.regOn n i then s.regValue p n i j else 0) v
  | none =>
    s.logAdd { kind := 2, origin := p.origin.1, originIdx := p.origin.2, part := (s.pathPart p).getD 0xFF, tkind := 0,
               target := 0x40000000 + off, new := v }

/-- Code that the chapter of a command register gives a write by a function that may not command the resource (R216, R264,
R298, R342, R453); 0 for none. -/
def notOwnedCode (n : RegName) (v : Nat) : Nat :=
  match n with
  | .tilCtxCtrl => 0x0A25
  | .dmaChCtrl => if bit v 0 then 0x0107 else 0
  | .updCtrl => 0x0A08
  | .nynCollCtrl => 0x0604
  | .alnGCtrl => if bit v 0 then 0x0E02 else 0
  | _ => 0

/-! ### Command registers -/

/-- An optional new state: a command that is discarded makes the write a refused one. -/
def orRefuse (s : State) : Option State → Except State State
  | some t => .ok t
  | none => .error s

/-- TIL_CTX_CTRL (R264): only the function of the owning partition commands a context. -/
def State.ctxCtrl (s : State) (p : Path) (t c v : Nat) : Except State State :=
  let part := s.pathPart p
  if v = 0 then .ok s
  else if part.isNone || s.ownerTile t != part then .error (s.issue 0x0A25)
  else if bit v 0 then
    match s.ctxGoRefusal part t c with
    | some code => .error (s.issue code)
    | none => .ok (s.ctxGo t c (s.rnat .tilCtxPc t c))
  else if bit v 1 then orRefuse s (s.ctxStop t c)
  else orRefuse s (s.ctxClear t c)

/-- DMA_CH_CTRL (R216, R230, R231). -/
def State.chCtrl (s : State) (p : Path) (d n v : Nat) : Except State State :=
  if bit v 0 then
    match s.startRefusal (s.pathPart p) d n (s.rnat .dmaChHead d n) with
    | some code => .error (s.issue code { cx := d, ch := n })
    | none => .ok (s.startChain d n (s.rnat .dmaChHead d n))
  else if bit v 1 then if n = 63 || s.scalerOwned d n then .error s else orRefuse s (s.abortChan d n)
  else if bit v 2 then orRefuse s (s.clearChan d n)
  else .ok s

/-- UPD_CTRL (R298, R299). -/
def State.unitCtrl (s : State) (u v : Nat) : Except State State :=
  if bit v 0 then
    if (s.unitPart u).isNone then .error (s.issue 0x0A08 { unit := u })
    else if s.armOk u then .ok (s.armUnit u) else .error s
  else if bit v 1 then .ok (s.disarmUnit u)
  else .ok s

/-- NYN_COLL_CTRL (R342). -/
def State.collCtrl (s : State) (v : Nat) : Except State State :=
  if bit v 0 then if s.coll.st = 0 then .ok s.collArm else .error s
  else if bit v 1 then .ok s.collDisarm
  else .ok s

/-- SCL_LEDGER_CMD with the SCL_LEDGER_ADDR of the writing path (R142, R577). -/
def State.ledgerCtrl (s : State) (p : Path) (v : Nat) (ext : List Byte) : Except State State :=
  let q := bits v 6 4
  let op := bits v 3 0
  if s.ledgerRefused q op then .error (s.issue 0x0407 { part := q })
  else if op = 2 then .ok (s.ledgerWithdraw q)
  else .ok ((s.ledgerSubmit q (s.pget p.idx .sclLedgerAddr) (op == 3) ext).startOfWork)

/-- SRV_MODEL_CMD (R366 to R368). `ext` and `ext2` give a record and a piece list that lie in Valley. -/
def State.modelCtrl (s : State) (q v : Nat) (ext ext2 : List Byte) : Except State State :=
  let m := bits v 7 4
  match bits v 2 0 with
  | 1 => .ok (s.modelDefine q m ext ext2)
  | 2 => if s.undefineOk q m then .ok (s.modelUndefine q m) else .error s
  | 3 => .ok (s.modelSwap q m false)
  | _ => .ok (s.modelSwap q m true)

/-- CRN_DEBUG_SET (R296). -/
def State.debugSet (s : State) (p : Path) (v : Nat) : Except State State :=
  let ref := s.pget p.idx .crnDebugRef
  if ref ≥ 1472 || !s.cairnOn ref then .error s
  else .ok (((s.tally1 0x1017).raise .crnEvent 3).cairnSet ref v 5 (if p = .jtag then 0x0100 else 0))

/-- ALN_G_CTRL (R453, R457): a START that is refused is recorded by its code. -/
def State.groupCtrl (s : State) (g v : Nat) : State :=
  if bit v 0 then
    let t := s.alnStart g true
    if (t.group g).st = 1 then t.startOfWork else t
  else if bit v 1 then s.alnStop g
  else s

/-- A write of value `v` to a WO register, whose form is right and which the path may write: the state after its action,
or, where it is a refused write, after what it records. -/
def State.regCommand (s : State) (p : Path) (n : RegName) (i j v : Nat) (ext ext2 : List Byte) : Except State State :=
  match n with
  | .imgCmd => s.imgCommand v
  | .imgKeyCmd => orRefuse s (if bits v 3 2 = 1 then s.keyProgram (bits v 1 0) ext else s.keyRevoke (bits v 1 0))
  | .cadMasterCmd => orRefuse s (s.masterCmd v)
  | .pwrCmd => s.pwrCommand v
  | .logTimeSet => .ok (s.setLogTime v)
  | .sclLedgerCmd => s.ledgerCtrl p v ext
  | .crnDebugSet => s.debugSet p v
  | .crnHcAdd => .ok (s.cairnAdd (1408 + i) v .host)
  | .crnHcSet => .ok (s.cairnSet (1408 + i) v p.origin.1 p.origin.2)
  | .srvModelCmd => s.modelCtrl i v ext ext2
  | .srvTreeCmd => .ok (if bits v 1 0 = 1 then s.treeInit i (bits v 7 4) else s.treeFlush i (bits v 7 4))
  | .admAcctCmd => .ok (if bit v 0 then s.acctReset i (s.acctSel p.idx i) else s)
  | .tilCtxCtrl => s.ctxCtrl p i j v
  | .dmaChCtrl => s.chCtrl p i j v
  | .updCtrl => s.unitCtrl i v
  | .nynPortCmd => .ok (if bit v 0 then s.retrain i else s)
  | .nynCollCtrl => s.collCtrl v
  | .intPortCmd => if bit v 0 then (if s.rescanRefused then .error s else .ok s.beginEnumeration) else .ok s
  | .alnGCtrl => .ok (s.groupCtrl i v)
  | _ => .ok s

/-- A write of the register is not logged as a register write (R528, R529). -/
def RegName.unlogged (n : RegName) : Bool :=
  n.selector || n == .crnHcAdd || n == .crnHcSet || n == .crnDebugSet

/-! ### Writes of a whole register (R8, R10, R13) -/

/-- Bits of `v` outside `m`. -/
def dropBits (v m : Nat) : Nat := v - (v &&& m)

/-- A write to a WO register. A cairn SET that another SET of the same clk overwrites is logged as superseded (R280). -/
def State.writeWo (s : State) (p : Path) (n : RegName) (i j off v raced : Nat) (ext ext2 : List Byte) : State :=
  let w := v &&& n.row.mask
  if !n.fieldOk i w then s.refuse p off v
  else if raced ≠ 0 && n = .crnHcSet then
    s.logAdd { kind := 3, origin := p.origin.1, originIdx := p.origin.2, part := s.logPart p n i j, tkind := 1,
               target := 1408 + i, old := s.cairn (1408 + i), new := v }
  else
    match s.regCommand p n i j w ext ext2 with
    | .error t => t.refuse p off v
    | .ok t =>
      if n.unlogged then t
      else if n = .logTimeSet then s.logReg p 1 n i j s.logTime w |>.setLogTime w
      else t.logReg p 1 n i j 0 w

/-- A write to a W1C register: a bit that hardware sets in the same clk stays set (R11). -/
def State.writeW1c (s : State) (p : Path) (n : RegName) (i j v raced : Nat) : State :=
  let old := s.rnat n i j
  let new := dropBits old (dropBits (v &&& n.row.mask) raced)
  (s.rputN n new i j).logReg p 1 n i j old new

/-- A ring that comes on is a start of work (R502). -/
def ringRises (n : RegName) (old new : Nat) : Bool :=
  match n with
  | .hifRingCtrl => newBits old new
  | .intRingCfg => !bit old 0 && bit new 0
  | _ => false

/-- A write to an RW register. `raced` gives the bits that hardware, or a later path, changes in the same clk: they keep
their value, and the write is superseded (R13, R569). -/
def State.writeRw (s : State) (p : Path) (n : RegName) (i j off v raced : Nat) : State :=
  let w := v &&& n.row.mask
  if !n.fieldOk i w || !s.rwAccept p.idx n i j w then s.refuse p off v
  else
    let old := s.rwValue p.idx n i j
    let new := (old &&& raced) ||| dropBits w raced
    let s := s.rwStore p.idx n i j new
    let s := if ringRises n old new then s.startOfWork else s
    if n.unlogged then s
    else if raced ≠ 0 then s.logReg p 3 n i j new w
    else s.logReg p 1 n i j old new

/-- Write a whole register that the path may write. -/
def State.writeWhole (s : State) (p : Path) (n : RegName) (i j off v raced : Nat) (ext ext2 : List Byte) : State :=
  match n.row.acc with
  | .ro | .rc => s.refuse p off v
  | .w1c => s.writeW1c p n i j v raced
  | .wo => s.writeWo p n i j off v raced ext ext2
  | .rw => s.writeRw p n i j off v raced

/-- A write of `n` bytes at window offset `off` by a path (R6, R7, R25, R470). -/
def State.busWrite (s : State) (p : Path) (off n v : Nat) (raced : Nat := 0) (ext ext2 : List Byte := []) : State :=
  if !s.pathExists p then s
  else
    match accessAt off n with
    | none => s.refuse p off v
    | some (r, i, j, up) =>
      if !s.mayWrite p r i j v then (s.issue (notOwnedCode r v) { cx := i, ch := j, unit := i }).refuse p off v
      else if !s.reach p r || !s.regOn r i then s.refuse p off v
      else if n = 4 && r.row.w64 then
        if up then
          match NMap.get? s.held p.idx with
          | some (k, lo) =>
            if k = r.key i j then
              State.writeWhole { s with held := NMap.del s.held p.idx } p r i j off (v * 2 ^ 32 + lo.toNat) raced ext ext2
            else s.refuse p off v
          | none => s.refuse p off v
        else { s with held := NMap.put s.held p.idx (r.key i j, BitVec.ofNat 32 v) }
      else s.writeWhole p r i j off v raced ext ext2

/-- Write a 32-bit register, or a 64-bit one whole, by its name: what the rows that stand for one register's write do. -/
def State.regWrite (s : State) (p : Path) (n : RegName) (i j v : Nat) (raced : Nat := 0) (ext ext2 : List Byte := []) : State :=
  s.busWrite p (n.row.base + i * n.row.s1 + j * n.row.s2) (if n.row.w64 then 8 else 4) v raced ext ext2

/-- RETRAIN: written by a path, or by the retrain gap of the port (R335). -/
def State.retrainBy (s : State) (p : Option Path) (port : Nat) : State :=
  match p with
  | some p => s.regWrite p .nynPortCmd port 0 1
  | none => s.retrain port

end Sys2Proof.Machine
end

