-- ==== Sys2Proof/Machine/Wrap.lean ====
section
/-! DEFINITION. What a step wrap sets off in every unit that acts at one (R41, R97, R143, R160, R186, R299, R300, R318, R342,
R376, R415, R523). -/
namespace Sys2Proof.Machine

/-- Conversations whose expiry step begins are released and their requests told (R186). -/
def State.expireAll (s : State) : State :=
  let r := s.parkExpire
  r.1.foldl (fun s e => s.expireReq e.1 e.2) r.2

/-- The actions of a wrap, the new step number standing: a partial commit that is due begins; plans change; expired
conversations go; update units and the sequencer open their runs; the generation list is written last of the serving
events of this clk, and the evaluations of admission become due. -/
def State.wrapActions (s : State) : State :=
  let s := (s.partialWrap).scalerWrap
  let s := (s.expireAll).parkWrap
  ((s.trainWrap).collWrap).servingWrap

end Sys2Proof.Machine
end

