-- ==== Sys2Proof/Machine/Cadence.lean ====
section
/-! DEFINITION. The cadence receiver and timing master: frames, the local phase and its corrections, election, HOLD_N
(R36 to R75). -/
namespace Sys2Proof.Machine

/-! ### Frames (Table 2.1) -/

def frameFields (bs : List Byte) : Frame :=
  let b0 := fieldAt bs 0 1
  { rank := bits b0 7 5, held := bit b0 4, pnext := bit b0 3, type := bits b0 2 0,
    phase := fieldAt bs 1 3, step := fieldAt bs 4 6, period := fieldAt bs 10 3, delay := fieldAt bs 13 2 }

def Frame.body (f : Frame) : List Byte :=
  leBytes 1 (f.rank * 32 + b2n f.held * 16 + b2n f.pnext * 8 + f.type) ++ leBytes 3 f.phase ++ leBytes 6 f.step
    ++ leBytes 3 f.period ++ leBytes 2 f.delay

/-- The 17 data bytes of a frame, CRC last. -/
def Frame.bytes (f : Frame) : List Byte := f.body ++ leBytes 2 (crc16 f.body)

/-- The characters decode, the CRC matches and TYPE is a phase frame; PERIOD is judged apart (R38, R39). -/
def frameWhole (bs : List Byte) (codeOk : Bool) : Bool :=
  codeOk && bs.length == 17 && fieldAt bs 15 2 == crc16 (bs.take 15) && (frameFields bs).type == 1

/-! ### Phase arithmetic -/

/-- Delay in 0.1 ns as 1/256 pu, to nearest, a tie up (R42). -/
def delayPhase (d period : Nat) : Nat := if period = 0 then 0 else (d * 2048 + period) / (2 * period)

/-- Compensated step phase of a frame in 1/256 pu (R42). -/
def compensated (f : Frame) (link period : Nat) : Nat :=
  f.step * 2 ^ 24 + f.phase + (if f.held then 0 else delayPhase (f.delay + link) period)

/-- A distance in 1/256 pu is at most `ns` nanoseconds. -/
def within (e : Int) (period ns : Nat) : Bool := decide (e.natAbs * period ≤ ns * 10240)

/-- Local step phase in 1/256 pu, truncated (R43). -/
def Cad.local256 (c : Cad) : Nat := c.step * 2 ^ 24 + c.phase / 2 ^ 32

/-! ### The wrap -/

/-- The integer phase passes 65,535: the step number increases, periods announced for this wrap are adopted (R41, R52),
and every unit takes its wrap action. -/
def State.wrapAt (s : State) (phase : Nat) : State :=
  let c := s.cad
  let k := c.step
  let c := { c with step := (k + 1) % 2 ^ 48, phase := phase }
  let c := match c.pnext with
    | some (k', per) =>
      if k' = k then { c with period := per, pnext := none, adoptedStep := some k } else c
    | none => c
  let c := match c.newPeriod with
    | some (per, k') => if c.master && k' = k then { c with period := per, newPeriod := none } else c
    | none => c
  let s := { s with cad := c }.tally1 0x1004
  let s := if s.rbit .logCfg 0 then s.logAdd { kind := 5, origin := 6, originIdx := 7, new := s.cad.step } else s
  s.wrapActions

/-- Move the local phase forward by `units` of 2^-40 pu at once, wrapping as often as it must (R43, R46). -/
def State.forward : Nat → Nat → State → State
  | 0, _, s => s
  | fuel + 1, units, s =>
    let p := s.cad.phase + units
    if p < fullStep then { s with cad := { s.cad with phase := p } }
    else State.forward fuel (p - fullStep) (s.wrapAt 0)

/-- The number of wraps a forward move can take, plus one. -/
def wrapFuel (units : Nat) : Nat := units / fullStep + 2

/-- `n` periods of the phase timebase (R41): while held back they make up the difference (R43), then the phase
advances; the period adopted at a wrap counts from that wrap. -/
def State.runPeriods : Nat → Nat → State → State
  | 0, _, s => s
  | fuel + 1, n, s =>
    let inc := phaseIncr s.cad.period
    if n = 0 || inc = 0 then s
    else
      let h := min n (ceilDiv s.cad.holdBack inc)
      let s := { s with cad := { s.cad with holdBack := s.cad.holdBack - h * inc } }
      let n := n - h
      let k := ceilDiv (fullStep - s.cad.phase) inc
      if n < k then { s with cad := { s.cad with phase := s.cad.phase + n * inc } }
      else State.runPeriods fuel (n - k) (s.wrapAt (s.cad.phase + k * inc - fullStep))

/-- The phase followed in LOCKING after LOST advances while the local phase stays frozen. -/
def shadowAdvance (n : Nat) : Nat × Nat × Nat → Nat × Nat × Nat
  | (st, ph, per) =>
    let t := ph + n * phaseIncr per
    ((st + t / fullStep) % 2 ^ 48, t % fullStep, per)

/-- Modulation period of a spread group in units of 0.625 ns: the frequency field counts 0.5 kHz (R497). -/
def sscPeriod (v : Nat) : Nat := if bits v 15 8 = 0 then 1 else 3200000 / bits v 15 8

/-- A changed depth or frequency takes effect at the start of the group's next modulation period (R497). -/
def State.sscAdvance (s : State) (later : Nat) : State :=
  (List.range 3).foldl (fun s g =>
    let cur := NMap.getD s.pwr.sscInForce g 0x3F0A
    if s.now / sscPeriod cur = later / sscPeriod cur then s
    else { s with pwr := { s.pwr with sscInForce := NMap.put s.pwr.sscInForce g (s.rnat .pwrSsc g) } }) s

/-- Real time passes by `n` periods of 0.625 ns. -/
def State.elapse (s : State) (n : Nat) : State :=
  let s := s.sscAdvance (s.now + n)
  let s := { s with now := s.now + n, cad := { s.cad with shadow := s.cad.shadow.map (shadowAdvance n) } }
  if s.cad.phaseValid && !s.cad.frozen then s.runPeriods (n + 1) n else s

/-! ### Corrections -/

/-- Correct the local phase by `e` (R43): forward in one clk, or held back. -/
def State.correct (s : State) (e : Int) : State :=
  if e ≥ 0 then
    let u := e.toNat * 2 ^ 32
    ({ s with cad := { s.cad with holdBack := 0 } }).forward (wrapFuel u) u
  else { s with cad := { s.cad with holdBack := e.natAbs * 2 ^ 32 } }

/-- A phase slip is counted, logged and raised (R58); the error is in 1/256 pu. -/
def State.slip (s : State) (e : Int) (before : Nat) : State :=
  let s := ((s.count .cadSlipCount).tally1 0x1006).observe 1 (log2Bin (e.natAbs * s.cad.period / 10240) 1)
  (s.logAdd (hwEntry 7 (old := before) (new := s.stepPhase))).raise .cadEvent 0

/-- Load the local phase from a frame (Table 2.3). -/
def State.loadPhase (s : State) (v256 period : Nat) : State :=
  { s with cad := { s.cad with
      phaseValid := true, step := v256 / 2 ^ 24 % 2 ^ 48, phase := v256 % 2 ^ 24 * 2 ^ 32, period := period,
      holdBack := 0 } }

/-- Ages stay as they were when the local phase is set rather than advanced (R124). -/
def State.keepAges (s : State) (before : Nat) : State := s.shiftAges ((before : Int) - (s.stepPhase : Int))

/-- Two consecutive frames agree (R59); the first came `dt` periods of 0.625 ns earlier. -/
def framesAgree (a b : Frame) (dt link : Nat) : Bool :=
  (a.held && b.held && a.step == b.step && a.phase == b.phase) ||
    within ((compensated b link b.period : Int) - (compensated a link a.period : Int)
      - ((dt * 25 * 256 / a.period : Nat) : Int)) a.period 40

/-- A discontinuity (R59): scheduled work of this and the next step ends with 0x0D08 and the received step phase is
adopted; the only case in which the local phase moves backward. -/
def State.discontinuity (s : State) (f : Frame) : State :=
  let s := ((s.endAllScheduled 0x0D08).issue 0x0D08).raise .cadEvent 1
  let per := if f.pnext then s.cad.period else f.period
  let before := s.stepPhase
  let s := s.loadPhase (compensated f (bits (s.rnat .cadInLink) 15 0) per) per
  let s := if s.stepPhase < before then s.keepAges before else s
  { s with cad := { s.cad with suspect := none } }

/-- The effect of HELD on the freeze (R68, R70, R73). -/
def State.takeHeld (s : State) (held : Bool) : State :=
  if held then { s with cad := { s.cad with frozenHeld := true, mismatch := 0 } }
  else if s.cad.holdIn then
    let m := s.cad.mismatch + 1
    let s := { s with cad := { s.cad with mismatch := m } }
    if m = 8 then (s.raise .cadEvent 6).issue 0x0D09 else s
  else { s with cad := { s.cad with frozenHeld := false, frozenHold := false, mismatch := 0 } }

/-- PNEXT (R52): the new period is kept for the wrap out of the frame's step, or adopted at once if that wrap has
already passed. -/
def State.takePnext (s : State) (f : Frame) : State :=
  if !f.pnext then s
  else if s.cad.step > f.step then
    { s with cad := { s.cad with period := f.period, pnext := none, adoptedStep := some f.step } }
  else { s with cad := { s.cad with pnext := some (f.step, f.period) } }

/-- A frame with PNEXT = 0 whose period is not that in force, other than at an adoption under R52 (R47). -/
def State.periodDiffers (s : State) (f : Frame) (period : Nat) : Bool :=
  !f.pnext && f.period != period &&
    (match s.cad.adoptedStep with | some k => decide (f.step > k) | none => true)

/-- The receiver reaches LOCKED: it leaves LOST, releases a LOST_HOLD drive (R60) and starts TIME (R530). -/
def State.reachLocked (s : State) : State :=
  let s := { s with cad := { s.cad with state := .locked, frozenLost := false, holdLost := false, suspect := none } }
  (s.updateHold).firstLock

/-- Judge the error of a frame in LOCKED (R43, R58, R59). -/
def State.judge (s : State) (f : Frame) : State :=
  let link := bits (s.rnat .cadInLink) 15 0
  let per := s.cad.period
  let e : Int := (compensated f link per : Int) - (s.cad.local256 : Int)
  let before := s.stepPhase
  if within e per 40 then
    { s with cad := { s.cad with suspect := none } }.correct e
  else if within e per (s.rnat .cadSlipLimit) then
    State.slip ({ s with cad := { s.cad with suspect := none } }.correct e) e before
  else
    match s.cad.suspect with
    | some (g, t) =>
      if framesAgree g f (s.now - t) link then s.discontinuity f
      else { s with cad := { s.cad with suspect := some (f, s.now) } }
    | none => { s with cad := { s.cad with suspect := some (f, s.now) } }

/-- A valid frame in LOCKED or FLYWHEEL. A receiver whose HOLD_N is low does not follow HELD = 0 frames (R70, R73). -/
def State.frameLocked (s : State) (f : Frame) : State :=
  let s := { s with cad := { s.cad with state := .locked } }
  if s.periodDiffers f s.cad.period then (s.discontinuity f).takeHeld f.held
  else
    let s := s.takePnext f
    let s := s.takeHeld f.held
    if s.cad.frozenHold && s.cad.holdIn && !f.held then s else s.judge f

/-- Start LOCKING from a frame: from ACQUIRE the local phase is loaded; after LOST it stays frozen and the frame's phase
is followed beside it (R57, R60). -/
def State.startLocking (s : State) (f : Frame) : State :=
  let link := bits (s.rnat .cadInLink) 15 0
  let per := if f.pnext then s.cad.period else f.period
  let v := compensated f link per
  let s := { s with cad := { s.cad with state := .locking, agree := 1 } }
  let s := if s.cad.frozenLost then
      { s with cad := { s.cad with shadow := some (v / 2 ^ 24 % 2 ^ 48, v % 2 ^ 24 * 2 ^ 32, per) } }
    else (s.loadPhase v per).keepAges s.stepPhase
  let s := s.takePnext f
  { s with cad := { s.cad with frozenHeld := f.held, frozenHold := s.cad.holdIn } }

/-- The 16th agreeing frame after LOST: the local phase catches up forward, or adopts a step phase behind it as a
discontinuity (R60). -/
def State.leaveLost (s : State) (f : Frame) (st ph per : Nat) : State :=
  let s := { s with cad := { s.cad with shadow := none, period := per, frozenLost := false } }
  let e : Int := ((st * 2 ^ 24 + ph / 2 ^ 32 : Nat) : Int) - (s.cad.local256 : Int)
  let before := s.stepPhase
  if e < 0 then
    if within e per 40 then s.correct e else s.discontinuity f
  else if !within e per 40 && within e per (s.rnat .cadSlipLimit) then (s.correct e).slip e before
  else s.correct e

/-- A valid frame in LOCKING (Table 2.3). -/
def State.frameLocking (s : State) (f : Frame) : State :=
  let link := bits (s.rnat .cadInLink) 15 0
  let (st, ph, per) := s.cad.shadow.getD (s.cad.step, s.cad.phase, s.cad.period)
  let e : Int := (compensated f link per : Int) - ((st * 2 ^ 24 + ph / 2 ^ 32 : Nat) : Int)
  if s.periodDiffers f per || !within e per 40 then s.startLocking f
  else
    let s := (s.takePnext f).takeHeld f.held
    let s := { s with cad := { s.cad with agree := s.cad.agree + 1 } }
    if s.cad.agree < 16 then s
    else
      match s.cad.shadow with
      | some (st, ph, per) => (s.leaveLost f st ph per).reachLocked
      | none => s.reachLocked

/-- A master stops driving after a conflict, enters FLYWHEEL and backs off (R50). -/
def State.conflict (s : State) : State :=
  let s := (s.raise .cadEvent 3).issue 0x0D06
  { s with cad := { s.cad with master := false, state := .flywheel, backoff := true, badRun := 0, frozenStop := false } }

/-- A discarded frame: counted (R38), and for a master the fourth in a row is a conflict (R50). -/
def State.frameBad (s : State) (f : Frame) : State :=
  let s := s.count .cadFrameErr
  let s := { s with cad := { s.cad with lastRx := some (f, false) } }
  if s.cad.master then
    let s := { s with cad := { s.cad with badRun := s.cad.badRun + 1 } }
    if s.cad.badRun ≥ 4 then s.conflict else s
  else s

/-- A valid frame (Table 2.3, R48, R50, R51). -/
def State.frameGood (s : State) (f : Frame) : State :=
  let s := { s with cad := { s.cad with
    lastRx := some (f, true), rxRank := f.rank, badRun := 0, backoff := false } }
  if s.cad.master then if f.rank ≠ s.rankOf then s.conflict else s
  else
    match s.cad.state with
    | .acquire => if f.pnext then s else s.startLocking f
    | .lost => s.startLocking f
    | .locking => s.frameLocking f
    | .locked => s.frameLocked f
    | .flywheel => s.frameLocked f

/-- A frame received whole at CAD_IN: its 17 data bytes, and whether every character decoded (R38 to R40). -/
def State.receiveFrame (s : State) (bs : List Byte) (codeOk : Bool) : State :=
  if !s.rbit .cadCtrl 0 then s
  else
    let f := frameFields bs
    if !frameWhole bs codeOk then s.frameBad f
    else if f.period < 0x200 then ((s.raise .cadEvent 5).issue 0x0D07).frameBad f
    else s.frameGood f

/-- The edge level of CAD_OUT takes effect at a comma the device drives (R553). -/
def State.driveFrame (s : State) (f : Frame) (valid : Bool) : State :=
  State.emit { s with side := { s.side with cadEdge := bits (s.rnat .pwrPadEdge) 1 0 } }
    (.cadFrame (if valid then f.bytes else []) valid)

/-- A repeating follower drives the frame just received (R44, R51). -/
def State.repeatFrame (s : State) : State :=
  match s.cad.lastRx with
  | none => s
  | some (f, ok) =>
    let s := { s with cad := { s.cad with lastRx := none } }
    if s.rbit .cadCtrl 0 && s.rbit .cadCtrl 1 && s.rankOf = 0 then
      s.driveFrame { f with delay := (f.delay + bits (s.rnat .cadInLink) 15 0 + 480) % 65536 } ok
    else s

/-- The reference instant of a master's frame: a STOP takes hold, a RUN or a HOLD_N release lets the phase advance
again (R53, R70, R75). The first RUN of a master elected from ACQUIRE counts as the wrap into CAD_MASTER_START (R523). -/
def State.masterInstant (s : State) : State :=
  let c := s.cad
  let first := c.runPending && c.firstRun
  let c := if c.stopPending then { c with frozenStop := true, stopPending := false } else c
  let c := if c.runPending then { c with frozenStop := false, runPending := false, firstRun := false } else c
  let c := if !c.holdIn then { c with frozenHold := false } else c
  let s := { s with cad := c }
  if first then s.wrapActions else s

/-- A master sends a frame (R37, R49, R50, R52). -/
def State.sendFrame (s : State) : State :=
  if s.cad.master && s.rbit .cadCtrl 0 then
    let s := s.masterInstant
    let pn := match s.cad.newPeriod with
      | some (per, k) => if k = s.cad.step then some per else none
      | none => none
    s.driveFrame { rank := s.rankOf, held := s.cad.frozen, pnext := pn.isSome, phase := s.cad.phase / 2 ^ 32,
                   step := s.cad.step, period := pn.getD s.cad.period,
                   delay := bits (s.rnat .cadRootDelay) 15 0 } true
  else s

/-- Eight frame times without a valid frame (Table 2.3, R48). -/
def State.frameLoss (s : State) : State :=
  if s.cad.master then s
  else match s.cad.state with
    | .locking =>
      if s.cad.frozenLost then
        { s with cad := { s.cad with state := .acquire, phaseValid := false, shadow := none, frozenLost := false } }
      else { s with cad := { s.cad with state := .acquire, phaseValid := false } }
    | .locked => { s with cad := { s.cad with state := .flywheel, backoff := decide (s.rankOf ≠ 0), suspect := none } }
    | _ => s

/-- A candidate's backoff ends with no valid frame: it becomes master (R48, R49). -/
def State.backoffEnd (s : State) : State :=
  if !(s.cad.backoff && s.rbit .cadCtrl 0 && s.rankOf ≠ 0) then s
  else
    let c := { s.cad with backoff := false, master := true, badRun := 0, frozenLost := false, holdLost := false,
                          shadow := none }
    let c := if c.phaseValid then { c with state := .locked }
      else { c with
        state := .locked, phaseValid := true, step := bits (s.rnat .cadMasterStart) 47 0, phase := 0, holdBack := 0,
        period := bits (s.rnat .cadMasterPeriod) 23 0, frozenStop := true, frozenHeld := false,
        frozenHold := c.holdIn, firstRun := true }
    ((State.updateHold { s with cad := c }).keepAges s.stepPhase).firstLock

/-- The flywheel limit passes (R60, Table 2.3). -/
def State.cadenceLost (s : State) : State :=
  if s.cad.state = .flywheel && !s.cad.master then
    let s := { s with cad := { s.cad with state := .lost, frozenLost := true, holdLost := s.rbit .cadCtrl 2 } }
    State.updateHold ((s.raise .cadEvent 2).issue 0x0D05)
  else s

/-- A filtered falling HOLD_N freezes the local phase (R68). -/
def State.holdFall (s : State) : State := { s with cad := { s.cad with holdIn := true, frozenHold := true } }

/-- A filtered rising HOLD_N: the phase stays frozen until the next frame releases it (R70). Without a valid phase
nothing is frozen. -/
def State.holdRise (s : State) : State :=
  { s with cad := { s.cad with holdIn := false, mismatch := 0, frozenHold := s.cad.frozenHold && s.cad.phaseValid } }

/-- A hold for one item exceeds CAD_HOLD_MAX (R72): the line is released and the item ends with 0x0D04. -/
def State.holdTimeout (s : State) (i : Item) : State :=
  match i with
  | .coll e => if s.cad.holdColl.contains e then (s.replaceExpiry e 0x0D04).raise .cadEvent 4 else s
  | _ =>
  if s.cad.holdItems.contains i then
    (((s.holdEnd i).issue 0x0D04).endItem i 0x0D04).raise .cadEvent 4
  else s

end Sys2Proof.Machine
end

