-- ==== Sys2Proof/Machine/Packets.lean ====
section
/-! DEFINITION. Packets: forwarding, end-to-end order, what a request does at its destination and what its answer does at
its source (R294, R337 to R341). -/
namespace Sys2Proof.Machine

/-! ### Out of the receive store -/

/-- The oldest packet of a port with OP `op`, at the head of its virtual channel. -/
def State.headPacket (s : State) (p op : Nat) : Option (Packet × Nat) :=
  match NMap.getD (s.port p).store (vcOf op) [] with
  | (k, n) :: _ => if k.op = op then some (k, n) else none
  | [] => none

/-- Take it out: its frames' room is owed back as credits. -/
def State.takePacket (s : State) (p op n : Nat) : State :=
  let q := s.port p
  let vc := vcOf op
  s.setPort p { q with store := NMap.put q.store vc ((NMap.getD q.store vc []).drop 1), owed := NMap.put q.owed vc (q.owes vc + n) }

/-- Forward a packet not addressed to this device over the port that faces its destination, or bounce it (R338). -/
def State.forwardPacket (s : State) (k : Packet) : State :=
  match portTo s.ownId k.dst with
  | some q => if s.portUp q then s.enqueue q k else s.bounce q k
  | none => s.bounce 0 k

/-! ### Requests at their destination (R109, R339) -/

/-- The check of a remote access: decode, a REMOTE window, and the holding in the pool or a range reserved for it. -/
def State.remoteCheck (s : State) (a len acc : Nat) : Except Nat Nat :=
  match s.decode a len with
  | .error c => .error c
  | .ok (.valley _) => .error 0x0301
  | .ok _ =>
    match s.remotePart a len acc with
    | none => .error 0x0302
    | some p =>
      if !inPool a then .ok p
      else if s.tier.reserves.any (fun r => !r.arena && !r.model && r.part == p && decide (r.base ≤ a) && decide (a + len ≤ r.base + r.size * granule)) then
        .ok p
      else match s.holdCheck p a len with
        | .ok _ => .ok p
        | .error c => .error c

def answer (k : Packet) (op : Nat) : Packet := { dst := k.src, src := k.dst, op := op, rtag := k.rtag }
def failAnswer (k : Packet) (code : Nat) : Packet := { answer k 11 with status := code }

/-- A remote reservation is written; complete, it becomes a holding (R116, R117). -/
def State.reserveWritten (s : State) (a len : Nat) : State :=
  match s.tier.reserves.find? (fun r => !r.arena && !r.model && decide (r.base ≤ a) && decide (a + len ≤ r.base + r.size * granule)) with
  | none => s
  | some r =>
    let rest := s.tier.reserves.filter (fun x => decide (x ≠ r))
    if r.left ≤ len then
      (State.makeHold { s with tier := { s.tier with reserves := rest } } { owner := r.part, base := r.base, size := r.size }).2
    else { s with tier := { s.tier with reserves := rest ++ [{ r with left := r.left - len }] } }

/-- A request takes effect here, once; its answer. -/
def State.applyRequest (s : State) (k : Packet) : Packet × State :=
  let a := bits k.addr 55 0
  match k.op with
  | 1 =>
    (match s.remoteCheck a k.want 1 with
    | .ok _ => ({ answer k 2 with data := s.rd a k.want }, s)
    | .error c => (failAnswer k c, s))
  | 3 =>
    (match s.remoteCheck a k.data.length 2 with
    | .ok _ => (answer k 4, (s.wr a k.data).reserveWritten a k.data.length)
    | .error c => (failAnswer k c, s))
  | 5 =>
    let i := bits k.addr 47 32
    if i < 1472 && s.cairnOn i && s.cairnOwner i = some (bits k.addr 55 48) then
      (answer k 6, s.cairnPut i (s.cairn i + bits k.addr 31 0))
    else ({ answer k 6 with status := 0x0505 }, s)
  | 7 =>
    (match s.collData k.src (bits k.addr 31 0) (bits k.addr 63 32) k.aux k.data with
    | (.ack, s) => (answer k 8, s)
    | (.skipped, s) => ({ answer k 8 with status := 1 }, s)
    | (.fail c, s) => (failAnswer k c, s))
  | _ =>
    let size := ceilDiv k.want granule
    (match s.decode a k.want with
    | .error c => (failAnswer k c, s)
    | .ok (.valley _) => (failAnswer k 0x0301, s)
    | .ok _ =>
      match s.remotePart a k.want 2 with
      | none => (failAnswer k 0x0302, s)
      | some p =>
        if !inPool a || a % granule ≠ 0 || !s.rangeFree a size || !s.rangeClean p a size then (failAnswer k 0x0309, s)
        else if isFoothill a && size > s.quotaLeft p 2 then (failAnswer k 0x030C, s)
        else (answer k 10, { s with tier := { s.tier with
          reserves := s.tier.reserves ++ [({ part := p, base := a, size := size, arena := false, left := k.want } : Reserve)] } }))

def ansKey (k : Packet) : Nat := k.src * 65536 + k.seq

/-- Apply a request in its turn, remember its answer for duplicates, and send it (R339). -/
def State.takeRequest (s : State) (k : Packet) : State :=
  let (ans, s) := s.applyRequest k
  let s := { s with fab := { s.fab with
    expect := NMap.put s.fab.expect k.src ((k.seq + 1) % 65536),
    answered := NMap.put s.fab.answered (ansKey k) { ans with data := [] } } }
  s.sendPacket ans

/-- Requests of a source whose turn has come out of the reorder store. -/
def State.drainReorder (s : State) (src : Nat) : Nat → State
  | 0 => s
  | fuel + 1 =>
    match s.fab.reorder.find? (fun k => k.src == src && k.seq == NMap.getD s.fab.expect src 0) with
    | none => s
    | some k =>
      let s := { s with fab := { s.fab with reorder := s.fab.reorder.filter (fun x => !(x.src == src && x.seq == k.seq)) } }
      State.drainReorder (s.takeRequest k) src fuel

/-- A request arrives at its destination (R339). -/
def State.requestIn (s : State) (k : Packet) : State :=
  let want := NMap.getD s.fab.expect k.src 0
  let ahead := (k.seq + 65536 - want) % 65536
  if ahead = 0 then (s.takeRequest k).drainReorder k.src 513
  else if ahead < 32768 then
    if s.fab.reorder.length ≥ 512 || s.fab.reorder.any (fun x => x.src == k.src && x.seq == k.seq) then s
    else { s with fab := { s.fab with reorder := s.fab.reorder ++ [k] } }
  else if k.op = 1 then s.sendPacket (s.applyRequest k).1
  else
    match NMap.get? s.fab.answered (ansKey k) with
    | some ans => s.sendPacket { ans with rtag := k.rtag }
    | none => s

/-- A request packet at the head of a port's store: forwarded, or applied and answered. -/
def State.requestPacket (s : State) (p op : Nat) : State :=
  match s.headPacket p op with
  | none => s
  | some (k, n) =>
    let s := s.takePacket p op n
    if k.dst = s.ownId && !s.isSpare then s.requestIn k else s.forwardPacket k

/-! ### Answers at the source -/

/-- A remote signal is refused or goes unanswered (R294). REMOTE_FAIL is read as the event of it. -/
def State.signalFailed (s : State) (src : AddSrc) (code : Nat) : State :=
  let s := s.raise .crnEvent 2
  match src with
  | .dma d n => if (s.chan d n).xfer = .signalling then s.stopChan d n code (s.chan d n).cur else s
  | _ => ((s.count .crnRefused).raise .crnEvent 1).issue code

/-- A remote signal is acknowledged. -/
def State.signalDone (s : State) (src : AddSrc) : State :=
  let s := s.count .crnRemoteAdds
  match src with
  | .dma d n => if (s.chan d n).xfer = .signalling then (s.setChan d n { s.chan d n with xfer := .none }).nextDesc d n else s
  | _ => s

/-- A request ends with a code (FAIL, or its own timeout). -/
def State.requestFailed (s : State) (r : FabReq) (code : Nat) : State :=
  let s := s.dropReq r.pkt.rtag
  match r.purpose with
  | .signal _ src => s.signalFailed src code
  | .read d n _ => if (s.chan d n).st = .fetch then (s.faultAt d n r.pkt.addr).stopChan d n code (s.chan d n).fetchAddr
    else s.failChan d n code r.pkt.addr
  | .write d n _ => s.failChan d n code r.pkt.addr
  | .reserve d n => s.failChan d n code r.pkt.addr
  | .coll i => if code = 0x0605 then s.collFail i code r.pkt.dst else s

/-- The OP that answers a request. -/
def answerOp (op : Nat) : Nat := op + 1

/-- An answer reaches the source of its request. -/
def State.answerIn (s : State) (k : Packet) : State :=
  match s.findReq k.rtag with
  | none => s
  | some r =>
    if r.pkt.dst ≠ k.src || k.op ≠ answerOp r.pkt.op then s
    else
      let s := s.dropReq k.rtag
      match r.purpose with
      | .signal _ src => if k.status = 0 then s.signalDone src else s.signalFailed src 0x0505
      | .read d n piece => s.chanData d n piece k.data
      | .write d n piece => s.chanAck d n piece
      | .reserve d n => if (s.chan d n).st = .run then (s.setChan d n { s.chan d n with xfer := .none, pieces := [] }).runOp d n {} else s
      | .coll i => if k.status = 1 then s.collSkipped i (bits r.pkt.addr 63 32) r.pkt.data else s

/-- A response packet at the head of a port's store. -/
def State.responsePacket (s : State) (p op : Nat) : State :=
  match s.headPacket p op with
  | none => s
  | some (k, n) =>
    let s := s.takePacket p op n
    if k.dst = s.ownId && !s.isSpare then s.answerIn k else s.forwardPacket k

/-- FAIL: a request of this device, or a collective instance, ends with its code (R339, R352). -/
def State.failPacket (s : State) (p : Nat) : State :=
  match s.headPacket p 11 with
  | none => s
  | some (k, n) =>
    let s := s.takePacket p 11 n
    if !(k.dst = s.ownId && !s.isSpare) then s.forwardPacket k
    else if k.status = 0x0606 then s.collFailIn (bits k.addr 31 0) 0x0606 (k.aux % 256)
    else
      match s.findReq k.rtag with
      | some r => if r.pkt.dst = k.src then s.requestFailed r k.status else s
      | none => s

/-- BOUNCE (R340): discarded when the latest copy went by the other route; else the request is sent again if a usable
route remains and its resends are not used up. -/
def State.bouncePacket (s : State) (p : Nat) : State :=
  match s.headPacket p 12 with
  | none => s
  | some (k, n) =>
    let s := s.takePacket p 12 n
    if !(k.dst = s.ownId && !s.isSpare) then s.forwardPacket k
    else
      match s.findReq k.rtag with
      | some r =>
        if r.pkt.alt ≠ k.alt || r.resends ≥ bits (s.rnat .nynE2eCfg) 23 16 then s
        else if s.chooseRoute r.pkt.dst = some k.alt then s
        else s.resendReq k.rtag
      | none => s

/-- E2E_RESEND: GAP has passed without an answer (R340). -/
def State.e2eResend (s : State) (rtag : Nat) : State :=
  match s.findReq rtag with
  | some r => if r.resends < bits (s.rnat .nynE2eCfg) 23 16 then s.resendReq rtag else s
  | none => s

/-- REMOTE_SIGNAL_TIMEOUT (R294). -/
def State.signalTimeout (s : State) (rtag : Nat) : State :=
  match s.findReq rtag with
  | some r =>
    (match r.purpose with
    | .signal _ src => (s.dropReq rtag).signalFailed src 0x0506
    | _ => s)
  | none => s

end Sys2Proof.Machine
end

