-- ==== Sys2Proof/Machine/Items.lean ====
section
/-! DEFINITION. Scheduled items: their start at a phase point, their lateness, their waits' ends, and the ends of
eviction routes and MOVEs, which several units share. -/
namespace Sys2Proof.Machine

/-! ### Start points (R61, R69, R97) -/

/-- The start point `a` has been reached. -/
def State.reached (s : State) (a : Option Nat) : Bool :=
  match a with
  | some v => decide (v ≤ s.stepPhase)
  | none => true

/-- The condition of a registered wait holds, or none is registered. -/
def State.waitFired (s : State) (w : Waiter) : Bool := ((s.waitOf w).map (·.fired)).getD false

/-- A channel's descriptor wait has completed (R281). -/
def State.chanWaitEnd (s : State) (d n : Nat) : State :=
  if s.waitFired (.dmaCh d n) then
    (s.cancelWait (.dmaCh d n)).setChan d n { s.chan d n with waitDone := true }
  else s

/-- PHASE_POINT_REACHED: an item's start point is reached, and it starts if its other conditions hold. -/
def State.phasePoint (s : State) (i : Item) : State :=
  match i with
  | .tileCtx t c =>
    let x := s.ctx t c
    if x.st = .wait && x.wait = .phase && s.reached x.startAt && !s.heldByCommit (s.ownerTile t) x.startAt then
      s.ctxResume t c
    else s
  | .dmaCh d n =>
    let c := s.chan d n
    if c.st = .wait && !c.startReached && s.reached c.startAt then
      (s.setChan d n { c with startReached := true }).grant d
    else s
  | .scaler p k => if s.committing p then s else s.entryPoints p k
  | .update u =>
    let x := s.unit u
    if x.st = .running && x.pass = .waiting && s.reached x.startAt then
      (s.setUnit u { x with startReached := true }).jobEligible u
    else s
  | .coll e =>
    match s.inst? e with
    | some x =>
      if x.st = .waiting && decide (x.e.s ≤ s.phaseInt) then (s.setInst { x with startReached := true }).collStart e else s
    | none => s
  | .intake p j => s.intakePhase p j

/-- ITEM_START: the start point has been reached, and the cairn condition has come to hold (R32). -/
def State.itemStart (s : State) (i : Item) : State :=
  match i with
  | .tileCtx t c =>
    if (s.ctx t c).st = .wait && (s.ctx t c).wait = .cairn && s.waitFired (.tileCtx t c) then
      (s.cancelWait (.tileCtx t c)).ctxResume t c
    else s
  | .dmaCh d n => (s.chanWaitEnd d n).grant d
  | .scaler p k => if s.committing p then s else (s.backStart p k).regrowStart p k
  | .update u => s.jobEligible u
  | .coll e => s.collStart e
  | .intake p j => s.intakePhase p j

/-! ### Lateness (R62 to R66, R71) -/

/-- D of a context's operator is reached (R286). -/
def State.ctxDeadline (s : State) (t c : Nat) : State :=
  let x := s.ctx t c
  match x.deadline with
  | none => s
  | some d =>
    if !x.busy || x.late || s.stepPhase < d then s
    else
      let stall := s.ctxStall t c
      let s := s.late (ctxItem t c) 0 (s.ownerTile t) stall 0x0D01 s.phaseInt
      if stall then s.setCtx t c { s.ctx t c with late := true } else s.ctxFault t c 0x0D01

/-- D of a channel's descriptor is reached (R232, R237): `units` leading units of a running transfer have been written. -/
def State.chanDeadline (s : State) (d n units : Nat) (ext : Ext) : State :=
  let c := s.chan d n
  match c.deadline with
  | none => s
  | some v =>
    if !c.busy || c.late || c.xfer = .done || c.xfer = .signalling || s.stepPhase < v then s
    else
      let stall := s.chanStall d n
      let s := s.late (chItem d n) 0 (s.chanPart d n) stall 0x0D02 s.phaseInt
      if stall then s.setChan d n { s.chan d n with late := true }
      else
        let s := if c.st = .run then s.partialOp d n units ext else s
        let s := match c.moving with
          | some id => s.moveFailed id 1
          | none => s
        s.stopChan d n 0x0D02 c.cur

/-- DEADLINE_REACHED. -/
def State.deadline (s : State) (i : Item) (units : Nat) (ext : Ext) : State :=
  match i with
  | .tileCtx t c => s.ctxDeadline t c
  | .dmaCh d n => s.chanDeadline d n units ext
  | .scaler p k => s.scalerDeadline p k
  | .update u => s.updDeadline u
  | .coll e => s.collDeadline e
  | .intake p j => s.intakeDeadline p j

/-! ### Ends of waits (R281, R288, R289) -/

/-- CAIRN_WAIT_COMPLETE: the condition of a wait holds and its waiter goes on; a host watch fires by its own event. -/
def State.waitComplete (s : State) (w : Waiter) : State :=
  match w with
  | .tileCtx t c =>
    if (s.ctx t c).st = .wait && (s.ctx t c).wait = .cairn && s.waitFired w then (s.cancelWait w).ctxResume t c else s
  | .dmaCh d n => (s.chanWaitEnd d n).grant d
  | .update u => s.jobEligible u
  | .coll e => s.collStart e
  | .hostWatch _ => s

/-- WAIT_TIMEOUT: a wait whose condition does not hold expires, unless the phase is frozen. The lateness of its item comes
first. -/
def State.waitTimeout (s : State) (w : Waiter) : State :=
  if s.cad.frozen then s
  else
    let s := match w with
      | .tileCtx t c => s.ctxDeadline t c
      | .dmaCh d n => s.chanDeadline d n 0 {}
      | .update u => s.updDeadline u
      | _ => s
    match s.waitOf w with
    | none => s
    | some x =>
      if x.fired then s
      else
        match w with
        | .hostWatch h => s.watchTimeout h x
        | .tileCtx t c => (s.recordTimeout x).ctxFault t c 0x0501 true
        | .dmaCh d n => (s.recordTimeout x).stopChan d n 0x0501 (s.chan d n).cur true
        | .update u => (s.recordTimeout x).endUpdate u 0x0501 true
        | .coll e => (s.recordTimeout x).collFail e 0x0501 s.ownId true

/-! ### Starts, failures and retries of transfers -/

/-- DESCRIPTOR_START: descriptors whose phase and wait conditions hold are granted in the order of R233. -/
def State.startReady (s : State) (d : Nat) : State :=
  ((List.range 63).foldl (fun s n => s.chanWaitEnd d n) s).grant d

/-- TRANSFER_FAILURE: an access at `a` fails after `units` leading units. Only lower-tier accesses fail in the ways of
Table 4.8. -/
def State.transferFailed (s : State) (d n : Nat) (f : Fail) (a units : Nat) (ext : Ext) : State :=
  if f ≠ .uncorrectable && !s.lowerTier a then s
  else if f = .timeout then s.chanTimeout d n a units ext
  else s.chainFailure d n f.code a units ext

/-- Entries of stream `st` that wait SCL_TIER_RETRY.GAP (R236). -/
def State.gapItems (s : State) (d n : Nat) : List (Nat × Nat) :=
  s.scl.runs.filterMap (fun r =>
    match s.entry? (r.1 / 131072) (r.1 % 131072) with
    | some e => if r.2.gap && s.streamChan e.stream == (d, n) then some (r.1 / 131072, r.1 % 131072) else none
    | none => none)

/-- TIER_RETRY: the gap has passed (R134, R236). The failed access of a channel is reissued, with the outcome `again`; on
a channel of the Scaler its items are. -/
def State.tierRetry (s : State) (d n : Nat) (again : Option Fail) : State :=
  match (s.chan d n).retry with
  | some (_, a, _) =>
    let t := s.retryAccess d n (again.map Fail.code)
    match again, s.target a with
    | none, .ok (.here l) => t.foothillUp l
    | _, _ => t
  | none => (s.gapItems d n).foldl (fun s e => s.reissue e.1 e.2) s

/-! ### MOVEs and eviction routes -/

/-- MOVE_COMPLETE: the last byte of a MOVE of a chain, of a command or of a page is acknowledged. -/
def State.moveDone (s : State) (d n : Nat) (ext : List Byte) : State :=
  let c := s.chan d n
  if c.st ≠ .run then s
  else
    match c.work with
    | .park p r _ back =>
      let s := s.pageMoved d n p r back ext
      (match c.moving with
      | some id => s.pageNote id
      | none => s)
    | _ => s.moveComplete d n

/-- The route of the holding `h` fails with a code that its service channel records (R157, R236). -/
def State.evictFailed (s : State) (d : Nat) (x : Evict) (h : Holding) (code : Nat) : State :=
  let s := s.moveFailed x.hold (s.moveOutcome x.hold code true)
  let s := (s.stopChan d 63 code 0).freeChan d 63
  ((s.evictEventOn x h 5).runVictims).retryLegs

/-- The entry whose raw holding is `id`, taken by route `x.route` as the disposition for the rest of the step. -/
def State.evictEntry (s : State) (p k : Nat) (x : Evict) : State :=
  match s.entry? p k, s.run? p k, s.planOf p k with
  | some e, some r, some pl =>
    let d := if x.route = 1 then 5 else if x.route = 2 then 4 else if x.route = 3 then 3 else 2
    let tier := ((s.hold? x.hold).map (fun h => if isValley h.base then 3 else if isFoothill h.base then 2 else e.homeTier)).getD 1
    let back := ((s.times p pl.period e tier d).map (·.2)).getD 0
    let s := if x.route = 1 then s.useRegrow e r.step back else s
    let s := s.modRun p k (fun r => { r with
      disp := d, tier := tier, lead := back, inPlace := false, inReady := false, back := .none, out := .done,
      raw := none, rest := if x.route = 1 then none else some x.hold })
    let s := if r.outReady then s else s.outDone p k e r.step
    s.entryPoints p k
  | _, _, _ => s

/-- The tree node whose page is homed at `base`. -/
def State.nodeOfPage (s : State) (p base : Nat) : Option (Nat × Node) :=
  (s.srvPart p).nodes.findSome? (fun e =>
    match s.node? p e.1 with
    | some y => if y.hasPage && y.page == base then some (e.1, y) else none
    | none => none)

/-- A route's data has moved (R117, R156): the holding is in its new home, or gone. -/
def State.evictMoved (s : State) (d : Nat) (x : Evict) (h : Holding) (ext : List Byte) : Except Nat State :=
  let entry (s : State) : State := match h.by_ with | .raw k => s.evictEntry h.owner k x | _ => s
  if x.route = 1 then
    match h.by_ with
    | .tree _ => .ok (s.discardPage h.owner x.hold)
    | _ => .ok (entry (s.freeHold x.hold))
  else
    match s.carryData d 63 h (if x.route = 3 then .plain else .pack) ext with
    | .error code => .error code
    | .ok (len, s) =>
      let s := s.arrived x.hold len
      let s := match h.by_, s.hold? x.hold with
        | .raw k, some g => if x.route = 3 then s else s.setHold x.hold { g with by_ := .coded k }
        | .tree _, some g =>
          (match s.nodeOfPage h.owner h.base with
          | some (m, y) => s.setNode h.owner m { y with page := g.base }
          | none => s)
        | _, _ => s
      .ok (entry (s.pageNote x.hold))

/-- EVICTION_ROUTE_DONE: the route that the service channel of complex `d` carries ends (R157, R215). -/
def State.evictRouteDone (s : State) (d : Nat) (fail : Option Fail) (ext : List Byte) : State :=
  match s.dma.routeQ.find? (fun (e : Nat × Nat) => e.1 == d) with
  | none => s
  | some q =>
    let drop (s : State) : State := { s with dma := { s.dma with routeQ := s.dma.routeQ.filter (fun (e : Nat × Nat) => e.2 != q.2) } }
    match s.evictOf q.2, s.hold? q.2 with
    | some x, some h =>
      (match fail with
      | some f => drop (s.evictFailed d x h f.code)
      | none =>
        match s.evictMoved d x h ext with
        | .error code => drop (s.evictFailed d x h code)
        | .ok t => ((drop t).evictEventOn x h 4).runVictims.retryLegs)
    | _, _ => drop s

/-! ### Time -/

/-- What the clk after a wrap or a route choice brings: the loss scale is mirrored (R320), and events raised for the
next clk arrive (Table 5.8). -/
def State.nextClk (s : State) : State :=
  ((List.range 8).foldl (fun s p => s.mirrorScale p) s).evictPending

/-- PHASE_ADVANCE: `n` periods of the phase timebase pass (R41). -/
def State.phaseAdvance (s : State) (n : Nat) : State :=
  if n = 0 then s else (s.drainAll.nextClk.elapse n).nextClk

/-- STEP_WRAP: time runs to the next wrap (R41). -/
def State.stepWrap (s : State) : State :=
  if !s.cad.phaseValid || s.cad.frozen || phaseIncr s.cad.period = 0 then s else s.phaseAdvance s.periodsToWrap

/-- PATROL_SCRUB: the scrubber reads a stack (R111). -/
def State.patrolScrub (s : State) (k : Nat) (ecc : Ecc) : State :=
  if !s.rbit .sclScrubCtrl 0 || !s.stackOn k then s
  else
    match ecc with
    | .corrected => s.eccCorrected
    | .uncorrectable a => if slopeBase k ≤ a && a < slopeBase (k + 1) then s.eccUncorrected a else s
    | _ => s

/-! ### What failures bring with them -/

/-- A stopped channel of the Scaler or of SRV hands its failure to the work's owner, which clears it (R236). -/
def State.sweepChan (s : State) (d n : Nat) : State :=
  let c := s.chan d n
  if c.st ≠ .stopped then s
  else
    match c.work with
    | .leg p k back => s.legFailed d n p k back c.err
    | .park p r i _ => s.pageFailed d n p r i
    | .piece p m _ => s.pieceFailed d n p m c.err
    | .handover r _ => s.handoverFailed d n r c.err
    | _ => s

def State.sweep (s : State) : State := (s.dma.chans.map (·.1)).foldl (fun s key => s.sweepChan (key / 64) (key % 64)) s

/-- Channels that have stopped and contexts that have faulted since `old`, as (partition, code) (R383). -/
def State.newErrors (s old : State) : List (Nat × Nat) :=
  let ch := s.dma.chans.filterMap (fun e =>
    let d := e.1 / 64
    let n := e.1 % 64
    if (s.chan d n).st = .stopped && (old.chan d n).st ≠ .stopped && !(s.chan d n).work.isScaler then
      (s.chanPart d n).map (fun p => (p, (s.chan d n).err))
    else none)
  let cx := s.tiles.flatMap (fun e => e.2.ctxs.filterMap (fun f =>
    if (s.ctx e.1 f.1).st = .fault && (old.ctx e.1 f.1).st ≠ .fault then
      (s.ownerTile e.1).map (fun p => (p, (s.ctx e.1 f.1).err))
    else none))
  ch ++ cx

/-- The channels and contexts are as they were. -/
def State.sameEngines (s old : State) : Bool := decide (s.dma.chans = old.dma.chans) && decide (s.tiles = old.tiles)

/-- Failures of channels and contexts reach those they concern (R236, R383). -/
def State.spread (s old : State) : State :=
  if s.sameEngines old then s else ((s.newErrors old).foldl (fun s e => s.servingError e.1 e.2) s).sweep

/-- The end of every command: failures are passed on, and the log and the event vector follow. -/
def State.finish (s old : State) : State := (s.spread old).settle

/-- The outcome of a command that took `old` to `s`. -/
def done (old s : State) : Host.Outcome State Fault Refusal := .next (s.finish old)

end Sys2Proof.Machine
end

