-- ==== Sys2Proof/Machine/CadenceCmds.lean ====
section
/-! DEFINITION. The meaning of each command of a family: The step phase, cadence frames and HOLD_N. -/
namespace Sys2Proof.Machine

/-- PHASE_ADVANCE (R41): Each phase timebase period advances the local phase unless frozen or held back. -/
def execPhaseAdvance (n : Nat) (s : State) : Host.Outcome State Fault Refusal :=
  done s (s.phaseAdvance n)

/-- STEP_WRAP (R41): The integer phase passes 65,535, wraps to 0 and the step number increases, triggering every wrap
action. -/
def execStepWrap (s : State) : Host.Outcome State Fault Refusal :=
  done s (s.stepWrap)

/-- PHASE_POINT_REACHED (R61): The local step phase reaches a scheduled phase point, starting items whose other
conditions hold. -/
def execPhasePointReached (item : Item) (s : State) : Host.Outcome State Fault Refusal :=
  done s (s.phasePoint item)

/-- ITEM_START (R32): Work scheduled at a reached phase starts once its cairn condition comes to hold. -/
def execItemStart (item : Item) (s : State) : Host.Outcome State Fault Refusal :=
  done s (s.itemStart item)

/-- DEADLINE_REACHED (R62): An item's deadline is reached before it completes, making it late under its late mode. -/
def execDeadlineReached (item : Item) (units : Nat) (ext : Ext) (s : State) : Host.Outcome State Fault Refusal :=
  done s (s.deadline item units ext)

/-- PHASE_FRAME_RECEIVE (R38): A cadence frame received whole is checked, counted if invalid, and used to lock,
correct or freeze the local phase. -/
def execPhaseFrameReceive (frame : List Byte) (codeOk : Bool) (s : State) : Host.Outcome State Fault Refusal :=
  done s (s.receiveFrame frame codeOk)

/-- FRAME_REPEAT (R44): A repeating follower drives a received frame on CAD_OUT 48 ns after its comma, with updated
DELAY and CRC. -/
def execFrameRepeat (s : State) : Host.Outcome State Fault Refusal :=
  done s (s.repeatFrame)

/-- PHASE_FRAME_SEND (R37): A master sends a phase frame carrying its phase, step, period, rank and delay. -/
def execPhaseFrameSend (s : State) : Host.Outcome State Fault Refusal :=
  done s (s.sendFrame)

/-- FRAME_LOSS_TIMEOUT (R48): Eight frame times without a valid frame send LOCKING to ACQUIRE or LOCKED to FLYWHEEL
and start candidate backoff. -/
def execFrameLossTimeout (s : State) : Host.Outcome State Fault Refusal :=
  done s (s.frameLoss)

/-- BACKOFF_EXPIRY (R48): A candidate whose backoff ends with no valid frame becomes master. -/
def execBackoffExpiry (s : State) : Host.Outcome State Fault Refusal :=
  done s (s.backoffEnd)

/-- CADENCE_LOST (R60): Time in FLYWHEEL exceeds CAD_FLY_MAX; the phase freezes, 0x0D05 is recorded and HOLD_N may be
driven. -/
def execCadenceLost (s : State) : Host.Outcome State Fault Refusal :=
  done s (s.cadenceLost)

/-- CAD_ENABLE (R48): Writing CAD_CTRL.ENABLE to 1 starts reception and, for a candidate, its backoff. -/
def execCadEnable (p : Path) (s : State) : Host.Outcome State Fault Refusal :=
  done s (s.regWrite p .cadCtrl 0 0 (s.rnat .cadCtrl ||| 1))

/-- CAD_DISABLE (R38): Writing ENABLE to 0 returns the receiver to ACQUIRE, idles CAD_OUT and ends a LOST_HOLD drive.
-/
def execCadDisable (p : Path) (s : State) : Host.Outcome State Fault Refusal :=
  done s (s.regWrite p .cadCtrl 0 0 (s.rnat .cadCtrl &&& 0x7E))

/-- SW_HOLD (R66): Writing CAD_CTRL.SW_HOLD holds or releases HOLD_N by software and is logged. -/
def execSwHold (p : Path) (on : Bool) (s : State) : Host.Outcome State Fault Refusal :=
  done s (s.regWrite p .cadCtrl 0 0 ((s.rnat .cadCtrl &&& 0x77) + b2n on * 8))

/-- RANK_WRITE (R55): Writing RANK 0 to a master makes it stop driving at the end of the current frame. -/
def execRankWrite (p : Path) (rank : Fin 8) (s : State) : Host.Outcome State Fault Refusal :=
  done s (s.regWrite p .cadCtrl 0 0 ((s.rnat .cadCtrl &&& 0x0F) + rank.val * 16))

/-- MASTER_RUN (R53): RUN written to CAD_MASTER_CMD releases the master's freeze at its next frame. -/
def execMasterRun (p : Path) (s : State) : Host.Outcome State Fault Refusal :=
  done s (s.regWrite p .cadMasterCmd 0 0 1)

/-- MASTER_STOP (R53): STOP written to CAD_MASTER_CMD freezes the master at its next frame and sends HELD = 1. -/
def execMasterStop (p : Path) (s : State) : Host.Outcome State Fault Refusal :=
  done s (s.regWrite p .cadMasterCmd 0 0 2)

/-- MASTER_PERIOD_WRITE (R52): A write of CAD_MASTER_PERIOD schedules a new period at a later wrap and PNEXT frames.
-/
def execMasterPeriodWrite (p : Path) (v : W32) (s : State) : Host.Outcome State Fault Refusal :=
  done s (s.regWrite p .cadMasterPeriod 0 0 v.toNat)

/-- HOLD_N_FALL (R68): A filtered falling HOLD_N freezes the local phase within 70 ns. -/
def execHoldNFall (s : State) : Host.Outcome State Fault Refusal :=
  done s (s.holdFall)

/-- HOLD_N_RISE (R70): A filtered rising HOLD_N lets the master resume at its next frame and followers on a HELD = 0
frame. -/
def execHoldNRise (s : State) : Host.Outcome State Fault Refusal :=
  done s (s.holdRise)

/-- HOLD_TIMEOUT (R72): A hold for one item exceeds CAD_HOLD_MAX; the line is released and the item ends with 0x0D04.
-/
def execHoldTimeout (item : Item) (s : State) : Host.Outcome State Fault Refusal :=
  done s (s.holdTimeout item)

end Sys2Proof.Machine
end

