-- ==== Sys2Proof/Machine/DmaCmds.lean ====
section
/-! DEFINITION. The meaning of each command of a family: DMA channels and their descriptors. -/
namespace Sys2Proof.Machine

/-- SLOT_GRANT (R204): A waiting channel is granted an XPC table slot when one is released. -/
def execSlotGrant (d : Fin 4) (s : State) : Host.Outcome State Fault Refusal :=
  done s (s.grantSlots d)

/-- DMA_CH_GO (R216): GO written to DMA_CH_CTRL starts a chain at DMA_CH_HEAD or is refused. -/
def execDmaChGo (p : Path) (d : Fin 4) (n : Fin 64) (s : State) : Host.Outcome State Fault Refusal :=
  done s (s.regWrite p .dmaChCtrl d n 1)

/-- DMA_CH_ABORT (R231): ABORT written to DMA_CH_CTRL stops the channel with 0x0104. -/
def execDmaChAbort (p : Path) (d : Fin 4) (n : Fin 64) (s : State) : Host.Outcome State Fault Refusal :=
  done s (s.regWrite p .dmaChCtrl d n 2)

/-- DMA_CH_CLEAR (R230): CLEAR written to DMA_CH_CTRL returns a STOPPED channel to IDLE. -/
def execDmaChClear (p : Path) (d : Fin 4) (n : Fin 64) (s : State) : Host.Outcome State Fault Refusal :=
  done s (s.regWrite p .dmaChCtrl d n 4)

/-- DESCRIPTOR_FETCH (R218): A descriptor read completes and is checked, making it ready or stopping the channel. -/
def execDescriptorFetch (d : Fin 4) (n : Fin 64) (ext : List Byte) (ecc : Ecc) (s : State) : Host.Outcome State Fault Refusal :=
  done s (s.fetchDesc d n ext ecc)

/-- DESCRIPTOR_START (R220): A ready descriptor starts once its phase, wait condition and grant of bays and slot hold.
-/
def execDescriptorStart (d : Fin 4) (s : State) : Host.Outcome State Fault Refusal :=
  done s (s.startReady d)

/-- COPY (R223): A COPY descriptor writes LENGTH bytes from SRC to DST. -/
def execCopy (d : Fin 4) (n : Fin 64) (ext : Ext) (ecc : Ecc) (s : State) : Host.Outcome State Fault Refusal :=
  done s (s.opCommand d n 1 ext ecc)

/-- FILL (R223): A FILL descriptor writes a repeated pattern from DST. -/
def execFill (d : Fin 4) (n : Fin 64) (s : State) : Host.Outcome State Fault Refusal :=
  done s (s.opCommand d n 2 {} .clean)

/-- COMPARE (R223): A COMPARE descriptor compares two ranges and records the first differing offset. -/
def execCompare (d : Fin 4) (n : Fin 64) (ext : Ext) (ecc : Ecc) (s : State) : Host.Outcome State Fault Refusal :=
  done s (s.opCommand d n 3 ext ecc)

/-- MOVE (R116): A MOVE descriptor moves a holding to a free range under the single-home rule. -/
def execMove (d : Fin 4) (n : Fin 64) (ext : Ext) (ecc : Ecc) (s : State) : Host.Outcome State Fault Refusal :=
  done s (s.opCommand d n 4 ext ecc)

/-- PACK (R196): A PACK descriptor codes a raw range into an XPC object within DST_LEN. -/
def execPack (d : Fin 4) (n : Fin 64) (ext : Ext) (ecc : Ecc) (s : State) : Host.Outcome State Fault Refusal :=
  done s (s.opCommand d n 5 ext ecc)

/-- UNPACK (R209): An UNPACK descriptor checks and decodes an XPC object's blocks into DST. -/
def execUnpack (d : Fin 4) (n : Fin 64) (ext : Ext) (ecc : Ecc) (s : State) : Host.Outcome State Fault Refusal :=
  done s (s.opCommand d n 6 ext ecc)

/-- TRANSPOSE (R223): A TRANSPOSE descriptor writes a matrix transposed with pitches. -/
def execTranspose (d : Fin 4) (n : Fin 64) (ext : Ext) (ecc : Ecc) (s : State) : Host.Outcome State Fault Refusal :=
  done s (s.opCommand d n 7 ext ecc)

/-- GATHER (R224): A GATHER descriptor writes indexed elements, or coded blocks, densely to DST. -/
def execGather (d : Fin 4) (n : Fin 64) (ext : Ext) (ecc : Ecc) (s : State) : Host.Outcome State Fault Refusal :=
  done s (s.opCommand d n 8 ext ecc)

/-- SCATTER (R224): A SCATTER descriptor writes dense elements to indexed destinations. -/
def execScatter (d : Fin 4) (n : Fin 64) (ext : Ext) (ecc : Ecc) (s : State) : Host.Outcome State Fault Refusal :=
  done s (s.opCommand d n 9 ext ecc)

/-- DESCRIPTOR_COMPLETE (R226): A descriptor's last write is acknowledged; it signals and the channel chains, idles or
stops at the hop limit. -/
def execDescriptorComplete (d : Fin 4) (n : Fin 64) (s : State) : Host.Outcome State Fault Refusal :=
  done s (s.descComplete d n)

/-- DMA_READ_TIMEOUT (R235): A read or fabric acknowledgement exceeds DMA_READ_TIMEOUT and fails retryably or ends
with 0x0101. -/
def execDmaReadTimeout (d : Fin 4) (n : Fin 64) (addr units : Nat) (ext : Ext) (s : State) : Host.Outcome State Fault Refusal :=
  done s (s.chanTimeout d n addr units ext)

/-- TRANSFER_FAILURE (R236): A transfer fails, ending the descriptor and stopping the channel or handing the item to
the Scaler. -/
def execTransferFailure (d : Fin 4) (n : Fin 64) (f : Fail) (addr units : Nat) (ext : Ext) (s : State) : Host.Outcome State Fault Refusal :=
  done s (s.transferFailed d n f addr units ext)

end Sys2Proof.Machine
end

