-- ==== Sys2Proof/Machine/FabricCmds.lean ====
section
/-! DEFINITION. The meaning of each command of a family: Nynal links, packets and collectives. -/
namespace Sys2Proof.Machine

/-- LINK_FRAME_RECEIVE (R332): A Nynal frame is corrected, CRC-checked and accepted in order or discarded for
retransmission. -/
def execLinkFrameReceive (port : Fin 14) (frame : List Byte) (s : State) : Host.Outcome State Fault Refusal :=
  done s (s.linkReceive port frame)

/-- LINK_FRAME_SEND (R334): In each frame slot a port sends SIGNAL or the VC of its fixed cycle against credits. -/
def execLinkFrameSend (port : Fin 14) (s : State) : Host.Outcome State Fault Refusal :=
  done s (s.sendLinkFrame port)

/-- LINK_RESEND (R333): A frame unacknowledged for 2 µs is resent with the rest; 8 resends take the port DOWN. -/
def execLinkResend (port : Fin 14) (s : State) : Host.Outcome State Fault Refusal :=
  done s (s.linkResend port)

/-- RETRAIN (R335): RETRAIN written to NYN_PORT_CMD, or the retrain gap, starts training a DOWN port. -/
def execRetrain (p : Option Path) (port : Fin 14) (s : State) : Host.Outcome State Fault Refusal :=
  done s (s.retrainBy p port)

/-- TRAINING_RESULT (R335): Training finds a matching peer and comes UP, or a mismatch and records 0x0603. -/
def execTrainingResult (port : Fin 14) (machine : Nat) (peerId : Fin 64) (peerPort : Fin 14) (s : State) : Host.Outcome State Fault Refusal :=
  done s (s.trainingResult port machine peerId peerPort)

/-- TRAINING_TIMEOUT (R335): Training without lock for 2 ms returns the port to DOWN. -/
def execTrainingTimeout (port : Fin 14) (s : State) : Host.Outcome State Fault Refusal :=
  done s (s.trainingTimeout port)

/-- LOSS_OF_LOCK (R341): An UP port loses lock, goes DOWN, sends a notice and resends or bounces its buffer. -/
def execLossOfLock (port : Fin 14) (s : State) : Host.Outcome State Fault Refusal :=
  done s (s.lossOfLock port)

/-- PORT_ENABLE (R335): A write of NYN_PORT_CTRL.ENABLE disables or enables a port. -/
def execPortEnable (p : Path) (port : Fin 14) (on : Bool) (s : State) : Host.Outcome State Fault Refusal :=
  done s (s.regWrite p .nynPortCtrl port 0 (b2n on))

/-- NYN_FAILED_WRITE (R335): A write of NYN_FAILED moves ports facing changed IDs between primary and standby lanes.
-/
def execNynFailedWrite (p : Path) (v : W64) (s : State) : Host.Outcome State Fault Refusal :=
  done s (s.regWrite p .nynFailed 0 0 v.toNat)

/-- NOTICE (R337): A port-change notice received updates route usability and is passed on once. -/
def execNotice (near : Fin 14) (dev : Fin 64) (port : Fin 14) (up : Bool) (s : State) : Host.Outcome State Fault Refusal :=
  done s (s.noticeIn near dev port up)

/-- READ_REQ (R339): A READ_REQ packet is forwarded or applied in E2E order and answered. -/
def execReadReq (port : Fin 14) (s : State) : Host.Outcome State Fault Refusal :=
  done s (s.requestPacket port 1)

/-- READ_DATA (R339): A READ_DATA response is matched by RTAG to its request. -/
def execReadData (port : Fin 14) (s : State) : Host.Outcome State Fault Refusal :=
  done s (s.responsePacket port 2)

/-- WRITE (R339): A WRITE packet is applied once in E2E order and acknowledged. -/
def execWrite (port : Fin 14) (s : State) : Host.Outcome State Fault Refusal :=
  done s (s.requestPacket port 3)

/-- WRITE_ACK (R339): A WRITE_ACK completes an outstanding write. -/
def execWriteAck (port : Fin 14) (s : State) : Host.Outcome State Fault Refusal :=
  done s (s.responsePacket port 4)

/-- SIGNAL (R294): A SIGNAL packet adds to a cairn of the target partition or is refused, and is acknowledged. -/
def execSignal (port : Fin 14) (s : State) : Host.Outcome State Fault Refusal :=
  done s (s.requestPacket port 5)

/-- SIGNAL_ACK (R294): A SIGNAL_ACK completes a remote add, or refuses it with 0x0505. -/
def execSignalAck (port : Fin 14) (s : State) : Host.Outcome State Fault Refusal :=
  done s (s.responsePacket port 6)

/-- COLL_DATA (R345): A COLL_DATA chunk is checked by signature and folded at its root once all pieces arrive. -/
def execCollData (port : Fin 14) (s : State) : Host.Outcome State Fault Refusal :=
  done s (s.requestPacket port 7)

/-- COLL_ACK (R350): A COLL_ACK answers a chunk, with SKIPPED making the sender carry or drop it. -/
def execCollAck (port : Fin 14) (s : State) : Host.Outcome State Fault Refusal :=
  done s (s.responsePacket port 8)

/-- RESERVE (R116): A RESERVE packet reserves a destination range for a remote MOVE. -/
def execReserve (port : Fin 14) (s : State) : Host.Outcome State Fault Refusal :=
  done s (s.requestPacket port 9)

/-- RESERVE_ACK (R116): A RESERVE_ACK lets a remote MOVE send its first byte. -/
def execReserveAck (port : Fin 14) (s : State) : Host.Outcome State Fault Refusal :=
  done s (s.responsePacket port 10)

/-- FAIL (R352): A FAIL packet ends a request or collective instance with its code. -/
def execFail (port : Fin 14) (s : State) : Host.Outcome State Fault Refusal :=
  done s (s.failPacket port)

/-- BOUNCE (R340): A BOUNCE returns an undeliverable request to its source for resending or discard. -/
def execBounce (port : Fin 14) (s : State) : Host.Outcome State Fault Refusal :=
  done s (s.bouncePacket port)

/-- E2E_RESEND (R340): An unanswered request is resent after NYN_E2E_CFG.GAP or a route change. -/
def execE2eResend (rtag : Nat) (s : State) : Host.Outcome State Fault Refusal :=
  done s (s.e2eResend rtag)

/-- NYN_COLL_ARM (R342): NYN_COLL_CTRL ARM makes the collective sequencer run its table each step. -/
def execNynCollArm (p : Path) (s : State) : Host.Outcome State Fault Refusal :=
  done s (s.regWrite p .nynCollCtrl 0 0 1)

/-- NYN_COLL_DISARM (R342): NYN_COLL_CTRL DISARM stops the sequencer at the close of its run. -/
def execNynCollDisarm (p : Path) (s : State) : Host.Outcome State Fault Refusal :=
  done s (s.regWrite p .nynCollCtrl 0 0 2)

/-- COLL_ENTRY_START (R347): A collective entry starts once S is reached, its wait holds and an instance is free. -/
def execCollEntryStart (entry : Nat) (s : State) : Host.Outcome State Fault Refusal :=
  done s (s.collStart entry)

/-- COLL_DEADLINE (R350): At D a root omits late members under SKIP or drives HOLD_N under REPLACE. -/
def execCollDeadline (entry : Nat) (s : State) : Host.Outcome State Fault Refusal :=
  done s (s.collDeadline entry)

/-- REPLACE_WAIT_EXPIRY (R352): NYN_REPLACE_WAIT passes and the root declares the member failed with 0x0606. -/
def execReplaceWaitExpiry (entry : Nat) (s : State) : Host.Outcome State Fault Refusal :=
  done s (s.replaceExpiry entry 0x0606)

/-- COLL_GRACE_EXPIRY (R353): No results arrive NYN_COLL_GRACE after D and the instance ends with 0x0606. -/
def execCollGraceExpiry (entry : Nat) (s : State) : Host.Outcome State Fault Refusal :=
  done s (s.graceExpiry entry)

end Sys2Proof.Machine
end

