-- ==== Sys2Proof/Machine/HostCmds.lean ====
section
/-! DEFINITION. The meaning of each command of a family: Rings, the aperture and the host link. -/
namespace Sys2Proof.Machine

/-- HIF_DB_CMD (R472): A write to HIF_DB_CMD sets the command tail. -/
def execHifDbCmd (f : Fin 9) (v : W32) (s : State) : Host.Outcome State Fault Refusal :=
  done s (s.dbCmd f v.toNat)

/-- HIF_DB_CPL (R473): A write to HIF_DB_CPL sets the completion head. -/
def execHifDbCpl (f : Fin 9) (v : W32) (s : State) : Host.Outcome State Fault Refusal :=
  done s (s.dbCpl f v.toNat)

/-- HIF_DB_STR (R475): A write to HIF_DB_STR sets the stream ring head. -/
def execHifDbStr (f : Fin 9) (v : W32) (s : State) : Host.Outcome State Fault Refusal :=
  done s (s.dbStr f v.toNat)

/-- COMMAND_TAKE (R472): The Idzor takes the next command entry when its completion ring has an unreserved entry. -/
def execCommandTake (f : Fin 9) (entry : List Byte) (s : State) : Host.Outcome State Fault Refusal :=
  done s (s.commandTake f entry)

/-- COMPLETION_WRITE (R473): Ready completion entries are written while the ring has room, then the vector is sent. -/
def execCompletionWrite (f : Fin 9) (s : State) : Host.Outcome State Fault Refusal :=
  done s (s.completionWrite f)

/-- RING_CTRL_WRITE (R471): A write of HIF_RING_CTRL enables or disables a function's rings. -/
def execRingCtrlWrite (p : Path) (f : Fin 9) (v : W32) (s : State) : Host.Outcome State Fault Refusal :=
  done s (s.regWrite p .hifRingCtrl f 0 v.toNat)

/-- APERTURE_ACCESS (R467): A host access through BAR4 reaches Crest, Slope or Foothill, or fails with its TIER code.
-/
def execApertureAccess (f : Fin 9) (off size : Nat) (data : Option (List Byte)) (ecc : Ecc) (s : State) : Host.Outcome State Fault Refusal :=
  done s (s.aperture f off size data ecc)

/-- FUNCTION_LEVEL_RESET (R469): An FLR or D3hot entry disables rings, revokes windows, cancels watches and cancels
requests. -/
def execFunctionLevelReset (f : Fin 9) (s : State) : Host.Outcome State Fault Refusal :=
  done s (s.flr f)

/-- HOST_LINK_UP (R510): The host PCIe port completes link training, after which configuration requests are answered
and HIF_LINK shows rate and width. -/
def execHostLinkUp (rate width : Nat) (s : State) : Host.Outcome State Fault Refusal :=
  done s (s.hostLinkUp rate width)

/-- HOST_LINK_DOWN (R133): The host PCIe link goes down or retrains, raising HIF_EVENT.LINK_DOWN and
SCL_TIER_EVENT.HOST_LINK_DOWN, and Valley accesses fail as link-down. -/
def execHostLinkDown (s : State) : Host.Outcome State Fault Refusal :=
  done s (s.hostLinkDown)

end Sys2Proof.Machine
end

