-- ==== Sys2Proof/Machine/ImageCmds.lean ====
section
/-! DEFINITION. The meaning of each command of a family: The image loader. -/
namespace Sys2Proof.Machine

/-- LOAD_FULL (R80): IMG_CMD LOAD_FULL stages a full image from IMG_SRC_ADDR for checking and commit. -/
def execLoadFull (p : Path) (s : State) : Host.Outcome State Fault Refusal :=
  done s (s.regWrite p .imgCmd 0 0 1)

/-- LOAD_PARTIAL (R96): IMG_CMD LOAD_PARTIAL stages a partial image for one partition. -/
def execLoadPartial (p : Path) (force : Bool) (s : State) : Host.Outcome State Fault Refusal :=
  done s (s.regWrite p .imgCmd 0 0 (2 + b2n force * 16))

/-- VERIFY_ONLY (R80): IMG_CMD VERIFY_ONLY stages and checks an image without committing it. -/
def execVerifyOnly (p : Path) (s : State) : Host.Outcome State Fault Refusal :=
  done s (s.regWrite p .imgCmd 0 0 3)

/-- UNLOAD (R478): IMG_CMD UNLOAD ends all work with 0x0B0C and returns the loader to EMPTY. -/
def execUnload (p : Path) (s : State) : Host.Outcome State Fault Refusal :=
  done s (s.regWrite p .imgCmd 0 0 4)

/-- ABORT (R95): IMG_CMD ABORT discards a staged image and returns the loader to its earlier state. -/
def execAbort (p : Path) (s : State) : Host.Outcome State Fault Refusal :=
  done s (s.regWrite p .imgCmd 0 0 5)

/-- LOAD_FLASH (R515): LOAD_FLASH reads a full image from boot flash slot A, then slot B. -/
def execLoadFlash (p : Path) (s : State) : Host.Outcome State Fault Refusal :=
  done s (s.regWrite p .imgCmd 0 0 6)

/-- IMAGE_READ_COMPLETE (R80): Staging completes and the loader checks header, signature and sections in order. -/
def execImageReadComplete (ext : List Byte) (s : State) : Host.Outcome State Fault Refusal :=
  done s (s.imageRead ext)

/-- IMAGE_SOURCE_TIMEOUT (R95): The image source does not respond within 50 µs and the load is rejected with 0x0B10.
-/
def execImageSourceTimeout (s : State) : Host.Outcome State Fault Refusal :=
  done s (s.imageTimeout)

/-- IMAGE_VERIFY_COMPLETE (R95): Verification passes or fails, leading to rejection, DONE, full commit or PENDING. -/
def execImageVerifyComplete (s : State) : Host.Outcome State Fault Refusal :=
  done s (s.imageVerify)

/-- PARTIAL_COMMIT (R97): At a wrap with the partition drained or FORCE set, the partial image commits. -/
def execPartialCommit (s : State) : Host.Outcome State Fault Refusal :=
  done s (s.partialCommit)

/-- RELOAD_TIMEOUT (R101): IMG_WAIT_MAX elapses in PENDING; 0x0B0D is recorded and admission resumes under the old
tables. -/
def execReloadTimeout (s : State) : Host.Outcome State Fault Refusal :=
  done s (s.reloadTimeout)

/-- KEY_PROGRAM (R78): IMG_KEY_CMD program writes a 48-byte key hash into a blank fuse slot. -/
def execKeyProgram (p : Path) (slot : Fin 4) (ext : List Byte) (s : State) : Host.Outcome State Fault Refusal :=
  done s (s.regWrite p .imgKeyCmd 0 0 (4 + slot.val) 0 ext)

/-- KEY_REVOKE (R78): IMG_KEY_CMD revoke permanently revokes a programmed key slot. -/
def execKeyRevoke (p : Path) (slot : Fin 4) (s : State) : Host.Outcome State Fault Refusal :=
  done s (s.regWrite p .imgKeyCmd 0 0 (8 + slot.val))

/-- SV_FLOOR_WRITE (R79): A write of IMG_SV_FLOOR raises the security version floor or is refused if lower. -/
def execSvFloorWrite (p : Path) (v : W32) (s : State) : Host.Outcome State Fault Refusal :=
  done s (s.regWrite p .imgSvFloor 0 0 v.toNat)

end Sys2Proof.Machine
end

