-- ==== Sys2Proof/Machine/IntakeCmds.lean ====
section
/-! DEFINITION. The meaning of each command of a family: Intake, decoding and stream alignment. -/
namespace Sys2Proof.Machine

/-- RESCAN (R431): INT_PORT_CMD RESCAN re-enumerates the intake hierarchy, or is refused while jobs are in flight. -/
def execRescan (p : Path) (s : State) : Host.Outcome State Fault Refusal :=
  done s (s.regWrite p .intPortCmd 0 0 1)

/-- ENUMERATION (R432): Enumeration enables controllers, creates queues and builds the namespace table. -/
def execEnumeration (found : List FoundCtrl) (excess : Bool) (links : Nat) (s : State) : Host.Outcome State Fault Refusal :=
  done s (s.enumeration found excess links)

/-- NS_OWNER_WRITE (R434): A PF0 write of INT_NS_OWNER sets the owner mask of the selected namespace. -/
def execNsOwnerWrite (p : Path) (v : W32) (s : State) : Host.Outcome State Fault Refusal :=
  done s (s.regWrite p .intNsOwner 0 0 v.toNat)

/-- PORT_BIFURCATE_WRITE (R430): A PF0 write of INT_PORT_CFG sets bifurcation for the next enumeration. -/
def execPortBifurcateWrite (p : Path) (v : W32) (s : State) : Host.Outcome State Fault Refusal :=
  done s (s.regWrite p .intPortCfg 0 0 v.toNat)

/-- CONTROLLER_FATAL (R436): CSTS.CFS or repeated timeouts reset a controller, ending its commands with 0x0906. -/
def execControllerFatal (c : Fin 16) (s : State) : Host.Outcome State Fault Refusal :=
  done s (s.ctrlFatal c)

/-- INTAKE_LINK_DOWN (R450): An intake link goes down, ending outstanding commands with 0x0907 and resetting the
controller. -/
def execIntakeLinkDown (link : Fin 4) (s : State) : Host.Outcome State Fault Refusal :=
  done s (s.intakeLinkDown link)

/-- CONTROLLER_RESET_END (R436): A resetting controller becomes READY or FAILED. -/
def execControllerResetEnd (c : Fin 16) (ok : Bool) (s : State) : Host.Outcome State Fault Refusal :=
  done s (s.ctrlResetEnd c ok)

/-- ASYNC_EVENT (R433): An Asynchronous Event Request completion is logged and raises ASYNC_EVENT. -/
def execAsyncEvent (c : Fin 16) (s : State) : Host.Outcome State Fault Refusal :=
  done s (s.asyncEvent c)

/-- JOB_TAKE (R437): A ring takes its next job once the SUBMIT cairn covers it and fewer than 16 are in flight. -/
def execJobTake (part : Fin 8) (s : State) : Host.Outcome State Fault Refusal :=
  done s (s.takeJob part)

/-- DECODE_ENGINE_START (R448): A freed decode engine takes the first-taken waiting job of its kind. -/
def execDecodeEngineStart (kind : Fin 4) (s : State) : Host.Outcome State Fault Refusal :=
  done s (s.engineStart kind)

/-- NVME_COMPLETION (R450): An NVMe completion entry arrives and the read succeeds or fails. -/
def execNvmeCompletion (part : Fin 8) (job read : Nat) (sct sc : Nat) (dnr : Bool) (data : List Byte) (s : State) : Host.Outcome State Fault Refusal :=
  done s (s.nvmeCompletion part job read sct sc dnr data)

/-- NVME_CMD_TIMEOUT (R450): A command gets no completion within INT_CMD_TIMEOUT and fails retryably. -/
def execNvmeCmdTimeout (part : Fin 8) (job read : Nat) (s : State) : Host.Outcome State Fault Refusal :=
  done s (s.nvmeTimeout part job read)

/-- INTAKE_RETRY (R450): In STALL mode a failed Read is reissued after INT_RETRY.GAP. -/
def execIntakeRetry (part : Fin 8) (job read : Nat) (s : State) : Host.Outcome State Fault Refusal :=
  done s (s.intakeRetry part job read)

/-- STREAM_FAULT (R451): A decoder meets a stream fault and stops without concealment. -/
def execStreamFault (part : Fin 8) (job : Nat) (s : State) : Host.Outcome State Fault Refusal :=
  done s (s.streamFault part job)

/-- INTAKE_JOB_END (R438): A job ends, its result record is written, and DONE, SIGNAL or ERR cairns are added to. -/
def execIntakeJobEnd (part : Fin 8) (job : Nat) (s : State) : Host.Outcome State Fault Refusal :=
  done s (s.jobEnd part job)

/-- RING_ENABLE_WRITE (R441): Clearing INT_RING_CFG.ENABLE ends the ring's in-flight jobs with 0x090C. -/
def execRingEnableWrite (p : Path) (part : Fin 8) (v : W32) (s : State) : Host.Outcome State Fault Refusal :=
  done s (s.regWrite p .intRingCfg part 0 v.toNat)

/-- START (R453): ALN_G_CTRL START reads and checks a group record and runs the group. -/
def execStart (p : Path) (g : Fin 4) (s : State) : Host.Outcome State Fault Refusal :=
  done s (s.regWrite p .alnGCtrl g 0 1)

/-- STOP (R457): ALN_G_CTRL STOP ends the group at the end of its tick. -/
def execStop (p : Path) (g : Fin 4) (s : State) : Host.Outcome State Fault Refusal :=
  done s (s.regWrite p .alnGCtrl g 0 2)

/-- TICK_START (R454): A tick starts once its GO cairn holds and the previous tick has ended, sampling every READY
cairn. -/
def execTickStart (g : Fin 4) (s : State) : Host.Outcome State Fault Refusal :=
  done s (s.tickStart g)

/-- TICK_END (R455): A tick's slot is fully written and DONE is added to. -/
def execTickEnd (g : Fin 4) (s : State) : Host.Outcome State Fault Refusal :=
  done s (s.tickEnd g)

/-- ACCESS_FAILED (R464): A tick's access fails and the group stops with 0x0E03. -/
def execAccessFailed (g : Fin 4) (f : Fail) (addr parts : Nat) (s : State) : Host.Outcome State Fault Refusal :=
  done s (s.tickFailed g f addr parts)

end Sys2Proof.Machine
end

