-- ==== Sys2Proof/Machine/MemoryCmds.lean ====
section
/-! DEFINITION. The meaning of each command of a family: Tiers, holdings and the Scaler. -/
namespace Sys2Proof.Machine

/-- PATROL_SCRUB (R111): The patrol scrubber reads and corrects each stack while PATROL is set. -/
def execPatrolScrub (stack : Fin 8) (ecc : Ecc) (s : State) : Host.Outcome State Fault Refusal :=
  done s (s.patrolScrub stack ecc)

/-- GRANULE_ZERO (R120): The scrubber writes a freed tagged granule to zero before it is given to another partition.
-/
def execGranuleZero (base : Nat) (s : State) : Host.Outcome State Fault Refusal :=
  done s (s.zeroGranule base)

/-- ALLOC_RETRY (R127): A waiting fast-pool allocation is retried when capacity is freed. -/
def execAllocRetry (s : State) : Host.Outcome State Fault Refusal :=
  done s (s.retryAllocs.retryLegs)

/-- MOVE_COMPLETE (R117): The last byte of a MOVE is acknowledged; the destination becomes home and the source is
released. -/
def execMoveComplete (d : Fin 4) (n : Fin 64) (ext : List Byte) (s : State) : Host.Outcome State Fault Refusal :=
  done s (s.moveDone d n ext)

/-- TIER_RETRY (R134): In STALL mode a failed lower-tier access is reissued after each retry gap up to MAX attempts.
-/
def execTierRetry (d : Fin 4) (n : Fin 64) (again : Option Fail) (s : State) : Host.Outcome State Fault Refusal :=
  done s (s.tierRetry d n again)

/-- SUBMIT (R142): SCL_LEDGER_CMD SUBMIT reads, checks and plans a ledger for later activation. -/
def execSubmit (p : Path) (part : Fin 8) (ext : List Byte) (s : State) : Host.Outcome State Fault Refusal :=
  done s (s.regWrite p .sclLedgerCmd 0 0 (1 + part.val * 16) 0 ext)

/-- WITHDRAW (R143): SCL_LEDGER_CMD WITHDRAW ends the plan in force at the next wrap. -/
def execWithdraw (p : Path) (part : Fin 8) (s : State) : Host.Outcome State Fault Refusal :=
  done s (s.regWrite p .sclLedgerCmd 0 0 (2 + part.val * 16))

/-- DRY_RUN (R142): SCL_LEDGER_CMD DRY_RUN plans a ledger that is never activated. -/
def execDryRun (p : Path) (part : Fin 8) (ext : List Byte) (s : State) : Host.Outcome State Fault Refusal :=
  done s (s.regWrite p .sclLedgerCmd 0 0 (3 + part.val * 16) 0 ext)

/-- PLANNING_PASS_END (R150): The planning pass commits or fails the plan and sets the ledger state. -/
def execPlanningPassEnd (part : Fin 8) (s : State) : Host.Outcome State Fault Refusal :=
  done s (s.passEnd part)

/-- EVICTION_ROUTE_DONE (R157): An eviction route completes or fails, finishing or abandoning the FSM 0x01 instance.
-/
def execEvictionRouteDone (d : Fin 4) (fail : Option Fail) (ext : List Byte) (s : State) : Host.Outcome State Fault Refusal :=
  done s (s.evictRouteDone d fail ext)

/-- STREAM_CFG_WRITE (R217): A write of SCL_STREAM_CFG names or unnames a channel for a fetch stream, refused while in
use. -/
def execStreamCfgWrite (p : Path) (stream : Fin 64) (v : W64) (s : State) : Host.Outcome State Fault Refusal :=
  done s (s.regWrite p .sclStreamCfg stream 0 v.toNat)

/-- OUTBOUND_LEG_COMPLETE (R167): An outbound leg completes, closing the raw holding and adding to the OUT cairn. -/
def execOutboundLegComplete (part : Fin 8) (entry : Nat) (ext : Ext) (ecc : Ecc) (s : State) : Host.Outcome State Fault Refusal :=
  done s (s.legComplete part entry false ext ecc)

/-- FETCH_BACK_START (R168): At F − LEAD, or when its channel or outbound leg frees, the Scaler opens the raw holding
and issues UNPACK or MOVE back. -/
def execFetchBackStart (part : Fin 8) (entry : Nat) (s : State) : Host.Outcome State Fault Refusal :=
  done s (s.backStart part entry)

/-- FETCH_BACK_COMPLETE (R168): A fetch-back's last byte is acknowledged, the entry is in place and the IN cairn is
added to. -/
def execFetchBackComplete (part : Fin 8) (entry : Nat) (ext : Ext) (ecc : Ecc) (s : State) : Host.Outcome State Fault Refusal :=
  done s (s.legComplete part entry true ext ecc)

/-- REGROW_START (R173): A REGROW item starts once its holding is open, input in place and context idle, loading the
keyed generator. -/
def execRegrowStart (part : Fin 8) (entry : Nat) (s : State) : Host.Outcome State Fault Refusal :=
  done s (s.regrowStart part entry)

/-- REGROW_COMPLETE (R173): A recorded segment's last write is acknowledged and the entry comes into place. -/
def execRegrowComplete (part : Fin 8) (entry : Nat) (s : State) : Host.Outcome State Fault Refusal :=
  done s (s.regrowComplete part entry)

/-- PARK_MOVE_START (R185): Within the park window the Scaler starts the next page MOVE of a paused conversation to a
lower tier. -/
def execParkMoveStart (part : Fin 8) (req : Nat) (s : State) : Host.Outcome State Fault Refusal :=
  done s (s.parkMove part req)

/-- RESUME_COMPLETE (R187): The last parked page returns to the fast pool and the Scaler signals resume completion. -/
def execResumeComplete (part : Fin 8) (req : Nat) (s : State) : Host.Outcome State Fault Refusal :=
  done s (s.resumeComplete part req)

end Sys2Proof.Machine
end

