-- ==== Sys2Proof/Machine/PowerCmds.lean ====
section
/-! DEFINITION. The meaning of each command of a family: Power, bring-up, the change log and the tally store. -/
namespace Sys2Proof.Machine

/-- PWR_CMD_RUN (R502): PWR_CMD RUN returns the device to RUN from IDLE or DOZE. -/
def execPwrCmdRun (p : Path) (s : State) : Host.Outcome State Fault Refusal :=
  done s (s.regWrite p .pwrCmd 0 0 0)

/-- PWR_CMD_IDLE (R499): PWR_CMD IDLE gates clocks of a quiescent device. -/
def execPwrCmdIdle (p : Path) (s : State) : Host.Outcome State Fault Refusal :=
  done s (s.regWrite p .pwrCmd 0 0 1)

/-- PWR_CMD_DOZE (R499): PWR_CMD DOZE puts stacks in self-refresh and switches off domains of a quiescent device. -/
def execPwrCmdDoze (p : Path) (s : State) : Host.Outcome State Fault Refusal :=
  done s (s.regWrite p .pwrCmd 0 0 2)

/-- PWR_CMD_KEEP (R500): PWR_CMD KEEP in DOZE prepares KEEP on host L2 entry. -/
def execPwrCmdKeep (p : Path) (s : State) : Host.Outcome State Fault Refusal :=
  done s (s.regWrite p .pwrCmd 0 0 3)

/-- HOST_L2_ENTRY (R500): The host port reaches L2 after KEEP is requested and the device enters KEEP. -/
def execHostL2Entry (s : State) : Host.Outcome State Fault Refusal :=
  done s (s.hostL2)

/-- KEEP_L2_TIMEOUT (R500): No L2 follows a KEEP request within 100 ms; DOZE remains and 0x0C01 is recorded. -/
def execKeepL2Timeout (s : State) : Host.Outcome State Fault Refusal :=
  done s (s.keepTimeout)

/-- DOMAIN_POWER_ON (R490): A domain finishes switching on, leaves reset and has its REGISTERS records re-applied. -/
def execDomainPowerOn (dom : Fin 56) (found : Option Nat) (s : State) : Host.Outcome State Fault Refusal :=
  done s (s.domainPowerOn dom found)

/-- MAIN_LOST (R501): MAIN_PG falls; work ends, the keep domain takes VBAK and the log is flushed. -/
def execMainLost (s : State) : Host.Outcome State Fault Refusal :=
  done s (s.mainLost)

/-- RAIL_FAULT (R494): VDD_CORE or VDD_SRAM below its fault level for 100 ns is treated as loss of main power. -/
def execRailFault (s : State) : Host.Outcome State Fault Refusal :=
  done s (s.railFault)

/-- THERMAL_SAMPLE (R495): Each 10 µs sensor reading is checked against 115 °C and two high readings trip the device.
-/
def execThermalSample (sensor : Fin 40) (temp : Int) (s : State) : Host.Outcome State Fault Refusal :=
  done s (s.thermalSample sensor temp)

/-- COMPARATOR_WINDOW (R505): Each 2 µs window samples MAIN_PG and VBAK and resumes, continues or voids retention. -/
def execComparatorWindow (main : Bool) (mv : Nat) (s : State) : Host.Outcome State Fault Refusal :=
  done s (s.comparator main mv)

/-- SSC_WRITE (R497): A write of PWR_SSC changes a spread group's depth and frequency at its next period. -/
def execSscWrite (p : Path) (group : Fin 3) (v : W32) (s : State) : Host.Outcome State Fault Refusal :=
  done s (s.regWrite p .pwrSsc group 0 v.toNat)

/-- PERST_ASSERT (R508): PERST# asserted ends work and resets the spine and switched domains. -/
def execPerstAssert (s : State) : Host.Outcome State Fault Refusal :=
  done s (s.perstAssert)

/-- PERST_RELEASE (R512): PERST# release latches straps and the boot ROM decides cold start or warm resume. -/
def execPerstRelease (straps : Nat) (s : State) : Host.Outcome State Fault Refusal :=
  done s (s.perstRelease straps)

/-- SELF_TEST_COMPLETE (R513): Self test passes and the device waits for an image, or fails to stage FAILED. -/
def execSelfTestComplete (bad fault : Nat) (s : State) : Host.Outcome State Fault Refusal :=
  done s (s.selfTest bad fault)

/-- STACK_TRAINING_END (R518): Every enabled stack trains or fails, excluding failed stacks. -/
def execStackTrainingEnd (bad : Nat) (s : State) : Host.Outcome State Fault Refusal :=
  done s (s.stackTraining bad)

/-- LINKS_STAGE_END (R519): Ports are UP or time out, LINKS ends and bring-up enables the cadence receiver. -/
def execLinksStageEnd (s : State) : Host.Outcome State Fault Refusal :=
  done s (s.linksEnd)

/-- LOG_WRITER_DRAIN (R527): The log writer moves staged entries to the MRAM ring. -/
def execLogWriterDrain (s : State) : Host.Outcome State Fault Refusal :=
  done s (s.logDrain)

/-- TALLY_FLUSH (R534): Every 1 ms the keep domain writes accumulated tally updates to MRAM. -/
def execTallyFlush (s : State) : Host.Outcome State Fault Refusal :=
  done s (s.tallyFlush)

/-- TEMPERATURE_SAMPLE (R536): Once a second in RUN, IDLE or DOZE, PWR_TEMP_MAX is added to the TEMPERATURE histogram.
-/
def execTemperatureSample (s : State) : Host.Outcome State Fault Refusal :=
  done s (s.temperatureSample)

/-- LOG_READ_SEQ (R538): A write of LOG_READ_SEQ copies the selected entry into the path's read buffer with a status.
-/
def execLogReadSeq (p : Path) (v : W64) (s : State) : Host.Outcome State Fault Refusal :=
  done s (s.regWrite p .logReadSeq 0 0 v.toNat)

/-- LOG_TIME_SET (R530): A write of LOG_TIME_SET sets global time and is logged. -/
def execLogTimeSet (p : Path) (v : W64) (s : State) : Host.Outcome State Fault Refusal :=
  done s (s.regWrite p .logTimeSet 0 0 v.toNat)

/-- FOOTHILL_LINK_DOWN (R134): A CXL port's link goes down or retrains, setting SCL_TIER_EVENT.FH0_DOWN or FH1_DOWN,
and Foothill accesses meet the retryable LINK_DOWN failure until it returns. -/
def execFoothillLinkDown (port : Fin 2) (s : State) : Host.Outcome State Fault Refusal :=
  done s (s.foothillDown port)

end Sys2Proof.Machine
end

