-- ==== Sys2Proof/Machine/RegisterCmds.lean ====
section
/-! DEFINITION. The meaning of each command of a family: Register accesses that have no row of their own (Tables 0.3, 0.4). -/
namespace Sys2Proof.Machine

/-- REGISTER_WRITE (R8): A write to a register with no row of its own changes its writable fields per its access code,
or is refused or superseded and logged. -/
def execRegisterWrite (p : Path) (off size : Nat) (v raced : W64) (s : State) : Host.Outcome State Fault Refusal :=
  done s (s.busWrite p off size v.toNat raced.toNat)

/-- RC_READ (R8): A read of an RC register returns its value and clears it to its reset value. -/
def execRcRead (p : Path) (off size : Nat) (s : State) : Host.Outcome State Fault Refusal :=
  done s (s.readOut p off size)

/-- LOWER_HALF_READ (R6): A 32-bit read of the lower half of a 64-bit register acts as a whole read and latches the
upper half for the path. -/
def execLowerHalfRead (p : Path) (off : Nat) (s : State) : Host.Outcome State Fault Refusal :=
  done s (s.readOut p off 4)

/-- UPPER_HALF_READ (R6): A 32-bit read of the upper half returns the path's latched value and ends the latch, or the
current upper half. -/
def execUpperHalfRead (p : Path) (off : Nat) (s : State) : Host.Outcome State Fault Refusal :=
  done s (s.readOut p (off + 4) 4)

/-- LOWER_HALF_WRITE (R6): A 32-bit write of the lower half of a 64-bit register is held by the access path and
changes nothing. -/
def execLowerHalfWrite (p : Path) (off : Nat) (v : W32) (s : State) : Host.Outcome State Fault Refusal :=
  done s (s.busWrite p off 4 v.toNat)

/-- UPPER_HALF_WRITE (R6): A 32-bit write of the upper half commits the held lower half and new upper half as one
64-bit write. -/
def execUpperHalfWrite (p : Path) (off : Nat) (v : W32) (raced : W64) (s : State) : Host.Outcome State Fault Refusal :=
  done s (s.busWrite p (off + 4) 4 v.toNat raced.toNat)

end Sys2Proof.Machine
end

