-- ==== Sys2Proof/Machine/RingCmds.lean ====
section
/-! DEFINITION. The meaning of each command of a family: Host commands and admission. -/
namespace Sys2Proof.Machine

/-- NOP (R479): Command NOP completes DONE when taken. -/
def execNop (f : Fin 9) (s : State) : Host.Outcome State Fault Refusal :=
  done s (s.cmdNop f)

/-- ALLOC (R122): Command ALLOC creates a holding for the partition or ends with an error. -/
def execAlloc (f : Fin 9) (s : State) : Host.Outcome State Fault Refusal :=
  done s (s.cmdAlloc f)

/-- RELEASE (R119): Command RELEASE frees a holding's range. -/
def execRelease (f : Fin 9) (s : State) : Host.Outcome State Fault Refusal :=
  done s (s.cmdRelease f)

/-- CMD_MOVE (R116): Command MOVE runs one MOVE descriptor on a named idle channel. -/
def execCmdMove (f : Fin 9) (s : State) : Host.Outcome State Fault Refusal :=
  done s (s.cmdMove f)

/-- TOUCH (R124): Command TOUCH restarts a holding's age. -/
def execTouch (f : Fin 9) (s : State) : Host.Outcome State Fault Refusal :=
  done s (s.cmdTouch f)

/-- DMA_GO (R216): Command DMA_GO starts a chain on a channel or is refused. -/
def execDmaGo (f : Fin 9) (s : State) : Host.Outcome State Fault Refusal :=
  done s (s.cmdDmaGo f)

/-- DMA_ABORT (R231): Command DMA_ABORT stops a channel with 0x0104. -/
def execDmaAbort (f : Fin 9) (s : State) : Host.Outcome State Fault Refusal :=
  done s (s.cmdDmaAbort f)

/-- DMA_CLEAR (R230): Command DMA_CLEAR returns a stopped channel to IDLE. -/
def execDmaClear (f : Fin 9) (s : State) : Host.Outcome State Fault Refusal :=
  done s (s.cmdDmaClear f)

/-- CTX_GO (R264): Command CTX_GO starts a tile context at a PC or is refused. -/
def execCtxGo (f : Fin 9) (s : State) : Host.Outcome State Fault Refusal :=
  done s (s.cmdCtxGo f)

/-- CTX_STOP (R264): Command CTX_STOP faults a context with 0x0A24. -/
def execCtxStop (f : Fin 9) (s : State) : Host.Outcome State Fault Refusal :=
  done s (s.cmdCtxStop f)

/-- CTX_CLEAR (R264): Command CTX_CLEAR returns a faulted context to IDLE. -/
def execCtxClear (f : Fin 9) (s : State) : Host.Outcome State Fault Refusal :=
  done s (s.cmdCtxClear f)

/-- CMD_SUBMIT (R480): Command SUBMIT checks a request and its arrival, queuing it or writing its final entry. -/
def execCmdSubmit (f : Fin 9) (ext : List Byte) (s : State) : Host.Outcome State Fault Refusal :=
  done s (s.cmdSubmit f ext)

/-- CANCEL (R382): Command CANCEL raises CANCEL on a request, ending it and releasing its resources. -/
def execCancel (f : Fin 9) (s : State) : Host.Outcome State Fault Refusal :=
  done s (s.cmdCancel f)

/-- PAUSE (R406): Command PAUSE frees the request's slot and parks its pages with a TTL. -/
def execPause (f : Fin 9) (s : State) : Host.Outcome State Fault Refusal :=
  done s (s.cmdPause f)

/-- RESUME (R412): Command RESUME reserves a slot and commitment and asks the Scaler to return the pages. -/
def execResume (f : Fin 9) (s : State) : Host.Outcome State Fault Refusal :=
  done s (s.cmdResume f)

/-- GRANT (R487): Command GRANT maps a Valley window to host bus memory. -/
def execGrant (f : Fin 9) (s : State) : Host.Outcome State Fault Refusal :=
  done s (s.cmdGrant f)

/-- REVOKE (R488): Command REVOKE unmaps a window, making its holdings LOST. -/
def execRevoke (f : Fin 9) (s : State) : Host.Outcome State Fault Refusal :=
  done s (s.cmdRevoke f)

/-- REVOKE_COMPLETE (R488): Every device request to a revoked window has ended and the REVOKE completion is written.
-/
def execRevokeComplete (window : Nat) (s : State) : Host.Outcome State Fault Refusal :=
  done s (s.revokeComplete window)

/-- ADMISSION_EVALUATION (R415): After each wrap admission refills budgets and judges every waiting request through
FSM 0x02. -/
def execAdmissionEvaluation (s : State) : Host.Outcome State Fault Refusal :=
  done s (s.evaluateAll)

/-- KV_LIMIT_WRITE (R411): A write of ADM_KV_LIMIT sets the commitment limit or is refused above POOL_SHARE. -/
def execKvLimitWrite (p : Path) (part : Fin 8) (v : W32) (s : State) : Host.Outcome State Fault Refusal :=
  done s (s.regWrite p .admKvLimit part 0 v.toNat)

/-- ACCT_RESET (R419): ADM_ACCT_CMD RESET clears an account's SPENT and counters and is logged. -/
def execAcctReset (p : Path) (part : Fin 8) (s : State) : Host.Outcome State Fault Refusal :=
  done s (s.regWrite p .admAcctCmd part 0 1)

end Sys2Proof.Machine
end

