-- ==== Sys2Proof/Machine/ServingCmds.lean ====
section
/-! DEFINITION. The meaning of each command of a family: Models, prefill and generation. -/
namespace Sys2Proof.Machine

/-- DEFINE (R366): SRV_MODEL_CMD DEFINE checks a model record and takes its pieces as a model. -/
def execDefine (p : Path) (part : Fin 8) (model : Fin 16) (rec pieces : List Byte) (s : State) : Host.Outcome State Fault Refusal :=
  done s (s.regWrite p .srvModelCmd part 0 (1 + model.val * 16) 0 rec pieces)

/-- UNDEFINE (R367): SRV_MODEL_CMD UNDEFINE returns a model's pieces to the host. -/
def execUndefine (p : Path) (part : Fin 8) (model : Fin 16) (s : State) : Host.Outcome State Fault Refusal :=
  done s (s.regWrite p .srvModelCmd part 0 (2 + model.val * 16))

/-- SWAP_IN (R368): SRV_MODEL_CMD SWAP_IN queues a swap bringing a model into Slope. -/
def execSwapIn (p : Path) (part : Fin 8) (model : Fin 16) (s : State) : Host.Outcome State Fault Refusal :=
  done s (s.regWrite p .srvModelCmd part 0 (3 + model.val * 16))

/-- SWAP_OUT (R368): SRV_MODEL_CMD SWAP_OUT moves a model's pieces to their rest ranges. -/
def execSwapOut (p : Path) (part : Fin 8) (model : Fin 16) (s : State) : Host.Outcome State Fault Refusal :=
  done s (s.regWrite p .srvModelCmd part 0 (4 + model.val * 16))

/-- SWAP_START (R368): A queued swap starts once no displaced model is busy. -/
def execSwapStart (part : Fin 8) (s : State) : Host.Outcome State Fault Refusal :=
  done s (s.swapStart part)

/-- SWAP_PIECE_DONE (R370): A piece MOVE completes or fails, advancing, finishing or breaking the swap. -/
def execSwapPieceDone (d : Fin 4) (n : Fin 64) (ext : List Byte) (ecc : Ecc) (s : State) : Host.Outcome State Fault Refusal :=
  done s (s.swapPieceDone d n ext ecc)

/-- PART_ONLINE_WRITE (R361): A write of SRV_PART_CTRL.ONLINE opens or closes a partition to new requests. -/
def execPartOnlineWrite (p : Path) (part : Fin 8) (on : Bool) (s : State) : Host.Outcome State Fault Refusal :=
  done s (s.regWrite p .srvPartCtrl part 0 (b2n on))

/-- SRV_SLOTS_WRITE (R362): A write of SRV_SLOTS sets the generation slots or is refused. -/
def execSrvSlotsWrite (p : Path) (part : Fin 8) (v : W32) (s : State) : Host.Outcome State Fault Refusal :=
  done s (s.regWrite p .srvSlots part 0 v.toNat)

/-- PREFILL_CHUNK_DONE (R374): A PDONE add completes a prefill entry, raising PREFILL_DONE on its last chunk. -/
def execPrefillChunkDone (part : Fin 8) (s : State) : Host.Outcome State Fault Refusal :=
  done s (s.prefillChunkDone part)

/-- HANDOVER_MOVE_DONE (R375): A KV handover MOVE completes, raising HANDOVER_DONE on the last page. -/
def execHandoverMoveDone (d : Fin 4) (n : Fin 64) (ecc : Ecc) (s : State) : Host.Outcome State Fault Refusal :=
  done s (s.handoverDone d n ecc)

/-- SAMPLER_SERVE (R402): Once LOGITS reaches GLIST and the stream ring has room, the sampler samples, verifies and
commits the step. -/
def execSamplerServe (part : Fin 8) (s : State) : Host.Outcome State Fault Refusal :=
  done s (s.samplerServe part)

/-- WALK_COMPLETE (R397): A prefix walk ends, sharing the matched pages and setting LENGTH. -/
def execWalkComplete (ext : List Byte) (s : State) : Host.Outcome State Fault Refusal :=
  done s (s.walkComplete ext)

/-- INSERTION (R398): After a chunk completes, the walker inserts eligible owned pages into the tree. -/
def execInsertion (part : Fin 8) (ext : List Byte) (s : State) : Host.Outcome State Fault Refusal :=
  done s (s.insertion part ext)

/-- INIT (R396): SRV_TREE_CMD INIT clears a model's tree to its root. -/
def execInit (p : Path) (part : Fin 8) (model : Fin 16) (s : State) : Host.Outcome State Fault Refusal :=
  done s (s.regWrite p .srvTreeCmd part 0 (1 + model.val * 16))

/-- FLUSH (R399): SRV_TREE_CMD FLUSH releases every unreferenced tree page of a model. -/
def execFlush (p : Path) (part : Fin 8) (model : Fin 16) (s : State) : Host.Outcome State Fault Refusal :=
  done s (s.regWrite p .srvTreeCmd part 0 (2 + model.val * 16))

end Sys2Proof.Machine
end

