-- ==== Sys2Proof/Machine/Sideband.lean ====
section
/-! DEFINITION. The I2C target and the JTAG port (R510, R554 to R556). -/
namespace Sys2Proof.Machine

/-! ### I2C -/

/-- A byte of the transaction is not acknowledged: it has no effect. -/
def State.i2cNacked (s : State) : State := { s with side := { s.side with i2cNack := true, i2cData := none } }

/-- I2C_READ of the register at window offset `off`; `whole` tells that the transaction has the form of R554. -/
def State.i2cRead (s : State) (off : Nat) (whole : Bool) : State :=
  if !s.pwr.st.running || !whole then s.i2cNacked
  else
    let r := s.busRead .i2c off 4
    { r.2 with side := { r.2.side with i2cNack := false, i2cData := some (BitVec.ofNat 32 r.1) } }

/-- I2C_WRITE: only LOG_READ_SEQ and TLY_SEL are writable (R555). -/
def State.i2cWrite (s : State) (off v : Nat) (whole : Bool) : State :=
  if !s.pwr.st.running || !whole then s.i2cNacked
  else
    let s := s.busWrite .i2c off 4 v
    { s with side := { s.side with i2cNack := false, i2cData := none } }

/-! ### JTAG -/

/-- Another instruction is in the instruction register; the outputs follow the core again. -/
def Side.load (x : Side) (i : JtagInstr) : Side := { x with ir := i, fromCells := false, hiZ := false }

/-- The bypass register is selected: it captures 0, and one shift puts `tdi` into it. -/
def Side.bypass (x : Side) (tdi : Bool) : Side := { x with bypassBit := tdi, tdo := 0 }

/-- The part answers at its test access port. -/
def State.jtag (s : State) (f : Side → Side) : State := if s.pwr.st.running then { s with side := f s.side } else s

/-- Value of the device identification register (R556). -/
def idcode : W64 := 0x11A64001

def State.jtagBypass (s : State) (tdi : Bool) : State := s.jtag (fun x => (x.load .bypass).bypass tdi)
def State.jtagIdcode (s : State) : State := s.jtag (fun x => { x.load .idcode with tdo := idcode })
def State.jtagSample (s : State) (pins cells : BitVec 26) : State :=
  s.jtag (fun x => { x.load .samplePreload with captured := pins, cells := cells, tdo := pins.setWidth 64 })
def State.jtagExtest (s : State) (pins cells : BitVec 26) : State :=
  s.jtag (fun x => { x.load .extest with captured := pins, cells := cells, fromCells := true, tdo := pins.setWidth 64 })
def State.jtagHighz (s : State) (tdi : Bool) : State := s.jtag (fun x => { (x.load .highz).bypass tdi with hiZ := true })
def State.jtagClamp (s : State) (tdi : Bool) : State := s.jtag (fun x => { (x.load .clamp).bypass tdi with fromCells := true })

/-- The address lies in the register window. -/
def inWindow (addr : Nat) : Bool := inRange addr 0x40000000 0x7FFFFFFF

/-- DEBUG: one 32-bit register access with PF0's rights, at a local address. An address outside the register window names
no register. -/
def State.jtagDebug (s : State) (addr v : Nat) (write : Bool) : State :=
  if !s.pwr.st.running then s
  else
    let s := { s with side := s.side.load .debug }
    if write then
      if inWindow addr then s.busWrite .jtag (addr - 0x40000000) 4 v
      else s.logAdd { kind := 2, origin := 5, originIdx := 0x0100, tkind := 0, target := addr, new := v }
    else
      let r := if inWindow addr then s.busRead .jtag (addr - 0x40000000) 4 else (0, s)
      { r.2 with side := { r.2.side with tdo := BitVec.ofNat 64 r.1 } }

end Sys2Proof.Machine
end

