-- ==== Sys2Proof/Machine/SidebandCmds.lean ====
section
/-! DEFINITION. The meaning of each command of a family: The I2C target and JTAG. -/
namespace Sys2Proof.Machine

/-- I2C_READ (R554): An I2C register read transaction returns four data bytes or NACKs a malformed byte. -/
def execI2cRead (off : Nat) (whole : Bool) (s : State) : Host.Outcome State Fault Refusal :=
  done s (s.i2cRead off whole)

/-- I2C_WRITE (R555): An I2C register write transaction writes LOG_READ_SEQ or TLY_SEL, or is refused and logged. -/
def execI2cWrite (off : Nat) (v : W32) (whole : Bool) (s : State) : Host.Outcome State Fault Refusal :=
  done s (s.i2cWrite off v.toNat whole)

/-- BYPASS (R556): JTAG BYPASS selects the one-bit bypass register. -/
def execBypass (tdi : Bool) (s : State) : Host.Outcome State Fault Refusal :=
  done s (s.jtagBypass tdi)

/-- IDCODE (R556): JTAG IDCODE returns 0x11A6_4001. -/
def execIdcode (s : State) : Host.Outcome State Fault Refusal :=
  done s (s.jtagIdcode)

/-- SAMPLE_PRELOAD (R556): JTAG SAMPLE/PRELOAD samples or preloads the boundary scan cells. -/
def execSamplePreload (pins cells : BitVec 26) (s : State) : Host.Outcome State Fault Refusal :=
  done s (s.jtagSample pins cells)

/-- EXTEST (R556): JTAG EXTEST drives boundary scan outputs for board test. -/
def execExtest (pins cells : BitVec 26) (s : State) : Host.Outcome State Fault Refusal :=
  done s (s.jtagExtest pins cells)

/-- HIGHZ (R556): JTAG HIGHZ places covered outputs in high impedance. -/
def execHighz (tdi : Bool) (s : State) : Host.Outcome State Fault Refusal :=
  done s (s.jtagHighz tdi)

/-- CLAMP (R556): JTAG CLAMP holds outputs from the boundary cells with bypass selected. -/
def execClamp (tdi : Bool) (s : State) : Host.Outcome State Fault Refusal :=
  done s (s.jtagClamp tdi)

/-- DEBUG (R556): JTAG DEBUG performs a register access with PF0 rights, logged with origin DEBUG. -/
def execDebug (addr : Nat) (v : W32) (write : Bool) (s : State) : Host.Outcome State Fault Refusal :=
  done s (s.jtagDebug addr v.toNat write)

end Sys2Proof.Machine
end

