-- ==== Sys2Proof/Machine/SyncCmds.lean ====
section
/-! DEFINITION. The meaning of each command of a family: Cairns, waits and the update units. -/
namespace Sys2Proof.Machine

/-- CAIRN_WAIT_COMPLETE (R281): A registered wait's condition comes to hold and its waiter resumes after the fixed
latency. -/
def execCairnWaitComplete (w : Waiter) (s : State) : Host.Outcome State Fault Refusal :=
  done s (s.waitComplete w)

/-- WAIT_TIMEOUT (R288): A wait exceeds its timeout and its waiter ends with 0x0501, logged with cairn and waiter. -/
def execWaitTimeout (w : Waiter) (s : State) : Host.Outcome State Fault Refusal :=
  done s (s.waitTimeout w)

/-- CRN_HC_ADD (R290): A host write to CRN_HC_ADD adds to a host cairn. -/
def execCrnHcAdd (p : Path) (h : Fin 64) (v : W32) (s : State) : Host.Outcome State Fault Refusal :=
  done s (s.regWrite p .crnHcAdd h 0 v.toNat)

/-- CRN_HC_SET (R278): A host write to CRN_HC_SET sets a host cairn and is logged. -/
def execCrnHcSet (p : Path) (h : Fin 64) (v : W32) (raced : Bool) (s : State) : Host.Outcome State Fault Refusal :=
  done s (s.regWrite p .crnHcSet h 0 v.toNat (b2n raced))

/-- HOST_WATCH_ARM (R291): A write of CRN_HC_WCFG arms or cancels the host watch of a host cairn. -/
def execHostWatchArm (p : Path) (h : Fin 64) (v : W32) (s : State) : Host.Outcome State Fault Refusal :=
  done s (s.regWrite p .crnHcWcfg h 0 v.toNat)

/-- HOST_WATCH_FIRE (R291): An armed host watch's condition holds; it writes the mirror, sends its vector and sets
FIRED. -/
def execHostWatchFire (h : Fin 64) (s : State) : Host.Outcome State Fault Refusal :=
  done s (s.fireWatch h)

/-- CRN_DEBUG_SET (R296): A debugger write of CRN_DEBUG_SET hand-sets the cairn named by CRN_DEBUG_REF. -/
def execCrnDebugSet (p : Path) (v : W32) (s : State) : Host.Outcome State Fault Refusal :=
  done s (s.regWrite p .crnDebugSet 0 0 v.toNat)

/-- REMOTE_SIGNAL_TIMEOUT (R294): A remote add gets no acknowledgement within CRN_REMOTE_TMO and ends with 0x0506. -/
def execRemoteSignalTimeout (rtag : Nat) (s : State) : Host.Outcome State Fault Refusal :=
  done s (s.signalTimeout rtag)

/-- ARM (R299): UPD_CTRL ARM makes the update unit open a run at each wrap. -/
def execArm (p : Path) (unit : Fin 8) (s : State) : Host.Outcome State Fault Refusal :=
  done s (s.regWrite p .updCtrl unit 0 1)

/-- DISARM (R299): UPD_CTRL DISARM stops the unit at the close of its run. -/
def execDisarm (p : Path) (unit : Fin 8) (s : State) : Host.Outcome State Fault Refusal :=
  done s (s.regWrite p .updCtrl unit 0 2)

/-- JOB_ELIGIBLE (R302): A read job becomes eligible once its start phase and wait condition hold and begins its pass.
-/
def execJobEligible (unit : Fin 8) (s : State) : Host.Outcome State Fault Refusal :=
  done s (s.jobEligible unit)

/-- CHECK_PASS_END (R316): A check pass ends with a norm, clip factor or a non-finite skip. -/
def execCheckPassEnd (unit : Fin 8) (bad : Option Nat) (s : State) : Host.Outcome State Fault Refusal :=
  done s (s.checkEnd unit bad)

/-- APPLY_PASS_END (R309): An apply pass writes its last element and the job completes and signals. -/
def execApplyPassEnd (unit : Fin 8) (bad : Option Nat) (s : State) : Host.Outcome State Fault Refusal :=
  done s (s.applyEnd unit bad)

/-- LS_EXP_WRITE (R321): A host write of UPD_LS_EXP sets the loss-scale exponent, superseded at a wrap. -/
def execLsExpWrite (p : Path) (part : Fin 8) (v : W32) (raced : W32) (s : State) : Host.Outcome State Fault Refusal :=
  done s (s.regWrite p .updLsExp part 0 v.toNat raced.toNat)

end Sys2Proof.Machine
end

