-- ==== Sys2Proof/Machine/TileCmds.lean ====
section
/-! DEFINITION. The meaning of each command of a family: Tile contexts and their words. -/
namespace Sys2Proof.Machine

/-- WLOAD (R243): WLOAD fills a weight bank, optionally transposed. -/
def execWload (t : Fin 24) (c : Fin 4) (ecc : Ecc) (s : State) : Host.Outcome State Fault Refusal :=
  done s (s.readWord t c 0x01 ecc (fun s w p => s.wload t c w p))

/-- MMPASS (R244): MMPASS adds products of input rows and a weight bank into accumulator rows. -/
def execMmpass (t : Fin 24) (c : Fin 4) (ecc : Ecc) (s : State) : Host.Outcome State Fault Refusal :=
  done s (s.readWord t c 0x02 ecc (fun s w p => s.mmpass t c w p))

/-- ACCOUT (R254): ACCOUT rounds accumulator entries once to an output format and writes them. -/
def execAccout (t : Fin 24) (c : Fin 4) (s : State) : Host.Outcome State Fault Refusal :=
  done s (s.runWord t c (isOp 0x03) (fun s w p => s.accout t c w p))

/-- ACCDUMP (R257): ACCDUMP writes accumulator entries in unrounded extended form. -/
def execAccdump (t : Fin 24) (c : Fin 4) (s : State) : Host.Outcome State Fault Refusal :=
  done s (s.runWord t c (isOp 0x04) (fun s w p => s.accdump t c w p))

/-- ACCIN (R257): ACCIN loads or adds extended forms into accumulator entries. -/
def execAccin (t : Fin 24) (c : Fin 4) (ecc : Ecc) (s : State) : Host.Outcome State Fault Refusal :=
  done s (s.readWord t c 0x05 ecc (fun s w p => s.accin t c w p))

/-- ADD (R258): VOP ADD adds two vector registers lane by lane. -/
def execAdd (t : Fin 24) (c : Fin 4) (s : State) : Host.Outcome State Fault Refusal :=
  done s (s.vopWord t c 0x01 (fun s w => s.vlane t c w (fun r a b _ => f32AddR r a b)))

/-- SUB (R258): VOP SUB subtracts two vector registers lane by lane. -/
def execSub (t : Fin 24) (c : Fin 4) (s : State) : Host.Outcome State Fault Refusal :=
  done s (s.vopWord t c 0x02 (fun s w => s.vlane t c w (fun r a b _ => f32SubR r a b)))

/-- MUL (R258): VOP MUL multiplies two vector registers lane by lane. -/
def execMul (t : Fin 24) (c : Fin 4) (s : State) : Host.Outcome State Fault Refusal :=
  done s (s.vopWord t c 0x03 (fun s w => s.vlane t c w (fun r a b _ => f32MulR r a b)))

/-- FMA (R258): VOP FMA computes VA × VB + VC rounded once. -/
def execFma (t : Fin 24) (c : Fin 4) (s : State) : Host.Outcome State Fault Refusal :=
  done s (s.vopWord t c 0x04 (fun s w => s.vlane t c w f32FmaR))

/-- MIN (R258): VOP MIN takes the lane minimum with −0 below +0. -/
def execMin (t : Fin 24) (c : Fin 4) (s : State) : Host.Outcome State Fault Refusal :=
  done s (s.vopWord t c 0x05 (fun s w => s.vplain t c w (fun a b _ => f32MinMax true a b)))

/-- MAX (R258): VOP MAX takes the lane maximum. -/
def execMax (t : Fin 24) (c : Fin 4) (s : State) : Host.Outcome State Fault Refusal :=
  done s (s.vopWord t c 0x06 (fun s w => s.vplain t c w (fun a b _ => f32MinMax false a b)))

/-- RCP (R258): VOP RCP computes a correctly rounded reciprocal. -/
def execRcp (t : Fin 24) (c : Fin 4) (s : State) : Host.Outcome State Fault Refusal :=
  done s (s.vopWord t c 0x07 (fun s w => s.vlane t c w (fun r a _ _ => f32RcpR r a)))

/-- RSQRT (R258): VOP RSQRT computes a correctly rounded reciprocal square root. -/
def execRsqrt (t : Fin 24) (c : Fin 4) (s : State) : Host.Outcome State Fault Refusal :=
  done s (s.vopWord t c 0x08 (fun s w => s.vlane t c w (fun r a _ _ => f32RsqrtR r a)))

/-- SQRT (R258): VOP SQRT computes a correctly rounded square root. -/
def execSqrt (t : Fin 24) (c : Fin 4) (s : State) : Host.Outcome State Fault Refusal :=
  done s (s.vopWord t c 0x09 (fun s w => s.vlane t c w (fun r a _ _ => f32SqrtR r a)))

/-- EXP2 (R258): VOP EXP2 computes a correctly rounded power of two. -/
def execExp2 (t : Fin 24) (c : Fin 4) (s : State) : Host.Outcome State Fault Refusal :=
  done s (s.vopWord t c 0x0A (fun s w => s.vlane t c w (fun r a _ _ => f32Exp2R r a)))

/-- LOG2 (R258): VOP LOG2 computes a correctly rounded base-2 logarithm. -/
def execLog2 (t : Fin 24) (c : Fin 4) (s : State) : Host.Outcome State Fault Refusal :=
  done s (s.vopWord t c 0x0B (fun s w => s.vlane t c w (fun r a _ _ => f32Log2R r a)))

/-- CVT (R259): VOP CVT converts VA to format FMT under RMODE. -/
def execCvt (t : Fin 24) (c : Fin 4) (s : State) : Host.Outcome State Fault Refusal :=
  done s (s.vopWord t c 0x0C (fun s w => s.vlane t c w (fun r a _ _ => cvtLane (bits w 89 86) r a)))

/-- RAND (R261): VOP RAND writes one lane-generator draw per lane. -/
def execRand (t : Fin 24) (c : Fin 4) (s : State) : Host.Outcome State Fault Refusal :=
  done s (s.vopWord t c 0x0D (fun s w => s.randLanes t c w))

/-- DROP (R262): VOP DROP applies a dropout mask from the keyed counter generator. -/
def execDrop (t : Fin 24) (c : Fin 4) (s : State) : Host.Outcome State Fault Refusal :=
  done s (s.vopWord t c 0x0E (fun s w => s.dropLanes t c w))

/-- RSUM (R258): VOP RSUM writes the pairwise-tree sum of VA's lanes to every lane. -/
def execRsum (t : Fin 24) (c : Fin 4) (s : State) : Host.Outcome State Fault Refusal :=
  done s (s.vopWord t c 0x0F (fun s w => s.sumLanes t c w))

/-- SEL (R258): VOP SEL selects VA or VB per lane by VC. -/
def execSel (t : Fin 24) (c : Fin 4) (s : State) : Host.Outcome State Fault Refusal :=
  done s (s.vopWord t c 0x10 (fun s w => s.vplain t c w selLane))

/-- VLD (R242): VLD loads elements into a vector register, converting to FP32 exactly. -/
def execVld (t : Fin 24) (c : Fin 4) (ecc : Ecc) (s : State) : Host.Outcome State Fault Refusal :=
  done s (s.readWord t c 0x11 ecc (fun s w p => s.vld t c w p))

/-- VST (R259): VST converts and stores a vector register's lanes. -/
def execVst (t : Fin 24) (c : Fin 4) (s : State) : Host.Outcome State Fault Refusal :=
  done s (s.runWord t c (isOp 0x12) (fun s w p => s.vst t c w p))

/-- KEYSET (R262): KEYSET sets the context's key index and counter. -/
def execKeyset (t : Fin 24) (c : Fin 4) (s : State) : Host.Outcome State Fault Refusal :=
  done s (s.runWord t c (isOp 0x13) (fun s w _ => .ok (s.keysetWord t c w)))

/-- SRSET (R261): SRSET reseeds every lane generator of the context from a stream value. -/
def execSrset (t : Fin 24) (c : Fin 4) (s : State) : Host.Outcome State Fault Refusal :=
  done s (s.runWord t c (isOp 0x14) (fun s w _ => .ok (s.srsetWord t c w)))

/-- DMAGO (R216): DMAGO starts a DMA chain from a tile context. -/
def execDmago (t : Fin 24) (c : Fin 4) (s : State) : Host.Outcome State Fault Refusal :=
  done s (s.runWord t c (isOp 0x20) (fun s w p => s.dmago t c w p))

/-- END (R264): END returns the context to IDLE. -/
def execEndOp (t : Fin 24) (c : Fin 4) (s : State) : Host.Outcome State Fault Refusal :=
  done s (s.runWord t c (isOp 0xFF) (fun s _ _ => .ok (s.endWord t c)))

/-- TIL_CTX_GO (R264): GO written to TIL_CTX_CTRL starts the context at TIL_CTX_PC or is refused. -/
def execTilCtxGo (p : Path) (t : Fin 24) (c : Fin 4) (s : State) : Host.Outcome State Fault Refusal :=
  done s (s.regWrite p .tilCtxCtrl t c 1)

/-- TIL_CTX_STOP (R264): STOP written to TIL_CTX_CTRL faults the context with 0x0A24 and cancels its watch. -/
def execTilCtxStop (p : Path) (t : Fin 24) (c : Fin 4) (s : State) : Host.Outcome State Fault Refusal :=
  done s (s.regWrite p .tilCtxCtrl t c 2)

/-- TIL_CTX_CLEAR (R264): CLEAR written to TIL_CTX_CTRL returns a faulted context to IDLE. -/
def execTilCtxClear (p : Path) (t : Fin 24) (c : Fin 4) (s : State) : Host.Outcome State Fault Refusal :=
  done s (s.regWrite p .tilCtxCtrl t c 4)

/-- CSIG (R282): CSIG fences as asked and posts an ADD or SET to a local or remote cairn. -/
def execCsig (t : Fin 24) (c : Fin 4) (s : State) : Host.Outcome State Fault Refusal :=
  done s (s.runWord t c (isOp 0x30) (fun s w p => s.csig t c w p))

/-- CWAIT (R283): CWAIT moves the context to WAIT on a cairn condition, as a watch or deschedule wait. -/
def execCwait (t : Fin 24) (c : Fin 4) (s : State) : Host.Outcome State Fault Refusal :=
  done s (s.runWord t c (isOp 0x31) (fun s w p => s.cwait t c w p))

/-- FENCE (R270): FENCE holds later accesses until earlier writes, or reads and writes, are performed. -/
def execFence (t : Fin 24) (c : Fin 4) (s : State) : Host.Outcome State Fault Refusal :=
  done s (s.runWord t c (isOp 0x32) (fun s _ _ => .ok (s.drainCtx t c)))

/-- PHASE (R286): PHASE waits for a start point and opens an operator with a deadline. -/
def execPhase (t : Fin 24) (c : Fin 4) (s : State) : Host.Outcome State Fault Refusal :=
  done s (s.runWord t c (isOp 0x33) (fun s w _ => .ok (s.phaseWord t c w)))

/-- OWN (R285): OWN passes array ownership to another context. -/
def execOwn (t : Fin 24) (c : Fin 4) (s : State) : Host.Outcome State Fault Refusal :=
  done s (s.runWord t c (isOp 0x34) (fun s w _ => s.ownWord t c w))

end Sys2Proof.Machine
end

