-- ==== Sys2Proof/Machine/Dispatch.lean ====
section
/-! DEFINITION. Which meaning each command has. -/
namespace Sys2Proof.Machine

def exec (i : Instr) (s : State) : Host.Outcome State Fault Refusal :=
  match i with
  | .registerWrite p off size v raced => Sys2Proof.Machine.execRegisterWrite p off size v raced s
  | .rcRead p off size => Sys2Proof.Machine.execRcRead p off size s
  | .lowerHalfRead p off => Sys2Proof.Machine.execLowerHalfRead p off s
  | .upperHalfRead p off => Sys2Proof.Machine.execUpperHalfRead p off s
  | .lowerHalfWrite p off v => Sys2Proof.Machine.execLowerHalfWrite p off v s
  | .upperHalfWrite p off v raced => Sys2Proof.Machine.execUpperHalfWrite p off v raced s
  | .phaseAdvance n => Sys2Proof.Machine.execPhaseAdvance n s
  | .stepWrap => Sys2Proof.Machine.execStepWrap s
  | .phasePointReached item => Sys2Proof.Machine.execPhasePointReached item s
  | .itemStart item => Sys2Proof.Machine.execItemStart item s
  | .deadlineReached item units ext => Sys2Proof.Machine.execDeadlineReached item units ext s
  | .phaseFrameReceive frame codeOk => Sys2Proof.Machine.execPhaseFrameReceive frame codeOk s
  | .frameRepeat => Sys2Proof.Machine.execFrameRepeat s
  | .phaseFrameSend => Sys2Proof.Machine.execPhaseFrameSend s
  | .frameLossTimeout => Sys2Proof.Machine.execFrameLossTimeout s
  | .backoffExpiry => Sys2Proof.Machine.execBackoffExpiry s
  | .cadenceLost => Sys2Proof.Machine.execCadenceLost s
  | .cadEnable p => Sys2Proof.Machine.execCadEnable p s
  | .cadDisable p => Sys2Proof.Machine.execCadDisable p s
  | .swHold p on => Sys2Proof.Machine.execSwHold p on s
  | .rankWrite p rank => Sys2Proof.Machine.execRankWrite p rank s
  | .masterRun p => Sys2Proof.Machine.execMasterRun p s
  | .masterStop p => Sys2Proof.Machine.execMasterStop p s
  | .masterPeriodWrite p v => Sys2Proof.Machine.execMasterPeriodWrite p v s
  | .holdNFall => Sys2Proof.Machine.execHoldNFall s
  | .holdNRise => Sys2Proof.Machine.execHoldNRise s
  | .holdTimeout item => Sys2Proof.Machine.execHoldTimeout item s
  | .loadFull p => Sys2Proof.Machine.execLoadFull p s
  | .loadPartial p force => Sys2Proof.Machine.execLoadPartial p force s
  | .verifyOnly p => Sys2Proof.Machine.execVerifyOnly p s
  | .unload p => Sys2Proof.Machine.execUnload p s
  | .abort p => Sys2Proof.Machine.execAbort p s
  | .loadFlash p => Sys2Proof.Machine.execLoadFlash p s
  | .imageReadComplete ext => Sys2Proof.Machine.execImageReadComplete ext s
  | .imageSourceTimeout => Sys2Proof.Machine.execImageSourceTimeout s
  | .imageVerifyComplete => Sys2Proof.Machine.execImageVerifyComplete s
  | .partialCommit => Sys2Proof.Machine.execPartialCommit s
  | .reloadTimeout => Sys2Proof.Machine.execReloadTimeout s
  | .keyProgram p slot ext => Sys2Proof.Machine.execKeyProgram p slot ext s
  | .keyRevoke p slot => Sys2Proof.Machine.execKeyRevoke p slot s
  | .svFloorWrite p v => Sys2Proof.Machine.execSvFloorWrite p v s
  | .patrolScrub stack ecc => Sys2Proof.Machine.execPatrolScrub stack ecc s
  | .granuleZero base => Sys2Proof.Machine.execGranuleZero base s
  | .allocRetry => Sys2Proof.Machine.execAllocRetry s
  | .moveComplete d n ext => Sys2Proof.Machine.execMoveComplete d n ext s
  | .tierRetry d n again => Sys2Proof.Machine.execTierRetry d n again s
  | .submit p part ext => Sys2Proof.Machine.execSubmit p part ext s
  | .withdraw p part => Sys2Proof.Machine.execWithdraw p part s
  | .dryRun p part ext => Sys2Proof.Machine.execDryRun p part ext s
  | .planningPassEnd part => Sys2Proof.Machine.execPlanningPassEnd part s
  | .evictionRouteDone d fail ext => Sys2Proof.Machine.execEvictionRouteDone d fail ext s
  | .streamCfgWrite p stream v => Sys2Proof.Machine.execStreamCfgWrite p stream v s
  | .outboundLegComplete part entry ext ecc => Sys2Proof.Machine.execOutboundLegComplete part entry ext ecc s
  | .fetchBackStart part entry => Sys2Proof.Machine.execFetchBackStart part entry s
  | .fetchBackComplete part entry ext ecc => Sys2Proof.Machine.execFetchBackComplete part entry ext ecc s
  | .regrowStart part entry => Sys2Proof.Machine.execRegrowStart part entry s
  | .regrowComplete part entry => Sys2Proof.Machine.execRegrowComplete part entry s
  | .parkMoveStart part req => Sys2Proof.Machine.execParkMoveStart part req s
  | .resumeComplete part req => Sys2Proof.Machine.execResumeComplete part req s
  | .slotGrant d => Sys2Proof.Machine.execSlotGrant d s
  | .dmaChGo p d n => Sys2Proof.Machine.execDmaChGo p d n s
  | .dmaChAbort p d n => Sys2Proof.Machine.execDmaChAbort p d n s
  | .dmaChClear p d n => Sys2Proof.Machine.execDmaChClear p d n s
  | .descriptorFetch d n ext ecc => Sys2Proof.Machine.execDescriptorFetch d n ext ecc s
  | .descriptorStart d => Sys2Proof.Machine.execDescriptorStart d s
  | .copy d n ext ecc => Sys2Proof.Machine.execCopy d n ext ecc s
  | .fill d n => Sys2Proof.Machine.execFill d n s
  | .compare d n ext ecc => Sys2Proof.Machine.execCompare d n ext ecc s
  | .move d n ext ecc => Sys2Proof.Machine.execMove d n ext ecc s
  | .pack d n ext ecc => Sys2Proof.Machine.execPack d n ext ecc s
  | .unpack d n ext ecc => Sys2Proof.Machine.execUnpack d n ext ecc s
  | .transpose d n ext ecc => Sys2Proof.Machine.execTranspose d n ext ecc s
  | .gather d n ext ecc => Sys2Proof.Machine.execGather d n ext ecc s
  | .scatter d n ext ecc => Sys2Proof.Machine.execScatter d n ext ecc s
  | .descriptorComplete d n => Sys2Proof.Machine.execDescriptorComplete d n s
  | .dmaReadTimeout d n addr units ext => Sys2Proof.Machine.execDmaReadTimeout d n addr units ext s
  | .transferFailure d n f addr units ext => Sys2Proof.Machine.execTransferFailure d n f addr units ext s
  | .wload t c ecc => Sys2Proof.Machine.execWload t c ecc s
  | .mmpass t c ecc => Sys2Proof.Machine.execMmpass t c ecc s
  | .accout t c => Sys2Proof.Machine.execAccout t c s
  | .accdump t c => Sys2Proof.Machine.execAccdump t c s
  | .accin t c ecc => Sys2Proof.Machine.execAccin t c ecc s
  | .add t c => Sys2Proof.Machine.execAdd t c s
  | .sub t c => Sys2Proof.Machine.execSub t c s
  | .mul t c => Sys2Proof.Machine.execMul t c s
  | .fma t c => Sys2Proof.Machine.execFma t c s
  | .min t c => Sys2Proof.Machine.execMin t c s
  | .max t c => Sys2Proof.Machine.execMax t c s
  | .rcp t c => Sys2Proof.Machine.execRcp t c s
  | .rsqrt t c => Sys2Proof.Machine.execRsqrt t c s
  | .sqrt t c => Sys2Proof.Machine.execSqrt t c s
  | .exp2 t c => Sys2Proof.Machine.execExp2 t c s
  | .log2 t c => Sys2Proof.Machine.execLog2 t c s
  | .cvt t c => Sys2Proof.Machine.execCvt t c s
  | .rand t c => Sys2Proof.Machine.execRand t c s
  | .drop t c => Sys2Proof.Machine.execDrop t c s
  | .rsum t c => Sys2Proof.Machine.execRsum t c s
  | .sel t c => Sys2Proof.Machine.execSel t c s
  | .vld t c ecc => Sys2Proof.Machine.execVld t c ecc s
  | .vst t c => Sys2Proof.Machine.execVst t c s
  | .keyset t c => Sys2Proof.Machine.execKeyset t c s
  | .srset t c => Sys2Proof.Machine.execSrset t c s
  | .dmago t c => Sys2Proof.Machine.execDmago t c s
  | .endOp t c => Sys2Proof.Machine.execEndOp t c s
  | .tilCtxGo p t c => Sys2Proof.Machine.execTilCtxGo p t c s
  | .tilCtxStop p t c => Sys2Proof.Machine.execTilCtxStop p t c s
  | .tilCtxClear p t c => Sys2Proof.Machine.execTilCtxClear p t c s
  | .csig t c => Sys2Proof.Machine.execCsig t c s
  | .cwait t c => Sys2Proof.Machine.execCwait t c s
  | .fence t c => Sys2Proof.Machine.execFence t c s
  | .phase t c => Sys2Proof.Machine.execPhase t c s
  | .own t c => Sys2Proof.Machine.execOwn t c s
  | .cairnWaitComplete w => Sys2Proof.Machine.execCairnWaitComplete w s
  | .waitTimeout w => Sys2Proof.Machine.execWaitTimeout w s
  | .crnHcAdd p h v => Sys2Proof.Machine.execCrnHcAdd p h v s
  | .crnHcSet p h v raced => Sys2Proof.Machine.execCrnHcSet p h v raced s
  | .hostWatchArm p h v => Sys2Proof.Machine.execHostWatchArm p h v s
  | .hostWatchFire h => Sys2Proof.Machine.execHostWatchFire h s
  | .crnDebugSet p v => Sys2Proof.Machine.execCrnDebugSet p v s
  | .remoteSignalTimeout rtag => Sys2Proof.Machine.execRemoteSignalTimeout rtag s
  | .arm p unit => Sys2Proof.Machine.execArm p unit s
  | .disarm p unit => Sys2Proof.Machine.execDisarm p unit s
  | .jobEligible unit => Sys2Proof.Machine.execJobEligible unit s
  | .checkPassEnd unit bad => Sys2Proof.Machine.execCheckPassEnd unit bad s
  | .applyPassEnd unit bad => Sys2Proof.Machine.execApplyPassEnd unit bad s
  | .lsExpWrite p part v raced => Sys2Proof.Machine.execLsExpWrite p part v raced s
  | .linkFrameReceive port frame => Sys2Proof.Machine.execLinkFrameReceive port frame s
  | .linkFrameSend port => Sys2Proof.Machine.execLinkFrameSend port s
  | .linkResend port => Sys2Proof.Machine.execLinkResend port s
  | .retrain p port => Sys2Proof.Machine.execRetrain p port s
  | .trainingResult port machine peerId peerPort => Sys2Proof.Machine.execTrainingResult port machine peerId peerPort s
  | .trainingTimeout port => Sys2Proof.Machine.execTrainingTimeout port s
  | .lossOfLock port => Sys2Proof.Machine.execLossOfLock port s
  | .portEnable p port on => Sys2Proof.Machine.execPortEnable p port on s
  | .nynFailedWrite p v => Sys2Proof.Machine.execNynFailedWrite p v s
  | .notice near dev port up => Sys2Proof.Machine.execNotice near dev port up s
  | .readReq port => Sys2Proof.Machine.execReadReq port s
  | .readData port => Sys2Proof.Machine.execReadData port s
  | .write port => Sys2Proof.Machine.execWrite port s
  | .writeAck port => Sys2Proof.Machine.execWriteAck port s
  | .signal port => Sys2Proof.Machine.execSignal port s
  | .signalAck port => Sys2Proof.Machine.execSignalAck port s
  | .collData port => Sys2Proof.Machine.execCollData port s
  | .collAck port => Sys2Proof.Machine.execCollAck port s
  | .reserve port => Sys2Proof.Machine.execReserve port s
  | .reserveAck port => Sys2Proof.Machine.execReserveAck port s
  | .fail port => Sys2Proof.Machine.execFail port s
  | .bounce port => Sys2Proof.Machine.execBounce port s
  | .e2eResend rtag => Sys2Proof.Machine.execE2eResend rtag s
  | .nynCollArm p => Sys2Proof.Machine.execNynCollArm p s
  | .nynCollDisarm p => Sys2Proof.Machine.execNynCollDisarm p s
  | .collEntryStart entry => Sys2Proof.Machine.execCollEntryStart entry s
  | .collDeadline entry => Sys2Proof.Machine.execCollDeadline entry s
  | .replaceWaitExpiry entry => Sys2Proof.Machine.execReplaceWaitExpiry entry s
  | .collGraceExpiry entry => Sys2Proof.Machine.execCollGraceExpiry entry s
  | .define p part model rec pieces => Sys2Proof.Machine.execDefine p part model rec pieces s
  | .undefine p part model => Sys2Proof.Machine.execUndefine p part model s
  | .swapIn p part model => Sys2Proof.Machine.execSwapIn p part model s
  | .swapOut p part model => Sys2Proof.Machine.execSwapOut p part model s
  | .swapStart part => Sys2Proof.Machine.execSwapStart part s
  | .swapPieceDone d n ext ecc => Sys2Proof.Machine.execSwapPieceDone d n ext ecc s
  | .partOnlineWrite p part on => Sys2Proof.Machine.execPartOnlineWrite p part on s
  | .srvSlotsWrite p part v => Sys2Proof.Machine.execSrvSlotsWrite p part v s
  | .prefillChunkDone part => Sys2Proof.Machine.execPrefillChunkDone part s
  | .handoverMoveDone d n ecc => Sys2Proof.Machine.execHandoverMoveDone d n ecc s
  | .samplerServe part => Sys2Proof.Machine.execSamplerServe part s
  | .walkComplete ext => Sys2Proof.Machine.execWalkComplete ext s
  | .insertion part ext => Sys2Proof.Machine.execInsertion part ext s
  | .init p part model => Sys2Proof.Machine.execInit p part model s
  | .flush p part model => Sys2Proof.Machine.execFlush p part model s
  | .nop f => Sys2Proof.Machine.execNop f s
  | .alloc f => Sys2Proof.Machine.execAlloc f s
  | .release f => Sys2Proof.Machine.execRelease f s
  | .cmdMove f => Sys2Proof.Machine.execCmdMove f s
  | .touch f => Sys2Proof.Machine.execTouch f s
  | .dmaGo f => Sys2Proof.Machine.execDmaGo f s
  | .dmaAbort f => Sys2Proof.Machine.execDmaAbort f s
  | .dmaClear f => Sys2Proof.Machine.execDmaClear f s
  | .ctxGo f => Sys2Proof.Machine.execCtxGo f s
  | .ctxStop f => Sys2Proof.Machine.execCtxStop f s
  | .ctxClear f => Sys2Proof.Machine.execCtxClear f s
  | .cmdSubmit f ext => Sys2Proof.Machine.execCmdSubmit f ext s
  | .cancel f => Sys2Proof.Machine.execCancel f s
  | .pause f => Sys2Proof.Machine.execPause f s
  | .resume f => Sys2Proof.Machine.execResume f s
  | .grant f => Sys2Proof.Machine.execGrant f s
  | .revoke f => Sys2Proof.Machine.execRevoke f s
  | .revokeComplete window => Sys2Proof.Machine.execRevokeComplete window s
  | .admissionEvaluation => Sys2Proof.Machine.execAdmissionEvaluation s
  | .kvLimitWrite p part v => Sys2Proof.Machine.execKvLimitWrite p part v s
  | .acctReset p part => Sys2Proof.Machine.execAcctReset p part s
  | .rescan p => Sys2Proof.Machine.execRescan p s
  | .enumeration found excess links => Sys2Proof.Machine.execEnumeration found excess links s
  | .nsOwnerWrite p v => Sys2Proof.Machine.execNsOwnerWrite p v s
  | .portBifurcateWrite p v => Sys2Proof.Machine.execPortBifurcateWrite p v s
  | .controllerFatal c => Sys2Proof.Machine.execControllerFatal c s
  | .intakeLinkDown link => Sys2Proof.Machine.execIntakeLinkDown link s
  | .controllerResetEnd c ok => Sys2Proof.Machine.execControllerResetEnd c ok s
  | .asyncEvent c => Sys2Proof.Machine.execAsyncEvent c s
  | .jobTake part => Sys2Proof.Machine.execJobTake part s
  | .decodeEngineStart kind => Sys2Proof.Machine.execDecodeEngineStart kind s
  | .nvmeCompletion part job read sct sc dnr data => Sys2Proof.Machine.execNvmeCompletion part job read sct sc dnr data s
  | .nvmeCmdTimeout part job read => Sys2Proof.Machine.execNvmeCmdTimeout part job read s
  | .intakeRetry part job read => Sys2Proof.Machine.execIntakeRetry part job read s
  | .streamFault part job => Sys2Proof.Machine.execStreamFault part job s
  | .intakeJobEnd part job => Sys2Proof.Machine.execIntakeJobEnd part job s
  | .ringEnableWrite p part v => Sys2Proof.Machine.execRingEnableWrite p part v s
  | .start p g => Sys2Proof.Machine.execStart p g s
  | .stop p g => Sys2Proof.Machine.execStop p g s
  | .tickStart g => Sys2Proof.Machine.execTickStart g s
  | .tickEnd g => Sys2Proof.Machine.execTickEnd g s
  | .accessFailed g f addr parts => Sys2Proof.Machine.execAccessFailed g f addr parts s
  | .hifDbCmd f v => Sys2Proof.Machine.execHifDbCmd f v s
  | .hifDbCpl f v => Sys2Proof.Machine.execHifDbCpl f v s
  | .hifDbStr f v => Sys2Proof.Machine.execHifDbStr f v s
  | .commandTake f entry => Sys2Proof.Machine.execCommandTake f entry s
  | .completionWrite f => Sys2Proof.Machine.execCompletionWrite f s
  | .ringCtrlWrite p f v => Sys2Proof.Machine.execRingCtrlWrite p f v s
  | .apertureAccess f off size data ecc => Sys2Proof.Machine.execApertureAccess f off size data ecc s
  | .functionLevelReset f => Sys2Proof.Machine.execFunctionLevelReset f s
  | .pwrCmdRun p => Sys2Proof.Machine.execPwrCmdRun p s
  | .pwrCmdIdle p => Sys2Proof.Machine.execPwrCmdIdle p s
  | .pwrCmdDoze p => Sys2Proof.Machine.execPwrCmdDoze p s
  | .pwrCmdKeep p => Sys2Proof.Machine.execPwrCmdKeep p s
  | .hostL2Entry => Sys2Proof.Machine.execHostL2Entry s
  | .keepL2Timeout => Sys2Proof.Machine.execKeepL2Timeout s
  | .domainPowerOn dom found => Sys2Proof.Machine.execDomainPowerOn dom found s
  | .mainLost => Sys2Proof.Machine.execMainLost s
  | .railFault => Sys2Proof.Machine.execRailFault s
  | .thermalSample sensor temp => Sys2Proof.Machine.execThermalSample sensor temp s
  | .comparatorWindow main mv => Sys2Proof.Machine.execComparatorWindow main mv s
  | .sscWrite p group v => Sys2Proof.Machine.execSscWrite p group v s
  | .perstAssert => Sys2Proof.Machine.execPerstAssert s
  | .perstRelease straps => Sys2Proof.Machine.execPerstRelease straps s
  | .selfTestComplete bad fault => Sys2Proof.Machine.execSelfTestComplete bad fault s
  | .stackTrainingEnd bad => Sys2Proof.Machine.execStackTrainingEnd bad s
  | .linksStageEnd => Sys2Proof.Machine.execLinksStageEnd s
  | .logWriterDrain => Sys2Proof.Machine.execLogWriterDrain s
  | .tallyFlush => Sys2Proof.Machine.execTallyFlush s
  | .temperatureSample => Sys2Proof.Machine.execTemperatureSample s
  | .logReadSeq p v => Sys2Proof.Machine.execLogReadSeq p v s
  | .logTimeSet p v => Sys2Proof.Machine.execLogTimeSet p v s
  | .i2cRead off whole => Sys2Proof.Machine.execI2cRead off whole s
  | .i2cWrite off v whole => Sys2Proof.Machine.execI2cWrite off v whole s
  | .bypass tdi => Sys2Proof.Machine.execBypass tdi s
  | .idcode => Sys2Proof.Machine.execIdcode s
  | .samplePreload pins cells => Sys2Proof.Machine.execSamplePreload pins cells s
  | .extest pins cells => Sys2Proof.Machine.execExtest pins cells s
  | .highz tdi => Sys2Proof.Machine.execHighz tdi s
  | .clamp tdi => Sys2Proof.Machine.execClamp tdi s
  | .debug addr v write => Sys2Proof.Machine.execDebug addr v write s
  | .hostLinkUp rate width => Sys2Proof.Machine.execHostLinkUp rate width s
  | .hostLinkDown => Sys2Proof.Machine.execHostLinkDown s
  | .foothillLinkDown port => Sys2Proof.Machine.execFoothillLinkDown port s

end Sys2Proof.Machine
end

