-- ==== Sys2Proof/Safety.lean ====
section
/-! DEFINITION. The terms in which statements speak of a run: what a command gives, which parts of the block a command
can touch, which registers and which bytes it leaves, and when a path may write a register. -/
namespace Sys2Proof.Machine

/-- The step answers a next state. -/
def State.runs (s : State) : Prop := ∃ t, step s = .next t

/-- Memory is in its canonical form. -/
abbrev State.canonical (s : State) : Prop := Memory.wf s.mem = true

/-- Command `c` answers a next state in `s`, and `P` holds of that state. -/
def Gives (c : Instr) (s : State) (P : State → Prop) : Prop := ∃ t, exec c s = .next t ∧ P t

/-- The parts of the block's state. -/
inductive Area where
  | regs | latch | held | readVal | mem | now | free | outs | cad | img | hif | pwr | side | tier | scl | crn | fab
  | dma | tiles | upd | coll | srv | intake | aln
  deriving DecidableEq, Repr

/-- A part is in `t` what it was in `s`. Any command can make events, so the record of the event bits last seen is left
out of the host port, and an MSI-X message for them out of the outputs (R486). -/
def Area.same (s t : State) : Area → Prop
  | .regs => t.regs = s.regs
  | .latch => t.latch = s.latch
  | .held => t.held = s.held
  | .readVal => t.readVal = s.readVal
  | .mem => t.mem = s.mem
  | .now => t.now = s.now
  | .free => t.free = s.free
  | .outs => t.outs = s.outs ∨ ∃ f v, t.outs = s.outs ++ [.msix f v]
  | .cad => t.cad = s.cad
  | .img => t.img = s.img
  | .hif => { t.hif with seenEvents := 0 } = { s.hif with seenEvents := 0 }
  | .pwr => t.pwr = s.pwr
  | .side => t.side = s.side
  | .tier => t.tier = s.tier
  | .scl => t.scl = s.scl
  | .crn => t.crn = s.crn
  | .fab => t.fab = s.fab
  | .dma => t.dma = s.dma
  | .tiles => t.tiles = s.tiles
  | .upd => t.upd = s.upd
  | .coll => t.coll = s.coll
  | .srv => t.srv = s.srv
  | .intake => t.intake = s.intake
  | .aln => t.aln = s.aln

/-- From `s` to `t` only the parts named can differ, beside the change log and the tally store, which are every
command's; the queue does not. -/
def OnlyIn (ps : List Area) (s t : State) : Prop := t.pending = s.pending ∧ ∀ p, p ∉ ps → Area.same s t p

/-- Every register but the instances of those keys holds what it held. -/
def RegsBut (ks : List Nat) (s t : State) : Prop := ∀ n i j, RegName.key n i j ∉ ks → t.rget n i j = s.rget n i j

/-- Every byte outside the `n` bytes at `a` reads as it did. -/
def BytesBut (a n : Nat) (s t : State) : Prop :=
  ∀ b, (b < a ∨ a + n ≤ b) → Memory.read t.mem b = Memory.read s.mem b

/-- Every holding but `id` is as it was. -/
def HoldingsBut (id : Nat) (s t : State) : Prop := ∀ i, i ≠ id → t.hold? i = s.hold? i

/-- The ledger of every partition but `p` is as it was. -/
def LedgersBut (p : Nat) (s t : State) : Prop := ∀ q, q ≠ p → t.ledger q = s.ledger q

/-- The `n` bytes at `a` read as zero. -/
def AllZero (a n : Nat) (t : State) : Prop := ∀ b, a ≤ b → b < a + n → Memory.read t.mem b = 0

/-- Every context but `c` of tile `x` is as it was. -/
def CtxsBut (x c : Nat) (s t : State) : Prop := ∀ y e, (y ≠ x ∨ e ≠ c) → t.ctx y e = s.ctx y e

/-- Every cairn but that of local index `i` holds what it held. -/
def CairnsBut (i : Nat) (s t : State) : Prop := ∀ k, k ≠ i → t.cairn k = s.cairn k

/-- Every update unit but `u` is as it was. -/
def UnitsBut (u : Nat) (s t : State) : Prop := ∀ v, v ≠ u → t.unit v = s.unit v

/-- The deadline of the item that the waiter belongs to has not fallen due. -/
def State.beforeDeadline (s : State) : Waiter → Bool
  | .tileCtx x c => (s.ctx x c).deadline.all (fun d => decide (s.stepPhase < d))
  | .dmaCh d n => (s.chan d n).deadline.all (fun v => decide (s.stepPhase < v))
  | .update u => (s.unit u).deadline.all (fun d => decide (s.stepPhase < d))
  | _ => true

/-- The bytes of the source that a channel has gathered, once a piece has come. -/
def Chan.withPiece (c : Chan) (piece : Nat) (b : List Byte) : List Byte :=
  Chan.gathered { c with buf := NMap.put c.buf piece b } 0

/-- The code of a refusal. -/
def IJob.withRead (j : IJob) (i : Nat) (x : NvmeRead) : IJob := { j with reads := setAt j.reads i (fun _ => x) }

def codeOf {α : Type} (x : Except Nat α) : Nat := match x with | .error c => c | .ok _ => 0

/-- Of the fabric's state only port `p` differs. -/
def PortOnly (p : Nat) (s t : State) : Prop :=
  (∀ k, k ≠ p → t.port k = s.port k) ∧ { t.fab with ports := s.fab.ports } = s.fab

/-- A port after an acknowledgement up to `a` (R333). -/
def Port.acked (q : Port) (a : Nat) : Port :=
  { q with
    retry := ackTo a q.retry
    resends := if (ackTo a q.retry).length < q.retry.length then 0 else q.resends
    resendQ := q.resendQ.filter (fun e => (ackTo a q.retry).any (fun r => r.1 == e.1)) }

/-- Packet `k`, of `n` frames, is the oldest of its kind at the port, and this device is its destination. -/
abbrev State.arrives (s : State) (port op : Nat) (k : Packet) (n : Nat) : Prop :=
  s.headPacket port op = some (k, n) ∧ k.dst = s.ownId ∧ s.isSpare = false

/-- It is the turn of request `k` of its source, and nothing waits behind it (R339). -/
abbrev State.inTurn (s : State) (k : Packet) : Prop :=
  k.seq = NMap.getD s.fab.expect k.src 0 ∧ ∀ r ∈ s.fab.reorder, r.src ≠ k.src

/-- The oldest packet of its kind has left the port's receive store, and its `n` frames are owed as credits. -/
def Unloaded (port op n : Nat) (s t : State) : Prop :=
  NMap.getD (t.port port).store (vcOf op) [] = (NMap.getD (s.port port).store (vcOf op) []).drop 1 ∧
  (t.port port).owes (vcOf op) = (s.port port).owes (vcOf op) + n

/-- Packet `k` is the last in line on port `p`. -/
def Queued (p : Nat) (k : Packet) (s t : State) : Prop :=
  (t.port p).queue (vcOf k.op) = (s.port p).queue (vcOf k.op) ++ packetFrames k

/-- A request was applied in its turn: the next one of its source is expected, and `ans` is on its way by the route to the
source. -/
def Answered (k ans : Packet) (alt : Bool) (s t : State) : Prop :=
  NMap.getD t.fab.expect k.src 0 = (k.seq + 1) % 65536 ∧
  Queued (s.route k.src alt).1 { ans with alt := alt } s t ∧ t.fab.reqs = s.fab.reqs

/-- Partition `p` as an evaluation of it finds it: its KV limit taken, its accounts refilled (R415). -/
def State.evalState (s : State) (p : Nat) : State :=
  (s.modSrvPart p (fun v => { v with evalDue := false, kvNow := s.rnat .admKvLimit p })).refill p

/-- Command `c`, of operation `op`, is the oldest taken and not yet carried out of function `f`. -/
abbrev State.front (s : State) (f op : Nat) (c : Taken) (rest : List Taken) : Prop :=
  (s.fnSt f).taken = c :: rest ∧ c.op = op

/-- The host port's state of every function but `f` is as it was. -/
def FnsBut (f : Nat) (s t : State) : Prop := ∀ g, g ≠ f → t.fnSt g = s.fnSt g

/-- Function `f`'s oldest command has been carried out, and its completion `x` is ready to be written. -/
def Completed (f : Nat) (rest : List Taken) (x : Cpl) (s t : State) : Prop :=
  t.fnSt f = { s.fnSt f with taken := rest, ready := (s.fnSt f).ready ++ [x] } ∧ FnsBut f s t

/-- Entry `i` of the open run, `x`, can start now (R347). -/
abbrev State.canStart (s : State) (i : Nat) (x : Inst) : Prop :=
  s.inst? i = some x ∧ x.st = .waiting ∧ x.startReached = true ∧ (x.waitDone = true ∨ s.waitFired (.coll i) = true) ∧
  (s.coll.insts.filter (fun y => y.st == .running)).length < 16 ∧
  s.heldByCommit (some s.collPart) (some (s.cad.step * 65536 + x.e.s)) = false

/-- Members whose contributions to an entry this device, as a root, still lacks. -/
def State.lates (s : State) (x : Inst) : List Nat := (s.contributors x.e).filter (fun m => !s.contributed x m)

/-- A slice of a reduction none of whose results this device has. -/
def State.unheard (s : State) (x : Inst) : Option Nat :=
  (List.range x.e.js.length).find? (fun j =>
    let fs := (x.e.needed s.ownId).filter (fun f => f / 2 ^ 18 % 8 == j)
    !fs.isEmpty && fs.all (fun f => !x.written.contains f))

/-- The weight banks and accumulators of every tile are as they were. -/
def ArraysSame (s t : State) : Prop := ∀ y, (t.tile y).banks = (s.tile y).banks ∧ (t.tile y).acc = (s.tile y).acc

/-- Every channel but channel `n` of complex `d` is as it was. -/
def ChansBut (d n : Nat) (s t : State) : Prop := ∀ e m, m < 64 → (e ≠ d ∨ m ≠ n) → t.chan e m = s.chan e m

/-- Context `c` of tile `x`, of partition `p`, runs and can execute the word `w` at its PC: the tile is on, the word can be
read and breaks no rule of R242. -/
abbrev State.atWord (s : State) (x c p w : Nat) : Prop :=
  (s.ctx x c).st = .run ∧ s.domainOn (domTile x) = true ∧ s.ownerTile x = some p ∧ (s.ctx x c).pc % 16 = 0 ∧
  s.tileAccess p (s.ctx x c).pc 16 1 = none ∧ leNat (s.ctxRead x c (s.ctx x c).pc 16) = w ∧ wordBad w c = false

/-- A word of the vector unit gives the lane results `rs` after `draws` draws: they are VD, their flags are sticky, the PC
has passed the word, and nothing else has changed. -/
def LaneResult (x c w draws : Nat) (rs : List FRes) (s t : State) : Prop :=
  t.ctx x c = { s.ctx x c with
    pc := (s.ctx x c).pc + 16, vregs := NMap.put (s.ctx x c).vregs (bits w 111 107) (rs.map (·.v)),
    draws := (s.ctx x c).draws + draws } ∧
  t.rnat .tilCtxFlags x c =
    s.rnat .tilCtxFlags x c ||| (b2n (rs.any (·.nv)) + 2 * b2n (rs.any (·.of)) + 4 * b2n (rs.any (·.uf))) ∧
  CtxsBut x c s t ∧ ArraysSame s t ∧ RegsBut [RegName.tilCtxFlags.key x c] s t ∧ OnlyIn [.regs, .tiles] s t

/-- The lanes of a VOP with rounding: its operands, and the draw of each lane where RMODE asks for draws. -/
def State.roundLanes (s : State) (x c w : Nat) (f : Rnd → Nat → Nat → Nat → FRes) : List FRes :=
  ((s.vops x c w).zip (s.drawFor x c (bits w 91 90)).1).map (fun q =>
    f { mode := bits w 91 90, draw := q.2 } q.1.1 q.1.2.1 q.1.2.2)

/-- The accumulator rows of tile `x` outside `n` rows from `lo` are as they were. -/
def AccRowsBut (x lo n : Nat) (s t : State) : Prop := ∀ r, (r < lo ∨ lo + n ≤ r) → t.accRow x r = s.accRow x r

/-- Weight bank `k` of tile `x`. -/
def State.bank (s : State) (x k : Nat) : Bank := NMap.getD (s.tile x).banks k {}

/-- The bytes of an accumulator row as ACCDUMP writes them (R257). -/
def accBytes : AccRow → List Byte
  | .exact es => es.flatMap (fun q => (exactOf q).bytes)
  | .comp es => es.flatMap (fun q => CompE.bytes { s := q.1, c := q.2 })

/-- Context `c` of tile `x` has passed a word and is otherwise as it was. -/
def PassedWord (x c : Nat) (s t : State) : Prop :=
  t.ctx x c = { s.ctx x c with pc := (s.ctx x c).pc + 16 } ∧ CtxsBut x c s t

/-- `x` is given to the outside, and after it at most the message of the event vector (R486). -/
def Sent (x : Out) (s t : State) : Prop := t.outs = s.outs ++ [x] ∨ ∃ f v, t.outs = s.outs ++ [x, .msix f v]

/-- The change log has room and owes nothing: an entry made now is staged at once (R532). -/
abbrev State.logOpen (s : State) : Prop := s.log.batch = [] ∧ s.log.staged.length < 4096 ∧ s.log.dropped = 0

/-- Exactly one entry is staged, under the next SEQ, and `P` holds of it. -/
def Logged (P : LogEntry → Prop) (s t : State) : Prop :=
  ∃ e, t.log.staged = s.log.staged ++ [e] ∧ e.seq = s.log.nextSeq ∧ P e

/-- The path reaches the register now: its function exists, the bring-up stage and the power state allow it, and the
register's domain is on (R465, R510, R566). -/
abbrev State.reaches (s : State) (p : Path) (n : RegName) (i : Nat) : Prop :=
  s.pathExists p = true ∧ s.reach p n = true ∧ s.regOn n i = true

/-- The path may write `v` to instance (i, j) of the register now. -/
abbrev State.writes (s : State) (p : Path) (n : RegName) (i j v : Nat) : Prop :=
  s.reaches p n i ∧ s.mayWrite p n i j v = true

/-- Work whose failure is its owner's to deal with: the Scaler's legs and parks, a model's pieces, handovers. -/
def Work.owned : Work → Bool
  | .leg _ _ _ | .park _ _ _ _ | .piece _ _ _ | .handover _ _ => true
  | .chain | .hostMove _ _ => false

/-- The address is this device's, and not that of a Valley window. -/
def State.isHere (s : State) (a : Nat) : Bool :=
  match s.target a with
  | .ok (.here l) => !isValley l
  | _ => false

/-- Local part of a device address (R105). -/
def localOf (a : Nat) : Nat := bits a 55 0

/-- The channel of a partition's chain runs operation `op` of its descriptor, none of which has moved yet. -/
abbrev State.transfers (s : State) (d n op : Nat) : Prop :=
  (s.chan d n).st = .run ∧ (s.chan d n).desc.op = op ∧ (s.chan d n).xfer = .none ∧ (s.chan d n).work = .chain ∧
  (s.chan d n).retry = none ∧ (s.chan d n).pieces = [] ∧ (s.chanPart d n).isSome = true

/-- What the channel's operation gives, from the bytes its ranges hold. -/
def State.transferOut (s : State) (d n : Nat) : OpOut :=
  let x := (s.chan d n).desc
  x.perform ((((s.chanPart d n).bind (fun p => s.preset p (bits x.aux 3 0)))).getD (256, true)) (fun k o len =>
    s.rd (localOf (if k = 0 then x.src else if k = 1 then x.dst else x.param64) + o) len)

/-- The operation reads and writes only local ranges, holds its XPC slot, and meets no error in its data. -/
def State.transferOk (s : State) (d n : Nat) : Bool :=
  let x := (s.chan d n).desc
  let hdr := s.rd (localOf x.src) 64
  s.isHere x.src && s.isHere x.dst && s.isHere x.param64
    && decide ((s.chan d n).xpcSlots ≠ 0) && (x.reads hdr).all (fun r => s.isHere r.2.1)
    && ((s.chanPart d n).bind (fun p => s.objCheck p x hdr)).isNone
    && (s.transferOut d n).writes.all (fun w => s.isHere w.1) && (s.transferOut d n).err.isNone

/-- Memory after a list of writes at device addresses. -/
def State.withWrites (s : State) (ws : List (Nat × List Byte)) : State := ws.foldl (fun u w => u.wr (localOf w.1) w.2) s

/-- No failure of owned work is left over: where a channel is STOPPED, it is one of a chain or of a host's MOVE. -/
abbrev State.noLeftFailures (s : State) : Prop :=
  ∀ e ∈ s.dma.chans, (s.chan (e.1 / 64) (e.1 % 64)).st = .stopped → (s.chan (e.1 / 64) (e.1 % 64)).work.owned = false

/-- Partition `p` has no serving engine (R383): failures of its channels and contexts concern nobody else. -/
abbrev State.notServing (s : State) (p : Nat) : Prop := ((s.part? p).map (·.serving)).getD false = false

/-- Nothing is to happen at the next clk: no eviction has an event of it, and no loss scale is to be mirrored (R156, R320). -/
abbrev State.nothingDue (s : State) : Prop :=
  s.tier.evict = [] ∧ s.tier.evictQueue = [] ∧ ∀ p < 8, (s.train p).mirror = false

/-- A write of the register only changes what the register holds: no rule ties a further effect to it. -/
def RegName.plain : RegName → Bool
  | .imgSvFloor | .admAcctRate | .admAcctBurst | .admAcctHard | .admAcctBalance | .intNsOwner | .cadCtrl
  | .cadMasterPeriod | .hifRingCtrl | .crnHcWcfg | .nynPortCtrl | .nynFailed | .intRingCfg | .srvListCairns
  | .logReadSeq => false
  | _ => true

end Sys2Proof.Machine
end

