-- ==== Sys2Proof/Certificates/Slice0/Obligations.lean ====
section
/-! DEFINITION. The statements put to the provers, one definition each; OBLIGATIONS.json lists them. A clause of the form
"Gives c s P" says that command c, carried out on s, answers a next state and that P holds of it. -/
open Sys2Proof Sys2Proof.Machine

/-- Commands are taken first in, first out, and a step runs the command at the front on the rest of the queue: the table's
rows are the part's steps, each whole and indivisible. The queue is the model's own (log entry 1). -/
def Obligations.StepRunsTheFrontCommand : Prop :=
  ∀ (s : State) (c : Instr) (rest : List Instr), s.pending = c :: rest → step s = exec c { s with pending := rest }

/-- Every command of the table ends in a next state: an error that it meets is recorded in registers, completions and log
entries, and no command touches the queue of those that wait. -/
def Obligations.EveryCommandAnswersAndLeavesTheQueue : Prop :=
  ∀ (c : Instr) (s : State), Gives c s (fun t => t.pending = s.pending)

/-- With no command waiting nothing happens, and time passes only by the commands that say so: the model's choice (log
entry 1). -/
def Obligations.EmptyQueueIdles : Prop := ∀ s : State, s.pending = [] → step s = .next s

/-- Memory stays one list for one content, whichever command runs: stores of the tiles, the channels, the Scaler, the
collective sequencer, the update units, serving, intake and alignment, zeroing, aperture writes and losses of contents
all keep it (what an unlisted byte reads as is log entry 5). -/
def Obligations.StepKeepsMemoryCanonical : Prop := ∀ s t : State, s.canonical → step s = .next t → t.canonical

/-- What no command can undo: the security-version floor and revoked key slots (R79, Table 3.11), the entries already in the
ring of the change log (R527), time, and the free numbers drawn; NumVFs is the host's own (R465). -/
def Obligations.NothingIsTakenBack : Prop :=
  ∀ s t : State, step s = .next t →
    s.img.svFloor ≤ t.img.svFloor ∧ (∀ k ∈ s.img.revoked, k ∈ t.img.revoked) ∧ s.log.written ≤ t.log.written ∧
    s.now ≤ t.now ∧ s.free ≤ t.free ∧ t.hif.numVfs = s.hif.numVfs

/-- The local step phase moves only by the timebase, by frames and the master's acts on them, and by what powers the
receiver down or starts the part anew; nothing that software writes or that an engine does shifts it. -/
def Obligations.OnlyElevenCommandsMoveTheClock : Prop :=
  ∀ (c : Instr) (s t : State), exec c s = .next t →
    (∀ n, c ≠ .phaseAdvance n) → c ≠ .stepWrap → (∀ bs ok, c ≠ .phaseFrameReceive bs ok) → c ≠ .phaseFrameSend →
    c ≠ .backoffExpiry → c ≠ .hostL2Entry → c ≠ .mainLost → c ≠ .railFault → (∀ k x, c ≠ .thermalSample k x) →
    c ≠ .perstAssert → (∀ v, c ≠ .perstRelease v) →
    t.now = s.now ∧ t.cad.step = s.cad.step ∧ t.cad.phase = s.cad.phase ∧ t.cad.period = s.cad.period

/-- The part with PERST asserted (R508, R510): every register at its reset value, nothing in memory, nothing under way. The
reset values that the spec does not state are the model's (log entries 4 and 8). -/
def Obligations.ResetState : Prop :=
  State.reset.pending = [] ∧ State.reset.pwr.perst = true ∧ State.reset.pwr.stage = 0 ∧
  (∀ n i j, State.reset.rget n i j = n.resetOf i j) ∧ State.reset.canonical ∧
  (∀ a, Memory.read State.reset.mem a = 0) ∧ State.reset.outs = [] ∧ State.reset.log.staged = [] ∧
  State.reset.log.batch = [] ∧ State.reset.hif.seenEvents = State.reset.hifEvents

/-- Every command ends with its log entries staged in the order of R531, and with HIF_EVENT and HIF_BLOCK_EVENT judged for
the event vector (R486). -/
def Obligations.EveryStepSettlesTheLog : Prop :=
  ∀ s t : State, s.pending ≠ [] → step s = .next t → t.log.batch = [] ∧ t.hif.seenEvents = t.hifEvents

/-- REGISTER_WRITE (R8 to R10, R528) of a register whose write has no further effect, in every form: a 32-bit register, a 64-bit one whole, on any path. -/
def Obligations.RegisterWriteStoresTheWritableBits : Prop :=
  ∀ (s : State) (p : Path) (n : RegName) (i j off size : Nat) (v : W64), accessAt off size = some (n, i, j, false) → (size = 8 ∨ n.row.w64 = false) → s.writes p n i j v.toNat → n.row.acc = .rw → n.plain = true → n.fieldOk i (v.toNat &&& n.row.mask) = true → s.rwAccept p.idx n i j (v.toNat &&& n.row.mask) = true →
    (Gives (.registerWrite p off size v 0) s (fun t =>
        t.pget p.idx n i j = v.toNat &&& n.row.mask ∧
        RegsBut [n.key (n.copy i j p.idx).1 (n.copy i j p.idx).2] s t ∧ OnlyIn [.regs] s t)) ∧
    (n.unlogged = false → s.logOpen →
      Gives (.registerWrite p off size v 0) s (fun t =>
        Logged (fun e => e.kind = 1 ∧ (e.origin, e.originIdx) = p.origin ∧ e.tkind = 0 ∧ e.target = n.localAddr i j ∧
        e.old = s.rwValue p.idx n i j ∧ e.new = v.toNat &&& n.row.mask) s t))

/-- RC_READ, the read of every register, whole (R7 to R9, R25). -/
def Obligations.RegisterReadsGiveTheValue : Prop :=
  ∀ (s : State) (p : Path) (n : RegName) (i j off size : Nat), accessAt off size = some (n, i, j, false) → (size = 8 ∨ n.row.w64 = false) →
    (s.reaches p n i → s.mayRead p n i j = true →
      Gives (.rcRead p off size) s (fun t =>
        t.readVal = BitVec.ofNat 64 (s.regValue p n i j) ∧
        (n.row.acc ≠ .rc → OnlyIn [.readVal] s t) ∧
        (n.row.acc = .rc → n ≠ .pwrTempPeak →
          t.rget n i j = n.resetOf i j ∧ RegsBut [n.key i j] s t ∧ OnlyIn [.regs, .readVal] s t))) ∧
    (¬ s.reaches p n i →
      Gives (.rcRead p off size) s (fun t =>
        t.readVal = 0 ∧ OnlyIn [.readVal] s t))

/-- LOWER_HALF_READ, UPPER_HALF_READ, LOWER_HALF_WRITE and UPPER_HALF_WRITE (R6). -/
def Obligations.HalvesOfASixtyFourBitRegister : Prop :=
  ∀ (s : State) (p : Path) (n : RegName) (i j off : Nat), n.row.w64 = true → off % 8 = 0 → accessAt off 4 = some (n, i, j, false) → accessAt (off + 4) 4 = some (n, i, j, true) → s.reaches p n i →
    (s.mayRead p n i j = true →
      Gives (.lowerHalfRead p off) s (fun t =>
        t.readVal = BitVec.ofNat 64 (s.regValue p n i j % 2 ^ 32) ∧
        NMap.get? t.latch p.idx = some (n.key i j, BitVec.ofNat 32 (s.regValue p n i j / 2 ^ 32)) ∧
        (n.row.acc = .rc → t.rget n i j = n.resetOf i j ∨ n = .pwrTempPeak) ∧
        (n.row.acc ≠ .rc → OnlyIn [.readVal, .latch] s t))) ∧
    (∀ (v : W32), s.mayRead p n i j = true → NMap.get? s.latch p.idx = some (n.key i j, v) →
      Gives (.upperHalfRead p off) s (fun t =>
        t.readVal = BitVec.ofNat 64 v.toNat ∧ NMap.get? t.latch p.idx = none ∧ OnlyIn [.readVal, .latch] s t)) ∧
    (s.mayRead p n i j = true → NMap.get? s.latch p.idx = none →
      Gives (.upperHalfRead p off) s (fun t =>
        t.readVal = BitVec.ofNat 64 (s.regValue p n i j / 2 ^ 32) ∧ OnlyIn [.readVal] s t)) ∧
    (∀ (v : W32), s.mayWrite p n i j v.toNat = true →
      Gives (.lowerHalfWrite p off v) s (fun t =>
        NMap.get? t.held p.idx = some (n.key i j, v) ∧ OnlyIn [.held] s t)) ∧
    (∀ (v lo : W32), s.mayWrite p n i j v.toNat = true → NMap.get? s.held p.idx = some (n.key i j, lo) →
      n.row.acc = .rw → n.plain = true → n.fieldOk i ((v.toNat * 2 ^ 32 + lo.toNat) &&& n.row.mask) = true →
      s.rwAccept p.idx n i j ((v.toNat * 2 ^ 32 + lo.toNat) &&& n.row.mask) = true →
      Gives (.upperHalfWrite p off v 0) s (fun t =>
        t.pget p.idx n i j = (v.toNat * 2 ^ 32 + lo.toNat) &&& n.row.mask ∧ NMap.get? t.held p.idx = none ∧
        RegsBut [n.key (n.copy i j p.idx).1 (n.copy i j p.idx).2] s t ∧ OnlyIn [.regs, .held] s t)) ∧
    (∀ (v : W32), s.mayWrite p n i j v.toNat = true → NMap.get? s.held p.idx = none →
      Gives (.upperHalfWrite p off v 0) s (fun t =>
        OnlyIn [] s t))

/-- W1C registers (Table 0.4, R11): `raced` gives the bits that hardware sets in the same clk; they stand in the register when the write is judged. -/
def Obligations.WriteOneToClear : Prop :=
  ∀ (s : State) (p : Path) (n : RegName) (i j off size : Nat) (v raced : W64), accessAt off size = some (n, i, j, false) → (size = 8 ∨ n.row.w64 = false) → s.writes p n i j v.toNat → n.row.acc = .w1c →
    (Gives (.registerWrite p off size v raced) s (fun t =>
        t.rget n i j = s.rget n i j &&& ~~~(v &&& BitVec.ofNat 64 n.row.mask &&& ~~~raced) ∧
        RegsBut [n.key i j] s t ∧ OnlyIn [.regs] s t)) ∧
    (raced &&& ~~~ s.rget n i j = 0 →
      Gives (.registerWrite p off size v raced) s (fun t =>
        raced &&& ~~~ t.rget n i j = 0))

/-- Writes that R7, R8, R10, R25, R510 and R566 discard, with the REFUSED entry of R528. -/
def Obligations.RefusedWritesChangeNothing : Prop :=
  ∀ (s : State) (p : Path) (off size : Nat) (v : W64), s.pathExists p = true →
    (accessAt off size = none →
      Gives (.registerWrite p off size v 0) s (fun t =>
        OnlyIn [] s t)) ∧
    (∀ (n : RegName) (i j : Nat), accessAt off size = some (n, i, j, false) → (size = 8 ∨ n.row.w64 = false) →
      s.mayWrite p n i j v.toNat = true → (s.reach p n = false ∨ s.regOn n i = false) →
      Gives (.registerWrite p off size v 0) s (fun t =>
        OnlyIn [] s t ∧ (s.logOpen → Logged (fun e => e.kind = 2 ∧ (e.origin, e.originIdx) = p.origin ∧ e.new = v.toNat) s t))) ∧
    (∀ (n : RegName) (i j : Nat), accessAt off size = some (n, i, j, false) → (size = 8 ∨ n.row.w64 = false) →
      s.writes p n i j v.toNat → (n.row.acc = .ro ∨ n.row.acc = .rc) →
      Gives (.registerWrite p off size v 0) s (fun t =>
        OnlyIn [] s t ∧ (s.logOpen → Logged (fun e => e.kind = 2 ∧ (e.origin, e.originIdx) = p.origin ∧ e.new = v.toNat) s t))) ∧
    (∀ (n : RegName) (i j : Nat), accessAt off size = some (n, i, j, false) → (size = 8 ∨ n.row.w64 = false) →
      s.writes p n i j v.toNat → (n.row.acc = .rw ∨ n.row.acc = .wo) →
      n.fieldOk i (v.toNat &&& n.row.mask) = false →
      Gives (.registerWrite p off size v 0) s (fun t =>
        OnlyIn [] s t ∧ (s.logOpen → Logged (fun e => e.kind = 2 ∧ (e.origin, e.originIdx) = p.origin ∧ e.new = v.toNat) s t)))

/-- R470, with the codes that the chapters of the command registers give a write by a function that may not command the resource (log entry 21). -/
def Obligations.AccessesThatTheTableForbids : Prop :=
  ∀ (s : State) (p : Path) (n : RegName) (i j off size : Nat), accessAt off size = some (n, i, j, false) → (size = 8 ∨ n.row.w64 = false) → s.pathExists p = true →
    (s.mayRead p n i j = false →
      Gives (.rcRead p off size) s (fun t =>
        t.readVal = 0 ∧ OnlyIn [.readVal] s t)) ∧
    (∀ (v : W64), s.mayWrite p n i j v.toNat = false →
      Gives (.registerWrite p off size v 0) s (fun t =>
        OnlyIn [.regs] s t ∧
        RegsBut [RegName.dmaLastErr.key i 0, RegName.updLastErr.key i 0, RegName.nynLastErr.key 0 0,
          RegName.alnLastErr.key 0 0] s t ∧
        (s.logOpen → Logged (fun e => e.kind = 2 ∧ (e.origin, e.originIdx) = p.origin ∧ e.tkind = 0 ∧
          e.target = n.localAddr i j ∧ e.new = v.toNat) s t)))

/-- R16. -/
def Obligations.IdentityRegisterReads : Prop :=
  ∀ (s : State) (p : Path),
    (s.reaches p .hifIdent 0 → s.mayRead p .hifIdent 0 0 = true →
      Gives (.rcRead p 0 4) s (fun t =>
        t.readVal = 0x1A642101 ∧ OnlyIn [.readVal] s t))

/-- PHASE_ADVANCE and STEP_WRAP (R41): the local phase as an exact count, each period of the timebase adding the increment of the period in force. -/
def Obligations.PhaseTimebaseAdvances : Prop :=
  ∀ (s : State), s.nothingDue →
    (∀ (n : Nat), n ≠ 0 → (s.cad.phaseValid = false ∨ s.cad.frozen = true) →
      Gives (.phaseAdvance n) s (fun t =>
        t.now = s.now + n ∧ t.cad.step = s.cad.step ∧ t.cad.phase = s.cad.phase)) ∧
    (∀ (n : Nat), n ≠ 0 → s.cad.phaseValid = true → s.cad.frozen = false → s.cad.holdBack = 0 →
      phaseIncr s.cad.period ≠ 0 → s.cad.phase + n * phaseIncr s.cad.period < fullStep →
      Gives (.phaseAdvance n) s (fun t =>
        t.now = s.now + n ∧ t.cad.step = s.cad.step ∧ t.cad.phase = s.cad.phase + n * phaseIncr s.cad.period)) ∧
    (s.cad.phaseValid = true → s.cad.frozen = false → s.cad.holdBack = 0 → phaseIncr s.cad.period ≠ 0 →
      s.cad.phase < fullStep →
      Gives (.stepWrap) s (fun t =>
        t.now = s.now + s.periodsToWrap ∧ t.cad.step = (s.cad.step + 1) % 2 ^ 48 ∧
        t.cad.phase + fullStep = s.cad.phase + s.periodsToWrap * phaseIncr s.cad.period))

/-- PHASE_FRAME_RECEIVE, FRAME_REPEAT, PHASE_FRAME_SEND, FRAME_LOSS_TIMEOUT, BACKOFF_EXPIRY and CADENCE_LOST (R37 to R60). A received frame is one event, at its comma (log entry 9). -/
def Obligations.CadenceFrames : Prop :=
  ∀ (s : State), s.noLeftFailures →
    (∀ (bs : List Byte), s.rbit .cadCtrl 0 = true → frameWhole bs true = true →
      0x200 ≤ (frameFields bs).period → (frameFields bs).pnext = false → (frameFields bs).held = false →
      s.cad.master = false → s.cad.state = .acquire → s.cad.frozenLost = false →
      Gives (.phaseFrameReceive bs true) s (fun t =>
        t.cad.state = .locking ∧ t.cad.agree = 1 ∧ t.cad.phaseValid = true ∧ t.cad.period = (frameFields bs).period ∧
        t.cad.step = compensated (frameFields bs) (bits (s.rnat .cadInLink) 15 0) (frameFields bs).period / 2 ^ 24 % 2 ^ 48 ∧
        t.cad.phase = compensated (frameFields bs) (bits (s.rnat .cadInLink) 15 0) (frameFields bs).period % 2 ^ 24 * 2 ^ 32)) ∧
    (∀ (bs : List Byte) (ok : Bool), s.rbit .cadCtrl 0 = true → frameWhole bs ok = false →
      s.cad.master = false →
      Gives (.phaseFrameReceive bs ok) s (fun t =>
        t.rnat .cadFrameErr = (s.rnat .cadFrameErr + 1) % 2 ^ 32 ∧
        t.cad = { s.cad with lastRx := some (frameFields bs, false) } ∧
        RegsBut [RegName.cadFrameErr.key 0 0] s t ∧ OnlyIn [.regs, .cad] s t)) ∧
    (∀ (bs : List Byte), s.rbit .cadCtrl 0 = true → frameWhole bs true = true →
      (frameFields bs).period < 0x200 → s.cad.master = false →
      Gives (.phaseFrameReceive bs true) s (fun t =>
        t.rbit .cadEvent 5 = true ∧ t.rnat .cadLastErr = 0x0D07 ∧
        t.cad = { s.cad with lastRx := some (frameFields bs, false) } ∧ OnlyIn [.regs, .cad] s t)) ∧
    (∀ (f : Frame) (ok : Bool), s.cad.lastRx = some (f, ok) → s.rbit .cadCtrl 0 = true →
      s.rbit .cadCtrl 1 = true → s.rankOf = 0 →
      Gives (.frameRepeat) s (fun t =>
        Sent (.cadFrame (if ok then Frame.bytes { f with delay := (f.delay + bits (s.rnat .cadInLink) 15 0 + 480) % 65536 }
        else []) ok) s t ∧ t.cad = { s.cad with lastRx := none } ∧ OnlyIn [.outs, .cad, .side] s t)) ∧
    (s.cad.master = true → s.rbit .cadCtrl 0 = true → s.cad.stopPending = false → s.cad.runPending = false →
      s.cad.newPeriod = none → s.cad.holdIn = true →
      Gives (.phaseFrameSend) s (fun t =>
        Sent (.cadFrame (Frame.bytes {
            rank := s.rankOf, held := s.cad.frozen, pnext := false, phase := s.cad.phase / 2 ^ 32,
            step := s.cad.step, period := s.cad.period, delay := bits (s.rnat .cadRootDelay) 15 0 }) true) s t ∧
        OnlyIn [.outs, .side] s t)) ∧
    (s.cad.master = false → s.cad.state = .locked →
      Gives (.frameLossTimeout) s (fun t =>
        t.cad = { s.cad with state := .flywheel, backoff := decide (s.rankOf ≠ 0), suspect := none } ∧ OnlyIn [.cad] s t)) ∧
    (s.cad.backoff = true → s.rbit .cadCtrl 0 = true → s.rankOf ≠ 0 → s.cad.phaseValid = false →
      Gives (.backoffExpiry) s (fun t =>
        t.cad.master = true ∧ t.cad.backoff = false ∧ t.cad.state = .locked ∧ t.cad.phaseValid = true ∧
        t.cad.step = bits (s.rnat .cadMasterStart) 47 0 ∧ t.cad.phase = 0 ∧
        t.cad.period = bits (s.rnat .cadMasterPeriod) 23 0 ∧ t.cad.frozen = true)) ∧
    (s.cad.state = .flywheel → s.cad.master = false →
      Gives (.cadenceLost) s (fun t =>
        t.cad.state = .lost ∧ t.cad.frozen = true ∧ t.cad.holdLost = s.rbit .cadCtrl 2 ∧ t.rbit .cadEvent 2 = true ∧
        t.rnat .cadLastErr = 0x0D05 ∧ OnlyIn [.regs, .cad] s t))

/-- CAD_ENABLE, CAD_DISABLE, SW_HOLD, RANK_WRITE, MASTER_RUN, MASTER_STOP, MASTER_PERIOD_WRITE, HOLD_N_FALL and HOLD_N_RISE. -/
def Obligations.CadenceControl : Prop :=
  ∀ (s : State) (p : Path),
    (s.writes p .cadCtrl 0 0 (s.rnat .cadCtrl ||| 1) → s.rbit .cadCtrl 0 = false → s.cad.state = .acquire →
      s.rankOf ≠ 0 →
      Gives (.cadEnable p) s (fun t =>
        t.rbit .cadCtrl 0 = true ∧ t.cad.backoff = true ∧ OnlyIn [.regs, .cad] s t)) ∧
    (s.writes p .cadCtrl 0 0 (s.rnat .cadCtrl &&& 0x7E) → s.rbit .cadCtrl 0 = true →
      Gives (.cadDisable p) s (fun t =>
        t.rbit .cadCtrl 0 = false ∧ t.cad.state = .acquire ∧ t.cad.phaseValid = false ∧ t.cad.master = false ∧ OnlyIn [.regs, .cad] s t)) ∧
    (∀ (on : Bool), s.writes p .cadCtrl 0 0 ((s.rnat .cadCtrl &&& 0x77) + b2n on * 8) →
      Gives (.swHold p on) s (fun t =>
        t.rbit .cadCtrl 3 = on ∧ (on = true → t.holdDrive = true ∧ t.cad.holdSince.isSome = true) ∧ OnlyIn [.regs, .cad] s t)) ∧
    (∀ (rank : Fin 8), s.writes p .cadCtrl 0 0 ((s.rnat .cadCtrl &&& 0x0F) + rank.val * 16) →
      Gives (.rankWrite p rank) s (fun t =>
        t.rankOf = rank.val ∧ (rank.val = 0 → t.cad.master = false ∧ (s.cad.master = true → t.cad.state = .flywheel)) ∧
        OnlyIn [.regs, .cad] s t)) ∧
    (s.writes p .cadMasterCmd 0 0 1 → s.cad.master = true →
      Gives (.masterRun p) s (fun t =>
        t.cad = { s.cad with runPending := true, stopPending := false } ∧ OnlyIn [.cad] s t)) ∧
    (s.writes p .cadMasterCmd 0 0 2 → s.cad.master = true →
      Gives (.masterStop p) s (fun t =>
        t.cad = { s.cad with stopPending := true, runPending := false } ∧ OnlyIn [.cad] s t)) ∧
    (s.writes p .cadMasterCmd 0 0 1 → s.cad.master = false →
      Gives (.masterRun p) s (fun t =>
        OnlyIn [] s t)) ∧
    (s.writes p .cadMasterCmd 0 0 2 → s.cad.master = false →
      Gives (.masterStop p) s (fun t =>
        OnlyIn [] s t)) ∧
    (∀ (v : W32), s.writes p .cadMasterPeriod 0 0 v.toNat → 0x200 ≤ v.toNat % 2 ^ 24 → s.cad.master = true →
      Gives (.masterPeriodWrite p v) s (fun t =>
        t.rnat .cadMasterPeriod = v.toNat % 2 ^ 24 ∧
        (t.cad.newPeriod = some (v.toNat % 2 ^ 24, s.cad.step) ∨ t.cad.newPeriod = some (v.toNat % 2 ^ 24, s.cad.step + 1)) ∧
        t.cad.period = s.cad.period ∧ RegsBut [RegName.cadMasterPeriod.key 0 0] s t ∧ OnlyIn [.regs, .cad] s t)) ∧
    (Gives (.holdNFall) s (fun t =>
        t.cad = { s.cad with holdIn := true, frozenHold := true } ∧ OnlyIn [.cad] s t)) ∧
    (s.cad.phaseValid = true →
      Gives (.holdNRise) s (fun t =>
        t.cad = { s.cad with holdIn := false, mismatch := 0 } ∧ OnlyIn [.cad] s t))

/-- PHASE_POINT_REACHED, ITEM_START, DEADLINE_REACHED and HOLD_TIMEOUT for the operators of tile contexts (R32, R61 to R72, R286). -/
def Obligations.ScheduledItems : Prop :=
  ∀ (s : State) (x : Fin 24) (c : Fin 4) (part : Nat), s.noLeftFailures → s.ownerTile x = some part → s.notServing part →
    ((s.ctx x c).st = .wait → (s.ctx x c).wait = .phase → s.reached (s.ctx x c).startAt = true →
      s.img.due = false →
      Gives (.phasePointReached (.tileCtx x c)) s (fun t =>
        t.ctx x c = { s.ctx x c with st := .run, wait := .none, pc := (s.ctx x c).pc + 16 } ∧ CtxsBut x c s t ∧
        ArraysSame s t ∧ OnlyIn [.tiles] s t)) ∧
    ((s.ctx x c).st = .wait → (s.ctx x c).wait = .cairn → s.waitFired (.tileCtx x c) = true →
      Gives (.itemStart (.tileCtx x c)) s (fun t =>
        t.ctx x c = { s.ctx x c with st := .run, wait := .none, pc := (s.ctx x c).pc + 16 } ∧
        t.waitOf (.tileCtx x c) = none ∧ CtxsBut x c s t ∧ ArraysSame s t ∧ OnlyIn [.crn, .tiles] s t)) ∧
    (∀ (d : Nat), (s.ctx x c).busy = true → (s.ctx x c).late = false → (s.ctx x c).deadline = some d →
      d ≤ s.stepPhase → s.ctxStall x c = true →
      Gives (.deadlineReached (.tileCtx x c) 0 {}) s (fun t =>
        t.ctx x c = { s.ctx x c with late := true } ∧ (.tileCtx x c) ∈ t.cad.holdItems ∧
        t.rnat .cadLateCount = (s.rnat .cadLateCount + 1) % 2 ^ 32 ∧ t.rbit .cadEvent 7 = true ∧ CtxsBut x c s t ∧
        ArraysSame s t ∧ OnlyIn [.regs, .cad, .tiles] s t)) ∧
    (∀ (d : Nat), (s.ctx x c).busy = true → (s.ctx x c).late = false → (s.ctx x c).deadline = some d →
      d ≤ s.stepPhase → s.ctxStall x c = false → (s.ctx x c).posted = [] →
      Gives (.deadlineReached (.tileCtx x c) 0 {}) s (fun t =>
        (t.ctx x c).st = .fault ∧ (t.ctx x c).err = 0x0D01 ∧ (t.ctx x c).errPc = (s.ctx x c).pc ∧
        t.rnat .cadLateCount = (s.rnat .cadLateCount + 1) % 2 ^ 32 ∧ t.rnat .cadLastErr = 0x0D01 ∧ CtxsBut x c s t ∧
        ArraysSame s t ∧ OnlyIn [.regs, .cad, .crn, .fab, .tiles, .upd] s t)) ∧
    ((s.ctx x c).busy = true → (s.ctx x c).posted = [] → (.tileCtx x c) ∈ s.cad.holdItems →
      Gives (.holdTimeout (.tileCtx x c)) s (fun t =>
        (t.ctx x c).st = .fault ∧ (t.ctx x c).err = 0x0D04 ∧ (.tileCtx x c) ∉ t.cad.holdItems ∧ t.rnat .cadLastErr = 0x0D04 ∧
        t.rbit .cadEvent 4 = true ∧ CtxsBut x c s t ∧ ArraysSame s t ∧ OnlyIn [.regs, .cad, .crn, .fab, .tiles, .upd] s t))

/-- LOAD_FULL, LOAD_PARTIAL, VERIFY_ONLY, UNLOAD, ABORT and LOAD_FLASH (Table 3.12). -/
def Obligations.ImageCommands : Prop :=
  ∀ (s : State) (p : Path),
    (s.writes p .imgCmd 0 0 1 → s.img.state = .empty →
      Gives (.loadFull p) s (fun t =>
        t.img = { s.img with
        before := .empty, state := .staging, op := .full, force := false, flashB := false, staged := [],
        due := false } ∧ t.pwr.stage = (if s.pwr.stage = 3 then 4 else s.pwr.stage) ∧ OnlyIn [.img, .pwr] s t)) ∧
    (s.writes p .imgCmd 0 0 6 → s.img.state = .empty →
      Gives (.loadFlash p) s (fun t =>
        t.img = { s.img with
        before := .empty, state := .staging, op := .flash, force := false, flashB := false, staged := [],
        due := false } ∧ t.pwr.stage = (if s.pwr.stage = 3 then 4 else s.pwr.stage) ∧ OnlyIn [.img, .pwr] s t)) ∧
    (∀ (force : Bool), s.writes p .imgCmd 0 0 (2 + b2n force * 16) → s.img.state = .active →
      Gives (.loadPartial p force) s (fun t =>
        t.img = { s.img with
        before := .active, state := .staging, op := .part, force := force, flashB := false, staged := [],
        due := false } ∧ OnlyIn [.img] s t)) ∧
    (s.writes p .imgCmd 0 0 3 → (s.img.state = .active ∨ s.img.state = .empty) →
      Gives (.verifyOnly p) s (fun t =>
        t.img = { s.img with
        before := s.img.state, state := .staging, op := .verify, force := false, flashB := false,
        staged := [], due := false } ∧ OnlyIn [.img] s t)) ∧
    (s.writes p .imgCmd 0 0 5 → (s.img.state = .staging ∨ s.img.state = .verifying ∨ s.img.state = .pending) →
      s.img.due = false →
      Gives (.abort p) s (fun t =>
        t.img = { s.img with state := s.img.before, staged := [], force := false, due := false } ∧
        t.pwr.stage = (if s.pwr.stage = 4 then 3 else s.pwr.stage) ∧ OnlyIn [.img, .pwr] s t)) ∧
    (s.writes p .imgCmd 0 0 4 → s.img.state = .active →
      Gives (.unload p) s (fun t =>
        t.img.state = .empty ∧ t.img.sections = [] ∧ t.img.digest = [] ∧ t.parts = [])) ∧
    (s.writes p .imgCmd 0 0 1 → s.img.state = .active →
      Gives (.loadFull p) s (fun t =>
        t.rnat .imgLastErr = 0x0B0B ∧ RegsBut [RegName.imgLastErr.key 0 0] s t ∧ OnlyIn [.regs] s t)) ∧
    (∀ (force : Bool), s.writes p .imgCmd 0 0 (2 + b2n force * 16) → (s.img.state = .staging ∨
      s.img.state = .verifying ∨ s.img.state = .pending) →
      Gives (.loadPartial p force) s (fun t =>
        t.rnat .imgLastErr = 0x0B0F ∧ RegsBut [RegName.imgLastErr.key 0 0] s t ∧ OnlyIn [.regs] s t))

/-- IMAGE_READ_COMPLETE, IMAGE_SOURCE_TIMEOUT, IMAGE_VERIFY_COMPLETE, PARTIAL_COMMIT and RELOAD_TIMEOUT (Table 3.12, R80 to R98). -/
def Obligations.ImageLoading : Prop :=
  ∀ (s : State), s.noLeftFailures →
    (∀ (ext b : List Byte), s.img.state = .staging → s.readImage ext = some b →
      Gives (.imageReadComplete ext) s (fun t =>
        t.img = { s.img with state := .verifying, staged := b } ∧ OnlyIn [.img] s t)) ∧
    (∀ (ext : List Byte), s.img.state = .staging → s.img.op = .full → s.readImage ext = none →
      Gives (.imageReadComplete ext) s (fun t =>
        t.img.state = s.img.before ∧ t.rnat .imgLastErr = 0x0B10 ∧ t.rbit .imgEvent 1 = true ∧
        RegsBut [RegName.imgLastErr.key 0 0, RegName.imgEvent.key 0 0] s t ∧ OnlyIn [.regs, .img, .pwr] s t)) ∧
    ((s.img.state = .staging ∨ s.img.state = .verifying) → s.img.op = .full →
      Gives (.imageSourceTimeout) s (fun t =>
        t.img.state = s.img.before ∧ t.img.staged = [] ∧ t.img.rejectInfo = 0xFFFFFFFF ∧ t.rnat .imgLastErr = 0x0B10 ∧
        t.rbit .imgEvent 1 = true ∧ RegsBut [RegName.imgLastErr.key 0 0, RegName.imgEvent.key 0 0] s t ∧
        OnlyIn [.regs, .img, .pwr] s t)) ∧
    (∀ (r : Reject), s.img.state = .verifying → s.img.op ≠ .flash →
      s.checkImage s.img.op s.img.staged s.img.staged.length = some r →
      Gives (.imageVerifyComplete) s (fun t =>
        t.img.state = s.img.before ∧ t.img.rejectInfo = r.sec * 65536 + r.item ∧ t.rbit .imgEvent 1 = true ∧
        OnlyIn [.regs, .img, .pwr] s t)) ∧
    (s.img.state = .verifying → s.img.op = .verify →
      Gives (.imageVerifyComplete) s (fun t =>
        t.img.state = s.img.before ∧ t.img.staged = [] ∧
        (s.checkImage s.img.op s.img.staged s.img.staged.length = none → t.rbit .imgEvent 0 = true) ∧
        OnlyIn [.regs, .img, .pwr] s t)) ∧
    (s.img.state = .verifying → s.img.op = .part →
      Gives (.imageVerifyComplete) s (fun t =>
        (s.checkImage s.img.op s.img.staged s.img.staged.length = none → t.img.state = .pending ∧
          t.img.part = (parseHeader s.img.staged).part ∧ t.img.sections = s.img.sections ∧ t.rbit .imgEvent 0 = true) ∧
        OnlyIn [.regs, .img, .pwr] s t)) ∧
    (s.img.state = .verifying → s.img.op = .full →
      Gives (.imageVerifyComplete) s (fun t =>
        s.checkImage s.img.op s.img.staged s.img.staged.length = none →
        t.img.state = .active ∧ t.img.sections = (parseSections s.img.staged).map (fun e => e.sec) ∧
        t.img.digest = sha384 (s.img.staged.take (parseHeader s.img.staged).sig) ∧ t.rbit .imgEvent 0 = true ∧
        t.rbit .imgEvent 2 = true)) ∧
    (s.img.state = .pending → s.img.due = true →
      Gives (.partialCommit) s (fun t =>
        t.img.state = .active ∧ t.img.due = false ∧ t.img.staged = [] ∧
        t.img.sections = mergeSections s.img.sections ((parseSections s.img.staged).map (fun e => e.sec)) ∧
        NMap.get? t.img.partVer s.img.part = some (parseHeader s.img.staged).version ∧ t.rbit .imgEvent 2 = true)) ∧
    (s.img.state = .pending → s.img.due = false →
      Gives (.reloadTimeout) s (fun t =>
        t.img = { s.img with state := .active, staged := [], force := false } ∧ t.rnat .imgLastErr = 0x0B0D ∧
        t.rbit .imgEvent 3 = true ∧ RegsBut [RegName.imgLastErr.key 0 0, RegName.imgEvent.key 0 0] s t ∧ OnlyIn [.regs, .img] s t))

/-- KEY_PROGRAM, KEY_REVOKE and SV_FLOOR_WRITE (R78, R79). -/
def Obligations.KeysAndSecurityFloor : Prop :=
  ∀ (s : State) (p : Path),
    (∀ (slot : Fin 4) (ext b : List Byte) (a : Nat), s.writes p .imgKeyCmd 0 0 (4 + slot.val) → slot.val ≠ 0 →
      NMap.get? s.img.keys slot = none → (s.target (s.rnat .imgSrcAddr)).toOption = some (.here a) →
      s.sourceBytes a 48 ext = some b →
      Gives (.keyProgram p slot ext) s (fun t =>
        t.img = { s.img with keys := NMap.put s.img.keys slot (slice b 0 48) } ∧ OnlyIn [.img] s t)) ∧
    (∀ (slot : Fin 4) (ext : List Byte), s.writes p .imgKeyCmd 0 0 (4 + slot.val) → (slot.val = 0 ∨
      (NMap.get? s.img.keys slot).isSome = true) →
      Gives (.keyProgram p slot ext) s (fun t =>
        OnlyIn [] s t ∧ (s.logOpen → Logged (fun e => e.kind = 2 ∧ e.target = RegName.localAddr .imgKeyCmd 0 0) s t))) ∧
    (∀ (slot k : Fin 4), s.writes p .imgKeyCmd 0 0 (8 + slot.val) → (slot.val = 0 ∨
      (NMap.get? s.img.keys slot).isSome = true) → slot.val ∉ s.img.revoked → k ≠ slot →
      s.img.keyUsable k = true →
      Gives (.keyRevoke p slot) s (fun t =>
        t.img = { s.img with revoked := s.img.revoked ++ [slot.val] } ∧ OnlyIn [.img] s t)) ∧
    (∀ (slot : Fin 4), s.writes p .imgKeyCmd 0 0 (8 + slot.val) → slot.val ∉ s.img.revoked → ∀ k : Fin 4,
      k ≠ slot → s.img.keyUsable k = false →
      Gives (.keyRevoke p slot) s (fun t =>
        OnlyIn [] s t)) ∧
    (∀ (v : W32), s.writes p .imgSvFloor 0 0 v.toNat → s.img.svFloor ≤ v.toNat →
      Gives (.svFloorWrite p v) s (fun t =>
        t.img = { s.img with svFloor := v.toNat } ∧ t.regValue p .imgSvFloor 0 0 = v.toNat ∧ OnlyIn [.img] s t)) ∧
    (∀ (v : W32), s.writes p .imgSvFloor 0 0 v.toNat → v.toNat < s.img.svFloor →
      Gives (.svFloorWrite p v) s (fun t =>
        OnlyIn [] s t ∧ (s.logOpen → Logged (fun e => e.kind = 2 ∧ (e.origin, e.originIdx) = p.origin ∧ e.target = RegName.localAddr .imgSvFloor 0 0 ∧ e.new = v.toNat) s t)))

/-- PATROL_SCRUB (R111) and GRANULE_ZERO (R120). -/
def Obligations.PatrolAndZeroing : Prop :=
  ∀ (s : State),
    (∀ (k : Fin 8), s.rbit .sclScrubCtrl 0 = true → s.stackOn k = true →
      Gives (.patrolScrub k .corrected) s (fun t =>
        t.rnat .sclEccCorr = (s.rnat .sclEccCorr + 1) % 2 ^ 32 ∧ t.rbit .sclTierEvent 0 = true ∧
        RegsBut [RegName.sclEccCorr.key 0 0, RegName.sclTierEvent.key 0 0] s t ∧ OnlyIn [.regs] s t)) ∧
    (∀ (k : Fin 8) (a id : Nat) (h : Holding), s.rbit .sclScrubCtrl 0 = true → s.stackOn k = true →
      slopeBase k ≤ a → a < slopeBase (k + 1) → s.holdAt a 1 = some (id, h) →
      Gives (.patrolScrub k (.uncorrectable a)) s (fun t =>
        t.rnat .sclEccUncorr = (s.rnat .sclEccUncorr + 1) % 2 ^ 32 ∧ t.rnat .sclLastEccAddr = a ∧
        t.rbit .sclTierEvent 1 = true ∧ t.hold? id = some { h with state := 3 } ∧ HoldingsBut id s t ∧
        OnlyIn [.regs, .tier] s t)) ∧
    (∀ (base : Nat),
      s.tier.tags.any (fun g => overlaps g.1 (g.2.1 * granule) (base / granule * granule) granule) = true →
      Gives (.granuleZero base) s (fun t =>
        AllZero (base / granule * granule) granule t ∧
        BytesBut (base / granule * granule) granule s t ∧
        t.tier = { s.tier with tags := s.tier.tags.flatMap (cutTag (base / granule * granule) 1) } ∧ OnlyIn [.mem, .tier] s t))

/-- SUBMIT, DRY_RUN, WITHDRAW, PLANNING_PASS_END and STREAM_CFG_WRITE (R136 to R155). -/
def Obligations.LedgerCommands : Prop :=
  ∀ (s : State),
    (∀ (p : Path) (q : Fin 8) (ext bs : List Byte), s.writes p .sclLedgerCmd 0 0 (1 + q.val * 16) →
      s.ledgerRefused q 1 = false → (s.readLedger q (s.pget p.idx .sclLedgerAddr) ext).toOption = some bs →
      s.ledgerCheck q bs = none →
      Gives (.submit p q ext) s (fun t =>
        t.ledger q = { s.ledger q with st := .planning, dry := false, bytes := bs, period := s.cad.period, planned := none } ∧
        LedgersBut q s t ∧ OnlyIn [.scl, .pwr] s t)) ∧
    (∀ (p : Path) (q : Fin 8) (ext bs : List Byte), s.writes p .sclLedgerCmd 0 0 (3 + q.val * 16) →
      s.ledgerRefused q 3 = false → (s.readLedger q (s.pget p.idx .sclLedgerAddr) ext).toOption = some bs →
      s.ledgerCheck q bs = none →
      Gives (.dryRun p q ext) s (fun t =>
        t.ledger q = { s.ledger q with st := .planning, dry := true, bytes := bs, period := s.cad.period, planned := none } ∧
        LedgersBut q s t ∧ OnlyIn [.scl, .pwr] s t)) ∧
    (∀ (p : Path) (q : Fin 8) (ext bs : List Byte) (code : Nat) (at_ : Option Nat),
      s.writes p .sclLedgerCmd 0 0 (1 + q.val * 16) → s.ledgerRefused q 1 = false →
      (s.readLedger q (s.pget p.idx .sclLedgerAddr) ext).toOption = some bs → s.ledgerCheck q bs = some (code,
      at_) →
      Gives (.submit p q ext) s (fun t =>
        (t.ledger q).st = .failed ∧ (t.ledger q).planned = none ∧ (t.ledger q).inForce = (s.ledger q).inForce ∧
        t.rnat .sclPlanLastErr = code % 2 ^ 64 ∧ t.rbit .sclLedgerEvent 1 = true ∧ OnlyIn [.regs, .scl, .pwr] s t)) ∧
    (∀ (p : Path) (q : Fin 8), s.writes p .sclLedgerCmd 0 0 (2 + q.val * 16) → s.ledgerRefused q 2 = false →
      Gives (.withdraw p q) s (fun t =>
        t.ledger q = { s.ledger q with st := .idle, withdraw := (s.ledger q).inForce.isSome } ∧
        LedgersBut q s t ∧ OnlyIn [.scl] s t)) ∧
    (∀ (q : Fin 8) (es : List PEntry), (s.ledger q).st = .planning →
      s.planPass q (s.ledger q).period (s.ledger q).bytes = .ok es →
      Gives (.planningPassEnd q) s (fun t =>
        (t.ledger q).st = (if (s.ledger q).dry then .dryDone else .planned) ∧ (t.ledger q).pass = passInfo es ∧
        (t.ledger q).planned.map (·.words) = (if (s.ledger q).dry then none else some (passInfo es).words) ∧
        (t.ledger q).inForce = (s.ledger q).inForce ∧ LedgersBut q s t ∧
        t.rbit .sclLedgerEvent 0 = true ∧ OnlyIn [.regs, .scl] s t)) ∧
    (∀ (p : Path) (st : Fin 64) (v : W64), s.writes p .sclStreamCfg st 0 v.toNat →
      RegName.sclStreamCfg.fieldOk st (v.toNat &&& RegName.sclStreamCfg.row.mask) = true →
      s.rwAccept p.idx .sclStreamCfg st 0 (v.toNat &&& RegName.sclStreamCfg.row.mask) = true →
      Gives (.streamCfgWrite p st v) s (fun t =>
        t.rnat .sclStreamCfg st = v.toNat &&& RegName.sclStreamCfg.row.mask ∧ RegsBut [RegName.sclStreamCfg.key st 0] s t ∧ OnlyIn [.regs] s t))

/-- MOVE_COMPLETE (R116, R117), TIER_RETRY (R134, R236), ALLOC_RETRY (R127) and EVICTION_ROUTE_DONE (R156, R157). -/
def Obligations.MovesRetriesAndRoutes : Prop :=
  ∀ (s : State), s.noLeftFailures →
    (∀ (d : Fin 4) (n : Fin 64) (ext : List Byte) (id : Nat) (h : Holding) (b : Nat), (s.chan d n).st = .run →
      (s.chan d n).work = .chain → (s.chan d n).xfer = .done → (s.chan d n).moving = some id →
      s.hold? id = some h → h.dest = some b →
      Gives (.moveComplete d n ext) s (fun t =>
        t.hold? id = some { h with
          base := b, size := h.destUnits, state := 1, dest := none, destSize := 0, touch := s.stepPhase } ∧
        HoldingsBut id s t ∧ t.chan d n = { s.chan d n with moving := none } ∧ ChansBut d n s t ∧
        OnlyIn [.tier, .dma] s t)) ∧
    (∀ (d : Fin 4) (n : Fin 64) (code a k : Nat), (s.chan d n).retry = some (code, a, k) →
      Gives (.tierRetry d n none) s (fun t =>
        t.chan d n = { s.chan d n with retry := none } ∧ ChansBut d n s t ∧
        t.rnat .sclTierRetries = (s.rnat .sclTierRetries + 1) % 2 ^ 32 ∧ RegsBut [RegName.sclTierRetries.key 0 0] s t ∧
        t.tier.holdings = s.tier.holdings ∧ OnlyIn [.regs, .tier, .dma] s t)) ∧
    (∀ (d : Fin 4) (n : Fin 64) (code a k : Nat) (f : Fail), (s.chan d n).retry = some (code, a, k) →
      retryable f.code = true → k + 1 < bits (s.rnat .sclTierRetry) 23 16 →
      Gives (.tierRetry d n (some f)) s (fun t =>
        t.chan d n = { s.chan d n with retry := some (f.code, a, k + 1) } ∧ ChansBut d n s t ∧
        t.rnat .sclTierRetries = (s.rnat .sclTierRetries + 1) % 2 ^ 32 ∧ RegsBut [RegName.sclTierRetries.key 0 0] s t ∧
        OnlyIn [.regs, .dma] s t)) ∧
    (∀ (w : AllocWait) (fn tag id : Nat), s.tier.waits = [w] → w.part < 8 → w.by_ = .host fn tag →
      (s.allocTry ⟨w.part, w.tier, w.addr, w.stack, w.size, w.hint, .host, 0, 0, 0⟩).1 = .got id →
      s.scl.runs = [] →
      Gives (.allocRetry) s (fun t =>
        t.tier.waits = [] ∧ (t.fnSt fn).ready = (s.fnSt fn).ready ++
          [{ tag := tag, kind := 1, v32 := id, v64 := ((t.hold? id).map (·.base)).getD 0 }] ∧
        (t.hold? id).map (·.owner) = some w.part ∧ HoldingsBut id s t ∧ OnlyIn [.hif, .tier] s t)) ∧
    (∀ (d : Fin 4) (x : Evict) (h : Holding) (b : Nat) (c : Cell), s.dma.routeQ = [(d.val, x.hold)] →
      s.tier.evict = [x] → s.hold? x.hold = some h → h.by_ = .host → h.state = 2 → h.dest = some b →
      x.route = 3 → s.fsmDead h.owner 1 x.st = false → s.fsmTake h.owner 1 x.st 4 = some c → c.action = 3 →
      s.fsmDead h.owner 1 c.next = true → s.tier.evictQueue = [] → s.tier.waits = [] → s.scl.runs = [] →
      s.scl.dying = [] → s.scl.park = [] →
      Gives (.evictionRouteDone d none []) s (fun t =>
        t.dma.routeQ = [] ∧ t.tier.evict = [] ∧ (t.hold? x.hold).map (·.base) = some b ∧
        (t.hold? x.hold).map (·.state) = some 1 ∧ HoldingsBut x.hold s t ∧
        t.rnat .sclEvictCount = (s.rnat .sclEvictCount + 1) % 2 ^ 32))

/-- OUTBOUND_LEG_COMPLETE, FETCH_BACK_START and FETCH_BACK_COMPLETE (R160 to R184). -/
def Obligations.LegsOfEntries : Prop :=
  ∀ (s : State) (q : Fin 8) (k : Nat) (e : LEntry) (r : Run), s.noLeftFailures → k < 131072 → s.entry? q k = some e → s.run? q k = some r → s.wanting e.stream = [] →
    (∀ (ext : Ext) (ecc : Ecc) (d n id : Nat) (h : Holding) (b : Nat), s.streamChan e.stream = (d, n) →
      (s.chan d n).work = .leg q k false → (s.chan d n).st = .run → (s.chan d n).xfer = .done → r.disp = 3 →
      r.raw = some id → r.back = .none → s.hold? id = some h → h.dest = some b →
      Gives (.outboundLegComplete q k ext ecc) s (fun t =>
        (t.run? q k).map (fun x => (x.out, x.inPlace, x.raw, x.rest)) = some (.done, false, none, some id) ∧
        (t.hold? id).map (fun x => (x.base, x.state)) = some (b, 1) ∧ (t.chan d n).st = .idle ∧ ChansBut d n s t ∧
        OnlyIn [.regs, .cad, .tier, .scl, .crn, .fab, .dma] s t)) ∧
    (∀ (d n id : Nat) (h : Holding), s.streamChan e.stream = (d, n) → s.streamValid e.stream = true →
      (s.chan d n).st = .idle → r.disp = 3 → r.back = .none → r.out = .done → r.failed = false →
      r.closed = false → r.pressure = false → r.gap = false → r.broken = 0 → r.rest = some id →
      s.hold? id = some h → h.state = 1 → h.objLen = 0 → e.firstAt r.step ≤ s.stepPhase + r.lead →
      Gives (.fetchBackStart q k) s (fun t =>
        t.run? q k = some { r with back := .running } ∧ t.hold? id = some { h with dest := some e.use, destSize := e.rawUnits } ∧
        HoldingsBut id s t ∧ (t.chan d n).st = .wait ∧ (t.chan d n).work = .leg q k true ∧ (t.chan d n).moving = some id ∧
        (t.chan d n).desc = moveDesc (s.devAddr h.base) (s.devAddr e.use) (h.size * granule) ∧ ChansBut d n s t ∧
        OnlyIn [.tier, .scl, .dma] s t)) ∧
    (∀ (ext : Ext) (ecc : Ecc) (d n id : Nat) (h : Holding) (b : Nat), s.streamChan e.stream = (d, n) →
      (s.chan d n).work = .leg q k true → (s.chan d n).st = .run → (s.chan d n).xfer = .done →
      (s.chan d n).moving = some id → r.out = .done → s.hold? id = some h → h.dest = some b →
      Gives (.fetchBackComplete q k ext ecc) s (fun t =>
        (t.run? q k).map (fun x => (x.back, x.inPlace, x.raw, x.rest)) = some (.done, true, some id, none) ∧
        (t.hold? id).map (fun x => (x.base, x.state)) = some (b, 1) ∧ (t.chan d n).st = .idle ∧ ChansBut d n s t ∧
        t.rnat .sclFetchCount = (s.rnat .sclFetchCount + 1) % 2 ^ 32 ∧
        OnlyIn [.regs, .cad, .tier, .scl, .crn, .fab, .dma] s t))

/-- REGROW_START and REGROW_COMPLETE (R172 to R176), PARK_MOVE_START and RESUME_COMPLETE (R185 to R187). -/
def Obligations.SegmentsAndParking : Prop :=
  ∀ (s : State) (q : Fin 8), s.noLeftFailures →
    (∀ (k : Nat) (e : LEntry) (r : Run) (id : Nat), k < 131072 → s.entry? q k = some e → s.run? q k = some r →
      r.disp = 5 → r.back = .none → r.failed = false → r.closed = false → r.raw = some id →
      e.firstAt r.step ≤ s.stepPhase + r.lead → e.hasInput = false → s.segmentBad q k e = false →
      (s.ctx e.owner (fieldAt (s.rd e.seg 64) 5 1)).st = .idle →
      Gives (.regrowStart q k) s (fun t =>
        t.run? q k = some { r with back := .running } ∧ t.ctx e.owner (fieldAt (s.rd e.seg 64) 5 1) = {
          s.ctx e.owner (fieldAt (s.rd e.seg 64) 5 1) with
          st := .run, pc := e.seg + 64, scaler := true, late := false, wait := .none, deadline := none, startAt := none,
          keySel := e.key, ctr := e.ctr, maskStep := r.step, seg := some (q, k, e.seg + 64 * e.segLen) } ∧
        CtxsBut e.owner (fieldAt (s.rd e.seg 64) 5 1) s t ∧ ArraysSame s t ∧ OnlyIn [.scl, .tiles] s t)) ∧
    (∀ (k : Nat) (e : LEntry) (r : Run) (x c : Nat), k < 131072 → s.entry? q k = some e → s.run? q k = some r →
      r.back = .running → s.regrowCtx q k e = some (x, c) → (s.ctx x c).st = .idle →
      Gives (.regrowComplete q k) s (fun t =>
        (t.run? q k).map (fun y => (y.back, y.inPlace, y.inReady)) = some (.done, true, true) ∧ (t.ctx x c).seg = none ∧
        CtxsBut x c s t ∧ ArraysSame s t ∧ t.rnat .sclRegrowCount = (s.rnat .sclRegrowCount + 1) % 2 ^ 32 ∧
        OnlyIn [.regs, .cad, .scl, .crn, .fab, .tiles] s t)) ∧
    (∀ (req : Nat) (x : Parked) (g : ParkPage) (rest : List ParkPage) (h : Holding) (d n b : Nat),
      s.parkOf q req = some x → x.resuming = false → s.inParkWindow q = true →
      s.streamFree (s.kvStream q) = true → s.streamChan (s.kvStream q) = (d, n) → x.pages = g :: rest →
      g.parked = false → g.moving = false → g.failedWindow = false → s.hold? g.hold = some h → h.state = 1 →
      s.rbit .sclKvCfg 0 q = false → s.evictDest q h.size (s.rbit .sclKvCfg 1 q) = some b →
      Gives (.parkMoveStart q req) s (fun t =>
        (t.parkOf q req).map (·.pages) = some ({ g with moving := true } :: rest) ∧
        t.hold? g.hold = some { h with dest := some b, destSize := h.size } ∧ HoldingsBut g.hold s t ∧
        (t.chan d n).st = .wait ∧ (t.chan d n).work = .park q req 0 false ∧ (t.chan d n).moving = some g.hold ∧
        (t.chan d n).desc = moveDesc (s.devAddr h.base) (s.devAddr b) (h.size * granule) ∧ ChansBut d n s t ∧
        OnlyIn [.tier, .scl, .dma] s t)) ∧
    (∀ (req : Nat) (x : Parked) (y : Req) (fn tag : Nat) (c : Cell), s.parkOf q req = some x →
      x.resuming = true → s.parkLost x = false → x.home = true → s.req? req = some y → y.resumeCmd = some (fn,
      tag) → s.fsmDead y.part 3 y.st = false → s.fsmTake y.part 3 y.st 11 = some c → c.action = 4 →
      Gives (.resumeComplete q req) s (fun t =>
        t.parkOf q req = none ∧ (t.fnSt fn).ready = (s.fnSt fn).ready ++ [{ tag := tag, kind := 1 }] ∧
        (t.req? req).map (fun z => (z.st, z.stage, z.resumeCmd)) = some (c.next, .generating, none) ∧
        OnlyIn [.hif, .tier, .scl, .srv] s t))

/-- COPY, FILL, COMPARE, MOVE and TRANSPOSE (Table 8.2, R223). -/
def Obligations.TransfersOfWholeRanges : Prop :=
  ∀ (s : State) (d : Fin 4) (n : Fin 64), s.noLeftFailures → s.canonical →
    (∀ (ext : Ext), s.transfers d n 1 → s.isHere (s.chan d n).desc.src = true →
      s.isHere (s.chan d n).desc.dst = true →
      Gives (.copy d n ext .clean) s (fun t =>
        t.rd (localOf (s.chan d n).desc.dst) (s.chan d n).desc.length = s.rd (localOf (s.chan d n).desc.src) (s.chan d n).desc.length ∧
        BytesBut (localOf (s.chan d n).desc.dst) (s.chan d n).desc.length s t ∧ (t.chan d n).xfer = .done ∧ (t.chan d n).done = (s.chan d n).desc.length ∧ ChansBut d n s t ∧ OnlyIn [.regs, .mem, .dma] s t)) ∧
    (∀ (ext : Ext), s.transfers d n 4 → s.isHere (s.chan d n).desc.src = true →
      s.isHere (s.chan d n).desc.dst = true →
      Gives (.move d n ext .clean) s (fun t =>
        t.rd (localOf (s.chan d n).desc.dst) (s.chan d n).desc.length = s.rd (localOf (s.chan d n).desc.src) (s.chan d n).desc.length ∧
        BytesBut (localOf (s.chan d n).desc.dst) (s.chan d n).desc.length s t ∧ (t.chan d n).xfer = .done ∧ t.tier = s.tier ∧ ChansBut d n s t ∧ OnlyIn [.regs, .mem, .dma] s t)) ∧
    (s.transfers d n 2 → s.isHere (s.chan d n).desc.dst = true →
      (s.chan d n).desc.length % (s.chan d n).desc.elem = 0 →
      Gives (.fill d n) s (fun t =>
        (∀ i < (s.chan d n).desc.length, Memory.read t.mem (localOf (s.chan d n).desc.dst + i) =
          (leBytes (s.chan d n).desc.elem (s.chan d n).desc.src).getD (i % (s.chan d n).desc.elem) 0) ∧
        BytesBut (localOf (s.chan d n).desc.dst) (s.chan d n).desc.length s t ∧ (t.chan d n).xfer = .done ∧ ChansBut d n s t ∧ OnlyIn [.regs, .mem, .dma] s t)) ∧
    (∀ (ext : Ext), s.transfers d n 3 → (s.chan d n).desc.stopOnMismatch = false →
      s.isHere (s.chan d n).desc.src = true → s.isHere (s.chan d n).desc.dst = true →
      Gives (.compare d n ext .clean) s (fun t =>
        (t.chan d n).cmp =
          (firstDiff (s.rd (localOf (s.chan d n).desc.src) (s.chan d n).desc.length) (s.rd (localOf (s.chan d n).desc.dst) (s.chan d n).desc.length) 0).getD 0xFFFFFFFFFFFFFFFF ∧
        (t.chan d n).xfer = .done ∧ ChansBut d n s t ∧ OnlyIn [.regs, .dma] s t)) ∧
    (∀ (ext : Ext), s.transfers d n 7 → s.isHere (s.chan d n).desc.src = true →
      s.isHere (s.chan d n).desc.dst = true →
      (s.chan d n).desc.p0 * (s.chan d n).desc.elem ≤ (s.chan d n).desc.p3 →
      localOf (s.chan d n).desc.dst + (s.chan d n).desc.p1 * (s.chan d n).desc.p3 ≤ foothillBase 0 →
      Gives (.transpose d n ext .clean) s (fun t =>
        (∀ c < (s.chan d n).desc.p1, t.rd (localOf (s.chan d n).desc.dst + c * (s.chan d n).desc.p3) ((s.chan d n).desc.p0 * (s.chan d n).desc.elem) =
          (List.range (s.chan d n).desc.p0).flatMap (fun r => s.rd (localOf (s.chan d n).desc.src + (r * (s.chan d n).desc.p2 + c * (s.chan d n).desc.elem)) (s.chan d n).desc.elem)) ∧
        BytesBut (localOf (s.chan d n).desc.dst) ((s.chan d n).desc.p1 * (s.chan d n).desc.p3) s t ∧ (t.chan d n).xfer = .done ∧ ChansBut d n s t ∧ OnlyIn [.regs, .mem, .dma] s t))

/-- PACK, UNPACK, GATHER and SCATTER (Table 8.2, R194 to R211, R223). -/
def Obligations.TransfersByIndexAndCode : Prop :=
  ∀ (s : State) (d : Fin 4) (n : Fin 64) (ext : Ext), s.noLeftFailures → s.canonical → s.transferOk d n = true →
    (s.transfers d n 5 →
      Gives (.pack d n ext .clean) s (fun t =>
        t.mem = (s.withWrites (s.transferOut d n).writes).mem ∧
        (t.chan d n).done = (s.transferOut d n).done ∧ (t.chan d n).xfer = .done ∧ ChansBut d n s t ∧ OnlyIn [.regs, .mem, .dma] s t)) ∧
    (s.transfers d n 6 →
      Gives (.unpack d n ext .clean) s (fun t =>
        t.mem = (s.withWrites (s.transferOut d n).writes).mem ∧
        (t.chan d n).done = (s.transferOut d n).done ∧ (t.chan d n).xfer = .done ∧ ChansBut d n s t ∧ OnlyIn [.regs, .mem, .dma] s t)) ∧
    (s.transfers d n 8 →
      Gives (.gather d n ext .clean) s (fun t =>
        t.mem = (s.withWrites (s.transferOut d n).writes).mem ∧
        (t.chan d n).done = (s.transferOut d n).done ∧ (t.chan d n).xfer = .done ∧ ChansBut d n s t ∧ OnlyIn [.regs, .mem, .dma] s t)) ∧
    (s.transfers d n 9 →
      Gives (.scatter d n ext .clean) s (fun t =>
        t.mem = (s.withWrites (s.transferOut d n).writes).mem ∧
        (t.chan d n).done = (s.transferOut d n).done ∧ (t.chan d n).xfer = .done ∧ ChansBut d n s t ∧ OnlyIn [.regs, .mem, .dma] s t))

/-- DMA_CH_GO, DMA_CH_ABORT, DMA_CH_CLEAR, SLOT_GRANT, DESCRIPTOR_FETCH and DESCRIPTOR_START (R203, R216 to R231). -/
def Obligations.ChannelCommands : Prop :=
  ∀ (s : State) (d : Fin 4) (n : Fin 64), s.noLeftFailures →
    (∀ (p : Path), s.writes p .dmaChCtrl d n 1 →
      s.startRefusal (s.pathPart p) d n (s.rnat .dmaChHead d n) = none →
      Gives (.dmaChGo p d n) s (fun t =>
        t.chan d n = { s.chan d n with
          st := .fetch, work := .chain, hops := 0, limit := bits (s.rnat .dmaHopLimit d) 15 0,
          fetchAddr := s.rnat .dmaChHead d n } ∧
        ChansBut d n s t ∧ RegsBut [RegName.dmaChHead.key d n] s t ∧ t.rget .dmaChHead d n = s.rget .dmaChHead d n ∧
        OnlyIn [.regs, .pwr, .dma] s t)) ∧
    (∀ (p : Path) (q : Nat), s.writes p .dmaChCtrl d n 2 → n.val ≠ 63 → s.scalerOwned d n = false →
      ((s.chan d n).st = .fetch ∨ (s.chan d n).st = .wait) → (s.chan d n).moving = none →
      (s.chan d n).work = .chain → s.chanPart d n = some q → s.notServing q →
      Gives (.dmaChAbort p d n) s (fun t =>
        (t.chan d n).st = .stopped ∧ (t.chan d n).err = 0x0104 ∧ (t.chan d n).slot = none ∧ (t.chan d n).bays = 0 ∧
        (t.chan d n).xpcSlots = 0 ∧
        (t.chan d n).errAddr = (if (s.chan d n).st = .fetch then (s.chan d n).fetchAddr else (s.chan d n).cur) ∧
        ChansBut d n s t ∧ OnlyIn [.regs, .cad, .crn, .fab, .dma] s t)) ∧
    (∀ (p : Path), s.writes p .dmaChCtrl d n 4 → (s.chan d n).st = .stopped → s.scalerOwned d n = false →
      n.val ≠ 63 →
      Gives (.dmaChClear p d n) s (fun t =>
        t.chan d n = { s.chan d n with st := .idle } ∧ ChansBut d n s t ∧ OnlyIn [.dma] s t)) ∧
    (∀ (p : Nat), (s.chan d n).xpcWait = true → (∀ m : Fin 64, m < n → (s.chan d m).xpcWait = false) →
      s.chanPart d n = some p →
      Gives (.slotGrant d) s (fun t =>
        (t.chan d n).xpcSlots = (s.chan d n).xpcSlots +
          min (s.wantSlots p (s.chan d n).desc - (s.chan d n).xpcSlots) (32 - s.busyXpc d) ∧
        (t.chan d n).st = (s.chan d n).st ∧ OnlyIn [.dma] s t)) ∧
    (∀ (p a : Nat) (r : Region), (s.chan d n).st = .fetch → (s.chan d n).pieces = [] →
      (s.target (s.chan d n).fetchAddr).toOption = some (.here a) → s.chanPart d n = some p →
      (s.rangeCheck p a 64 1).toOption = some r → (∀ w : Fin 64, r ≠ .valley w) →
      (parseDesc (s.rd a 64)).check = none → (parseDesc (s.rd a 64)).waits = false →
      Gives (.descriptorFetch d n [] .clean) s (fun t =>
        (t.chan d n).st = .wait ∧ (t.chan d n).desc = parseDesc (s.rd a 64) ∧ (t.chan d n).cur = (s.chan d n).fetchAddr ∧
        (t.chan d n).hops = (s.chan d n).hops + 1 ∧ (t.chan d n).waitDone = true ∧
        (t.chan d n).startReached =
          (!(parseDesc (s.rd a 64)).phased || decide ((s.cad.step + b2n (parseDesc (s.rd a 64)).nextStep) * 65536
            + (parseDesc (s.rd a 64)).s ≤ s.stepPhase)) ∧
        ChansBut d n s t ∧ OnlyIn [.dma] s t)) ∧
    (∀ (p k : Nat), (s.chan d n).wantsGrant = true → n.val ≠ 63 → (∀ m : Fin 63, m.val ≠ n.val →
      (s.chan d m).st ≠ .wait) → (∀ m : Fin 64, s.waitFired (.dmaCh d m) = false) → s.img.due = false →
      s.chanPart d n = some p → s.freeSlot d = some k → s.baysOf p (s.chan d n).desc ≤ 128 - s.usedBays d →
      (s.chan d n).desc.op ≠ 4 → s.startCheck p (s.chan d n).desc = none →
      Gives (.descriptorStart d) s (fun t =>
        (t.chan d n).st = .run ∧ (t.chan d n).slot = some k ∧ (t.chan d n).bays = s.baysOf p (s.chan d n).desc ∧
        (t.chan d n).desc = (s.chan d n).desc ∧ ChansBut d n s t ∧
        OnlyIn [.regs, .cad, .hif, .tier, .crn, .fab, .dma] s t))

/-- DESCRIPTOR_COMPLETE, DMA_READ_TIMEOUT and TRANSFER_FAILURE (R133, R134, R226 to R232). -/
def Obligations.TransferEnds : Prop :=
  ∀ (s : State) (d : Fin 4) (n : Fin 64) (q : Nat), s.noLeftFailures → s.chanPart d n = some q → s.notServing q → (s.chan d n).work = .chain →
    ((s.chan d n).st = .run → (s.chan d n).xfer = .done → (s.chan d n).moving = none →
      (s.chan d n).desc.signals = false → (s.chan d n).desc.chain = false →
      Gives (.descriptorComplete d n) s (fun t =>
        (t.chan d n).st = .idle ∧ (t.chan d n).slot = none ∧ (t.chan d n).bays = 0 ∧ (t.chan d n).xpcSlots = 0 ∧
        (t.chan d n).desc = (s.chan d n).desc ∧ t.rnat .dmaDescCount d = (s.rnat .dmaDescCount d + 1) % 2 ^ 32 ∧
        ChansBut d n s t ∧ OnlyIn [.regs, .cad, .crn, .fab, .dma] s t)) ∧
    (∀ (a units : Nat), (s.chan d n).st = .fetch →
      Gives (.dmaReadTimeout d n a units {}) s (fun t =>
        (t.chan d n).st = .stopped ∧ (t.chan d n).err = 0x0101 ∧ (t.chan d n).fault = a ∧
        (t.chan d n).errAddr = (s.chan d n).fetchAddr ∧ t.rnat .dmaTimeouts d = (s.rnat .dmaTimeouts d + 1) % 2 ^ 32 ∧
        ChansBut d n s t ∧ OnlyIn [.regs, .cad, .crn, .fab, .dma] s t)) ∧
    (∀ (a : Nat), (s.chan d n).st = .run → (s.chan d n).desc.op = 3 → (s.chan d n).retry = none →
      (s.chan d n).moving = none → a < 2 ^ 64 →
      Gives (.transferFailure d n .uncorrectable a 0 {}) s (fun t =>
        (t.chan d n).st = .stopped ∧ (t.chan d n).err = 0x0303 ∧ (t.chan d n).fault = a ∧ t.rnat .sclLastEccAddr = a ∧
        t.rnat .sclEccUncorr = (s.rnat .sclEccUncorr + 1) % 2 ^ 32 ∧ ChansBut d n s t ∧
        OnlyIn [.regs, .cad, .crn, .fab, .dma, .tier] s t)) ∧
    (∀ (a : Nat), (s.chan d n).st = .run → (s.chan d n).desc.op = 3 → (s.chan d n).retry = none →
      s.lowerTier a = true → s.chanStall d n = true →
      Gives (.transferFailure d n .linkDown a 0 {}) s (fun t =>
        t.chan d n = { s.chan d n with retry := some (0x0306, a, 0), fault := a } ∧ ChansBut d n s t ∧ OnlyIn [.dma] s t))

/-- ADD, SUB, MUL, FMA, MIN, MAX, RCP, RSQRT, SQRT, EXP2, LOG2, CVT and SEL (Table 9.5), in every rounding mode. -/
def Obligations.VectorArithmetic : Prop :=
  ∀ (s : State) (x : Fin 24) (c : Fin 4) (p w : Nat), s.noLeftFailures → s.atWord x c p w →
    (isVop 0x01 w = true →
      Gives (.add x c) s (fun t =>
        LaneResult x c w (if bits w 91 90 = 1 then 1 else 0) (s.roundLanes x c w (fun r a b _ => f32AddR r a b)) s t)) ∧
    (isVop 0x02 w = true →
      Gives (.sub x c) s (fun t =>
        LaneResult x c w (if bits w 91 90 = 1 then 1 else 0) (s.roundLanes x c w (fun r a b _ => f32SubR r a b)) s t)) ∧
    (isVop 0x03 w = true →
      Gives (.mul x c) s (fun t =>
        LaneResult x c w (if bits w 91 90 = 1 then 1 else 0) (s.roundLanes x c w (fun r a b _ => f32MulR r a b)) s t)) ∧
    (isVop 0x04 w = true →
      Gives (.fma x c) s (fun t =>
        LaneResult x c w (if bits w 91 90 = 1 then 1 else 0) (s.roundLanes x c w f32FmaR) s t)) ∧
    (isVop 0x05 w = true →
      Gives (.min x c) s (fun t =>
        LaneResult x c w 0 ((s.vops x c w).map (fun q => (fun a b _ => f32MinMax true a b) q.1 q.2.1 q.2.2)) s t)) ∧
    (isVop 0x06 w = true →
      Gives (.max x c) s (fun t =>
        LaneResult x c w 0 ((s.vops x c w).map (fun q => (fun a b _ => f32MinMax false a b) q.1 q.2.1 q.2.2)) s t)) ∧
    (isVop 0x07 w = true →
      Gives (.rcp x c) s (fun t =>
        LaneResult x c w (if bits w 91 90 = 1 then 1 else 0) (s.roundLanes x c w (fun r a _ _ => f32RcpR r a)) s t)) ∧
    (isVop 0x08 w = true →
      Gives (.rsqrt x c) s (fun t =>
        LaneResult x c w (if bits w 91 90 = 1 then 1 else 0) (s.roundLanes x c w (fun r a _ _ => f32RsqrtR r a)) s t)) ∧
    (isVop 0x09 w = true →
      Gives (.sqrt x c) s (fun t =>
        LaneResult x c w (if bits w 91 90 = 1 then 1 else 0) (s.roundLanes x c w (fun r a _ _ => f32SqrtR r a)) s t)) ∧
    (isVop 0x0a w = true →
      Gives (.exp2 x c) s (fun t =>
        LaneResult x c w (if bits w 91 90 = 1 then 1 else 0) (s.roundLanes x c w (fun r a _ _ => f32Exp2R r a)) s t)) ∧
    (isVop 0x0b w = true →
      Gives (.log2 x c) s (fun t =>
        LaneResult x c w (if bits w 91 90 = 1 then 1 else 0) (s.roundLanes x c w (fun r a _ _ => f32Log2R r a)) s t)) ∧
    (isVop 0x0c w = true →
      Gives (.cvt x c) s (fun t =>
        LaneResult x c w (if bits w 91 90 = 1 then 1 else 0) (s.roundLanes x c w (fun r a _ _ => cvtLane (bits w 89 86) r a)) s t)) ∧
    (isVop 0x10 w = true →
      Gives (.sel x c) s (fun t =>
        LaneResult x c w 0 ((s.vops x c w).map (fun q => selLane q.1 q.2.1 q.2.2)) s t))

/-- RAND, DROP, RSUM, KEYSET and SRSET (R258 to R262, R325). -/
def Obligations.VectorStreams : Prop :=
  ∀ (s : State) (x : Fin 24) (c : Fin 4) (p w : Nat), s.noLeftFailures → s.atWord x c p w →
    (isVop 0x0D w = true →
      Gives (.rand x c) s (fun t =>
        LaneResult x c w 1 ((s.draw x c).1.map (fun v => { v := v })) s t)) ∧
    (isVop 0x0E w = true →
      Gives (.drop x c) s (fun t =>
        LaneResult x c w (if bits w 91 90 = 1 then 1 else 0) (s.roundLanes x c w (fun r a b k =>
        if bits w 63 32 ≤ mix (s.maskKey (s.ctx x c).keySel (s.ctx x c).maskStep) ((s.ctx x c).ctr + b) then f32MulR r a k
        else { v := 0 })) s t)) ∧
    (isVop 0x0F w = true →
      Gives (.rsum x c) s (fun t =>
        t.ctx x c = { s.ctx x c with
          pc := (s.ctx x c).pc + 16, draws := (s.ctx x c).draws + (if bits w 91 90 = 1 then 9 else 0),
          vregs := NMap.put (s.ctx x c).vregs (bits w 111 107)
            (List.replicate 512 (s.rsum x c (bits w 91 90) 9 (s.vreg x c (bits w 106 102))).1) } ∧
        CtxsBut x c s t ∧ ArraysSame s t ∧ RegsBut [RegName.tilCtxFlags.key x c] s t ∧ OnlyIn [.regs, .tiles] s t)) ∧
    (isOp 0x13 w = true →
      Gives (.keyset x c) s (fun t =>
        t.ctx x c = { s.ctx x c with
          pc := (s.ctx x c).pc + 16, keySel := bits w 115 112, ctr := bits w 31 0, maskStep := s.cad.step } ∧
        CtxsBut x c s t ∧ ArraysSame s t ∧ OnlyIn [.tiles] s t)) ∧
    (isOp 0x14 w = true →
      Gives (.srset x c) s (fun t =>
        t.ctx x c = { s.ctx x c with
          pc := (s.ctx x c).pc + 16, seed := some (s.rnat .tilSrSeed, bits w 31 0), draws := 0 } ∧
        CtxsBut x c s t ∧ ArraysSame s t ∧ OnlyIn [.tiles] s t))

/-- WLOAD, MMPASS, ACCOUT, ACCDUMP and ACCIN (R243 to R257). The form of an EMPTY row in ACCDUMP and ACCIN is a free value (log entry 20). -/
def Obligations.ArrayWords : Prop :=
  ∀ (s : State) (x : Fin 24) (c : Fin 4) (p w : Nat), s.noLeftFailures → s.atWord x c p w → s.ownsArray x c = true →
    (isOp 0x01 w = true → bit (bits w 119 112) 3 = false →
      s.rowsAccess x c p 1 ((List.range 128).map (fun m => ((wAddr w + m * wPitch w),
      512 * fmtSize (bits w 119 116)))) = none →
      Gives (.wload x c .clean) s (fun t =>
        (t.bank x (bits w 114 114)).fmt = bits w 119 116 ∧
        (∀ m < 128, ((t.bank x (bits w 114 114)).w.drop (512 * m)).take 512 =
            elemsOf (fmtSize (bits w 119 116)) 512 (s.ctxRead x c (wAddr w + m * wPitch w) (512 * fmtSize (bits w 119 116)))) ∧
        (t.tile x).acc = (s.tile x).acc ∧ PassedWord x c s t ∧ OnlyIn [.tiles] s t)) ∧
    (isOp 0x01 w = true → bit (bits w 119 112) 3 = true →
      s.rowsAccess x c p 1 ((List.range 512).map (fun m => ((wAddr w + m * wPitch w),
      128 * fmtSize (bits w 119 116)))) = none →
      Gives (.wload x c .clean) s (fun t =>
        (t.bank x (bits w 114 114)).fmt = bits w 119 116 ∧
        ((t.bank x (bits w 114 114)).w = (List.range 128).flatMap (fun k => (List.range 512).map (fun m =>
            (elemsOf (fmtSize (bits w 119 116)) 128 (s.ctxRead x c (wAddr w + m * wPitch w) (128 * fmtSize (bits w 119 116)))).getD k 0))) ∧
        (t.tile x).acc = (s.tile x).acc ∧ PassedWord x c s t ∧ OnlyIn [.tiles] s t)) ∧
    (∀ (bank : Bank), isOp 0x02 w = true → s.bank x (bits w 115 115) = bank →
      pairOk (bits w 119 116) bank.fmt = true →
      s.rowsAccess x c p 1 ((List.range (wRows w)).map (fun m => ((wAddr w + m * wPitch w),
      128 * fmtSize (bits w 119 116)))) = none → (bit (bits w 119 112) 2 = true ∨ ∀ m < wRows w,
      classOk (isExactFmt (bits w 119 116)) (s.accRow x (wRow0 w + m)) = true) →
      Gives (.mmpass x c .clean) s (fun t =>
        (∀ m < wRows w, t.accRow x (wRow0 w + m) = some (passRow (bits w 119 116) bank.fmt
          (elemsOf (fmtSize (bits w 119 116)) 128 (s.ctxRead x c (wAddr w + m * wPitch w) (128 * fmtSize (bits w 119 116)))) bank.w
          (if bit (bits w 119 112) 2 then none else s.accRow x (wRow0 w + m)))) ∧
        AccRowsBut x (wRow0 w) (wRows w) s t ∧ (t.tile x).banks = (s.tile x).banks ∧
        PassedWord x c s t ∧ RegsBut [RegName.tilPasses.key x 0] s t ∧ OnlyIn [.regs, .tiles] s t)) ∧
    (isOp 0x03 w = true → (∀ m < wRows w, (s.accRow x (wRow0 w + m)).isSome = true) → ((bits w 119 116 ≠ 6 ∧
      bits w 119 116 ≠ 8) ∨ (bits w 115 114 ≠ 1 ∧ ∀ m < wRows w,
      classOk true (s.accRow x (wRow0 w + m)) = true)) →
      s.rowsAccess x c p 2 ((List.range (wRows w)).map (fun m => ((wAddr w + m * wPitch w),
      512 * fmtSize (bits w 119 116)))) = none →
      Gives (.accout x c) s (fun t =>
        (∀ m < wRows w, (bits w 115 114 = 1 ∧ m ≠ 0) ∨ (t.ctx x c).posted[(s.ctx x c).posted.length + m]? = some ((wAddr w + m * wPitch w),
          ((rowValues (s.accRow x (wRow0 w + m)) (signed 8 (bits w 7 0))).zip (s.drawFor x c (bits w 115 114)).1).flatMap (fun q =>
            leBytes (fmtSize (bits w 119 116)) (outRound (bits w 119 116)
              { mode := bits w 115 114, draw := q.2, sat := bit (bits w 119 112) 1 } true q.1.1).v))) ∧
        (t.ctx x c).posted.length = (s.ctx x c).posted.length + wRows w ∧ (t.ctx x c).pc = (s.ctx x c).pc + 16 ∧
        (bit (bits w 119 112) 0 = false → (t.tile x).acc = (s.tile x).acc) ∧
        (∀ m < wRows w, bit (bits w 119 112) 0 = false ∨ t.accRow x (wRow0 w + m) = none) ∧ AccRowsBut x (wRow0 w) (wRows w) s t ∧
        (t.tile x).banks = (s.tile x).banks ∧ CtxsBut x c s t ∧
        RegsBut [RegName.tilCtxFlags.key x c] s t ∧ OnlyIn [.regs, .tiles] s t)) ∧
    (isOp 0x04 w = true →
      s.rowsAccess x c p 2 (((List.range (wRows w)).map (fun m => (wAddr w + m * wPitch w))).zip ((s.rowForms x ((List.range (wRows w)).map (fun m => wRow0 w + m))).1.map formBytes)) = none →
      Gives (.accdump x c) s (fun t =>
        (∀ m < wRows w, s.accRow x (wRow0 w + m) = none ∨
          (t.ctx x c).posted[(s.ctx x c).posted.length + m]? = (s.accRow x (wRow0 w + m)).map (fun r => ((wAddr w + m * wPitch w), accBytes r))) ∧
        (t.ctx x c).posted.length = (s.ctx x c).posted.length + wRows w ∧
        (t.ctx x c).pc = (s.ctx x c).pc + 16 ∧ CtxsBut x c s t ∧ ArraysSame s t ∧ OnlyIn [.free, .tiles] s t)) ∧
    (isOp 0x05 w = true →
      s.rowsAccess x c p 1 (((List.range (wRows w)).map (fun m => (wAddr w + m * wPitch w))).zip ((s.rowForms x ((List.range (wRows w)).map (fun m => wRow0 w + m))).1.map formBytes)) = none →
      (∀ m < wRows w, (s.accRow x (wRow0 w + m)).isSome = true) →
      Gives (.accin x c .clean) s (fun t =>
        (∀ m < wRows w, t.accRow x (wRow0 w + m) = some (accinRow (classOk true (s.accRow x (wRow0 w + m))) (bit w 112)
          (s.accRow x (wRow0 w + m)) (s.ctxRead x c (wAddr w + m * wPitch w) (formBytes (classOk true (s.accRow x (wRow0 w + m))))))) ∧
        AccRowsBut x (wRow0 w) (wRows w) s t ∧ (t.tile x).banks = (s.tile x).banks ∧
        PassedWord x c s t ∧ OnlyIn [.tiles] s t))

/-- VLD and VST (R258 to R261, R268). -/
def Obligations.VectorLoadsAndStores : Prop :=
  ∀ (s : State) (x : Fin 24) (c : Fin 4) (p w : Nat), s.noLeftFailures → s.atWord x c p w →
    (isOp 0x11 w = true → s.rowsAccess x c p 1 [(wAddr w, 512 * fmtSize (bits w 119 116))] = none →
      Gives (.vld x c .clean) s (fun t =>
        t.ctx x c = { s.ctx x c with
          pc := (s.ctx x c).pc + 16, vregs := NMap.put (s.ctx x c).vregs (bits w 55 51)
            ((elemsOf (fmtSize (bits w 119 116)) 512 (s.ctxRead x c (wAddr w) (512 * fmtSize (bits w 119 116)))).map
              (vldLane (bits w 119 116))) } ∧
        CtxsBut x c s t ∧ ArraysSame s t ∧ OnlyIn [.tiles] s t)) ∧
    (isOp 0x12 w = true → s.rowsAccess x c p 2 [(wAddr w, 512 * fmtSize (bits w 119 116))] = none →
      Gives (.vst x c) s (fun t =>
        t.ctx x c = { s.ctx x c with
          pc := (s.ctx x c).pc + 16, draws := (s.ctx x c).draws + (if bits w 115 114 = 1 then 1 else 0),
          posted := (s.ctx x c).posted ++ [(wAddr w,
            ((s.vreg x c (bits w 55 51)).zip (s.drawFor x c (bits w 115 114)).1).flatMap (fun q =>
              leBytes (fmtSize (bits w 119 116)) (if bits w 119 116 = 5 then q.1 else
                (outRound (bits w 119 116) { mode := bits w 115 114, draw := q.2, sat := bit w 113 } false (f32v q.1)).v)))] } ∧
        CtxsBut x c s t ∧ ArraysSame s t ∧ RegsBut [RegName.tilCtxFlags.key x c] s t ∧ OnlyIn [.regs, .tiles] s t))

/-- DMAGO, FENCE, END, OWN, CSIG and CWAIT (Table 9.4, R216, R275 to R281). -/
def Obligations.ControlWords : Prop :=
  ∀ (s : State) (x : Fin 24) (c : Fin 4) (p w : Nat), s.noLeftFailures → s.atWord x c p w →
    (isOp 0x20 w = true → s.startRefusal (some p) (bits w 119 118) (bits w 117 112) (wAddr w) = none →
      Gives (.dmago x c) s (fun t =>
        t.chan (bits w 119 118) (bits w 117 112) = { s.chan (bits w 119 118) (bits w 117 112) with
          st := .fetch, work := .chain, hops := 0, limit := bits (s.rnat .dmaHopLimit (bits w 119 118)) 15 0,
          fetchAddr := s.ownId * 2 ^ 56 + wAddr w } ∧
        ChansBut (bits w 119 118) (bits w 117 112) s t ∧ PassedWord x c s t ∧ ArraysSame s t ∧ RegsBut [RegName.dmaChHead.key (bits w 119 118) (bits w 117 112)] s t ∧
        OnlyIn [.regs, .pwr, .dma, .tiles] s t)) ∧
    (∀ (code : Nat), isOp 0x20 w = true →
      s.startRefusal (some p) (bits w 119 118) (bits w 117 112) (wAddr w) = some code →
      Gives (.dmago x c) s (fun t =>
        t.rnat .dmaLastErr (bits w 119 118) = bits w 117 112 * 65536 + code ∧ PassedWord x c s t ∧ ArraysSame s t ∧
        RegsBut [RegName.dmaLastErr.key (bits w 119 118) 0] s t ∧ OnlyIn [.regs, .tiles] s t)) ∧
    (isOp 0x32 w = true →
      Gives (.fence x c) s (fun t =>
        t.mem = (s.ctx x c).overlay s.mem ∧
        t.ctx x c = { s.ctx x c with pc := (s.ctx x c).pc + 16, posted := [] } ∧
        CtxsBut x c s t ∧ ArraysSame s t ∧ OnlyIn [.mem, .tiles] s t)) ∧
    (isOp 0xFF w = true →
      Gives (.endOp x c) s (fun t =>
        t.mem = (s.ctx x c).overlay s.mem ∧
        t.ctx x c = { s.ctx x c with
          pc := (s.ctx x c).pc + 16, posted := [], st := .idle, scaler := false, late := false, deadline := none,
          startAt := none } ∧
        CtxsBut x c s t ∧ ArraysSame s t ∧ OnlyIn [.regs, .mem, .cad, .tiles] s t ∧
        (Item.tileCtx x c ∉ s.cad.holdItems → t.cad = s.cad ∧ t.regs = s.regs))) ∧
    (isOp 0x34 w = true → s.ownsArray x c = true →
      Gives (.own x c) s (fun t =>
        t.rnat .tilArrayOwner x = 4 + bits w 113 112 ∧ PassedWord x c s t ∧ ArraysSame s t ∧
        RegsBut [RegName.tilArrayOwner.key x 0] s t ∧ OnlyIn [.regs, .tiles] s t)) ∧
    (∀ (i : Nat), isOp 0x30 w = true → bit w 117 = true → (s.localRef p (bits w 111 96)).toOption = some i →
      Gives (.csig x c) s (fun t =>
        t.cairn i = bits w 63 32 ∧ CairnsBut i s t ∧
        t.mem = (if bits w 119 118 = 0 then s.mem else (s.ctx x c).overlay s.mem) ∧
        t.ctx x c = { s.ctx x c with
          pc := (s.ctx x c).pc + 16, posted := if bits w 119 118 = 0 then (s.ctx x c).posted else [] } ∧
        CtxsBut x c s t ∧ ArraysSame s t ∧ OnlyIn [.mem, .crn, .tiles] s t)) ∧
    (∀ (i : Nat), isOp 0x30 w = true → bit w 117 = false → bit w 111 = false →
      (s.localRef p (bits w 111 96)).toOption = some i →
      Gives (.csig x c) s (fun t =>
        t.cairn i = (s.cairn i + bits w 63 32) % 2 ^ 32 ∧ CairnsBut i s t ∧
        t.mem = (if bits w 119 118 = 0 then s.mem else (s.ctx x c).overlay s.mem) ∧ (t.ctx x c).pc = (s.ctx x c).pc + 16 ∧
        CtxsBut x c s t ∧ ArraysSame s t ∧ OnlyIn [.mem, .crn, .tiles] s t)) ∧
    (∀ (i : Nat), isOp 0x31 w = true → (s.waitRef p (bits w 111 96)).toOption = some i →
      Gives (.cwait x c) s (fun t =>
        t.crn.waits = s.crn.waits ++ [Wait.mk (.tileCtx x c) i (bits w 63 32) p (holds (s.cairn i) (bits w 63 32))] ∧
        t.ctx x c = { s.ctx x c with st := .wait, wait := .cairn } ∧
        t.rnat .tilArrayOwner x =
          (if bit w 119 && s.ownsArray x c then 4 + bits w 118 117 else s.rnat .tilArrayOwner x) ∧
        CairnsBut 1472 s t ∧ CtxsBut x c s t ∧ ArraysSame s t ∧ RegsBut [RegName.tilArrayOwner.key x 0] s t ∧
        OnlyIn [.regs, .crn, .tiles] s t))

/-- TIL_CTX_GO, TIL_CTX_STOP and TIL_CTX_CLEAR (R264 to R266). -/
def Obligations.ContextCommands : Prop :=
  ∀ (s : State) (x : Fin 24) (c : Fin 4) (p : Path), s.noLeftFailures →
    (s.writes p .tilCtxCtrl x c 1 → s.ctxGoRefusal (s.pathPart p) x c = none →
      Gives (.tilCtxGo p x c) s (fun t =>
        t.ctx x c = { s.ctx x c with
          st := .run, pc := s.rnat .tilCtxPc x c, scaler := false, late := false, wait := .none, deadline := none,
          startAt := none, seg := none } ∧
        CtxsBut x c s t ∧ ArraysSame s t ∧ RegsBut [] s t ∧
        t.pwr.st = (if s.pwr.st = .idle then .run else s.pwr.st) ∧ OnlyIn [.regs, .pwr, .tiles] s t)) ∧
    (∀ (q : Nat), s.writes p .tilCtxCtrl x c 2 → ((s.ctx x c).st = .run ∨ (s.ctx x c).st = .wait) →
      s.ownerTile x = some q → s.pathPart p = some q → s.notServing q → (s.ledger q).inForce = none →
      s.rbit .tilCtxErrCairn 16 x c = false →
      Gives (.tilCtxStop p x c) s (fun t =>
        t.ctx x c = { s.ctx x c with
          st := .fault, err := 0x0A24, errPc := (s.ctx x c).pc, wait := .none, late := false, deadline := none,
          startAt := none, posted := [] } ∧
        t.mem = (s.ctx x c).overlay s.mem ∧ t.rnat .tilFaults x = (s.rnat .tilFaults x + 1) % 2 ^ 32 ∧
        CairnsBut 1472 s t ∧ t.crn.waits = s.crn.waits.filter (fun y => decide (y.who ≠ .tileCtx x c)) ∧
        CtxsBut x c s t ∧ ArraysSame s t ∧ OnlyIn [.regs, .mem, .cad, .crn, .tiles] s t)) ∧
    (s.writes p .tilCtxCtrl x c 4 → (s.ctx x c).st = .fault → (s.pathPart p).isSome = true →
      s.ownerTile x = s.pathPart p →
      Gives (.tilCtxClear p x c) s (fun t =>
        t.ctx x c = { s.ctx x c with st := .idle, scaler := false, seg := none } ∧
        CtxsBut x c s t ∧ ArraysSame s t ∧ OnlyIn [.tiles] s t))

/-- CAIRN_WAIT_COMPLETE and WAIT_TIMEOUT (R281 to R287, R293). -/
def Obligations.WaitsEnd : Prop :=
  ∀ (s : State), s.noLeftFailures →
    (∀ (x : Fin 24) (c : Fin 4), (s.ctx x c).st = .wait → (s.ctx x c).wait = .cairn →
      s.waitFired (.tileCtx x c) = true →
      Gives (.cairnWaitComplete (.tileCtx x c)) s (fun t =>
        t.ctx x c = { s.ctx x c with st := .run, wait := .none, pc := (s.ctx x c).pc + 16 } ∧
        t.crn.waits = s.crn.waits.filter (fun y => decide (y.who ≠ .tileCtx x c)) ∧ CairnsBut 1472 s t ∧
        CtxsBut x c s t ∧ ArraysSame s t ∧ OnlyIn [.crn, .tiles] s t)) ∧
    (∀ (d : Fin 4) (n : Fin 64), s.waitFired (.dmaCh d n) = true → (s.chan d n).st = .wait →
      (s.chan d n).startReached = false → (∀ m : Fin 64, m ≠ n → (s.chan d m).st ≠ .wait) →
      Gives (.cairnWaitComplete (.dmaCh d n)) s (fun t =>
        t.chan d n = { s.chan d n with waitDone := true } ∧
        t.crn.waits = s.crn.waits.filter (fun y => decide (y.who ≠ .dmaCh d n)) ∧ ChansBut d n s t ∧ OnlyIn [.crn, .dma] s t)) ∧
    (∀ (u : Fin 8),
      Gives (.cairnWaitComplete (.update u)) s (fun t =>
        Gives (.jobEligible u) s (fun r => r = t))) ∧
    (∀ (e : Nat),
      Gives (.cairnWaitComplete (.coll e)) s (fun t =>
        Gives (.collEntryStart e) s (fun r => r = t))) ∧
    (∀ (y : Wait), s.cad.frozen = false → s.waitOf y.who = some y → y.fired = false →
      s.beforeDeadline y.who = true →
      Gives (.waitTimeout y.who) s (fun t =>
        t.rnat .crnTimeouts = (s.rnat .crnTimeouts + 1) % 2 ^ 32 ∧ t.rnat .crnLastTmoWaiter = y.who.word y.ref % 2 ^ 64 ∧
        t.rnat .crnLastTmoVal = (y.target * 2 ^ 32 + s.cairn y.ref) % 2 ^ 64 ∧
        bit (t.rnat .crnEvent) 0 = true)) ∧
    (∀ (x : Fin 24) (c : Fin 4) (y : Wait) (q : Nat), s.cad.frozen = false → s.waitOf (.tileCtx x c) = some y →
      y.fired = false → s.beforeDeadline (.tileCtx x c) = true → s.ownerTile x = some q → s.notServing q →
      (s.ledger q).inForce = none → s.rbit .tilCtxErrCairn 16 x c = false →
      Gives (.waitTimeout (.tileCtx x c)) s (fun t =>
        t.rnat .crnTimeouts = (s.rnat .crnTimeouts + 1) % 2 ^ 32 ∧ t.rnat .crnLastTmoWaiter = y.who.word y.ref % 2 ^ 64 ∧
        t.rnat .crnLastTmoVal = (y.target * 2 ^ 32 + s.cairn y.ref) % 2 ^ 64 ∧
        t.ctx x c = { s.ctx x c with
          st := .fault, err := 0x0501, errPc := (s.ctx x c).pc, wait := .none, late := false, deadline := none,
          startAt := none, posted := [] } ∧
        t.mem = (s.ctx x c).overlay s.mem ∧ t.rnat .tilFaults x = (s.rnat .tilFaults x + 1) % 2 ^ 32 ∧
        t.crn.waits = s.crn.waits.filter (fun w => decide (w.who ≠ .tileCtx x c)) ∧
        CtxsBut x c s t ∧ ArraysSame s t ∧ OnlyIn [.regs, .mem, .cad, .crn, .tiles] s t)) ∧
    (∀ (d : Fin 4) (n : Fin 64) (y : Wait) (q : Nat), s.cad.frozen = false → s.waitOf (.dmaCh d n) = some y →
      y.fired = false → s.beforeDeadline (.dmaCh d n) = true → s.chanPart d n = some q → s.notServing q →
      (s.chan d n).work = .chain → s.rbit .dmaChErrCairn 16 d n = false →
      Gives (.waitTimeout (.dmaCh d n)) s (fun t =>
        t.rnat .crnTimeouts = (s.rnat .crnTimeouts + 1) % 2 ^ 32 ∧ t.rnat .crnLastTmoWaiter = y.who.word y.ref % 2 ^ 64 ∧
        t.rnat .crnLastTmoVal = (y.target * 2 ^ 32 + s.cairn y.ref) % 2 ^ 64 ∧
        (t.chan d n).st = .stopped ∧ (t.chan d n).err = 0x0501 ∧ (t.chan d n).errAddr = (s.chan d n).cur ∧
        t.crn.waits = s.crn.waits.filter (fun w => decide (w.who ≠ .dmaCh d n)) ∧
        ChansBut d n s t ∧ OnlyIn [.regs, .cad, .crn, .fab, .dma] s t)) ∧
    (∀ (h : Fin 64) (y : Wait) (w : HostWatch), s.cad.frozen = false → s.waitOf (.hostWatch h) = some y →
      y.fired = false → NMap.get? s.crn.watches h = some w → s.vectorOf w.fn w.vector = true →
      Gives (.waitTimeout (.hostWatch h)) s (fun t =>
        t.rnat .crnTimeouts = (s.rnat .crnTimeouts + 1) % 2 ^ 32 ∧ t.rnat .crnLastTmoWaiter = y.who.word y.ref % 2 ^ 64 ∧
        t.rnat .crnLastTmoVal = (y.target * 2 ^ 32 + s.cairn y.ref) % 2 ^ 64 ∧
        t.rnat .crnHcWstat h = s.rnat .crnHcWstat h ||| 2 ∧ t.rbit .crnHcWcfg 16 h = false ∧
        NMap.get? t.crn.watches h = none ∧ t.waitOf (.hostWatch h) = none ∧ Sent (.msix w.fn w.vector) s t ∧ OnlyIn [.regs, .outs, .crn] s t))

/-- CRN_HC_ADD, CRN_HC_SET, CRN_DEBUG_SET, HOST_WATCH_ARM, HOST_WATCH_FIRE and REMOTE_SIGNAL_TIMEOUT (R275 to R296). -/
def Obligations.CairnsFromOutside : Prop :=
  ∀ (s : State), s.noLeftFailures →
    (∀ (p : Path) (v : W32) (h : Fin 64), s.writes p .crnHcAdd h 0 v.toNat →
      Gives (.crnHcAdd p h v) s (fun t =>
        t.cairn (1408 + h) = (s.cairn (1408 + h) + v.toNat) % 2 ^ 32 ∧ CairnsBut (1408 + h) s t ∧
        (t.log.staged = s.log.staged ∨ s.log.batch ≠ []) ∧ OnlyIn [.crn] s t)) ∧
    (∀ (p : Path) (v : W32) (h : Fin 64), s.writes p .crnHcSet h 0 v.toNat → s.logOpen →
      Gives (.crnHcSet p h v false) s (fun t =>
        t.cairn (1408 + h) = v.toNat ∧ CairnsBut (1408 + h) s t ∧ OnlyIn [.crn] s t ∧
        Logged (fun e => e.kind = 1 ∧ e.tkind = 1 ∧ e.target = 1408 + h ∧ e.old = s.cairn (1408 + h) ∧ e.new = v.toNat ∧
          (e.origin, e.originIdx) = p.origin) s t)) ∧
    (∀ (p : Path) (v : W32) (h : Fin 64), s.writes p .crnHcSet h 0 v.toNat → s.logOpen →
      Gives (.crnHcSet p h v true) s (fun t =>
        OnlyIn [] s t ∧ Logged (fun e => e.kind = 3 ∧ e.tkind = 1 ∧ e.target = 1408 + h ∧ e.new = v.toNat) s t)) ∧
    (∀ (p : Path) (v : W32), s.writes p .crnDebugSet 0 0 v.toNat → s.pget p.idx .crnDebugRef < 1472 →
      s.cairnOn (s.pget p.idx .crnDebugRef) = true →
      Gives (.crnDebugSet p v) s (fun t =>
        t.cairn (s.pget p.idx .crnDebugRef) = v.toNat ∧ CairnsBut (s.pget p.idx .crnDebugRef) s t ∧
        t.rnat .crnEvent = s.rnat .crnEvent ||| 8 ∧ RegsBut [RegName.crnEvent.key 0 0] s t ∧ OnlyIn [.regs, .crn] s t)) ∧
    (∀ (p : Path) (h : Fin 64) (v : W32) (q : Nat), s.writes p .crnHcWcfg h 0 v.toNat →
      RegName.crnHcWcfg.fieldOk h (v.toNat &&& RegName.crnHcWcfg.row.mask) = true →
      s.rwAccept p.idx .crnHcWcfg h 0 (v.toNat &&& RegName.crnHcWcfg.row.mask) = true → bit v.toNat 16 = true →
      s.ownerHostCairn h = some q →
      Gives (.hostWatchArm p h v) s (fun t =>
        t.waitOf (.hostWatch h) = some (.mk (.hostWatch h) (1408 + h) (s.rnat .crnHcTarget h) q
          (holds (s.cairn (1408 + h)) (s.rnat .crnHcTarget h))) ∧
        NMap.get? t.crn.watches h = some (.mk (bits v.toNat 10 0)
          (if bit v.toNat 17 then some (s.rnat .crnHcMirror h) else none) (((s.part? q).map (·.vf)).getD 0)) ∧
        t.rnat .crnHcWcfg h = (v.toNat &&& RegName.crnHcWcfg.row.mask) ∧ CairnsBut 1472 s t ∧ RegsBut [RegName.crnHcWcfg.key h 0] s t ∧
        OnlyIn [.regs, .crn] s t)) ∧
    (∀ (p : Path) (h : Fin 64) (v : W32), s.writes p .crnHcWcfg h 0 v.toNat →
      RegName.crnHcWcfg.fieldOk h (v.toNat &&& RegName.crnHcWcfg.row.mask) = true → bit v.toNat 16 = false →
      Gives (.hostWatchArm p h v) s (fun t =>
        t.waitOf (.hostWatch h) = none ∧ NMap.get? t.crn.watches h = none ∧
        t.rnat .crnHcWcfg h = (v.toNat &&& RegName.crnHcWcfg.row.mask) ∧ CairnsBut 1472 s t ∧ RegsBut [RegName.crnHcWcfg.key h 0] s t ∧
        OnlyIn [.regs, .crn] s t)) ∧
    (∀ (h : Fin 64) (w : HostWatch), NMap.get? s.crn.watches h = some w → s.waitFired (.hostWatch h) = true →
      w.mirror = none → s.vectorOf w.fn w.vector = true →
      Gives (.hostWatchFire h) s (fun t =>
        Sent (.msix w.fn w.vector) s t ∧ t.rnat .crnHcWstat h = s.rnat .crnHcWstat h ||| 1 ∧
        t.rbit .crnHcWcfg 16 h = false ∧ NMap.get? t.crn.watches h = none ∧ t.waitOf (.hostWatch h) = none ∧
        CairnsBut 1472 s t ∧ RegsBut [RegName.crnHcWstat.key h 0, RegName.crnHcWcfg.key h 0] s t ∧
        OnlyIn [.regs, .outs, .crn] s t)) ∧
    (∀ (h : Fin 64) (w : HostWatch) (a l m : Nat) (g : Window), NMap.get? s.crn.watches h = some w →
      s.waitFired (.hostWatch h) = true → w.mirror = some a → (s.target a).toOption = some (.here l) →
      s.region? l = some (.valley m) → NMap.get? s.hif.windows m = some g → s.vectorOf w.fn w.vector = false →
      Gives (.hostWatchFire h) s (fun t =>
        Sent (.hostWrite g.fn (g.bus + (l - valleyBase m)) (leBytes 4 (s.cairn (1408 + h)))) s t ∧
        t.rnat .crnHcWstat h = s.rnat .crnHcWstat h ||| 1 ∧ NMap.get? t.crn.watches h = none ∧ OnlyIn [.regs, .outs, .crn] s t)) ∧
    (∀ (rtag q : Nat) (src : AddSrc) (r : FabReq), s.findReq rtag = some r → r.purpose = .signal q src →
      (src = .host ∨ src = .scaler ∨ src = .hardware) →
      Gives (.remoteSignalTimeout rtag) s (fun t =>
        t.findReq rtag = none ∧ t.rnat .crnRefused = (s.rnat .crnRefused + 1) % 2 ^ 32 ∧
        t.rnat .crnEvent = (s.rnat .crnEvent ||| 4) ||| 2 ∧ OnlyIn [.regs, .fab] s t)) ∧
    (∀ (rtag q : Nat) (d : Fin 4) (n : Fin 64) (r : FabReq), s.findReq rtag = some r →
      r.purpose = .signal q (.dma d n) → (s.chan d n).xfer = .signalling → s.chanPart d n = some q →
      s.notServing q → (s.chan d n).work = .chain →
      Gives (.remoteSignalTimeout rtag) s (fun t =>
        (t.chan d n).st = .stopped ∧ (t.chan d n).err = 0x0506 ∧ (t.chan d n).errAddr = (s.chan d n).cur ∧
        bit (t.rnat .crnEvent) 2 = true ∧ ChansBut d n s t ∧ OnlyIn [.regs, .cad, .crn, .fab, .dma] s t))

/-- ARM, DISARM, JOB_ELIGIBLE, CHECK_PASS_END, APPLY_PASS_END and LS_EXP_WRITE (R298 to R319). -/
def Obligations.UpdateUnits : Prop :=
  ∀ (s : State) (u : Fin 8) (q : Nat), s.noLeftFailures → s.unitPart u = some q →
    (∀ (p : Path), s.writes p .updCtrl u 0 1 → ((s.unit u).st = .idle ∨ (s.unit u).st = .halted) →
      Gives (.arm p u) s (fun t =>
        t.unit u = { s.unit u with st := .armed, disarm := false } ∧ UnitsBut u s t ∧
        t.upd.parts = s.upd.parts ∧ OnlyIn [.pwr, .upd] s t)) ∧
    (∀ (p : Path), s.writes p .updCtrl u 0 2 → (s.unit u).st = .armed →
      Gives (.disarm p u) s (fun t =>
        t.unit u = { s.unit u with st := .idle } ∧ UnitsBut u s t ∧ t.upd.parts = s.upd.parts ∧ OnlyIn [.upd] s t)) ∧
    (∀ (p : Path), s.writes p .updCtrl u 0 2 → (s.unit u).st = .running →
      Gives (.disarm p u) s (fun t =>
        t.unit u = { s.unit u with disarm := true } ∧ UnitsBut u s t ∧ t.upd.parts = s.upd.parts ∧ OnlyIn [.upd] s t)) ∧
    ((s.unit u).st = .running → (s.unit u).pass = .waiting → (s.unit u).startReached = true →
      ((s.unit u).waitDone = true ∨ s.waitFired (.update u) = true) →
      s.heldByCommit (some q) (s.unit u).startAt = false → (∀ r ∈ (s.unit u).cur.ranges,
      (s.rangeCheck q r.1 r.2.1 r.2.2).toOption.isSome = true) → ((s.unit u).cur.isGacc = false ∨
      (s.train q).faulted = false ∧ ((s.unit u).cur.gated = false ∨ (s.train q).nf = false)) →
      Gives (.jobEligible u) s (fun t =>
        t.unit u = { s.unit u with waitDone := true, pass := if (s.unit u).cur.isGacc then .apply else .check } ∧
        UnitsBut u s t ∧ t.crn.waits = s.crn.waits.filter (fun y => decide (y.who ≠ .update u)) ∧ CairnsBut 1472 s t ∧
        OnlyIn [.crn, .upd] s t)) ∧
    ((s.unit u).st = .running → (s.unit u).pass = .check → (s.train q).faulted = false →
      ((s.unit u).cur.gated = false ∨ (s.train q).nf = false) →
      (s.grads (s.unit u).cur (signed 8 (s.unit u).hyper.exp)).all (fun g => f32Finite g) = true →
      f32Finite (normOf (s.grads (s.unit u).cur (signed 8 (s.unit u).hyper.exp))) = true →
      Gives (.checkPassEnd u none) s (fun t =>
        t.unit u = { s.unit u with
          pass := .apply,
          clip := clipOf (s.unit u).cur.clipFirst (normOf (s.grads (s.unit u).cur (signed 8 (s.unit u).hyper.exp)))
            ((s.unit u).hyper.set (s.unit u).cur.hset).2.2.2 } ∧
        UnitsBut u s t ∧ (t.train q).gatedStarted = ((s.unit u).cur.gated || (s.train q).gatedStarted) ∧
        t.rnat .updLastNorm u = normOf (s.grads (s.unit u).cur (signed 8 (s.unit u).hyper.exp)) % 2 ^ 64 ∧
        RegsBut [RegName.updLastNorm.key u 0] s t ∧ OnlyIn [.regs, .upd] s t)) ∧
    ((s.unit u).st = .running → (s.unit u).pass = .check →
      (s.grads (s.unit u).cur (signed 8 (s.unit u).hyper.exp)).any (fun g => !f32Finite g) = true →
      Gives (.checkPassEnd u none) s (fun t =>
        t.rnat .updSkips u = (s.rnat .updSkips u + 1) % 2 ^ 32 ∧ t.rnat .updRunSkip u = (s.rnat .updRunSkip u + 1) % 2 ^ 64 ∧
        (t.train q).skipped = true ∧ ((s.unit u).cur.global = true → (t.train q).nf = true) ∧
        (t.unit u).pass ≠ .check ∧ UnitsBut u s t ∧ t.mem = s.mem ∧ t.tiles = s.tiles ∧ t.dma = s.dma)) ∧
    ((s.unit u).st = .running → (s.unit u).pass = .apply →
      Gives (.applyPassEnd u none) s (fun t =>
        t.mem = (s.applyWrites u q (s.unit u).cur.count).1.mem ∧ t.rnat .updJobs u = (s.rnat .updJobs u + 1) % 2 ^ 32 ∧
        t.rnat .updElems u = (s.rnat .updElems u + (s.unit u).cur.count) % 2 ^ 64 ∧
        t.rnat .updRunDone u = (s.rnat .updRunDone u + 1) % 2 ^ 64 ∧ UnitsBut u s t ∧ t.tiles = s.tiles ∧ t.dma = s.dma)) ∧
    (∀ (p : Path) (part : Fin 8) (v : W32), s.writes p .updLsExp part 0 v.toNat →
      RegName.updLsExp.fieldOk part (v.toNat &&& RegName.updLsExp.row.mask) = true →
      s.rwAccept p.idx .updLsExp part 0 (v.toNat &&& RegName.updLsExp.row.mask) = true →
      Gives (.lsExpWrite p part v 0) s (fun t =>
        t.rnat .updLsExp part = v.toNat &&& RegName.updLsExp.row.mask ∧
        RegsBut [RegName.updLsExp.key part 0] s t ∧ OnlyIn [.regs] s t))

/-- LINK_FRAME_SEND and LINK_FRAME_RECEIVE (R332 to R334, Table 12.2). -/
def Obligations.LinkFrames : Prop :=
  ∀ (s : State) (k : Fin 14), s.noLeftFailures → (s.port k).st = 3 →
    (∀ (seq : Nat) (f : TxFrame) (r : List (Nat × TxFrame)), (s.port k).resendQ = (seq, f) :: r →
      Gives (.linkFrameSend k) s (fun t =>
        Sent (.fabFrame k (linkFrameBytes f.kind f.vc seq (s.port k).ack f.payload)) s t ∧
        t.port k = { s.port k with resendQ := r, slot := ((s.port k).slot + 1) % 16 } ∧ PortOnly k s t ∧
        t.rnat .nynPortRetry k = (s.rnat .nynPortRetry k + 1) % 2 ^ 32 ∧ RegsBut [RegName.nynPortRetry.key k 0] s t ∧
        OnlyIn [.regs, .outs, .fab] s t)) ∧
    (∀ (vc : Nat) (f : TxFrame) (r : List TxFrame), (s.port k).resendQ = [] → (s.port k).pick = some vc →
      (s.port k).queue vc = f :: r →
      Gives (.linkFrameSend k) s (fun t =>
        Sent (.fabFrame k (linkFrameBytes f.kind vc (s.port k).nextSeq (s.port k).ack f.payload)) s t ∧
        t.port k = { s.port k with
          txq := NMap.put (s.port k).txq vc r, credits := NMap.put (s.port k).credits vc ((s.port k).credit vc - 1),
          retry := (s.port k).retry ++ [((s.port k).nextSeq, f)], nextSeq := ((s.port k).nextSeq + 1) % 4096,
          slot := ((s.port k).slot + 1) % 16 } ∧
        PortOnly k s t ∧ OnlyIn [.outs, .fab] s t)) ∧
    ((s.port k).resendQ = [] → (s.port k).pick = none → ((s.port k).owes 0 > 0 ∨ (s.port k).owes 1 > 0 ∨
      (s.port k).owes 2 > 0 ∨ (s.port k).owes 3 > 0) →
      Gives (.linkFrameSend k) s (fun t =>
        Sent (.fabFrame k (linkFrameBytes 3 0 (s.port k).nextSeq (s.port k).ack
          ([0, 1, 2, 3].flatMap (fun vc => leBytes 2 ((s.port k).owes vc))))) s t ∧
        t.port k = { s.port k with owed := [], slot := ((s.port k).slot + 1) % 16 } ∧ PortOnly k s t ∧ OnlyIn [.outs, .fab] s t)) ∧
    ((s.port k).resendQ = [] → (s.port k).pick = none → (∀ vc : Fin 4, (s.port k).owes vc = 0) →
      Gives (.linkFrameSend k) s (fun t =>
        Sent (.fabFrame k (linkFrameBytes 0 0 (s.port k).nextSeq (s.port k).ack [])) s t ∧
        t.port k = { s.port k with slot := ((s.port k).slot + 1) % 16 } ∧ PortOnly k s t ∧ OnlyIn [.outs, .fab] s t)) ∧
    (∀ (b : List Byte), correctFrame b = none →
      Gives (.linkFrameReceive k b) s (fun t =>
        OnlyIn [] s t)) ∧
    (∀ (b f : List Byte) (n : Nat), correctFrame b = some (f, n) →
      Gives (.linkFrameReceive k b) s (fun t =>
        t.port k = (
          let q := (s.port k).acked (bits (fieldAt f 0 4) 13 2)
          if bits (fieldAt f 0 4) 31 28 = 3 then
            { q with credits := [0, 1, 2, 3].map (fun v => (v, q.credit v + fieldAt f (4 + 2 * v) 2)) }
          else if (bits (fieldAt f 0 4) 31 28 = 1 ∨ bits (fieldAt f 0 4) 31 28 = 2) ∧ bits (fieldAt f 0 4) 25 14 = (s.port k).rxNext then
            { q with rxNext := ((s.port k).rxNext + 1) % 4096 }.takePayload (bits (fieldAt f 0 4) 31 28 == 1)
              (bits (fieldAt f 0 4) 27 26) (slice f 4 256)
          else q) ∧
        t.rnat .nynPortFec k = (if n = 0 then s.rnat .nynPortFec k else (s.rnat .nynPortFec k + n) % 2 ^ 32) ∧ RegsBut [RegName.nynPortFec.key k 0] s t ∧
        PortOnly k s t ∧ OnlyIn [.regs, .fab] s t))

/-- LINK_RESEND, LOSS_OF_LOCK, RETRAIN, TRAINING_RESULT, TRAINING_TIMEOUT, PORT_ENABLE, NYN_FAILED_WRITE and NOTICE (R333, R335, R337, R360, Table 12.3). -/
def Obligations.PortStates : Prop :=
  ∀ (s : State) (k : Fin 14), s.noLeftFailures →
    ((s.port k).st = 3 → (s.port k).retry ≠ [] → (s.port k).resends < 8 →
      Gives (.linkResend k) s (fun t =>
        t.port k = { s.port k with resends := (s.port k).resends + 1, resendQ := (s.port k).retry } ∧ PortOnly k s t ∧ OnlyIn [.fab] s t)) ∧
    ((s.port k).st = 3 → (s.port k).retry ≠ [] → (s.port k).resends ≥ 8 →
      Gives (.linkResend k) s (fun t =>
        (t.port k).st = 1 ∧ t.rnat .nynPortDowns k = (s.rnat .nynPortDowns k + 1) % 2 ^ 32 ∧
        bit (t.rnat .nynEvent) 0 = true ∧ (t.port k).retry = [] ∧ OnlyIn [.regs, .outs, .fab] s t)) ∧
    ((s.port k).st = 3 →
      Gives (.lossOfLock k) s (fun t =>
        (t.port k).st = 1 ∧ t.rnat .nynPortDowns k = (s.rnat .nynPortDowns k + 1) % 2 ^ 32 ∧
        bit (t.rnat .nynEvent) 0 = true ∧ (t.port k).retry = [] ∧ (t.port k).store = (if s.domainOn (domPort k) then (s.port k).kept else []) ∧ OnlyIn [.regs, .outs, .fab] s t)) ∧
    (∀ (p : Option Path), (∀ w ∈ p, s.writes w .nynPortCmd k 0 1) → (s.port k).st = 1 → s.portAllowed k = true →
      Gives (.retrain p k) s (fun t =>
        t.port k = { s.port k with st := 2, standby := bit (s.rnat .nynFailed) (facing s.ownId k) } ∧
        PortOnly k s t ∧ OnlyIn [.fab] s t)) ∧
    (∀ (id : Fin 64) (j : Fin 14), (s.port k).st = 2 → id.val = facing s.ownId k → j.val = farPort k →
      Gives (.trainingResult k s.img.machineId id j) s (fun t =>
        (t.port k).st = 3 ∧ (t.port k).peerId = id ∧ (t.port k).peerPort = j ∧ (t.port k).store = (s.port k).kept ∧ (t.port k).standby = (s.port k).standby ∧
        (t.port k).credits = [] ∧ (t.port k).retry = [] ∧ bit (t.rnat .nynEvent) 1 = true ∧
        RegsBut [RegName.nynEvent.key 0 0, RegName.nynResends.key 0 0] s t ∧ OnlyIn [.regs, .outs, .fab] s t)) ∧
    (∀ (machine : Nat) (id : Fin 64) (j : Fin 14), (s.port k).st = 2 → (machine ≠ s.img.machineId ∨
      id.val ≠ facing s.ownId k ∨ j.val ≠ farPort k) →
      Gives (.trainingResult k machine id j) s (fun t =>
        t.port k = { (default : Port) with st := 1, store := (s.port k).kept } ∧ PortOnly k s t ∧ t.rnat .nynEvent = s.rnat .nynEvent ||| 4 ∧
        t.rnat .nynLastErr = 0x0603 ∧ t.rnat .nynLastInfo = id.val * 2 ^ 24 + k.val ∧
        OnlyIn [.regs, .fab] s t)) ∧
    ((s.port k).st = 2 →
      Gives (.trainingTimeout k) s (fun t =>
        t.port k = { (default : Port) with st := 1, store := (s.port k).kept } ∧ PortOnly k s t ∧ OnlyIn [.fab] s t)) ∧
    (∀ (p : Path), s.writes p .nynPortCtrl k 0 0 →
      Gives (.portEnable p k false) s (fun t =>
        (t.port k).st = 0 ∧ t.rbit .nynPortCtrl 0 k = false ∧ ((t.port k).store = (s.port k).kept ∨ (s.port k).st = 0 ∨ s.domainOn (domPort k) = false) ∧
        OnlyIn [.regs, .outs, .fab] s t)) ∧
    (∀ (p : Path), s.writes p .nynPortCtrl k 0 1 → (s.port k).st = 0 → s.domainOn (domPort k) = true →
      bit s.portMask k = true → s.slotPos ≤ 8 →
      Gives (.portEnable p k true) s (fun t =>
        t.port k = { (default : Port) with st := 1, store := (s.port k).kept } ∧ t.rnat .nynPortCtrl k = 1 ∧ PortOnly k s t ∧
        RegsBut [RegName.nynPortCtrl.key k 0] s t ∧ OnlyIn [.regs, .fab] s t)) ∧
    (∀ (p : Path) (v : W64), s.writes p .nynFailed 0 0 v.toNat → (∀ j : Fin 14, (s.port j).st = 3 →
      s.portAllowed j = true) →
      Gives (.nynFailedWrite p v) s (fun t =>
        t.rnat .nynFailed = v.toNat ∧
        (∀ k : Fin 14, (t.port k).st = (if (s.port k).st = 3 ∧ bit (s.rnat .nynFailed) (facing s.ownId k) ≠ bit v.toNat (facing s.ownId k)
          then 2 else (s.port k).st)) ∧
        (∀ k : Fin 14, (t.port k).st = (s.port k).st ∨ (t.port k).standby = bit v.toNat (facing s.ownId k)) ∧
        OnlyIn [.regs, .outs, .fab] s t)) ∧
    (∀ (near j : Fin 14) (dev : Fin 64) (up : Bool), s.fab.downLinks.contains (dev.val, j.val) = up →
      dev.val ≠ s.ownId →
      Gives (.notice near dev j up) s (fun t =>
        t.fab.downLinks = (if up then s.fab.downLinks.filter (fun y => decide (y ≠ (dev.val, j.val)))
          else s.fab.downLinks ++ [(dev.val, j.val)]) ∧
        (∀ k : Fin 14, (t.port k).st = (s.port k).st) ∧
        (∀ k : Fin 14, s.portUp k = false ∨ k = near ∨ Out.notice k dev j up ∈ t.outs) ∧
        OnlyIn [.regs, .outs, .fab] s t)) ∧
    (∀ (near j : Fin 14) (dev : Fin 64) (up : Bool), (s.fab.downLinks.contains (dev.val, j.val) ≠ up ∨
      dev.val = s.ownId) →
      Gives (.notice near dev j up) s (fun t =>
        OnlyIn [] s t))

/-- Forwarding and bouncing, for each kind of packet (R336, R338). -/
def Obligations.PacketsPassedOn : Prop :=
  ∀ (s : State) (k j : Fin 14) (m : Packet) (n : Nat), s.noLeftFailures → m.dst ≠ s.ownId →
    (s.headPacket k 1 = some (m, n) → portTo s.ownId m.dst = some j.val → s.portUp j = true →
      Gives (.readReq k) s (fun t =>
        Unloaded k 1 n s t ∧ Queued j m s t ∧ t.fab.reqs = s.fab.reqs ∧ t.regs = s.regs ∧ OnlyIn [.fab] s t)) ∧
    (s.headPacket k 3 = some (m, n) → portTo s.ownId m.dst = some j.val → s.portUp j = true →
      Gives (.write k) s (fun t =>
        Unloaded k 3 n s t ∧ Queued j m s t ∧ t.fab.reqs = s.fab.reqs ∧ t.regs = s.regs ∧ OnlyIn [.fab] s t)) ∧
    (s.headPacket k 5 = some (m, n) → portTo s.ownId m.dst = some j.val → s.portUp j = true →
      Gives (.signal k) s (fun t =>
        Unloaded k 5 n s t ∧ Queued j m s t ∧ t.fab.reqs = s.fab.reqs ∧ t.regs = s.regs ∧ OnlyIn [.fab] s t)) ∧
    (s.headPacket k 7 = some (m, n) → portTo s.ownId m.dst = some j.val → s.portUp j = true →
      Gives (.collData k) s (fun t =>
        Unloaded k 7 n s t ∧ Queued j m s t ∧ t.fab.reqs = s.fab.reqs ∧ t.regs = s.regs ∧ OnlyIn [.fab] s t)) ∧
    (s.headPacket k 9 = some (m, n) → portTo s.ownId m.dst = some j.val → s.portUp j = true →
      Gives (.reserve k) s (fun t =>
        Unloaded k 9 n s t ∧ Queued j m s t ∧ t.fab.reqs = s.fab.reqs ∧ t.regs = s.regs ∧ OnlyIn [.fab] s t)) ∧
    (s.headPacket k 2 = some (m, n) → portTo s.ownId m.dst = some j.val → s.portUp j = true →
      Gives (.readData k) s (fun t =>
        Unloaded k 2 n s t ∧ Queued j m s t ∧ t.fab.reqs = s.fab.reqs ∧ t.regs = s.regs ∧ OnlyIn [.fab] s t)) ∧
    (s.headPacket k 4 = some (m, n) → portTo s.ownId m.dst = some j.val → s.portUp j = true →
      Gives (.writeAck k) s (fun t =>
        Unloaded k 4 n s t ∧ Queued j m s t ∧ t.fab.reqs = s.fab.reqs ∧ t.regs = s.regs ∧ OnlyIn [.fab] s t)) ∧
    (s.headPacket k 6 = some (m, n) → portTo s.ownId m.dst = some j.val → s.portUp j = true →
      Gives (.signalAck k) s (fun t =>
        Unloaded k 6 n s t ∧ Queued j m s t ∧ t.fab.reqs = s.fab.reqs ∧ t.regs = s.regs ∧ OnlyIn [.fab] s t)) ∧
    (s.headPacket k 8 = some (m, n) → portTo s.ownId m.dst = some j.val → s.portUp j = true →
      Gives (.collAck k) s (fun t =>
        Unloaded k 8 n s t ∧ Queued j m s t ∧ t.fab.reqs = s.fab.reqs ∧ t.regs = s.regs ∧ OnlyIn [.fab] s t)) ∧
    (s.headPacket k 10 = some (m, n) → portTo s.ownId m.dst = some j.val → s.portUp j = true →
      Gives (.reserveAck k) s (fun t =>
        Unloaded k 10 n s t ∧ Queued j m s t ∧ t.fab.reqs = s.fab.reqs ∧ t.regs = s.regs ∧ OnlyIn [.fab] s t)) ∧
    (s.headPacket k 11 = some (m, n) → portTo s.ownId m.dst = some j.val → s.portUp j = true →
      Gives (.fail k) s (fun t =>
        Unloaded k 11 n s t ∧ Queued j m s t ∧ t.fab.reqs = s.fab.reqs ∧ t.regs = s.regs ∧ OnlyIn [.fab] s t)) ∧
    (s.headPacket k 12 = some (m, n) → portTo s.ownId m.dst = some j.val → s.portUp j = true →
      Gives (.bounce k) s (fun t =>
        Unloaded k 12 n s t ∧ Queued j m s t ∧ t.fab.reqs = s.fab.reqs ∧ t.regs = s.regs ∧ OnlyIn [.fab] s t)) ∧
    (∀ (alt : Bool), s.headPacket k 1 = some (m, n) → portTo s.ownId m.dst = some j.val → s.portUp j = false →
      m.src ≠ s.ownId → s.chooseRoute m.src = some alt →
      Gives (.readReq k) s (fun t =>
        Unloaded k 1 n s t ∧
        Queued (s.route m.src alt).1 { m with dst := m.src, src := s.ownId, op := 12, data := [], want := 0, alt := alt } s t ∧
        t.rnat .nynPortBounces j = (s.rnat .nynPortBounces j + 1) % 2 ^ 32 ∧
        RegsBut [RegName.nynPortBounces.key j 0] s t ∧ OnlyIn [.regs, .fab] s t)) ∧
    (∀ (alt : Bool), s.headPacket k 3 = some (m, n) → portTo s.ownId m.dst = some j.val → s.portUp j = false →
      m.src ≠ s.ownId → s.chooseRoute m.src = some alt →
      Gives (.write k) s (fun t =>
        Unloaded k 3 n s t ∧
        Queued (s.route m.src alt).1 { m with dst := m.src, src := s.ownId, op := 12, data := [], want := 0, alt := alt } s t ∧
        t.rnat .nynPortBounces j = (s.rnat .nynPortBounces j + 1) % 2 ^ 32 ∧
        RegsBut [RegName.nynPortBounces.key j 0] s t ∧ OnlyIn [.regs, .fab] s t)) ∧
    (∀ (alt : Bool), s.headPacket k 5 = some (m, n) → portTo s.ownId m.dst = some j.val → s.portUp j = false →
      m.src ≠ s.ownId → s.chooseRoute m.src = some alt →
      Gives (.signal k) s (fun t =>
        Unloaded k 5 n s t ∧
        Queued (s.route m.src alt).1 { m with dst := m.src, src := s.ownId, op := 12, data := [], want := 0, alt := alt } s t ∧
        t.rnat .nynPortBounces j = (s.rnat .nynPortBounces j + 1) % 2 ^ 32 ∧
        RegsBut [RegName.nynPortBounces.key j 0] s t ∧ OnlyIn [.regs, .fab] s t)) ∧
    (∀ (alt : Bool), s.headPacket k 7 = some (m, n) → portTo s.ownId m.dst = some j.val → s.portUp j = false →
      m.src ≠ s.ownId → s.chooseRoute m.src = some alt →
      Gives (.collData k) s (fun t =>
        Unloaded k 7 n s t ∧
        Queued (s.route m.src alt).1 { m with dst := m.src, src := s.ownId, op := 12, data := [], want := 0, alt := alt } s t ∧
        t.rnat .nynPortBounces j = (s.rnat .nynPortBounces j + 1) % 2 ^ 32 ∧
        RegsBut [RegName.nynPortBounces.key j 0] s t ∧ OnlyIn [.regs, .fab] s t)) ∧
    (∀ (alt : Bool), s.headPacket k 9 = some (m, n) → portTo s.ownId m.dst = some j.val → s.portUp j = false →
      m.src ≠ s.ownId → s.chooseRoute m.src = some alt →
      Gives (.reserve k) s (fun t =>
        Unloaded k 9 n s t ∧
        Queued (s.route m.src alt).1 { m with dst := m.src, src := s.ownId, op := 12, data := [], want := 0, alt := alt } s t ∧
        t.rnat .nynPortBounces j = (s.rnat .nynPortBounces j + 1) % 2 ^ 32 ∧
        RegsBut [RegName.nynPortBounces.key j 0] s t ∧ OnlyIn [.regs, .fab] s t)) ∧
    (∀ (alt : Bool), s.headPacket k 2 = some (m, n) → portTo s.ownId m.dst = some j.val → s.portUp j = false →
      m.src ≠ s.ownId → s.chooseRoute m.src = some alt →
      Gives (.readData k) s (fun t =>
        Unloaded k 2 n s t ∧
        Queued (s.route m.src alt).1 { m with dst := m.src, src := s.ownId, op := 12, data := [], want := 0, alt := alt } s t ∧
        t.rnat .nynPortBounces j = (s.rnat .nynPortBounces j + 1) % 2 ^ 32 ∧
        RegsBut [RegName.nynPortBounces.key j 0] s t ∧ OnlyIn [.regs, .fab] s t)) ∧
    (∀ (alt : Bool), s.headPacket k 4 = some (m, n) → portTo s.ownId m.dst = some j.val → s.portUp j = false →
      m.src ≠ s.ownId → s.chooseRoute m.src = some alt →
      Gives (.writeAck k) s (fun t =>
        Unloaded k 4 n s t ∧
        Queued (s.route m.src alt).1 { m with dst := m.src, src := s.ownId, op := 12, data := [], want := 0, alt := alt } s t ∧
        t.rnat .nynPortBounces j = (s.rnat .nynPortBounces j + 1) % 2 ^ 32 ∧
        RegsBut [RegName.nynPortBounces.key j 0] s t ∧ OnlyIn [.regs, .fab] s t)) ∧
    (∀ (alt : Bool), s.headPacket k 6 = some (m, n) → portTo s.ownId m.dst = some j.val → s.portUp j = false →
      m.src ≠ s.ownId → s.chooseRoute m.src = some alt →
      Gives (.signalAck k) s (fun t =>
        Unloaded k 6 n s t ∧
        Queued (s.route m.src alt).1 { m with dst := m.src, src := s.ownId, op := 12, data := [], want := 0, alt := alt } s t ∧
        t.rnat .nynPortBounces j = (s.rnat .nynPortBounces j + 1) % 2 ^ 32 ∧
        RegsBut [RegName.nynPortBounces.key j 0] s t ∧ OnlyIn [.regs, .fab] s t)) ∧
    (∀ (alt : Bool), s.headPacket k 8 = some (m, n) → portTo s.ownId m.dst = some j.val → s.portUp j = false →
      m.src ≠ s.ownId → s.chooseRoute m.src = some alt →
      Gives (.collAck k) s (fun t =>
        Unloaded k 8 n s t ∧
        Queued (s.route m.src alt).1 { m with dst := m.src, src := s.ownId, op := 12, data := [], want := 0, alt := alt } s t ∧
        t.rnat .nynPortBounces j = (s.rnat .nynPortBounces j + 1) % 2 ^ 32 ∧
        RegsBut [RegName.nynPortBounces.key j 0] s t ∧ OnlyIn [.regs, .fab] s t)) ∧
    (∀ (alt : Bool), s.headPacket k 10 = some (m, n) → portTo s.ownId m.dst = some j.val → s.portUp j = false →
      m.src ≠ s.ownId → s.chooseRoute m.src = some alt →
      Gives (.reserveAck k) s (fun t =>
        Unloaded k 10 n s t ∧
        Queued (s.route m.src alt).1 { m with dst := m.src, src := s.ownId, op := 12, data := [], want := 0, alt := alt } s t ∧
        t.rnat .nynPortBounces j = (s.rnat .nynPortBounces j + 1) % 2 ^ 32 ∧
        RegsBut [RegName.nynPortBounces.key j 0] s t ∧ OnlyIn [.regs, .fab] s t)) ∧
    (∀ (alt : Bool), s.headPacket k 11 = some (m, n) → portTo s.ownId m.dst = some j.val → s.portUp j = false →
      m.src ≠ s.ownId → s.chooseRoute m.src = some alt →
      Gives (.fail k) s (fun t =>
        Unloaded k 11 n s t ∧
        Queued (s.route m.src alt).1 { m with dst := m.src, src := s.ownId, op := 12, data := [], want := 0, alt := alt } s t ∧
        t.rnat .nynPortBounces j = (s.rnat .nynPortBounces j + 1) % 2 ^ 32 ∧
        RegsBut [RegName.nynPortBounces.key j 0] s t ∧ OnlyIn [.regs, .fab] s t)) ∧
    (s.headPacket k 12 = some (m, n) → portTo s.ownId m.dst = some j.val → s.portUp j = false →
      Gives (.bounce k) s (fun t =>
        Unloaded k 12 n s t ∧ t.regs = s.regs ∧ OnlyIn [.fab] s t))

/-- READ_REQ, WRITE, SIGNAL, COLL_DATA and RESERVE at their destination (R109, R116, R294, R339). -/
def Obligations.RequestsApplied : Prop :=
  ∀ (s : State) (k : Fin 14) (m : Packet) (n : Nat) (alt : Bool), s.noLeftFailures → s.canonical → s.inTurn m → s.chooseRoute m.src = some alt →
    (s.arrives k 1 m n → (s.remoteCheck (bits m.addr 55 0) m.want 1).toOption.isSome = true →
      Gives (.readReq k) s (fun t =>
        Answered m ({ answer m 2 with data := s.rd (bits m.addr 55 0) m.want }) alt s t ∧
        t.regs = s.regs ∧ OnlyIn [.fab] s t)) ∧
    (∀ (code : Nat), s.arrives k 1 m n → (s.remoteCheck (bits m.addr 55 0) m.want 1).toOption = none →
      codeOf (s.remoteCheck (bits m.addr 55 0) m.want 1) = code →
      Gives (.readReq k) s (fun t =>
        Answered m (failAnswer m code) alt s t ∧
        t.regs = s.regs ∧ OnlyIn [.fab] s t)) ∧
    (s.arrives k 3 m n → (s.remoteCheck (bits m.addr 55 0) m.data.length 2).toOption.isSome = true →
      s.tier.reserves = [] →
      Gives (.write k) s (fun t =>
        Answered m (answer m 4) alt s t ∧
        t.rd (bits m.addr 55 0) m.data.length = m.data ∧ BytesBut (bits m.addr 55 0) m.data.length s t ∧ t.regs = s.regs ∧ OnlyIn [.mem, .fab] s t)) ∧
    (∀ (code : Nat), s.arrives k 3 m n → (s.remoteCheck (bits m.addr 55 0) m.data.length 2).toOption = none →
      codeOf (s.remoteCheck (bits m.addr 55 0) m.data.length 2) = code →
      Gives (.write k) s (fun t =>
        Answered m (failAnswer m code) alt s t ∧
        t.regs = s.regs ∧ OnlyIn [.fab] s t)) ∧
    (s.arrives k 5 m n → bits m.addr 47 32 < 1472 → s.cairnOn (bits m.addr 47 32) = true →
      s.cairnOwner (bits m.addr 47 32) = some (bits m.addr 55 48) →
      Gives (.signal k) s (fun t =>
        Answered m (answer m 6) alt s t ∧
        t.cairn (bits m.addr 47 32) = (s.cairn (bits m.addr 47 32) + bits m.addr 31 0) % 2 ^ 32 ∧
        CairnsBut (bits m.addr 47 32) s t ∧ t.regs = s.regs ∧ OnlyIn [.crn, .fab] s t)) ∧
    (s.arrives k 5 m n → (1472 ≤ bits m.addr 47 32 ∨ s.cairnOn (bits m.addr 47 32) = false ∨
      s.cairnOwner (bits m.addr 47 32) ≠ some (bits m.addr 55 48)) →
      Gives (.signal k) s (fun t =>
        Answered m ({ answer m 6 with status := 0x0505 }) alt s t ∧
        t.regs = s.regs ∧ OnlyIn [.fab] s t)) ∧
    (s.arrives k 7 m n → (∀ x ∈ s.coll.insts, x.e.tag ≠ bits m.addr 31 0) →
      Gives (.collData k) s (fun t =>
        Answered m (answer m 8) alt s t ∧
        t.coll.early = s.coll.early ++ [(bits m.addr 31 0, m.aux, Piece.mk m.src (bits m.addr 63 32) m.data)] ∧
        t.regs = s.regs ∧ OnlyIn [.fab, .coll] s t)) ∧
    (∀ (p : Nat) (g : Region), s.arrives k 9 m n → (s.decode (bits m.addr 55 0) m.want).toOption = some g →
      (∀ w : Fin 64, g ≠ .valley w) → s.remotePart (bits m.addr 55 0) m.want 2 = some p →
      inPool (bits m.addr 55 0) = true → bits m.addr 55 0 % granule = 0 →
      s.rangeFree (bits m.addr 55 0) (ceilDiv m.want granule) = true →
      s.rangeClean p (bits m.addr 55 0) (ceilDiv m.want granule) = true →
      (isFoothill (bits m.addr 55 0) = false ∨ ceilDiv m.want granule ≤ s.quotaLeft p 2) →
      Gives (.reserve k) s (fun t =>
        Answered m (answer m 10) alt s t ∧
        t.tier.reserves = s.tier.reserves ++
          [{ part := p, base := bits m.addr 55 0, size := ceilDiv m.want granule, arena := false, left := m.want }] ∧
        t.tier.holdings = s.tier.holdings ∧ t.regs = s.regs ∧ OnlyIn [.tier, .fab] s t))

/-- READ_DATA, WRITE_ACK, SIGNAL_ACK, COLL_ACK and RESERVE_ACK at the source (R117, R294, R339, R350). -/
def Obligations.AnswersAtTheSource : Prop :=
  ∀ (s : State) (k : Fin 14) (m : Packet) (n : Nat) (r : FabReq), s.noLeftFailures →
    (∀ (d : Fin 4) (x : Fin 64) (e : Nat), s.arrives k 2 m n → s.findReq m.rtag = some r → r.pkt.dst = m.src →
      r.pkt.op = 1 → r.purpose = .read d x e → (s.chan d x).pieces.contains e = true → e ≠ 2 ^ 48 →
      (s.chan d x).pieces.filter (· != e) ≠ [] →
      Gives (.readData k) s (fun t =>
        t.chan d x = { s.chan d x with
          pieces := (s.chan d x).pieces.filter (· != e), buf := NMap.put (s.chan d x).buf e m.data } ∧
        ChansBut d x s t ∧ t.fab.reqs = s.fab.reqs.filter (fun y => y.pkt.rtag != m.rtag) ∧ Unloaded k 2 n s t ∧ OnlyIn [.fab, .dma] s t)) ∧
    (∀ (d : Fin 4) (x : Fin 64) (e i l : Nat), s.arrives k 2 m n → s.findReq m.rtag = some r →
      r.pkt.dst = m.src → r.pkt.op = 1 → r.purpose = .read d x e → (s.chan d x).pieces = [e] → e ≠ 2 ^ 48 →
      (s.chan d x).desc.op = 1 → (s.target (s.chan d x).desc.src).toOption = some (.there i l) →
      s.isHere (s.chan d x).desc.dst = true → (s.chanPart d x).isSome = true →
      ((s.chan d x).withPiece e m.data).length = (s.chan d x).desc.length →
      Gives (.readData k) s (fun t =>
        t.rd (localOf (s.chan d x).desc.dst) (s.chan d x).desc.length = (s.chan d x).withPiece e m.data ∧
        BytesBut (localOf (s.chan d x).desc.dst) (s.chan d x).desc.length s t ∧
        (t.chan d x).xfer = .done ∧ (t.chan d x).done = (s.chan d x).desc.length ∧ ChansBut d x s t ∧
        t.fab.reqs = s.fab.reqs.filter (fun y => y.pkt.rtag != m.rtag) ∧ OnlyIn [.regs, .mem, .fab, .dma] s t)) ∧
    (∀ (d : Fin 4) (x : Fin 64) (e : Nat), s.arrives k 4 m n → s.findReq m.rtag = some r → r.pkt.dst = m.src →
      r.pkt.op = 3 → r.purpose = .write d x e → (s.chan d x).pieces.contains e = true →
      Gives (.writeAck k) s (fun t =>
        t.chan d x = { s.chan d x with
          pieces := (s.chan d x).pieces.filter (· != e),
          xfer := if ((s.chan d x).pieces.filter (· != e)).isEmpty then .done else .pending } ∧
        ChansBut d x s t ∧ t.fab.reqs = s.fab.reqs.filter (fun y => y.pkt.rtag != m.rtag) ∧ Unloaded k 4 n s t ∧ OnlyIn [.fab, .dma] s t)) ∧
    (∀ (q : Nat) (src : AddSrc), s.arrives k 6 m n → s.findReq m.rtag = some r → r.pkt.dst = m.src →
      r.pkt.op = 5 → r.purpose = .signal q src → m.status = 0 → (src = .host ∨ src = .scaler ∨
      src = .hardware) →
      Gives (.signalAck k) s (fun t =>
        t.rnat .crnRemoteAdds = (s.rnat .crnRemoteAdds + 1) % 2 ^ 32 ∧ RegsBut [RegName.crnRemoteAdds.key 0 0] s t ∧
        t.fab.reqs = s.fab.reqs.filter (fun y => y.pkt.rtag != m.rtag) ∧ Unloaded k 6 n s t ∧ OnlyIn [.regs, .fab] s t)) ∧
    (∀ (q : Nat) (d : Fin 4) (x : Fin 64), s.arrives k 6 m n → s.findReq m.rtag = some r → r.pkt.dst = m.src →
      r.pkt.op = 5 → r.purpose = .signal q (.dma d x) → m.status = 0 → (s.chan d x).xfer = .signalling →
      (s.chan d x).desc.chain = false →
      Gives (.signalAck k) s (fun t =>
        t.rnat .crnRemoteAdds = (s.rnat .crnRemoteAdds + 1) % 2 ^ 32 ∧
        t.chan d x = { s.chan d x with xfer := .none, st := .idle } ∧ ChansBut d x s t ∧
        RegsBut [RegName.crnRemoteAdds.key 0 0] s t ∧ t.fab.reqs = s.fab.reqs.filter (fun y => y.pkt.rtag != m.rtag) ∧ OnlyIn [.regs, .fab, .dma] s t)) ∧
    (∀ (q : Nat) (src : AddSrc), s.arrives k 6 m n → s.findReq m.rtag = some r → r.pkt.dst = m.src →
      r.pkt.op = 5 → r.purpose = .signal q src → m.status ≠ 0 → (src = .host ∨ src = .scaler ∨
      src = .hardware) →
      Gives (.signalAck k) s (fun t =>
        t.rnat .crnRefused = (s.rnat .crnRefused + 1) % 2 ^ 32 ∧ t.rnat .crnEvent = (s.rnat .crnEvent ||| 4) ||| 2 ∧
        t.rnat .crnRemoteAdds = s.rnat .crnRemoteAdds ∧ t.fab.reqs = s.fab.reqs.filter (fun y => y.pkt.rtag != m.rtag) ∧ OnlyIn [.regs, .fab] s t)) ∧
    (∀ (i : Nat), s.arrives k 8 m n → s.findReq m.rtag = some r → r.pkt.dst = m.src → r.pkt.op = 7 →
      r.purpose = .coll i → m.status ≠ 1 →
      Gives (.collAck k) s (fun t =>
        t.fab.reqs = s.fab.reqs.filter (fun y => y.pkt.rtag != m.rtag) ∧ Unloaded k 8 n s t ∧ t.regs = s.regs ∧ OnlyIn [.fab] s t)) ∧
    (∀ (i : Nat) (x : Inst), s.arrives k 8 m n → s.findReq m.rtag = some r → r.pkt.dst = m.src → r.pkt.op = 7 →
      r.purpose = .coll i → m.status = 1 → s.inst? i = some x → x.e.carries = false →
      x.counted.contains (bits r.pkt.addr 63 32 / 2 ^ 18 % 8 * 65536 * b2n x.e.reduces + bits r.pkt.addr 63 32 / 16 % 2 ^ 14) = false →
      Gives (.collAck k) s (fun t =>
        t.inst? i = some { x with
          counted := x.counted ++
            [bits r.pkt.addr 63 32 / 2 ^ 18 % 8 * 65536 * b2n x.e.reduces + bits r.pkt.addr 63 32 / 16 % 2 ^ 14] } ∧
        t.rnat .nynSkipped = (s.rnat .nynSkipped + 1) % 2 ^ 32 ∧ t.rnat .nynEvent = s.rnat .nynEvent ||| 32 ∧ t.fab.reqs = s.fab.reqs.filter (fun y => y.pkt.rtag != m.rtag) ∧
        RegsBut [RegName.nynSkipped.key 0 0, RegName.nynEvent.key 0 0] s t ∧ OnlyIn [.regs, .fab, .coll] s t)) ∧
    (∀ (d : Fin 4) (x : Fin 64) (i l : Nat) (alt : Bool), s.arrives k 10 m n → s.findReq m.rtag = some r →
      r.pkt.dst = m.src → r.pkt.op = 9 → r.purpose = .reserve d x → (s.chan d x).st = .run →
      (s.chan d x).desc.op = 4 → 0 < (s.chan d x).desc.length → s.isHere (s.chan d x).desc.src = true →
      (s.target (s.chan d x).desc.dst).toOption = some (.there i l) → (s.chanPart d x).isSome = true →
      s.chooseRoute i = some alt →
      Gives (.reserveAck k) s (fun t =>
        (t.chan d x).st = .run ∧ (t.chan d x).xfer = .pending ∧ (t.chan d x).pieces ≠ [] ∧ ChansBut d x s t ∧ t.mem = s.mem ∧
        (∀ y ∈ t.fab.reqs, y ∈ s.fab.reqs ∨ (y.pkt.op = 3 ∧ y.pkt.dst = i)) ∧ OnlyIn [.regs, .fab, .dma] s t)) ∧
    (s.arrives k 2 m n → s.findReq m.rtag = none →
      Gives (.readData k) s (fun t =>
        Unloaded k 2 n s t ∧ t.fab.reqs = s.fab.reqs ∧ t.regs = s.regs ∧ OnlyIn [.fab] s t)) ∧
    (s.arrives k 4 m n → s.findReq m.rtag = none →
      Gives (.writeAck k) s (fun t =>
        Unloaded k 4 n s t ∧ t.fab.reqs = s.fab.reqs ∧ t.regs = s.regs ∧ OnlyIn [.fab] s t)) ∧
    (s.arrives k 6 m n → s.findReq m.rtag = none →
      Gives (.signalAck k) s (fun t =>
        Unloaded k 6 n s t ∧ t.fab.reqs = s.fab.reqs ∧ t.regs = s.regs ∧ OnlyIn [.fab] s t)) ∧
    (s.arrives k 8 m n → s.findReq m.rtag = none →
      Gives (.collAck k) s (fun t =>
        Unloaded k 8 n s t ∧ t.fab.reqs = s.fab.reqs ∧ t.regs = s.regs ∧ OnlyIn [.fab] s t)) ∧
    (s.arrives k 10 m n → s.findReq m.rtag = none →
      Gives (.reserveAck k) s (fun t =>
        Unloaded k 10 n s t ∧ t.fab.reqs = s.fab.reqs ∧ t.regs = s.regs ∧ OnlyIn [.fab] s t))

/-- FAIL, BOUNCE and E2E_RESEND (R339, R340, R352). -/
def Obligations.FailuresAndResends : Prop :=
  ∀ (s : State) (k : Fin 14) (m : Packet) (n : Nat) (r : FabReq), s.noLeftFailures →
    (∀ (q : Nat) (src : AddSrc), s.arrives k 11 m n → s.findReq m.rtag = some r → r.pkt.dst = m.src →
      m.status ≠ 0x0606 → r.purpose = .signal q src → (src = .host ∨ src = .scaler ∨ src = .hardware) →
      Gives (.fail k) s (fun t =>
        t.rnat .crnRefused = (s.rnat .crnRefused + 1) % 2 ^ 32 ∧ t.rnat .crnEvent = (s.rnat .crnEvent ||| 4) ||| 2 ∧
        t.fab.reqs = s.fab.reqs.filter (fun y => y.pkt.rtag != m.rtag) ∧ OnlyIn [.regs, .fab] s t)) ∧
    (∀ (q e : Nat) (d : Fin 4) (x : Fin 64), s.arrives k 11 m n → s.findReq m.rtag = some r →
      r.pkt.dst = m.src → m.status ≠ 0x0606 → (r.purpose = .read d x e ∨ r.purpose = .write d x e) →
      (s.chan d x).st = .run → (s.chan d x).moving = none → (s.chan d x).work = .chain →
      s.chanPart d x = some q → s.notServing q → r.pkt.addr < 2 ^ 64 →
      Gives (.fail k) s (fun t =>
        (t.chan d x).st = .stopped ∧ (t.chan d x).err = m.status ∧ (t.chan d x).fault = r.pkt.addr ∧
        (t.chan d x).errAddr = (s.chan d x).cur ∧ ChansBut d x s t ∧ OnlyIn [.regs, .cad, .crn, .fab, .dma] s t)) ∧
    (∀ (x : Inst), s.arrives k 11 m n → m.status = 0x0606 →
      (s.coll.insts.find? (fun y => y.e.tag == bits m.addr 31 0)) = some x → s.inst? x.entry = some x →
      (x.st = .waiting ∨ x.st = .running) →
      Gives (.fail k) s (fun t =>
        (t.inst? x.entry).map (·.st) = some .failed ∧ bit (t.rnat .nynEvent) 6 = true ∧ bit (t.rnat .nynEvent) 4 = true ∧
        t.rnat .nynLastInfo = (m.aux % 256 * 2 ^ 24 + x.entry * 65536) % 2 ^ 64 ∧ t.mem = s.mem ∧ t.dma = s.dma)) ∧
    (∀ (alt : Bool), s.arrives k 12 m n → s.findReq m.rtag = some r → r.pkt.alt = m.alt →
      r.resends < bits (s.rnat .nynE2eCfg) 23 16 → s.chooseRoute r.pkt.dst = some alt → alt ≠ m.alt →
      Gives (.bounce k) s (fun t =>
        t.findReq m.rtag = some { r with pkt := { r.pkt with alt := alt }, resends := r.resends + 1 } ∧
        Queued (s.route r.pkt.dst alt).1 { r.pkt with alt := alt } s t ∧
        t.rnat .nynResends = (s.rnat .nynResends + 1) % 2 ^ 32 ∧ RegsBut [RegName.nynResends.key 0 0] s t ∧ OnlyIn [.regs, .fab] s t)) ∧
    (s.arrives k 12 m n → s.findReq m.rtag = some r → (r.pkt.alt ≠ m.alt ∨
      bits (s.rnat .nynE2eCfg) 23 16 ≤ r.resends) →
      Gives (.bounce k) s (fun t =>
        Unloaded k 12 n s t ∧ t.fab.reqs = s.fab.reqs ∧ t.regs = s.regs ∧ OnlyIn [.fab] s t)) ∧
    (∀ (alt : Bool), s.findReq m.rtag = some r → r.resends < bits (s.rnat .nynE2eCfg) 23 16 →
      s.chooseRoute r.pkt.dst = some alt →
      Gives (.e2eResend m.rtag) s (fun t =>
        t.findReq m.rtag = some { r with pkt := { r.pkt with alt := alt }, resends := r.resends + 1 } ∧
        Queued (s.route r.pkt.dst alt).1 { r.pkt with alt := alt } s t ∧
        t.rnat .nynResends = (s.rnat .nynResends + 1) % 2 ^ 32 ∧ RegsBut [RegName.nynResends.key 0 0] s t ∧ OnlyIn [.regs, .fab] s t)) ∧
    (s.findReq m.rtag = some r → bits (s.rnat .nynE2eCfg) 23 16 ≤ r.resends →
      Gives (.e2eResend m.rtag) s (fun t =>
        OnlyIn [] s t))

/-- NYN_COLL_ARM, NYN_COLL_DISARM, COLL_ENTRY_START, COLL_DEADLINE, REPLACE_WAIT_EXPIRY and COLL_GRACE_EXPIRY (R342 to R353). -/
def Obligations.CollectiveEntries : Prop :=
  ∀ (s : State), s.noLeftFailures →
    (∀ (p : Path), s.writes p .nynCollCtrl 0 0 1 → s.coll.st = 0 →
      Gives (.nynCollArm p) s (fun t =>
        t.coll = { s.coll with st := 1, disarm := false } ∧ OnlyIn [.pwr, .coll] s t)) ∧
    (∀ (p : Path), s.writes p .nynCollCtrl 0 0 2 → s.coll.st = 1 →
      Gives (.nynCollDisarm p) s (fun t =>
        t.coll = { s.coll with st := 0 } ∧ OnlyIn [.coll] s t)) ∧
    (∀ (p : Path), s.writes p .nynCollCtrl 0 0 2 → s.coll.st = 2 →
      Gives (.nynCollDisarm p) s (fun t =>
        t.coll = { s.coll with disarm := true } ∧ OnlyIn [.coll] s t)) ∧
    (∀ (i : Nat) (x : Inst), s.canStart i x → (s.collAccess x.e).isNone = true → x.e.reduces = false →
      x.e.givers.contains s.ownId = true →
      Gives (.collEntryStart i) s (fun t =>
        t.rd (x.e.dst + (if x.e.op = 4 then 0 else indexIn (idsOf x.e.members) s.ownId * x.e.count)) x.e.count =
          s.rd x.e.src x.e.count ∧
        BytesBut (x.e.dst + (if x.e.op = 4 then 0 else indexIn (idsOf x.e.members) s.ownId * x.e.count)) x.e.count s t ∧
        (t.inst? i).map (fun y => y.got) = some (x.got ++ [s.ownId]) ∧
        ((t.inst? i).map (·.st) = some .running ∨ (t.inst? i).map (·.st) = some .done) ∧ t.tiles = s.tiles ∧ t.dma = s.dma)) ∧
    (∀ (i : Nat) (x : Inst), s.canStart i x → (s.collAccess x.e).isNone = true → x.e.reduces = false →
      x.e.givers.contains s.ownId = false →
      Gives (.collEntryStart i) s (fun t =>
        t.mem = s.mem ∧ ((t.inst? i).map (·.st) = some .running ∨ (t.inst? i).map (·.st) = some .done) ∧
        t.tiles = s.tiles ∧ t.dma = s.dma)) ∧
    (∀ (i : Nat) (x : Inst), s.canStart i x → (s.collAccess x.e).isNone = true → x.e.reduces = true →
      Gives (.collEntryStart i) s (fun t =>
        ((t.inst? i).map (·.st) = some .running ∨ (t.inst? i).map (·.st) = some .done) ∧
        (∀ q ∈ s.shares x.e (x.e.carries && s.coll.carryValid.contains i),
          s.ownId / 8 * 8 + x.e.js.getD q.1 0 = s.ownId ∨ s.chooseRoute (s.ownId / 8 * 8 + x.e.js.getD q.1 0) = none ∨
          t.fab.reqs.any (fun r => r.pkt.op == 7 && r.pkt.dst == s.ownId / 8 * 8 + x.e.js.getD q.1 0
            && r.pkt.addr == x.e.tag + collField 0 0 q.1 q.2.1 0 * 2 ^ 32 && r.pkt.data == q.2.2.2.take 65536) = true) ∧
        t.tiles = s.tiles ∧ t.dma = s.dma)) ∧
    (∀ (i : Nat) (x : Inst), s.canStart i x → (s.collAccess x.e).isSome = true →
      Gives (.collEntryStart i) s (fun t =>
        (t.inst? i).map (·.st) = some .failed ∧ bit (t.rnat .nynEvent) 6 = true ∧ t.mem = s.mem ∧ t.tiles = s.tiles ∧ t.dma = s.dma)) ∧
    (∀ (i : Nat) (x : Inst), s.inst? i = some x → x.deadlineDone = false → x.st ≠ .failed → x.e.d ≤ s.phaseInt →
      x.e.skip = false → (s.lates x).isEmpty = false →
      Gives (.collDeadline i) s (fun t =>
        t.inst? i = some { x with deadlineDone := true } ∧ t.cad.holdColl = s.cad.holdColl ++ [i] ∧
        t.rnat .cadLateCount = (s.rnat .cadLateCount + (s.lates x).length) % 2 ^ 32 ∧ t.rnat .cadLastLate = s.stepPhase % 2 ^ 64 ∧
        bit (t.rnat .cadEvent) 7 = true ∧ OnlyIn [.regs, .cad, .coll] s t)) ∧
    (∀ (i : Nat) (x : Inst), s.inst? i = some x → x.deadlineDone = false → x.st ≠ .failed → x.e.d ≤ s.phaseInt →
      (s.lates x).isEmpty = true →
      Gives (.collDeadline i) s (fun t =>
        t.inst? i = some { x with deadlineDone := true } ∧ t.regs = s.regs ∧ OnlyIn [.coll] s t)) ∧
    (∀ (i : Nat) (x : Inst), s.inst? i = some x → x.deadlineDone = false → x.st = .waiting →
      x.e.d ≤ s.phaseInt → x.e.skip = true → x.e.reduces = false → (s.lates x).isEmpty = false →
      Gives (.collDeadline i) s (fun t =>
        t.inst? i = some { x with
          deadlineDone := true, got := x.got ++ s.lates x, missing := x.missing ||| ((s.lates x).map (2 ^ ·)).sum } ∧
        t.rnat .nynSkipped = (s.rnat .nynSkipped + (s.lates x).length * ceilDiv x.e.count 65536) % 2 ^ 32 ∧
        t.rget .nynCollMiss = s.rget .nynCollMiss ||| BitVec.ofNat 64 ((s.lates x).map (2 ^ ·)).sum ∧
        OnlyIn [.regs, .coll] s t)) ∧
    (∀ (i w : Nat) (x : Inst), s.inst? i = some x → s.cad.holdColl.contains i = true →
      (s.lates x).head? = some w → (x.st = .waiting ∨ x.st = .running) →
      Gives (.replaceWaitExpiry i) s (fun t =>
        (t.inst? i).map (·.st) = some .failed ∧ i ∉ t.cad.holdColl ∧ bit (t.rnat .nynEvent) 6 = true ∧
        bit (t.rnat .nynEvent) 4 = true ∧ t.rnat .nynLastInfo = (w * 2 ^ 24 + i * 65536) % 2 ^ 64 ∧
        t.mem = s.mem ∧ t.tiles = s.tiles ∧ t.dma = s.dma)) ∧
    (∀ (i w : Nat) (x : Inst), s.inst? i = some x → x.st = .running → x.e.d ≤ s.phaseInt → x.e.reduces = false →
      x.e.givers.find? (fun m => !x.got.contains m) = some w →
      Gives (.collGraceExpiry i) s (fun t =>
        (t.inst? i).map (·.st) = some .failed ∧ bit (t.rnat .nynEvent) 6 = true ∧ bit (t.rnat .nynEvent) 4 = true ∧
        t.rnat .nynLastInfo = (w * 2 ^ 24 + i * 65536) % 2 ^ 64 ∧ t.mem = s.mem ∧ t.tiles = s.tiles ∧ t.dma = s.dma)) ∧
    (∀ (i j : Nat) (x : Inst), s.inst? i = some x → x.st = .running → x.e.d ≤ s.phaseInt → x.e.reduces = true →
      s.unheard x = some j →
      Gives (.collGraceExpiry i) s (fun t =>
        (t.inst? i).map (·.st) = some .failed ∧ bit (t.rnat .nynEvent) 4 = true ∧
        t.rnat .nynLastInfo = ((s.ownId / 8 * 8 + x.e.js.getD j 0) * 2 ^ 24 + i * 65536) % 2 ^ 64 ∧
        t.mem = s.mem ∧ t.tiles = s.tiles ∧ t.dma = s.dma))

/-- DEFINE, UNDEFINE, SWAP_IN, SWAP_OUT, SWAP_START and SWAP_PIECE_DONE (R366 to R368). -/
def Obligations.ModelCommands : Prop :=
  ∀ (s : State) (a : Fin 8) (m : Fin 16), s.noLeftFailures →
    (∀ (p : Path) (rec pcs : List Byte) (x : Model), s.writes p .srvModelCmd a 0 (1 + m.val * 16) →
      (s.model a m).state = 0 → s.defineCheck a m rec pcs = some x →
      Gives (.define p a m rec pcs) s (fun t =>
        t.model a m = x ∧ (∀ g ∈ x.pieces, ∀ h ∈ t.hold? g.hold, h.by_ = .piece m) ∧
        t.tier.reserves = s.tier.reserves ++ x.pieces.flatMap (fun g => [g.slope, g.rest].map (fun b =>
          ({ part := a, base := b, size := g.size, arena := false, model := true } : Reserve))) ∧ OnlyIn [.tier, .srv] s t)) ∧
    (∀ (p : Path) (rec pcs : List Byte), s.writes p .srvModelCmd a 0 (1 + m.val * 16) →
      ((s.model a m).state ≠ 0 ∨ s.defineCheck a m rec pcs = none) →
      Gives (.define p a m rec pcs) s (fun t =>
        OnlyIn [.regs] s t)) ∧
    (∀ (p : Path), s.writes p .srvModelCmd a 0 (2 + m.val * 16) → s.undefineOk a m = true →
      Gives (.undefine p a m) s (fun t =>
        t.model a m = {} ∧ (t.srvPart a).swaps = (s.srvPart a).swaps.filter (fun q => q.model != m.val) ∧
        (∀ k : Fin 16, k = m ∨ t.model a k = s.model a k) ∧ OnlyIn [.tier, .srv] s t)) ∧
    (∀ (p : Path), s.writes p .srvModelCmd a 0 (2 + m.val * 16) → s.undefineOk a m = false →
      Gives (.undefine p a m) s (fun t =>
        OnlyIn [] s t)) ∧
    (∀ (p : Path), s.writes p .srvModelCmd a 0 (3 + m.val * 16) → ((s.model a m).state = 1 ∨
      (s.model a m).state = 2 ∨ (s.model a m).state = 4) →
      Gives (.swapIn p a m) s (fun t =>
        (t.srvPart a).swaps = (s.srvPart a).swaps ++ [⟨m, false, false⟩] ∧ (∀ k : Fin 16, t.model a k = s.model a k) ∧ OnlyIn [.srv] s t)) ∧
    (∀ (p : Path), s.writes p .srvModelCmd a 0 (3 + m.val * 16) → ((s.model a m).state = 0 ∨
      (s.model a m).state = 3 ∨ (s.model a m).state = 5) →
      Gives (.swapIn p a m) s (fun t =>
        OnlyIn [] s t)) ∧
    (∀ (p : Path), s.writes p .srvModelCmd a 0 (4 + m.val * 16) → ((s.model a m).state = 2 ∨
      (s.model a m).state = 3 ∨ (s.model a m).state = 4) →
      Gives (.swapOut p a m) s (fun t =>
        (t.srvPart a).swaps = (s.srvPart a).swaps ++ [⟨m, true, false⟩] ∧ (∀ k : Fin 16, t.model a k = s.model a k) ∧ OnlyIn [.srv] s t)) ∧
    (∀ (p : Path), s.writes p .srvModelCmd a 0 (4 + m.val * 16) → ((s.model a m).state = 0 ∨
      (s.model a m).state = 1 ∨ (s.model a m).state = 5) →
      Gives (.swapOut p a m) s (fun t =>
        OnlyIn [] s t)) ∧
    (∀ (rest : List SwapReq) (auto : Bool), (s.srvPart a).swap = none → (s.srvPart a).swaps = ⟨m, true,
      auto⟩ :: rest → (s.model a m).state = 3 → s.modelBusy a m = false → (s.model a m).pieces ≠ [] →
      Gives (.swapStart a) s (fun t =>
        (t.model a m).state = 4 ∧ (t.srvPart a).swaps = rest ∧ ((t.srvPart a).swap.map (·.model)) = some m.val ∧
        (∀ k : Fin 16, k = m ∨ t.model a k = s.model a k) ∧ t.mem = s.mem ∧ t.regs = s.regs)) ∧
    (∀ (rest : List SwapReq) (auto : Bool), (s.srvPart a).swap = none → (s.srvPart a).swaps = ⟨m, false,
      auto⟩ :: rest → (s.model a m).state = 1 → s.displaces a m = [] →
      Gives (.swapStart a) s (fun t =>
        (t.model a m).state = 2 ∧ (t.srvPart a).swaps = rest ∧ ((t.srvPart a).swap.map (·.bringing)) = some true ∧
        (∀ k : Fin 16, k = m ∨ t.model a k = s.model a k) ∧ t.mem = s.mem ∧ t.regs = s.regs)) ∧
    (∀ (d : Fin 4) (n : Fin 64) (i id b : Nat) (h : Holding) (g : PieceSt), (s.chan d n).st = .run →
      (s.chan d n).work = .piece a m i → (s.chan d n).moving = some id → s.hold? id = some h → h.dest = some b →
      s.isHere (s.devAddr b) = true → localOf (s.devAddr b) = b → isValley h.base = false → id ∉ s.scl.dying →
      (s.model a m).pieces[i]? = some g →
      Gives (.swapPieceDone d n [] .clean) s (fun t =>
        (t.hold? id).map (·.base) = some b ∧ t.rd b (h.size * granule) = s.rd h.base (h.size * granule) ∧
        BytesBut b (h.size * granule) s t ∧ (t.model a m).pieces[i]?.map (·.inSlope) = some (!g.inSlope)))

/-- PART_ONLINE_WRITE, SRV_SLOTS_WRITE, PREFILL_CHUNK_DONE, HANDOVER_MOVE_DONE, SAMPLER_SERVE, WALK_COMPLETE, INSERTION, INIT and FLUSH (chapters 13 and 14). -/
def Obligations.GenerationCommands : Prop :=
  ∀ (s : State) (a : Fin 8), s.noLeftFailures →
    (∀ (p : Path) (on : Bool), s.writes p .srvPartCtrl a 0 (b2n on) →
      Gives (.partOnlineWrite p a on) s (fun t =>
        t.rnat .srvPartCtrl a = b2n on ∧ RegsBut [RegName.srvPartCtrl.key a 0] s t ∧ OnlyIn [.regs] s t)) ∧
    (∀ (p : Path) (v : W32), s.writes p .srvSlots a 0 v.toNat →
      RegName.srvSlots.fieldOk a (v.toNat &&& RegName.srvSlots.row.mask) = true →
      s.rwAccept p.idx .srvSlots a 0 (v.toNat &&& RegName.srvSlots.row.mask) = true →
      Gives (.srvSlotsWrite p a v) s (fun t =>
        t.rnat .srvSlots a = v.toNat &&& RegName.srvSlots.row.mask ∧ RegsBut [RegName.srvSlots.key a 0] s t ∧
        OnlyIn [.regs] s t)) ∧
    (∀ (i : Nat) (c : Chunk) (rest : List Chunk) (x : Req),
      (s.localRef a (bits (s.rnat .srvListCairns a) 47 32)).toOption = some i →
      s.cairn i = (s.srvPart a).pdSeen + 1 → (s.srvPart a).pdSeen < 2 ^ 31 → (s.srvPart a).out = c :: rest →
      s.req? c.req = some x → x.serial = c.serial → x.stage = .prefill → c.last = false →
      s.rbit .srvTreeCfg 1 a = false → (s.srvPart a).promptStop = true → s.srv.left = [] →
      s.rbit .srvHandoverCfg 6 a = false →
      Gives (.prefillChunkDone a) s (fun t =>
        (t.srvPart a).pdSeen = (s.srvPart a).pdSeen + 1 ∧ (t.srvPart a).out = rest ∧
        t.req? c.req = some { x with
          pages := markDone (c.first + c.tokens) false x.pages, dpages := markDone (c.first + c.tokens) false x.dpages } ∧
        OnlyIn [.srv] s t)) ∧
    (∀ (d : Fin 4) (n : Fin 64) (r page id b : Nat) (h : Holding) (x : Req) (g : KvPage),
      (s.chan d n).st = .run → (s.chan d n).work = .handover r page → (s.chan d n).moving = some id →
      s.hold? id = some h → h.owner = a.val → h.dest = some b → s.isHere (s.devAddr b) = true →
      localOf (s.devAddr b) = b → isValley h.base = false → id ∉ s.scl.dying → s.srv.left = [] →
      s.req? r = some x → page % 2 = 0 → NMap.get? x.pages (page / 2) = some g → g.hold = id →
      x.stage ≠ .handover → x.hold ≠ some id → (b + h.size * granule ≤ s.tableBase x ∨
      s.tableBase x + 144 + 16 * (page / 2) ≤ b) →
      Gives (.handoverMoveDone d n .clean) s (fun t =>
        (t.hold? id).map (·.base) = some b ∧ t.rd b (h.size * granule) = s.rd h.base (h.size * granule) ∧
        t.req? r = some { x with pages := NMap.put x.pages (page / 2) { g with handed := true } })) ∧
    ((s.srvPart a).toSample = true → s.logitsReady a = true → s.streamRoom a = false →
      (s.fnSt (s.fnOf a)).streamWait = false →
      Gives (.samplerServe a) s (fun t =>
        (t.fnSt (s.fnOf a)).streamWait = true ∧
        t.rnat .hifStreamWaits (s.fnOf a) = (s.rnat .hifStreamWaits (s.fnOf a) + 1) % 2 ^ 32 ∧
        RegsBut [RegName.hifStreamWaits.key (s.fnOf a) 0] s t ∧ OnlyIn [.regs, .hif] s t)) ∧
    (∀ (i : Nat), (s.srvPart a).toSample = true → s.logitsReady a = true → s.streamRoom a = true →
      s.samples a = [] → (s.localRef a (bits (s.rnat .srvSampleCairns a) 31 16)).toOption = some i →
      bits (s.rnat .srvSampleCairns a) 31 31 = 0 →
      Gives (.samplerServe a) s (fun t =>
        (t.srvPart a).toSample = false ∧ (t.fnSt (s.fnOf a)).streamWait = false ∧ t.cairn i = (s.cairn i + 1) % 2 ^ 32 ∧
        CairnsBut i s t ∧ OnlyIn [.hif, .crn, .srv] s t)) ∧
    (∀ (i r : Nat) (x : Req) (o : Sampled), (s.srvPart a).toSample = true → s.logitsReady a = true →
      s.streamRoom a = true → s.samples a = [(r, x, o)] → s.req? r = some x → o.code = 0 → o.finished = false →
      o.toks ≠ [] → x.samp.specK = 0 → s.ptGet x false 40 8 = 0 → s.rbit .hifRingVec 31 (s.fnOf a) = false →
      (s.fnSt (s.fnOf a)).strTail + alignUp (256 + 16 * o.toks.length) 256 ≤ s.rnat .hifStrLen (s.fnOf a) * 65536 →
      (s.localRef a (bits (s.rnat .srvSampleCairns a) 31 16)).toOption = some i →
      bits (s.rnat .srvSampleCairns a) 31 31 = 0 →
      Gives (.samplerServe a) s (fun t =>
        Sent (.hostWrite (s.fnOf a) (s.rnat .hifStrBase (s.fnOf a) + (s.fnSt (s.fnOf a)).strTail)
          (recordHeader s.cad.step a (s.fnSt (s.fnOf a)).strPhase false o.toks.length
            (alignUp (256 + 16 * o.toks.length) 256) 0 (s.generatingOf a).length
            (streamEntries x.tag (s.ptGet x false 0 4) o).flatten ++ (streamEntries x.tag (s.ptGet x false 0 4) o).flatten)) s t ∧
        t.req? r = some { x with streamed := x.streamed + o.toks.length } ∧
        t.ptGet x false 0 4 = (s.ptGet x false 0 4 + o.toks.length) % 2 ^ 32 ∧
        t.ptGet x false 24 4 = o.toks.getLastD 0 % 2 ^ 32 ∧
        t.rnat .srvTokens a = (s.rnat .srvTokens a + o.toks.length) % 2 ^ (if RegName.srvTokens.row.w64 then 64 else 32) ∧
        t.cairn i = (s.cairn i + 1) % 2 ^ 32 ∧ (t.srvPart a).toSample = false)) ∧
    (∀ (r : Nat) (x : Req) (ext : List Byte), s.nextWalk = some (a.val, r, x) → s.rbit .srvTreeCfg 0 a = false →
      x.samp.penalised = false → 2 ≤ x.plen → (s.srvPart a).promptStop = true →
      Gives (.walkComplete ext) s (fun t =>
        t.req? r = some { x with
          walked := true, next := 0, lastTok := fieldAt (s.devBytes x.paddr (4 * x.plen) ext) (4 * (x.plen - 1)) 4 } ∧
        (t.srvPart a).walks = (s.srvPart a).walks.filter (fun e => decide (e ≠ (r, x.serial))) ∧
        t.ptGet x false 0 4 = 0 ∧ t.ptGet x false 16 4 = 0 ∧ BytesBut (s.tableBase x) 20 s t ∧ OnlyIn [.regs, .mem, .srv] s t)) ∧
    (∀ (r serial n : Nat) (rest : List (Nat × Nat × Nat)) (x : Req) (g : KvPage) (ext : List Byte),
      (s.srvPart a).inserts = (r, serial, n) :: rest → s.req? r = some x → x.serial = serial →
      NMap.get? x.pages n = some g → g.kind = 1 → g.pend = true → n ≠ 0 →
      (NMap.get? x.pages (n - 1)).all (fun q => q.kind != 2) = true → x.stage ≠ .handover →
      s.rbit .srvHandoverCfg 6 a = false →
      Gives (.insertion a ext) s (fun t =>
        t.req? r = some { x with pages := NMap.put x.pages n { g with pend := false } } ∧
        (t.srvPart a).inserts = rest ∧ OnlyIn [.srv] s t)) ∧
    (∀ (m : Fin 16) (p : Path), s.writes p .srvTreeCmd a 0 (1 + m.val * 16) →
      Gives (.init p a m) s (fun t =>
        t.rd (s.nodeAddr a m) 128 = Node.bytes { parent := m, model := m } ∧ NMap.get? (t.srvPart a).nodes m = some m.val ∧
        (∀ e ∈ (t.srvPart a).nodes, e.1 < 16 ∨ e.2 ≠ m.val) ∧ OnlyIn [.mem, .tier, .srv] s t)) ∧
    (∀ (m : Fin 16) (p : Path) (n id : Nat) (root x : Node) (h : Holding),
      s.writes p .srvTreeCmd a 0 (2 + m.val * 16) → (s.srvPart a).nodes = [(m.val, m.val), (n, m.val)] →
      16 ≤ n → n < 2 ^ 32 - 1 → s.node? a m = some root → root.child = n → s.node? a n = some x →
      x.hasPage = true → x.refs = 0 → x.child = noNode → x.sibling = noNode → s.nodeHold x = some id →
      s.hold? id = some h → h.by_ = .tree m → s.reqsOf a = [] → s.srv.left = [] →
      Gives (.flush p a m) s (fun t =>
        (t.srvPart a).nodes = [(m.val, m.val)] ∧ (t.node? a m).map (·.child) = some noNode ∧ t.hold? id = none ∧
        OnlyIn [.mem, .tier, .srv] s t))

/-- The commands NOP, ALLOC, RELEASE, CMD_MOVE and TOUCH (R114 to R124, R479). The lowest free ID is the model's choice (log entry 6). -/
def Obligations.HoldingCommands : Prop :=
  ∀ (s : State) (f : Fin 9) (c : Taken) (rest : List Taken), s.noLeftFailures →
    (s.front f 0x00 c rest →
      Gives (.nop f) s (fun t =>
        Completed f rest { tag := c.tag, kind := 1 } s t ∧ t.hif.windows = s.hif.windows ∧ OnlyIn [.hif] s t)) ∧
    (∀ (p b : Nat), s.front f 0x01 c rest →
      (if f = 0 then (s.part? (fieldAt c.bytes 11 1)).map (·.id) else (s.partOfFn f).map (·.id)) = some p →
      s.tableFull = false → ((fieldAt c.bytes 8 1) < 2 ∨
      (fieldAt c.bytes 12 4) ≤ s.quotaLeft p (fieldAt c.bytes 8 1)) → (2 ≤ (fieldAt c.bytes 8 1) ∨
      (fieldAt c.bytes 9 1) ≠ 1 ∨ s.partUnits p + (fieldAt c.bytes 12 4) ≤ s.shareUnits p) →
      ((fieldAt c.bytes 16 8) = 0 ∧
      s.place p (fieldAt c.bytes 8 1) (fieldAt c.bytes 10 1) (fieldAt c.bytes 12 4) true = some b ∨
      (fieldAt c.bytes 16 8) ≠ 0 ∧ b = (fieldAt c.bytes 16 8) ∧
      (s.decode b ((fieldAt c.bytes 12 4) * granule)).toOption.isSome = true ∧ (f = 0 ∨
      s.windowOk p b ((fieldAt c.bytes 12 4) * granule) 0 = true) ∧
      s.rangeFree b (fieldAt c.bytes 12 4) = true ∧ s.rangeClean p b (fieldAt c.bytes 12 4) = true) →
      Gives (.alloc f) s (fun t =>
        t.hold? s.newId = some { owner := p, hint := (fieldAt c.bytes 9 1), base := b, size := (fieldAt c.bytes 12 4), touch := s.stepPhase } ∧
        HoldingsBut s.newId s t ∧ s.hold? s.newId = none ∧
        Completed f rest { tag := c.tag, kind := 1, v32 := s.newId, v64 := b } s t ∧ OnlyIn [.hif, .tier] s t)) ∧
    (∀ (h : Holding), s.front f 0x02 c rest → s.namedHold f (fieldAt c.bytes 8 4) = some h → h.by_ = .host →
      h.state ≠ 2 →
      Gives (.release f) s (fun t =>
        t.hold? (fieldAt c.bytes 8 4) = none ∧ HoldingsBut (fieldAt c.bytes 8 4) s t ∧ Completed f rest { tag := c.tag, kind := 1 } s t ∧ t.mem = s.mem ∧ OnlyIn [.hif, .tier] s t)) ∧
    (s.front f 0x02 c rest → s.namedHold f (fieldAt c.bytes 8 4) = none →
      Gives (.release f) s (fun t =>
        Completed f rest { tag := c.tag, kind := 1, result := 1, code := 0x0309 } s t ∧ OnlyIn [.regs, .hif] s t)) ∧
    (∀ (h : Holding), s.front f 0x02 c rest → s.namedHold f (fieldAt c.bytes 8 4) = some h → h.by_ = .host →
      h.state = 2 →
      Gives (.release f) s (fun t =>
        Completed f rest { tag := c.tag, kind := 1, result := 1, code := 0x0308 } s t ∧ OnlyIn [.regs, .hif] s t)) ∧
    (∀ (d : Fin 4) (n : Fin 63) (h : Holding), s.front f 0x03 c rest →
      s.namedHold f (fieldAt c.bytes 8 4) = some h → h.by_ = .host → (fieldAt c.bytes 12 1) = d →
      (fieldAt c.bytes 13 1) = n → s.scalerOwned d n = false → s.ownerChan d n = some h.owner →
      (s.chan d n).st = .idle →
      Gives (.cmdMove f) s (fun t =>
        t.chan d n = { s.chan d n with
          st := .wait, work := .hostMove f c.tag, cur := 0, hops := 0, startReached := true, waitDone := true, startAt := none,
          deadline := none, xfer := .none, done := 0, late := false,
          desc := moveDesc (s.devAddr h.base) (s.devAddr (fieldAt c.bytes 16 8)) (h.size * granule) } ∧
        ChansBut d n s t ∧ t.fnSt f = { s.fnSt f with taken := rest } ∧ FnsBut f s t ∧ OnlyIn [.hif, .pwr, .dma] s t)) ∧
    (∀ (h : Holding), s.front f 0x04 c rest → s.namedHold f (fieldAt c.bytes 8 4) = some h →
      Gives (.touch f) s (fun t =>
        t.hold? (fieldAt c.bytes 8 4) = some { h with touch := s.stepPhase } ∧ HoldingsBut (fieldAt c.bytes 8 4) s t ∧ Completed f rest { tag := c.tag, kind := 1 } s t ∧ OnlyIn [.hif, .tier] s t))

/-- The commands DMA_GO, DMA_ABORT, DMA_CLEAR, CTX_GO, CTX_STOP and CTX_CLEAR (R216, R230, R231, R264, R479). -/
def Obligations.DeviceCommands : Prop :=
  ∀ (s : State) (f : Fin 9) (c : Taken) (rest : List Taken), s.noLeftFailures →
    (∀ (d : Fin 4) (n : Fin 64), s.front f 0x10 c rest → (fieldAt c.bytes 8 1) = d → (fieldAt c.bytes 9 1) = n →
      s.startRefusal ((s.partOfFn f).map (·.id)) d n (fieldAt c.bytes 16 8) = none →
      Gives (.dmaGo f) s (fun t =>
        t.chan d n = { s.chan d n with
          st := .fetch, work := .chain, hops := 0, limit := bits (s.rnat .dmaHopLimit d) 15 0, fetchAddr := (fieldAt c.bytes 16 8) } ∧
        t.rnat .dmaChHead d n = (fieldAt c.bytes 16 8) ∧ RegsBut [RegName.dmaChHead.key d n] s t ∧
        ChansBut d n s t ∧ Completed f rest { tag := c.tag, kind := 1 } s t ∧ OnlyIn [.regs, .hif, .pwr, .dma] s t)) ∧
    (∀ (code : Nat), s.front f 0x10 c rest →
      s.startRefusal ((s.partOfFn f).map (·.id)) (fieldAt c.bytes 8 1) (fieldAt c.bytes 9 1) (fieldAt c.bytes 16 8) = some code →
      Gives (.dmaGo f) s (fun t =>
        Completed f rest { tag := c.tag, kind := 1, result := 1, code := code } s t ∧ OnlyIn [.regs, .hif] s t)) ∧
    (∀ (d : Fin 4) (n : Fin 63) (q : Nat), s.front f 0x11 c rest → (fieldAt c.bytes 8 1) = d →
      (fieldAt c.bytes 9 1) = n → (f = 0 ∨ s.ownerChan d n = (s.partOfFn f).map (·.id)) →
      ((s.chan d n).st = .fetch ∨ (s.chan d n).st = .wait) → (s.chan d n).moving = none →
      (s.chan d n).work = .chain → s.chanPart d n = some q → s.notServing q →
      Gives (.dmaAbort f) s (fun t =>
        (t.chan d n).st = .stopped ∧ (t.chan d n).err = 0x0104 ∧ (t.chan d n).slot = none ∧ (t.chan d n).bays = 0 ∧
        (t.chan d n).errAddr = (if (s.chan d n).st = .fetch then (s.chan d n).fetchAddr else (s.chan d n).cur) ∧
        ChansBut d n s t ∧ Completed f rest { tag := c.tag, kind := 1 } s t ∧ OnlyIn [.regs, .cad, .hif, .crn, .fab, .dma] s t)) ∧
    (∀ (d : Fin 4) (n : Fin 63), s.front f 0x12 c rest → (fieldAt c.bytes 8 1) = d → (fieldAt c.bytes 9 1) = n →
      (f = 0 ∨ s.ownerChan d n = (s.partOfFn f).map (·.id)) → (s.chan d n).st = .stopped →
      Gives (.dmaClear f) s (fun t =>
        t.chan d n = { s.chan d n with st := .idle } ∧ ChansBut d n s t ∧ Completed f rest { tag := c.tag, kind := 1 } s t ∧ OnlyIn [.hif, .dma] s t)) ∧
    (∀ (x : Fin 24) (y : Fin 4), s.front f 0x18 c rest → (fieldAt c.bytes 8 1) = x → (fieldAt c.bytes 9 1) = y →
      s.ctxGoRefusal ((s.partOfFn f).map (·.id)) x y = none →
      Gives (.ctxGo f) s (fun t =>
        t.ctx x y = { s.ctx x y with
          st := .run, pc := (fieldAt c.bytes 16 8), scaler := false, late := false, wait := .none, deadline := none, startAt := none,
          seg := none } ∧
        t.rnat .tilCtxPc x y = (fieldAt c.bytes 16 8) ∧ RegsBut [RegName.tilCtxPc.key x y] s t ∧
        CtxsBut x y s t ∧ ArraysSame s t ∧ Completed f rest { tag := c.tag, kind := 1 } s t ∧ OnlyIn [.regs, .hif, .pwr, .tiles] s t)) ∧
    (∀ (code : Nat), s.front f 0x18 c rest →
      s.ctxGoRefusal ((s.partOfFn f).map (·.id)) (fieldAt c.bytes 8 1) (fieldAt c.bytes 9 1) = some code →
      Gives (.ctxGo f) s (fun t =>
        Completed f rest { tag := c.tag, kind := 1, result := 1, code := code } s t ∧ OnlyIn [.regs, .hif] s t)) ∧
    (∀ (x : Fin 24) (y : Fin 4) (q : Nat), s.front f 0x19 c rest → (fieldAt c.bytes 8 1) = x →
      (fieldAt c.bytes 9 1) = y → f.val ≠ 0 → (s.partOfFn f).map (·.id) = some q → s.ownerTile x = some q →
      ((s.ctx x y).st = .run ∨ (s.ctx x y).st = .wait) → s.notServing q → (s.ledger q).inForce = none →
      s.rbit .tilCtxErrCairn 16 x y = false →
      Gives (.ctxStop f) s (fun t =>
        t.ctx x y = { s.ctx x y with
          st := .fault, err := 0x0A24, errPc := (s.ctx x y).pc, wait := .none, late := false, deadline := none,
          startAt := none, posted := [] } ∧
        t.mem = (s.ctx x y).overlay s.mem ∧ CtxsBut x y s t ∧ ArraysSame s t ∧ Completed f rest { tag := c.tag, kind := 1 } s t ∧
        OnlyIn [.regs, .mem, .cad, .hif, .crn, .tiles] s t)) ∧
    (∀ (x : Fin 24) (y : Fin 4) (q : Nat), s.front f 0x1A c rest → (fieldAt c.bytes 8 1) = x →
      (fieldAt c.bytes 9 1) = y → f.val ≠ 0 → (s.partOfFn f).map (·.id) = some q → s.ownerTile x = some q →
      (s.ctx x y).st = .fault →
      Gives (.ctxClear f) s (fun t =>
        t.ctx x y = { s.ctx x y with st := .idle, scaler := false, seg := none } ∧ CtxsBut x y s t ∧ ArraysSame s t ∧
        Completed f rest { tag := c.tag, kind := 1 } s t ∧ OnlyIn [.hif, .tiles] s t))

/-- SUBMIT, CANCEL, PAUSE, RESUME, GRANT, REVOKE and REVOKE_COMPLETE (chapters 13 and 18). -/
def Obligations.RequestAndWindowCommands : Prop :=
  ∀ (s : State) (f : Fin 9) (c : Taken) (rest : List Taken), s.noLeftFailures →
    (∀ (q r : Nat) (ext : List Byte), s.front f 0x20 c rest → (s.partOfFn f).map (·.id) = some q →
      s.fnOf q = f → (∀ e ∈ s.reqsOf q, e.2.tag ≠ c.tag) → s.checkAccess q (fieldAt c.bytes 24 8) 64 1 = none →
      s.samplingOk q (fieldAt c.bytes 8 1) (s.devBytes (fieldAt c.bytes 24 8) 64 ext) = true →
      (fieldAt c.bytes 10 2) < s.rnat .admAccounts q → s.online q = true → s.freeReq q = some r →
      (s.waitingOf q (fieldAt c.bytes 10 2)).length < s.rnat .admQdepth q →
      s.neverFits q (fieldAt c.bytes 8 1) (fieldAt c.bytes 12 4) (parseSampling (s.devBytes (fieldAt c.bytes 24 8) 64 ext)) = false →
      s.overHard q (fieldAt c.bytes 10 2) = false → (s.model q (fieldAt c.bytes 8 1)).state = 3 →
      s.toGo q (fieldAt c.bytes 8 1) = false →
      Gives (.cmdSubmit f ext) s (fun t =>
        t.req? r = some {
          part := q, tag := c.tag, st := fsmInitial (s.fsmBody q 3), model := (fieldAt c.bytes 8 1), account := (fieldAt c.bytes 10 2), plen := (fieldAt c.bytes 12 4),
          paddr := (fieldAt c.bytes 16 8), samp := (parseSampling (s.devBytes (fieldAt c.bytes 24 8) 64 ext)), serial := s.srv.nextSerial } ∧
        t.srv.nextSerial = s.srv.nextSerial + 1 ∧
        t.fnSt f = { s.fnSt f with taken := rest, reserved := (s.fnSt f).reserved - 1 } ∧ FnsBut f s t ∧
        OnlyIn [.hif, .srv] s t)) ∧
    (∀ (q : Nat) (ext : List Byte), s.front f 0x20 c rest → (s.partOfFn f).map (·.id) = some q → s.fnOf q = f →
      (∀ e ∈ s.reqsOf q, e.2.tag ≠ c.tag) → s.checkAccess q (fieldAt c.bytes 24 8) 64 1 = none →
      s.samplingOk q (fieldAt c.bytes 8 1) (s.devBytes (fieldAt c.bytes 24 8) 64 ext) = true →
      (fieldAt c.bytes 10 2) < s.rnat .admAccounts q → s.online q = false →
      Gives (.cmdSubmit f ext) s (fun t =>
        t.fnSt f = { s.fnSt f with
          taken := rest,
          ready := (s.fnSt f).ready ++ [{ tag := c.tag, kind := 2, result := 2, code := 0x0824, v64 := 2 ^ 64 - 1, own := true }] } ∧
        t.srv.reqs = s.srv.reqs ∧ t.rnat .admRefusals q = (s.rnat .admRefusals q + 1) % 2 ^ 32 ∧
        (t.acct q (fieldAt c.bytes 10 2)).last = 0x24 ∧ OnlyIn [.regs, .hif, .srv] s t)) ∧
    (∀ (q r : Nat) (x : Req) (cell : Cell), s.front f 0x21 c rest → (s.partOfFn f).map (·.id) = some q →
      s.tagged q c.tag = some r → s.req? r = some x → x.part = q → s.reqCell r 0 = some cell → cell.action = 8 →
      Gives (.cancel f) s (fun t =>
        (t.req? r).map (·.stage) = some .ended ∧
        t.rnat .srvCancels q = (s.rnat .srvCancels q + 1) % 2 ^ 32 ∧ (t.fnSt f).ready.getLast? = some { tag := c.tag, kind := 1 } ∧ (t.fnSt f).taken = rest)) ∧
    (∀ (q r : Nat) (x : Req) (cell : Cell), s.front f 0x22 c rest → (s.partOfFn f).map (·.id) = some q →
      s.tagged q c.tag = some r → s.req? r = some x → x.part = q → s.reqCell r 10 = some cell →
      cell.action = 5 → s.scl.park.length < 16384 →
      Gives (.pause f) s (fun t =>
        (t.req? r).map (fun y => (y.stage, y.slot, y.st)) = some (.paused, none, cell.next) ∧
        t.scl.park.length = s.scl.park.length + 1 ∧
        (t.scl.park.getLast?).map (fun y => (y.part, y.req, y.expiry)) =
          some (q, r, s.cad.step + (if (fieldAt c.bytes 8 4) = 0 then s.rnat .sclKvTtl q else (fieldAt c.bytes 8 4))) ∧
        Completed f rest { tag := c.tag, kind := 1 } s t ∧ OnlyIn [.mem, .hif, .scl, .tier, .srv] s t)) ∧
    (∀ (q r k : Nat) (x : Req) (cell : Cell) (y : Parked), s.front f 0x23 c rest →
      (s.partOfFn f).map (·.id) = some q → s.tagged q c.tag = some r → s.req? r = some x → x.part = q →
      s.reqCell r 1 = some cell → cell.action = 6 → s.freeSlotOf q = some k →
      s.committed q + s.resumeNeed x ≤ s.kvLimit q → s.parkOf q r = some y → s.parkLost y = false →
      Gives (.resume f) s (fun t =>
        (t.req? r).map (fun z => (z.stage, z.slot, z.resumeCmd)) = some (.resuming, some k, some (f.val, c.tag)) ∧
        (t.fnSt f).taken = rest ∧ (t.fnSt f).ready = (s.fnSt f).ready)) ∧
    (s.front f 0x30 c rest → s.rnat .hifWinFunc (fieldAt c.bytes 8 1) = f →
      NMap.get? s.hif.windows (fieldAt c.bytes 8 1) = none →
      Gives (.grant f) s (fun t =>
        NMap.get? t.hif.windows (fieldAt c.bytes 8 1) = some { fn := f, bus := (fieldAt c.bytes 16 8), size := (fieldAt c.bytes 24 4) } ∧
        (∀ w : Fin 64, w.val = (fieldAt c.bytes 8 1) ∨ NMap.get? t.hif.windows w = NMap.get? s.hif.windows w) ∧
        Completed f rest { tag := c.tag, kind := 1 } s t ∧ OnlyIn [.hif] s t)) ∧
    (s.front f 0x31 c rest → s.rnat .hifWinFunc (fieldAt c.bytes 8 1) = f →
      (NMap.get? s.hif.windows (fieldAt c.bytes 8 1)).isSome = true →
      Gives (.revoke f) s (fun t =>
        NMap.get? t.hif.windows (fieldAt c.bytes 8 1) = none ∧ t.hif.revoking = s.hif.revoking ++ [((fieldAt c.bytes 8 1), f.val, some c.tag)] ∧
        (t.fnSt f).taken = rest)) ∧
    (∀ (w tag : Nat), s.hif.revoking.find? (fun r => r.1 == w) = some (w, f.val, some tag) →
      Gives (.revokeComplete w) s (fun t =>
        t.hif.revoking = s.hif.revoking.filter (fun r => r.1 != w) ∧
        t.fnSt f = { s.fnSt f with ready := (s.fnSt f).ready ++ [{ tag := tag, kind := 1 }] } ∧ FnsBut f s t ∧ OnlyIn [.hif] s t))

/-- ADMISSION_EVALUATION, KV_LIMIT_WRITE and ACCT_RESET (chapter 15). -/
def Obligations.AdmissionCommands : Prop :=
  ∀ (s : State) (a : Fin 8), s.noLeftFailures →
    ((∀ q : Fin 8, (s.srvPart q).evalDue = false) →
      Gives (.admissionEvaluation) s (fun t =>
        OnlyIn [] s t)) ∧
    (Gives (.admissionEvaluation) s (fun t =>
        (t.srvPart a).evalDue = false ∧
        (t.srvPart a).kvNow = (if (s.srvPart a).evalDue then s.rnat .admKvLimit a else (s.srvPart a).kvNow))) ∧
    (∀ (r : Nat) (x : Req), (s.srvPart a).evalDue = true → (∀ q : Fin 8, q ≠ a →
      (s.srvPart q).evalDue = false) → s.rbit .srvPartCtrl 0 a = false → (s.evalState a).visitOrder a = [r] →
      s.req? r = some x → s.reqCell r 4 = none →
      Gives (.admissionEvaluation) s (fun t =>
        (t.req? r) = some { x with lastReason := 0x24 } ∧ (t.acct a x.account).last = 0x24 ∧
        (t.acct a x.account).refused = satInc (s.acct a x.account).refused ∧
        t.rnat .admRefusals a = (s.rnat .admRefusals a + 1) % 2 ^ 32 ∧ OnlyIn [.regs, .srv] s t)) ∧
    (∀ (r k slot : Nat) (x : Req) (cell : Cell), (s.srvPart a).evalDue = true → (∀ q : Fin 8, q ≠ a →
      (s.srvPart q).evalDue = false) → s.rbit .srvPartCtrl 0 a = true → s.weighted a = false →
      (s.evalState a).visitOrder a = [r] → s.req? r = some x → x.waiting = true → x.part = a →
      ((s.evalState a).judgeFits a r (fsmInitial (s.fsmBody a 2)) ((s.evalState a).checks a r x {}) none).1 = some (1,
      k) → (s.evalState a).evalSlot a {} = some slot → s.reqCell r 6 = some cell → cell.action = 2 →
      Gives (.admissionEvaluation) s (fun t =>
        (t.req? r).map (fun y => (y.stage, y.slot, y.commit, y.st)) =
          some (.prefill, some slot, s.commitmentOf a x.model x.plen x.samp, cell.next) ∧
        t.rnat .admAdmits a = (s.rnat .admAdmits a + 1) % 2 ^ 32 ∧
        (t.acct a x.account).balance = max minBalance (((s.evalState a).acct a x.account).balance - x.plen) ∧
        (t.acct a x.account).admitted = satInc (s.acct a x.account).admitted)) ∧
    (∀ (p : Path) (v : W32), s.writes p .admKvLimit a 0 v.toNat →
      RegName.admKvLimit.fieldOk a (v.toNat &&& RegName.admKvLimit.row.mask) = true →
      s.rwAccept p.idx .admKvLimit a 0 (v.toNat &&& RegName.admKvLimit.row.mask) = true →
      Gives (.kvLimitWrite p a v) s (fun t =>
        t.rnat .admKvLimit a = v.toNat &&& RegName.admKvLimit.row.mask ∧ RegsBut [RegName.admKvLimit.key a 0] s t ∧ OnlyIn [.regs] s t)) ∧
    (∀ (p : Path), s.writes p .admAcctCmd a 0 1 →
      Gives (.acctReset p a) s (fun t =>
        t.acct a (s.acctSel p.idx a) =
          { s.acct a (s.acctSel p.idx a) with spent := 0, admitted := 0, delayed := 0, refused := 0 } ∧
        (∀ k : Fin 4096, k.val = s.acctSel p.idx a ∨ t.acct a k = s.acct a k) ∧ t.srv.reqs = s.srv.reqs ∧ OnlyIn [.srv] s t))

/-- RESCAN, ENUMERATION, NS_OWNER_WRITE, PORT_BIFURCATE_WRITE, CONTROLLER_FATAL, INTAKE_LINK_DOWN, CONTROLLER_RESET_END and ASYNC_EVENT (R430 to R435, Table 16.2). -/
def Obligations.IntakeControllers : Prop :=
  ∀ (s : State) (c : Fin 16), s.noLeftFailures →
    (∀ (p : Path), s.writes p .intPortCmd 0 0 1 → s.intake.jobs = [] →
      Gives (.rescan p) s (fun t =>
        t.intake = { s.intake with
        scanning := true, bifurcate := bits (s.rnat .intPortCfg) 1 0,
        ctrls := s.intake.ctrls.map (fun e => (e.1, { e.2 with st := 1, tmo := 0 })),
        ns := s.intake.ns.map (fun n => { n with owner := 0 }) } ∧ OnlyIn [.intake] s t)) ∧
    (∀ (p : Path), s.writes p .intPortCmd 0 0 1 → s.intake.jobs ≠ [] →
      Gives (.rescan p) s (fun t =>
        OnlyIn [] s t)) ∧
    (∀ (found : List FoundCtrl) (excess : Bool) (links : Nat), s.intake.scanning = true →
      s.domainOn domIntake = true →
      Gives (.enumeration found excess links) s (fun t =>
        t.intake.scanning = false ∧ t.intake.links = links ∧
        (t.ctrl c).st = (match (found.take 16)[c.val]? with | some e => if e.ok then 2 else 4 | none => 0) ∧
        (∀ e ∈ (found.take 16)[c.val]?, (t.ctrl c).queues = min 8 e.granted ∧ (t.ctrl c).link = e.link) ∧
        t.intake.ns = (enterNs (((List.range 16).zip (found.take 16)).flatMap (fun e =>
          if e.2.ok then e.2.nss.map (fun n => (e.1, n)) else []))).1.take 64 ∧
        t.intake.jobs = s.intake.jobs ∧ OnlyIn [.regs, .intake] s t)) ∧
    (∀ (p : Path) (v : W32) (k : Fin 64), s.writes p .intNsOwner 0 0 v.toNat →
      RegName.intNsOwner.fieldOk 0 (v.toNat &&& RegName.intNsOwner.row.mask) = true →
      s.pget p.idx .intNsSel = k → bits v.toNat 13 8 = k →
      Gives (.nsOwnerWrite p v) s (fun t =>
        (∀ j : Fin 64, t.nsAt j = (if j = k then (s.nsAt j).map (fun e => { e with owner := bits v.toNat 7 0 }) else s.nsAt j)) ∧
        t.intake.ctrls = s.intake.ctrls ∧ t.intake.jobs = s.intake.jobs ∧ t.regs = s.regs ∧ OnlyIn [.intake] s t)) ∧
    (∀ (p : Path) (v : W32), s.writes p .intPortCfg 0 0 v.toNat →
      RegName.intPortCfg.fieldOk 0 (v.toNat &&& RegName.intPortCfg.row.mask) = true →
      s.rwAccept p.idx .intPortCfg 0 0 (v.toNat &&& RegName.intPortCfg.row.mask) = true →
      Gives (.portBifurcateWrite p v) s (fun t =>
        t.rnat .intPortCfg = v.toNat &&& RegName.intPortCfg.row.mask ∧ RegsBut [RegName.intPortCfg.key 0 0] s t ∧ OnlyIn [.regs] s t)) ∧
    ((s.ctrl c).st = 2 → (∀ j ∈ s.intake.jobs, j.ctrl ≠ c) →
      Gives (.controllerFatal c) s (fun t =>
        t.ctrl c = { s.ctrl c with st := 3, tmo := 0 } ∧ t.intake.jobs = s.intake.jobs ∧ (∀ e : Fin 16, e ≠ c → t.ctrl e = s.ctrl e) ∧ OnlyIn [.intake] s t)) ∧
    ((s.ctrl c).st ≠ 2 →
      Gives (.controllerFatal c) s (fun t =>
        OnlyIn [] s t)) ∧
    (∀ (l : Fin 4), bit s.intake.links l = true → s.intake.jobs = [] →
      Gives (.intakeLinkDown l) s (fun t =>
        t.intake.links = s.intake.links - 2 ^ l.val ∧ t.rnat .intEvent = s.rnat .intEvent ||| 1 ∧
        (NMap.get? s.intake.ctrls c = none ∨
          t.ctrl c = (if (s.ctrl c).link = l ∧ (s.ctrl c).st = 2 then { s.ctrl c with st := 3, tmo := 0 } else s.ctrl c)) ∧
        RegsBut [RegName.intEvent.key 0 0] s t ∧ OnlyIn [.regs, .intake] s t)) ∧
    ((s.ctrl c).st = 3 → s.intake.jobs = [] →
      Gives (.controllerResetEnd c true) s (fun t =>
        t.ctrl c = { s.ctrl c with st := 2 } ∧ bit (t.rnat .intEvent) 4 = true ∧ bit t.intake.links (s.ctrl c).link = true ∧ (∀ e : Fin 16, e ≠ c → t.ctrl e = s.ctrl e) ∧ OnlyIn [.regs, .intake] s t)) ∧
    ((s.ctrl c).st = 3 → s.intake.jobs = [] →
      Gives (.controllerResetEnd c false) s (fun t =>
        t.ctrl c = { s.ctrl c with st := 4 } ∧ bit (t.rnat .intEvent) 3 = true ∧ bits (t.rnat .intLastErr) 15 0 = 0x0908 ∧ (∀ e : Fin 16, e ≠ c → t.ctrl e = s.ctrl e) ∧ OnlyIn [.regs, .intake] s t)) ∧
    ((s.ctrl c).st = 2 → s.logOpen →
      Gives (.asyncEvent c) s (fun t =>
        t.rnat .intEvent = s.rnat .intEvent ||| 32 ∧ RegsBut [RegName.intEvent.key 0 0] s t ∧ OnlyIn [.regs] s t ∧
        Logged (fun e => e.kind = 4 ∧ e.origin = 6 ∧ e.originIdx = 10 ∧ e.target = c) s t))

/-- JOB_TAKE, DECODE_ENGINE_START, NVME_COMPLETION, NVME_CMD_TIMEOUT, INTAKE_RETRY, STREAM_FAULT, INTAKE_JOB_END and RING_ENABLE_WRITE (R437 to R441, R448 to R451). A Read's reissue and the LPCM fault are the model's reading (NOTES.md, Assumptions). -/
def Obligations.IntakeJobs : Prop :=
  ∀ (s : State) (a : Fin 8) (n : Nat) (j : IJob), s.noLeftFailures →
    (s.canTake a = false →
      Gives (.jobTake a) s (fun t =>
        OnlyIn [] s t)) ∧
    (∀ (e : NsEntry), s.canTake a = true →
      (s.rangeCheck a (s.rnat .intRingBase a + 64 * (NMap.getD s.intake.taken a 0 % max 1 (s.rnat .intRingLen a))) 64 1).isOk = true →
      (s.jobCheck a (s.rd (s.rnat .intRingBase a + 64 * (NMap.getD s.intake.taken a 0 % max 1 (s.rnat .intRingLen a))) 64) (parseJobRec (s.rd (s.rnat .intRingBase a + 64 * (NMap.getD s.intake.taken a 0 % max 1 (s.rnat .intRingLen a))) 64))).toOption = some e →
      parseJobRec (s.rd (s.rnat .intRingBase a + 64 * (NMap.getD s.intake.taken a 0 % max 1 (s.rnat .intRingLen a))) 64) = j.rec_ →
      (j.rec_.op ≠ 1 ∨ spaceOk j.rec_ {} 0 = true) → bit j.rec_.flags 1 = true →
      s.stepPhase < (s.cad.step + b2n (bit j.rec_.flags 2)) * 65536 + j.rec_.s →
      Gives (.jobTake a) s (fun t =>
        t.intake = { s.intake with
        taken := NMap.put s.intake.taken a (NMap.getD s.intake.taken a 0 + 1), nextOrder := s.intake.nextOrder + 1,
        jobs := s.intake.jobs ++ [{
          part := a, num := NMap.getD s.intake.taken a 0, rec_ := j.rec_, ctrl := e.ctrl, order := s.intake.nextOrder,
          startAt := some ((s.cad.step + b2n (bit j.rec_.flags 2)) * 65536 + j.rec_.s),
          deadline := some ((s.cad.step + b2n (bit j.rec_.flags 2) + b2n (decide (j.rec_.d < j.rec_.s))) * 65536 + j.rec_.d),
          reads := (s.extentsOf j.rec_ e.lba).flatMap (fun x => cutReads 65537 x.1 x.2) }] } ∧ OnlyIn [.intake] s t)) ∧
    (∀ (c : Fin 65536), s.canTake a = true → n = NMap.getD s.intake.taken a 0 →
      (s.rangeCheck a (s.rnat .intRingBase a + 64 * (NMap.getD s.intake.taken a 0 % max 1 (s.rnat .intRingLen a))) 64 1).isOk = true →
      codeOf (s.jobCheck a (s.rd (s.rnat .intRingBase a + 64 * (NMap.getD s.intake.taken a 0 % max 1 (s.rnat .intRingLen a))) 64) (parseJobRec (s.rd (s.rnat .intRingBase a + 64 * (NMap.getD s.intake.taken a 0 % max 1 (s.rnat .intRingLen a))) 64))) = c.val →
      c.val ∈ [0x0901, 0x0902, 0x0903] →
      (s.rangeCheck a (s.rnat .intResultBase a + 32 * (n % max 1 (s.rnat .intRingLen a))) 32 2).isOk = true →
      Gives (.jobTake a) s (fun t =>
        t.intake.jobs = s.intake.jobs ∧ NMap.getD t.intake.taken a 0 = n + 1 ∧
        t.rdNat (s.rnat .intResultBase a + 32 * (n % max 1 (s.rnat .intRingLen a))) 2 = c ∧ bits (t.rnat .intLastErr) 15 0 = c ∧
        BytesBut (s.rnat .intResultBase a + 32 * (n % max 1 (s.rnat .intRingLen a))) 32 s t ∧ OnlyIn [.regs, .mem, .crn, .fab, .intake] s t)) ∧
    (∀ (k : Fin 4), s.engineFree k = true → s.intake.jobs.filter (fun x => decide (x.stage = .engine ∧
      engineKind x.rec_ = k)) = [j] → s.job? j.part j.num = some j → (s.ctrl j.ctrl).st ≠ 4 →
      Gives (.decodeEngineStart k) s (fun t =>
        (t.job? j.part j.num).map (fun x => (x.stage, x.rec_, x.reads.map (·.lba))) = some (.run, j.rec_, j.reads.map (·.lba)) ∧
        t.intake.jobs.length = s.intake.jobs.length ∧ OnlyIn [.intake] s t)) ∧
    (∀ (k : Fin 4), (∀ x ∈ s.intake.jobs, x.stage ≠ .engine) →
      Gives (.decodeEngineStart k) s (fun t =>
        OnlyIn [] s t)) ∧
    (∀ (i sct sc : Nat) (dnr : Bool) (data : List Byte), (∀ x ∈ s.job? a n, ∀ r ∈ x.reads[i]?,
      r.st ≠ .outstanding) →
      Gives (.nvmeCompletion a n i sct sc dnr data) s (fun t =>
        OnlyIn [] s t)) ∧
    (∀ (i : Nat) (dnr : Bool) (data : List Byte) (r x : NvmeRead) (e : NsEntry), s.job? a n = some j →
      j.reads[i]? = some r → r.st = .outstanding → s.nsAt j.rec_.ns = some e → (s.ctrl j.ctrl).st ≠ 4 →
      x = ⟨r.lba, r.count, .done, r.queue, r.tries, slice data 0 (r.count * e.lba)⟩ → (j.rec_.op = 1 ∨
      (soFar (j.withRead i x)).1 = [] ∨ ((soFar (j.withRead i x)).2.unsupported = none ∧
      spaceOk j.rec_ (soFar (j.withRead i x)).2 (s.outSamples j (soFar (j.withRead i x)).2) = true)) →
      Gives (.nvmeCompletion a n i 0 0 dnr data) s (fun t =>
        (t.job? a n).map (fun y => (y.reads[i]?, y.rec_, y.stage)) = some (some x, j.rec_, j.stage) ∧
        t.rnat .intReadBytes = (s.rnat .intReadBytes + r.count * e.lba) % 2 ^ 64 ∧ (t.ctrl j.ctrl) = { s.ctrl j.ctrl with tmo := 0 } ∧
        RegsBut [RegName.intReadBytes.key 0 0] s t ∧ OnlyIn [.regs, .intake] s t)) ∧
    (∀ (i sct sc : Nat) (dnr : Bool) (data : List Byte) (r : NvmeRead), s.job? a n = some j →
      j.reads[i]? = some r → r.st = .outstanding → (sct ≠ 0 ∨ sc ≠ 0) → s.jobDue j = false →
      (s.ringStall a = false ∨ dnr = true ∨ bits (s.rnat .intRetry) 23 16 ≤ r.tries) →
      Gives (.nvmeCompletion a n i sct sc dnr data) s (fun t =>
        t.job? a n = none ∧ bits (t.rnat .intLastErr) 15 0 = nvmeCode sct sc ∧
        t.rnat .intDriveErrs = (s.rnat .intDriveErrs + 1) % 2 ^ 32 ∧ (∀ y ∈ t.intake.jobs, y ∈ s.intake.jobs))) ∧
    (∀ (i : Nat) (r : NvmeRead), s.job? a n = some j → j.reads[i]? = some r → r.st = .outstanding →
      s.ringStall a = true → r.tries < bits (s.rnat .intRetry) 23 16 → (s.ctrl j.ctrl).st ≠ 4 →
      (s.ctrl j.ctrl).tmo + 1 < s.rnat .intTmoLimit →
      Gives (.nvmeCmdTimeout a n i) s (fun t =>
        (t.job? a n).map (fun y => y.reads[i]?.map (fun q => (q.st, q.tries))) = some (some (.gap, r.tries)) ∧
        (t.ctrl j.ctrl) = { s.ctrl j.ctrl with tmo := (s.ctrl j.ctrl).tmo + 1 } ∧ OnlyIn [.intake] s t)) ∧
    (∀ (i : Nat), (∀ x ∈ s.job? a n, (x.reads.getD i { lba := 0, count := 0 }).st ≠ .outstanding) →
      Gives (.nvmeCmdTimeout a n i) s (fun t =>
        OnlyIn [] s t)) ∧
    (∀ (i : Nat) (r : NvmeRead), s.job? a n = some j → j.reads[i]? = some r → r.st = .gap →
      (s.ctrl j.ctrl).st ≠ 4 →
      Gives (.intakeRetry a n i) s (fun t =>
        (t.job? a n).map (fun y => y.reads[i]?.map (fun q => (q.tries, q.lba, decide (q.st = .gap)))) = some (some (r.tries + 1, r.lba, false)) ∧
        t.rnat .intRetries = (s.rnat .intRetries + 1) % 2 ^ 32 ∧ RegsBut [RegName.intRetries.key 0 0] s t ∧ OnlyIn [.regs, .intake] s t)) ∧
    (∀ (i : Nat), (∀ x ∈ s.job? a n, (x.reads.getD i { lba := 0, count := 0 }).st ≠ .gap) →
      Gives (.intakeRetry a n i) s (fun t =>
        OnlyIn [] s t)) ∧
    (∀ (o : Nat), s.job? a n = some j → j.rec_.op ≠ 1 → (soFar j).1 ≠ [] → (soFar j).2.unsupported = none →
      (soFar j).2.fault = some o → s.jobDue j = false →
      Gives (.streamFault a n) s (fun t =>
        t.job? a n = none ∧ bits (t.rnat .intLastErr) 15 0 = 0x090A ∧
        t.rnat .intCorrupt = (s.rnat .intCorrupt + 1) % 2 ^ 32 ∧ OnlyIn [.regs, .mem, .cad, .crn, .fab, .intake] s t)) ∧
    ((∀ x ∈ s.job? a n, x.rec_.op = 1 ∨ (soFar x).1 = [] ∨ ((soFar x).2.unsupported = none ∧
      (soFar x).2.fault = none)) →
      Gives (.streamFault a n) s (fun t =>
        OnlyIn [] s t)) ∧
    ((∀ x ∈ s.job? a n, x.stage ≠ .run ∨ x.reads.any (fun r => decide (r.st ≠ .done)) = true) →
      Gives (.intakeJobEnd a n) s (fun t =>
        OnlyIn [] s t)) ∧
    (s.job? a n = some j → j.stage = .run → j.part = a → j.num = n → (∀ r ∈ j.reads, r.st = .done) →
      j.rec_.op = 1 → j.rec_.length ≤ j.rec_.dstLen * granule → s.intake.ended = [] →
      (s.rangeCheck a (s.rnat .intResultBase a + 32 * (n % max 1 (s.rnat .intRingLen a))) 32 2).isOk = true →
      ((s.rnat .intResultBase a + 32 * (n % max 1 (s.rnat .intRingLen a))) + 32 ≤ j.rec_.dst ∨
      j.rec_.dst + j.rec_.length ≤ (s.rnat .intResultBase a + 32 * (n % max 1 (s.rnat .intRingLen a)))) →
      Gives (.intakeJobEnd a n) s (fun t =>
        t.job? a n = none ∧ t.rd j.rec_.dst (streamSoFar j.rec_ j.reads).length = (streamSoFar j.rec_ j.reads) ∧ t.rdNat (s.rnat .intResultBase a + 32 * (n % max 1 (s.rnat .intRingLen a))) 2 = 0 ∧ t.rdNat ((s.rnat .intResultBase a + 32 * (n % max 1 (s.rnat .intRingLen a))) + 16) 8 = (streamSoFar j.rec_ j.reads).length % 2 ^ 64 ∧
        NMap.getD t.intake.done a 0 = NMap.getD s.intake.done a 0 + b2n (decide (NMap.getD s.intake.done a 0 = n)) ∧
        t.rnat .intJobs = (s.rnat .intJobs + 1) % 2 ^ 32 ∧ OnlyIn [.regs, .mem, .cad, .crn, .fab, .intake] s t)) ∧
    (s.job? a n = some j → j.stage = .run → j.part = a → j.num = n → (∀ r ∈ j.reads, r.st = .done) →
      j.rec_.op ≠ 1 → (soFar j).1 ≠ [] → (soFar j).2.unsupported = none → (soFar j).2.fault = none →
      spaceOk j.rec_ (soFar j).2 (s.outSamples j (soFar j).2) = true → ((soFar j).2.md5Bad = false ∨
      bit j.rec_.flags 4 = false ∨ j.rec_.codec ≠ 0x31) →
      (s.rangeCheck a (s.rnat .intResultBase a + 32 * (n % max 1 (s.rnat .intRingLen a))) 32 2).isOk = true →
      Gives (.intakeJobEnd a n) s (fun t =>
        t.job? a n = none ∧
        t.rd (s.rnat .intResultBase a + 32 * (n % max 1 (s.rnat .intRingLen a))) 32 = resultBytes j.rec_ 0 (soFar j).2 (s.outputOf j (soFar j).1 (soFar j).2) 0xFFFFFFFF 0 ∧
        t.rnat .intJobs = (s.rnat .intJobs + 1) % 2 ^ 32 ∧ OnlyIn [.regs, .mem, .cad, .crn, .fab, .intake] s t)) ∧
    (∀ (p : Path) (v : W32), s.writes p .intRingCfg a 0 v.toNat →
      RegName.intRingCfg.fieldOk a (v.toNat &&& RegName.intRingCfg.row.mask) = true →
      s.rwAccept p.idx .intRingCfg a 0 (v.toNat &&& RegName.intRingCfg.row.mask) = true →
      bit v.toNat 0 = false →
      Gives (.ringEnableWrite p a v) s (fun t =>
        t.rnat .intRingCfg a = v.toNat &&& RegName.intRingCfg.row.mask ∧
        t.intake.jobs = (if s.rbit .intRingCfg 0 a then s.intake.jobs.filter (fun x => x.part != a.val) else s.intake.jobs) ∧
        t.intake.ctrls = s.intake.ctrls ∧ t.srv = s.srv ∧ t.dma = s.dma ∧ t.tiles = s.tiles)) ∧
    (∀ (p : Path) (v : W32), s.writes p .intRingCfg a 0 v.toNat →
      RegName.intRingCfg.fieldOk a (v.toNat &&& RegName.intRingCfg.row.mask) = true →
      s.rwAccept p.idx .intRingCfg a 0 (v.toNat &&& RegName.intRingCfg.row.mask) = true → bit v.toNat 0 = true →
      Gives (.ringEnableWrite p a v) s (fun t =>
        t.rnat .intRingCfg a = v.toNat &&& RegName.intRingCfg.row.mask ∧ t.intake = s.intake ∧ RegsBut [RegName.intRingCfg.key a 0] s t))

/-- START, STOP, TICK_START, TICK_END and ACCESS_FAILED (R453 to R464). START while the group runs is the model's reading (NOTES.md, Assumptions). -/
def Obligations.AlignmentGroups : Prop :=
  ∀ (s : State) (g : Fin 4), s.noLeftFailures →
    (∀ (p : Path), s.writes p .alnGCtrl g 0 1 → (s.group g).st ≠ 1 → s.groupOk g = true →
      Gives (.start p g) s (fun t =>
        t.group g = s.alnRecord g (s.rnat .alnGAddr g) ∧ (t.group g).st = 1 ∧ (t.group g).tick = 0 ∧ (t.group g).ready = none ∧
        (∀ k : Fin 4, k = g ∨ t.group k = s.group k) ∧ t.aln.ticks = s.aln.ticks ∧ OnlyIn [.aln, .pwr] s t)) ∧
    (∀ (p : Path), s.writes p .alnGCtrl g 0 1 → (s.group g).st ≠ 1 → s.groupOk g = false →
      Gives (.start p g) s (fun t =>
        t.rnat .alnEvent = s.rnat .alnEvent ||| 1 ∧ bits (t.rnat .alnLastErr) 15 0 = 0x0E01 ∧ t.aln = s.aln ∧ OnlyIn [.regs] s t)) ∧
    (∀ (p : Path), s.writes p .alnGCtrl g 0 1 → (s.group g).st = 1 →
      Gives (.start p g) s (fun t =>
        OnlyIn [.pwr] s t)) ∧
    (∀ (p : Path), s.writes p .alnGCtrl g 0 2 → (s.group g).st = 1 →
      Gives (.stop p g) s (fun t =>
        t.group g = (if (s.group g).ready.isSome then { s.group g with stopping := true } else { s.group g with st := 0 }) ∧
        (∀ k : Fin 4, k = g ∨ t.group k = s.group k) ∧ OnlyIn [.aln] s t)) ∧
    (∀ (p : Path), s.writes p .alnGCtrl g 0 2 → (s.group g).st ≠ 1 →
      Gives (.stop p g) s (fun t =>
        OnlyIn [] s t)) ∧
    (∀ (i : Nat), (s.group g).st = 1 → (s.group g).ready = none →
      (s.waitRef (s.group g).part (bits (s.rnat .alnGCairns g) 15 0)).toOption = some i →
      holds (s.cairn i) ((s.group g).tick + 1) = true → (∀ e ∈ (s.group g).streams,
      s.waitRefOk (s.group g).part e.ready = true) →
      Gives (.tickStart g) s (fun t =>
        t.group g = { s.group g with ready := some ((s.group g).streams.map (fun e => s.cairn e.ready)) } ∧
        (∀ k : Fin 4, k = g ∨ t.group k = s.group k) ∧ OnlyIn [.aln] s t)) ∧
    (∀ (i : Nat), (s.waitRef (s.group g).part (bits (s.rnat .alnGCairns g) 15 0)).toOption = some i →
      ((s.group g).st ≠ 1 ∨ (s.group g).ready.isSome = true ∨
      holds (s.cairn i) ((s.group g).tick + 1) = false) →
      Gives (.tickStart g) s (fun t =>
        OnlyIn [] s t)) ∧
    ((s.group g).st = 1 → (s.group g).ready.isSome = true → s.tickCheck (s.group g) = none →
      Gives (.tickEnd g) s (fun t =>
        t.group g = { s.group g with
          tick := (s.group g).tick + 1, ready := none, st := if (s.group g).stopping then 0 else 1, stopping := false, shifts := (t.group g).shifts } ∧
        ((s.group g).refine_ = false → (t.group g).shifts = (s.group g).shifts) ∧ (∀ k : Fin 4, k = g ∨ t.group k = s.group k) ∧
        NMap.getD t.aln.ticks g 0 = NMap.getD s.aln.ticks g 0 + 1 ∧
        BytesBut (s.group g).slotAddr (s.group g).slotBytes s t ∧ OnlyIn [.regs, .mem, .crn, .fab, .aln] s t)) ∧
    (∀ (x : AlnStream) (r : Nat) (i : Int) (k : Nat), (s.group g).st = 1 → (s.group g).ready = some [r] →
      (s.group g).streams = [x] → x.kind = 3 → s.tickCheck (s.group g) = none →
      x.pickAudio (s.group g).time (s.group g).rate (s.group g).audioN r = (i, true) → k < (s.group g).audioN →
      0 ≤ i + k →
      Gives (.tickEnd g) s (fun t =>
        t.rd ((s.group g).slotAddr + k * (4 * x.channels)) (4 * x.channels) =
        s.rd (x.src + (i + k).toNat % max 1 x.retain * 4 * x.channels) (4 * x.channels))) ∧
    (((s.group g).st ≠ 1 ∨ (s.group g).ready = none) →
      Gives (.tickEnd g) s (fun t =>
        OnlyIn [] s t)) ∧
    (∀ (f : Fail) (b n : Nat), (s.group g).st = 1 → (s.group g).ready.isSome = true →
      Gives (.accessFailed g f b n) s (fun t =>
        t.group g = { s.group g with st := 2, ready := none, stopping := false } ∧ bits (t.rnat .alnLastErr) 15 0 = 0x0E03 ∧
        bit (t.rnat .alnEvent) 1 = true ∧ BytesBut (s.group g).slotAddr (s.group g).slotBytes s t ∧ OnlyIn [.regs, .mem, .tier, .crn, .fab, .aln] s t)) ∧
    (∀ (f : Fail) (b n : Nat), ((s.group g).st ≠ 1 ∨ (s.group g).ready = none) →
      Gives (.accessFailed g f b n) s (fun t =>
        OnlyIn [] s t))

/-- HIF_DB_CMD, HIF_DB_CPL, HIF_DB_STR, COMMAND_TAKE, COMPLETION_WRITE, RING_CTRL_WRITE, APERTURE_ACCESS and FUNCTION_LEVEL_RESET (R465 to R479). The form of the log entry of a refused doorbell is the model's reading (NOTES.md, Assumptions). -/
def Obligations.HostRingsAndAperture : Prop :=
  ∀ (s : State) (f : Fin 9), s.noLeftFailures →
    (∀ (v : W32), s.ringOn f 0 = true → bits v.toNat 15 0 < s.cmdSize f →
      Gives (.hifDbCmd f v) s (fun t =>
        t.fnSt f = { s.fnSt f with cmdTail := bits v.toNat 15 0 } ∧ FnsBut f s t ∧ t.hif.windows = s.hif.windows ∧ OnlyIn [.hif] s t)) ∧
    (∀ (v : W32), (s.ringOn f 0 = false ∨ s.cmdSize f ≤ bits v.toNat 15 0) → s.logOpen →
      Gives (.hifDbCmd f v) s (fun t =>
        (t.fnSt f) = s.fnSt f ∧ bit (t.rnat .hifEvent) 1 = true ∧ RegsBut [RegName.hifEvent.key 0 0] s t ∧ OnlyIn [.regs] s t ∧
        Logged (fun e => e.kind = 2 ∧ e.origin = 1 ∧ e.originIdx = f ∧ e.new = v.toNat) s t)) ∧
    (∀ (v : W32), s.ringOn f 1 = true → bits v.toNat 15 0 < s.cplSize f →
      Gives (.hifDbCpl f v) s (fun t =>
        t.fnSt f = { s.fnSt f with cplHead := bits v.toNat 15 0 } ∧ FnsBut f s t ∧ t.hif.windows = s.hif.windows ∧ OnlyIn [.hif] s t)) ∧
    (∀ (v : W32), (s.ringOn f 1 = false ∨ s.cplSize f ≤ bits v.toNat 15 0) → s.logOpen →
      Gives (.hifDbCpl f v) s (fun t =>
        (t.fnSt f) = s.fnSt f ∧ bit (t.rnat .hifEvent) 1 = true ∧ RegsBut [RegName.hifEvent.key 0 0] s t ∧ OnlyIn [.regs] s t ∧
        Logged (fun e => e.kind = 2 ∧ e.origin = 1 ∧ e.originIdx = f ∧ e.new = v.toNat) s t)) ∧
    (∀ (v : W32), s.ringOn f 2 = true → v.toNat % 256 = 0 → v.toNat < s.rnat .hifStrLen f * 65536 →
      Gives (.hifDbStr f v) s (fun t =>
        t.fnSt f = { s.fnSt f with strHead := v.toNat } ∧ FnsBut f s t ∧ t.hif.windows = s.hif.windows ∧ OnlyIn [.hif] s t)) ∧
    (∀ (v : W32), (s.ringOn f 2 = false ∨ v.toNat % 256 ≠ 0 ∨ s.rnat .hifStrLen f * 65536 ≤ v.toNat) →
      s.logOpen →
      Gives (.hifDbStr f v) s (fun t =>
        (t.fnSt f) = s.fnSt f ∧ bit (t.rnat .hifEvent) 1 = true ∧ RegsBut [RegName.hifEvent.key 0 0] s t ∧ OnlyIn [.regs] s t ∧
        Logged (fun e => e.kind = 2 ∧ e.origin = 1 ∧ e.originIdx = f ∧ e.new = v.toNat) s t)) ∧
    (∀ (entry : List Byte), s.canTakeCmd f = false →
      Gives (.commandTake f entry) s (fun t =>
        OnlyIn [] s t)) ∧
    (∀ (entry : List Byte), s.canTakeCmd f = true → malformed f (slice entry 0 64) = none →
      s.opDenied f (fieldAt (slice entry 0 64) 0 1) = none →
      Gives (.commandTake f entry) s (fun t =>
        t.fnSt f = { s.fnSt f with
          cmdHead := ((s.fnSt f).cmdHead + 1) % s.cmdSize f, reserved := (s.fnSt f).reserved + 1,
          taken := (s.fnSt f).taken ++ [{ tag := fieldAt (slice entry 0 64) 4 4, op := fieldAt (slice entry 0 64) 0 1, bytes := (slice entry 0 64) }] } ∧
        t.rnat .hifCmdTaken f = (s.rnat .hifCmdTaken f + 1) % 2 ^ 32 ∧ RegsBut [RegName.hifCmdTaken.key f 0] s t ∧ FnsBut f s t ∧ OnlyIn [.regs, .hif] s t)) ∧
    (∀ (entry : List Byte) (k : Nat), s.canTakeCmd f = true → malformed f (slice entry 0 64) = some k →
      Gives (.commandTake f entry) s (fun t =>
        t.fnSt f = { s.fnSt f with
          cmdHead := ((s.fnSt f).cmdHead + 1) % s.cmdSize f, reserved := (s.fnSt f).reserved + 1,
          ready := (s.fnSt f).ready ++ [{ tag := fieldAt (slice entry 0 64) 4 4, kind := 1, result := 2, detail := k }] } ∧
        t.rnat .hifCmdTaken f = (s.rnat .hifCmdTaken f + 1) % 2 ^ 32 ∧ RegsBut [RegName.hifCmdTaken.key f 0] s t ∧ FnsBut f s t ∧ OnlyIn [.regs, .hif] s t)) ∧
    (∀ (entry : List Byte) (d : Nat), s.canTakeCmd f = true → malformed f (slice entry 0 64) = none →
      s.opDenied f (fieldAt (slice entry 0 64) 0 1) = some d →
      Gives (.commandTake f entry) s (fun t =>
        t.fnSt f = { s.fnSt f with
          cmdHead := ((s.fnSt f).cmdHead + 1) % s.cmdSize f, reserved := (s.fnSt f).reserved + 1,
          ready := (s.fnSt f).ready ++ [{ tag := fieldAt (slice entry 0 64) 4 4, kind := 1, result := 3, detail := d }] } ∧
        t.rnat .hifCmdTaken f = (s.rnat .hifCmdTaken f + 1) % 2 ^ 32 ∧ RegsBut [RegName.hifCmdTaken.key f 0] s t ∧ FnsBut f s t ∧ OnlyIn [.regs, .hif] s t)) ∧
    ((s.ringOn f 1 = false ∨ s.cplFull f = true) → bit (s.rnat .hifRingVec f) 15 = false →
      Gives (.completionWrite f) s (fun t =>
        OnlyIn [] s t)) ∧
    (∀ (c : Cpl), s.ringOn f 1 = true → s.cplFull f = false → (s.fnSt f).ready = [c] →
      s.hif.seenEvents = s.hifEvents →
      Gives (.completionWrite f) s (fun t =>
        t.outs = s.outs ++ [.hostWrite f (s.rnat .hifCplBase f + 32 * (s.fnSt f).cplTail) (c.bytes (s.fnSt f).cplPhase s.cad.step)] ++
          (if bit (s.rnat .hifRingVec f) 15 ∧ s.vectorOf f (bits (s.rnat .hifRingVec f) 10 0) then
            [.msix f (bits (s.rnat .hifRingVec f) 10 0)] else []) ∧
        t.fnSt f = { s.fnSt f with
          ready := [], cplTail := ((s.fnSt f).cplTail + 1) % s.cplSize f,
          cplPhase := if ((s.fnSt f).cplTail + 1) % s.cplSize f = 0 then !(s.fnSt f).cplPhase else (s.fnSt f).cplPhase,
          reserved := if c.own then (s.fnSt f).reserved - 1 else (s.fnSt f).reserved } ∧
        FnsBut f s t ∧ t.srv.reqs = (if c.frees then NMap.del s.srv.reqs c.v64 else s.srv.reqs) ∧ OnlyIn [.outs, .hif, .srv] s t)) ∧
    (∀ (p : Path) (v : W32), s.writes p .hifRingCtrl f 0 v.toNat →
      RegName.hifRingCtrl.fieldOk f (v.toNat &&& RegName.hifRingCtrl.row.mask) = true →
      s.rwAccept p.idx .hifRingCtrl f 0 (v.toNat &&& RegName.hifRingCtrl.row.mask) = true →
      Gives (.ringCtrlWrite p f v) s (fun t =>
        t.rnat .hifRingCtrl f = v.toNat &&& 7 ∧ RegsBut [RegName.hifRingCtrl.key f 0] s t ∧
        (bit v.toNat 0 = true ∧ s.ringOn f 0 = false → (t.fnSt f).cmdHead = 0 ∧ (t.fnSt f).cmdTail = 0) ∧
        (bit v.toNat 1 = true ∧ s.ringOn f 1 = false → (t.fnSt f).cplHead = 0 ∧ (t.fnSt f).cplTail = 0 ∧ (t.fnSt f).cplPhase = true) ∧
        (bit v.toNat 2 = true ∧ s.ringOn f 2 = false → (t.fnSt f).strHead = 0 ∧ (t.fnSt f).strTail = 0 ∧ (t.fnSt f).strPhase = true) ∧
        (t.fnSt f).taken = (s.fnSt f).taken ∧ (t.fnSt f).ready = (s.fnSt f).ready ∧ (t.fnSt f).reserved = (s.fnSt f).reserved ∧
        FnsBut f s t ∧ OnlyIn [.regs, .hif, .pwr] s t)) ∧
    (∀ (off size : Nat) (d : List Byte) (ecc : Ecc), d ≠ [] → off + d.length ≤ 2 ^ 34 → f ≤ s.hif.numVfs →
      s.apertureCode f (s.rnat .hifAptBase f + off) d.length 2 = 0 →
      Gives (.apertureAccess f off size (some d) ecc) s (fun t =>
        t.rd (s.rnat .hifAptBase f + off) d.length = d ∧ BytesBut (s.rnat .hifAptBase f + off) d.length s t ∧ OnlyIn [.mem] s t)) ∧
    (∀ (off size : Nat), size ≠ 0 → off + size ≤ 2 ^ 34 → f ≤ s.hif.numVfs →
      s.apertureCode f (s.rnat .hifAptBase f + off) size 1 = 0 →
      Gives (.apertureAccess f off size none .clean) s (fun t =>
        Sent (.aperture f 0 (s.rd (s.rnat .hifAptBase f + off) size)) s t ∧ OnlyIn [.outs] s t)) ∧
    (∀ (off size : Nat), size ≠ 0 → off + size ≤ 2 ^ 34 → f ≤ s.hif.numVfs →
      s.apertureCode f (s.rnat .hifAptBase f + off) size 1 = 0 →
      Gives (.apertureAccess f off size none .corrected) s (fun t =>
        Sent (.aperture f 0 (s.rd (s.rnat .hifAptBase f + off) size)) s t ∧
        t.rnat .sclEccCorr = (s.rnat .sclEccCorr + 1) % 2 ^ 32 ∧ t.rnat .sclTierEvent = s.rnat .sclTierEvent ||| 1 ∧
        RegsBut [RegName.sclEccCorr.key 0 0, RegName.sclTierEvent.key 0 0] s t ∧ OnlyIn [.regs, .outs] s t)) ∧
    (∀ (off size : Nat) (e : Nat), size ≠ 0 → off + size ≤ 2 ^ 34 → f ≤ s.hif.numVfs →
      s.apertureCode f (s.rnat .hifAptBase f + off) size 1 = 0 →
      Gives (.apertureAccess f off size none (.uncorrectable e)) s (fun t =>
        Sent (.aperture f 2 (s.rd (s.rnat .hifAptBase f + off) size)) s t ∧
        t.rnat .hifLastErr = f * 2 ^ 28 + 0x0303 ∧ bit (t.rnat .hifEvent) 2 = true ∧ OnlyIn [.regs, .outs, .tier] s t)) ∧
    (∀ (off size : Nat) (data : Option (List Byte)) (ecc : Ecc) (n code : Nat),
      n = (data.map List.length).getD size → n ≠ 0 → off + n ≤ 2 ^ 34 → f ≤ s.hif.numVfs →
      s.apertureCode f (s.rnat .hifAptBase f + off) n (if data.isSome then 2 else 1) = code → code ≠ 0 →
      Gives (.apertureAccess f off size data ecc) s (fun t =>
        t.rnat .hifLastErr = f * 2 ^ 28 + code ∧ bit (t.rnat .hifEvent) 2 = true ∧
        t.rnat .hifAptErrs f = (s.rnat .hifAptErrs f + 1) % 2 ^ 32 ∧ (data.isSome = true ∨ Sent (.aperture f 1 []) s t) ∧
        OnlyIn [.regs, .outs] s t)) ∧
    (Gives (.functionLevelReset f) s (fun t =>
        (∀ k : Fin 9, k = f ∨ f.val = 0 → t.rnat .hifRingCtrl k = 0 ∧ ∀ e ∈ t.hif.windows, e.2.fn ≠ k) ∧
        bit (t.rnat .hifEvent) 3 = true ∧ t.img = s.img ∧ t.intake = s.intake ∧ t.aln = s.aln ∧ t.side = s.side ∧ t.coll = s.coll))

/-- HOST_LINK_UP, HOST_LINK_DOWN, PWR_CMD_RUN, PWR_CMD_IDLE, PWR_CMD_DOZE, PWR_CMD_KEEP, KEEP_L2_TIMEOUT, DOMAIN_POWER_ON, COMPARATOR_WINDOW and SSC_WRITE (R133, R489 to R510). -/
def Obligations.PowerStatesAndHostLink : Prop :=
  ∀ (s : State) (p : Path), s.noLeftFailures →
    (∀ (r w : Nat), s.pwr.perst = false → s.pwr.st.running = true →
      Gives (.hostLinkUp r w) s (fun t =>
        { t.hif with seenEvents := 0 } = { s.hif with linkUp := true, rate := r, width := w, seenEvents := 0 } ∧ OnlyIn [.hif] s t)) ∧
    (∀ (r w : Nat), (s.pwr.perst = true ∨ s.pwr.st.running = false) →
      Gives (.hostLinkUp r w) s (fun t =>
        OnlyIn [] s t)) ∧
    (s.hif.linkUp = true →
      Gives (.hostLinkDown) s (fun t =>
        { t.hif with seenEvents := 0 } = { s.hif with linkUp := false, rate := s.hif.rate, width := s.hif.width, seenEvents := 0 } ∧ t.rnat .hifEvent = s.rnat .hifEvent ||| 1 ∧ t.rnat .sclTierEvent = s.rnat .sclTierEvent ||| 32 ∧
        RegsBut [RegName.hifEvent.key 0 0, RegName.sclTierEvent.key 0 0] s t ∧ OnlyIn [.regs, .hif] s t)) ∧
    (s.hif.linkUp = false →
      Gives (.hostLinkDown) s (fun t =>
        OnlyIn [] s t)) ∧
    (s.writes p .pwrCmd 0 0 0 → s.pwr.st = .idle →
      Gives (.pwrCmdRun p) s (fun t =>
        t.pwr = { s.pwr with st := .run } ∧ t.rnat .pwrEvent = s.rnat .pwrEvent ||| 1 ∧ RegsBut [RegName.pwrEvent.key 0 0] s t ∧ OnlyIn [.regs, .pwr] s t)) ∧
    (s.writes p .pwrCmd 0 0 0 → s.pwr.st = .run →
      Gives (.pwrCmdRun p) s (fun t =>
        OnlyIn [] s t)) ∧
    (s.writes p .pwrCmd 0 0 0 → (s.pwr.st = .doze ∨ s.pwr.st = .keepPending) →
      Gives (.pwrCmdRun p) s (fun t =>
        t.pwr.st = .run ∧ t.rnat .pwrEvent = s.rnat .pwrEvent ||| 1 ∧ t.pwr.stage = s.pwr.stage ∧
        (∀ b : Fin 56, bit t.pwr.domains b = bit (if s.img.state = .empty then 2 ^ domHost else s.imageDomains) b ∧
          (bit (if s.img.state = .empty then 2 ^ domHost else s.imageDomains) b = true → bit t.pwr.rising b = (bit s.pwr.rising b || !bit s.pwr.domains b))))) ∧
    (s.writes p .pwrCmd 0 0 1 → s.pwr.st = .run → s.quiescent = true →
      Gives (.pwrCmdIdle p) s (fun t =>
        t.pwr = { s.pwr with st := .idle } ∧ t.rnat .pwrEvent = s.rnat .pwrEvent ||| 1 ∧ RegsBut [RegName.pwrEvent.key 0 0] s t ∧ OnlyIn [.regs, .pwr] s t)) ∧
    (s.writes p .pwrCmd 0 0 1 → s.pwr.st = .run → s.quiescent = false →
      Gives (.pwrCmdIdle p) s (fun t =>
        bits (t.rnat .pwrLastErr) 15 0 = 0x0C01 ∧ bit (t.rnat .pwrEvent) 1 = true ∧ OnlyIn [.regs] s t)) ∧
    (s.writes p .pwrCmd 0 0 1 → s.pwr.st ≠ .run →
      Gives (.pwrCmdIdle p) s (fun t =>
        OnlyIn [] s t)) ∧
    (s.writes p .pwrCmd 0 0 2 → (s.pwr.st = .run ∨ s.pwr.st = .idle) → s.quiescent = true →
      Gives (.pwrCmdDoze p) s (fun t =>
        t.pwr.st = .doze ∧ t.rnat .pwrEvent = s.rnat .pwrEvent ||| 1 ∧ t.pwr.stage = s.pwr.stage ∧
        (∀ b : Fin 56, bit t.pwr.domains b = decide (b.val = domHost)) ∧
        (∀ k : Fin 8, bit s.pwr.domains (24 + k) = true → bit t.pwr.selfRefresh k = true) ∧
        t.log.ring = s.log.ring ∧ t.mem = s.mem)) ∧
    (s.writes p .pwrCmd 0 0 2 → (s.pwr.st = .run ∨ s.pwr.st = .idle) → s.quiescent = false →
      Gives (.pwrCmdDoze p) s (fun t =>
        bits (t.rnat .pwrLastErr) 15 0 = 0x0C01 ∧ bit (t.rnat .pwrEvent) 1 = true ∧ OnlyIn [.regs] s t)) ∧
    (s.writes p .pwrCmd 0 0 2 → s.pwr.st ≠ .run → s.pwr.st ≠ .idle →
      Gives (.pwrCmdDoze p) s (fun t =>
        OnlyIn [] s t)) ∧
    (s.writes p .pwrCmd 0 0 3 → s.pwr.st = .doze →
      Gives (.pwrCmdKeep p) s (fun t =>
        t.pwr = { s.pwr with st := .keepPending } ∧ OnlyIn [.pwr] s t)) ∧
    (s.writes p .pwrCmd 0 0 3 → s.pwr.st ≠ .doze →
      Gives (.pwrCmdKeep p) s (fun t =>
        OnlyIn [] s t)) ∧
    (s.pwr.st = .keepPending →
      Gives (.keepL2Timeout) s (fun t =>
        t.pwr = { s.pwr with st := .doze } ∧ bits (t.rnat .pwrLastErr) 15 0 = 0x0C01 ∧ OnlyIn [.regs, .pwr] s t)) ∧
    (s.pwr.st ≠ .keepPending →
      Gives (.keepL2Timeout) s (fun t =>
        OnlyIn [] s t)) ∧
    (∀ (b : Fin 56) (found : Option Nat), b.val ∉ s.switchingOn →
      Gives (.domainPowerOn b found) s (fun t =>
        OnlyIn [] s t)) ∧
    (∀ (b : Fin 56) (found : Option Nat), b.val ∈ s.switchingOn →
      Gives (.domainPowerOn b found) s (fun t =>
        t.pwr.rising = s.pwr.rising - 2 ^ b.val ∧ t.pwr.domains = s.pwr.domains ∧
        t.pwr.stage = (if s.pwr.rising = 2 ^ b.val ∧ s.pwr.stage = 5 then 6 else s.pwr.stage) ∧
        (b.val = domIntake → t.intake.scanning = true ∧ t.intake.jobs = []))) ∧
    (∀ (b : Fin 56) (found : Option Nat) (n : RegName) (i j : Nat), b.val ∈ s.switchingOn →
      recordOrder s.sectionList = [] → (b.val < 32 ∨ 46 ≤ b.val) → n.row.dom.bitOf i = some b.val →
      n ∈ regsOfDomain b → i < 65536 →
      Gives (.domainPowerOn b found) s (fun t =>
        t.rget n i j = n.resetOf i j)) ∧
    (∀ (main : Bool) (mv : Nat), s.pwr.st.running = true →
      Gives (.comparatorWindow main mv) s (fun t =>
        t.pwr = { s.pwr with vbakMv := mv, vbakLow := vbakIsLow s.pwr.vbakLow mv } ∧
        t.rnat .pwrEvent = (if vbakIsLow s.pwr.vbakLow mv = true ∧ s.pwr.vbakLow = false ∧ main = true then s.rnat .pwrEvent ||| 8 else s.rnat .pwrEvent) ∧
        RegsBut [RegName.pwrEvent.key 0 0] s t ∧ OnlyIn [.regs, .pwr] s t)) ∧
    (∀ (main : Bool) (mv : Nat), s.pwr.st = .keep → s.pwr.mainPg = false → vbakIsLow s.pwr.vbakLow mv = false →
      Gives (.comparatorWindow main mv) s (fun t =>
        t.pwr = { s.pwr with vbakMv := mv, vbakLow := false, mainPg := main } ∧ OnlyIn [.pwr] s t)) ∧
    (∀ (mv : Nat), s.pwr.st = .keep → s.pwr.mainPg = false → vbakIsLow s.pwr.vbakLow mv = true →
      Gives (.comparatorWindow false mv) s (fun t =>
        t.pwr.st = .off ∧ t.pwr.marker = true ∧ t.pwr.resume = none ∧ t.pwr.domains = 0 ∧ bits (t.rnat .pwrLastErr) 15 0 = 0x0C04 ∧ OnlyIn [.regs, .pwr] s t)) ∧
    (∀ (mv : Nat), s.pwr.st = .keep → s.pwr.mainPg = false → vbakIsLow s.pwr.vbakLow mv = true →
      Gives (.comparatorWindow true mv) s (fun t =>
        t.pwr.st = .keep ∧ t.pwr.mainPg = true ∧ t.pwr.marker = true ∧ t.pwr.resume = none ∧ bits (t.rnat .pwrLastErr) 15 0 = 0x0C04 ∧ OnlyIn [.regs, .pwr] s t)) ∧
    (∀ (main : Bool) (mv : Nat), s.pwr.st = .keep → s.pwr.mainPg = true →
      Gives (.comparatorWindow main mv) s (fun t =>
        t.pwr = { s.pwr with vbakMv := mv, vbakLow := vbakIsLow s.pwr.vbakLow mv } ∧ OnlyIn [.pwr] s t)) ∧
    (∀ (main : Bool) (mv : Nat), (s.pwr.st = .off ∨ s.pwr.st = .tripped) →
      Gives (.comparatorWindow main mv) s (fun t =>
        t.pwr.mainPg = main ∧ t.pwr.vbakMv = mv ∧
        t.pwr.st = (if main = false ∧ vbakIsLow s.pwr.vbakLow mv = true then .off else s.pwr.st) ∧ OnlyIn [.pwr] s t)) ∧
    (∀ (k : Fin 3) (v : W32), s.writes p .pwrSsc k 0 v.toNat →
      RegName.pwrSsc.fieldOk k (v.toNat &&& RegName.pwrSsc.row.mask) = true →
      s.rwAccept p.idx .pwrSsc k 0 (v.toNat &&& RegName.pwrSsc.row.mask) = true →
      Gives (.sscWrite p k v) s (fun t =>
        t.rnat .pwrSsc k = v.toNat &&& RegName.pwrSsc.row.mask ∧ RegsBut [RegName.pwrSsc.key k 0] s t ∧ OnlyIn [.regs] s t))

/-- MAIN_LOST, RAIL_FAULT, THERMAL_SAMPLE, HOST_L2_ENTRY, PERST_ASSERT, PERST_RELEASE, SELF_TEST_COMPLETE, STACK_TRAINING_END, LINKS_STAGE_END and FOOTHILL_LINK_DOWN (chapters 19 and 20). -/
def Obligations.LossTripAndBringUp : Prop :=
  ∀ (s : State), s.noLeftFailures →
    (s.pwr.mainPg = true → s.pwr.st.running = true → s.pwr.vbakLow = false → s.logOpen →
      Gives (.mainLost) s (fun t =>
        t.pwr.mainPg = false ∧ t.pwr.st = .keep ∧ t.pwr.domains = 0 ∧ t.pwr.resume = s.resumeRecord false ∧ t.pwr.selfRefresh = 0 ∧
        bits (t.rnat .pwrLastErr) 15 0 = 0x0C05 ∧ AllZero (slopeBase 0) (8 * slopeSize) t ∧ BytesBut (slopeBase 0) (8 * slopeSize) s t ∧
        t.log.staged = [] ∧ t.log.written = s.log.written + s.log.staged.length + 1 ∧ t.dma = {} ∧ t.tiles = [] ∧ t.srv = {} ∧
        t.intake = {} ∧ t.img.state = .empty ∧ t.img.svFloor = s.img.svFloor)) ∧
    (s.pwr.mainPg = true → s.pwr.st.running = true → s.pwr.vbakLow = true →
      Gives (.mainLost) s (fun t =>
        t.pwr.mainPg = false ∧ t.pwr.st = .off ∧ t.pwr.marker = true ∧ t.pwr.resume = none ∧ t.pwr.domains = 0 ∧
        bits (t.rnat .pwrLastErr) 15 0 = 0x0C04 ∧ t.log.ring = s.log.ring ∧ t.dma = {} ∧ t.tiles = [])) ∧
    (s.pwr.mainPg = true → s.pwr.st = .keep →
      Gives (.mainLost) s (fun t =>
        t.pwr = { s.pwr with mainPg := false, keepByCmd := false, selfRefresh := 0 } ∧ AllZero (slopeBase 0) (8 * slopeSize) t ∧
        BytesBut (slopeBase 0) (8 * slopeSize) s t ∧ OnlyIn [.regs, .mem, .pwr] s t)) ∧
    (s.pwr.mainPg = true → (s.pwr.st = .off ∨ s.pwr.st = .tripped) →
      Gives (.mainLost) s (fun t =>
        t.pwr = { s.pwr with mainPg := false } ∧ OnlyIn [.pwr] s t)) ∧
    (s.pwr.mainPg = false →
      Gives (.mainLost) s (fun t =>
        OnlyIn [] s t)) ∧
    (s.pwr.st.running = true → s.logOpen →
      Gives (.railFault) s (fun t =>
        t.pwr.st = .keep ∧ t.pwr.domains = 0 ∧ t.pwr.resume = s.resumeRecord false ∧ t.pwr.selfRefresh = 0 ∧
        bits (t.rnat .pwrLastErr) 15 0 = 0x0C02 ∧ AllZero (slopeBase 0) (8 * slopeSize) t ∧ BytesBut (slopeBase 0) (8 * slopeSize) s t ∧
        t.log.staged = [] ∧ t.log.written = s.log.written + s.log.staged.length + 1 ∧ t.dma = {} ∧ t.tiles = [] ∧ t.srv = {} ∧
        t.intake = {} ∧ t.img.state = .empty ∧ t.img.svFloor = s.img.svFloor ∧ t.rnat .pwrRailFaults = (s.rnat .pwrRailFaults + 1) % 2 ^ 32)) ∧
    (s.pwr.st.running = false →
      Gives (.railFault) s (fun t =>
        OnlyIn [] s t)) ∧
    (∀ (k : Fin 40) (x : Int), s.pwr.st ≠ .off → s.pwr.st ≠ .tripped → (x < 1840 ∨
      ((NMap.get? s.pwr.temps k).map (·.2)).getD false = false) →
      Gives (.thermalSample k x) s (fun t =>
        NMap.get? t.pwr.temps k = some (x, decide (x ≥ 1840)) ∧ t.pwr.st = s.pwr.st ∧ t.pwr.domains = s.pwr.domains ∧
        (s.pwr.st.running = true ∧ (s.rnat .pwrTempWarn : Int) ≤ x → bit (t.rnat .pwrEvent) 4 = true) ∧
        RegsBut [RegName.pwrEvent.key 0 0] s t ∧ OnlyIn [.regs, .pwr] s t)) ∧
    (∀ (k : Fin 40) (x : Int), s.pwr.st ≠ .off → s.pwr.st ≠ .tripped → 1840 ≤ x →
      ((NMap.get? s.pwr.temps k).map (·.2)).getD false = true →
      Gives (.thermalSample k x) s (fun t =>
        t.pwr.st = .tripped ∧ t.pwr.domains = 0 ∧ t.pwr.marker = true ∧ t.pwr.resume = none ∧
        bits (t.rnat .pwrLastErr) 15 0 = 0x0C03 ∧ t.dma = {} ∧ t.tiles = [] ∧ t.srv = {} ∧ t.intake = {} ∧ t.mem = s.mem)) ∧
    (∀ (k : Fin 40) (x : Int), (s.pwr.st = .off ∨ s.pwr.st = .tripped) →
      Gives (.thermalSample k x) s (fun t =>
        OnlyIn [] s t)) ∧
    (s.pwr.st = .keepPending →
      Gives (.hostL2Entry) s (fun t =>
        t.pwr.st = .keep ∧ t.pwr.domains = 0 ∧ t.pwr.keepByCmd = true ∧ t.pwr.keepFrom = some s.now ∧
        t.pwr.selfRefresh = s.pwr.selfRefresh ∧ t.dma = {} ∧ t.tiles = [] ∧ t.srv = {} ∧ t.intake = {})) ∧
    (s.pwr.st ≠ .keepPending →
      Gives (.hostL2Entry) s (fun t =>
        OnlyIn [] s t)) ∧
    (s.pwr.st.running = true →
      Gives (.perstAssert) s (fun t =>
        t.pwr.perst = true ∧ t.pwr.st = .run ∧ t.pwr.stage = 0 ∧ t.pwr.domains = 2 ^ domHost ∧ t.dma = {} ∧ t.tiles = [] ∧
        t.srv = {} ∧ t.intake = {} ∧ t.aln = {} ∧ t.img.state = .empty ∧ t.img.svFloor = s.img.svFloor ∧ t.img.revoked = s.img.revoked ∧
        t.mem = s.mem ∧ t.log.ring = s.log.ring ∧ t.tier.holdings.length = s.tier.holdings.length)) ∧
    (∀ (n : RegName) (i j : Nat), s.pwr.st.running = true → keptReg (n.key i j) = false →
      Gives (.perstAssert) s (fun t =>
        t.rget n i j = n.resetOf i j)) ∧
    (s.pwr.st.running = false →
      Gives (.perstAssert) s (fun t =>
        t.pwr = { s.pwr with perst := true } ∧ OnlyIn [.pwr] s t)) ∧
    (∀ (v : Nat), s.pwr.perst = true → s.pwr.mainPg = true → s.pwr.st ≠ .tripped →
      Gives (.perstRelease v) s (fun t =>
        t.pwr.perst = false ∧ t.pwr.st = .run ∧ t.pwr.stage = 2 ∧ t.pwr.startKind = s.startKindNow ∧ t.pwr.straps = some (v &&& 0xE7F) ∧
        t.pwr.marker = false ∧ t.pwr.trippedBefore = false ∧ t.pwr.resume = none ∧
        t.pwr.warm = (if s.startKindNow = 1 then s.pwr.resume else none) ∧ t.mem = s.mem)) ∧
    (∀ (v id : Nat) (h : Holding), s.pwr.perst = true → s.pwr.mainPg = true → s.startKindNow = 1 →
      s.hold? id = some h →
      Gives (.perstRelease v) s (fun t =>
        t.hold? id = some (s.resumeHolding s.pwr.keepByCmd { h with dest := none, destSize := 0 }) ∧ bit (t.rnat .pwrEvent) 2 = true)) ∧
    (∀ (v : Nat), (s.pwr.perst = false ∨ s.pwr.mainPg = false ∨ s.pwr.st = .tripped) →
      Gives (.perstRelease v) s (fun t =>
        OnlyIn [] s t)) ∧
    (∀ (bad fault : Nat), s.pwr.stage ≠ 2 →
      Gives (.selfTestComplete bad fault) s (fun t =>
        OnlyIn [] s t)) ∧
    (∀ (bad fault : Nat), s.pwr.stage = 2 → fault ≠ 0 →
      Gives (.selfTestComplete bad fault) s (fun t =>
        t.pwr.stage = 15 ∧ t.pwr.bootFault = fault ∧ t.pwr.bootCode = 0x0C06 ∧ bits (t.rnat .pwrLastErr) 15 0 = 0x0C06 ∧ OnlyIn [.regs, .pwr] s t)) ∧
    (∀ (bad : Nat), s.pwr.stage = 2 → s.pwr.startKind ≠ 1 → bit s.strapsWord 9 = false →
      Gives (.selfTestComplete bad 0) s (fun t =>
        t.pwr.stage = 3 ∧ t.pwr.badTiles = bad % 2 ^ 24 ∧ t.tier.holdings = [] ∧ AllZero 0 0x10000000 t ∧
        BytesBut 0 0x10000000 s t ∧ OnlyIn [.mem, .pwr, .tier] s t)) ∧
    (∀ (bad : Nat), s.pwr.stage = 2 → s.pwr.startKind = 1 → bit s.strapsWord 9 = false →
      Gives (.selfTestComplete bad 0) s (fun t =>
        t.pwr.stage = 3 ∧ t.pwr.badTiles = s.pwr.badTiles ∧ OnlyIn [.pwr] s t)) ∧
    (∀ (bad : Nat), s.pwr.stage = 2 → bit s.strapsWord 9 = true →
      Gives (.selfTestComplete bad 0) s (fun t =>
        t.pwr.stage = 4 ∧ t.img.state = .staging ∧ t.img.op = .flash ∧ OnlyIn [.mem, .img, .pwr, .tier] s t)) ∧
    (∀ (bad : Nat), 6 ≤ s.pwr.stage → s.pwr.stage ≠ 15 →
      Gives (.stackTrainingEnd bad) s (fun t =>
        (∀ k : Fin 8, bit t.pwr.badStacks k = (bit s.pwr.badStacks k || bit bad k && s.domainOn (domStack k))) ∧
        t.pwr.stage = (if s.pwr.stage = 6 then 7 else s.pwr.stage) ∧ t.mem = s.mem ∧ OnlyIn [.regs, .pwr, .tier] s t)) ∧
    (∀ (bad id : Nat) (k : Fin 8) (h : Holding), 6 ≤ s.pwr.stage → s.pwr.stage ≠ 15 → bit bad k = true →
      s.domainOn (domStack k) = true → s.hold? id = some h →
      overlaps h.base (h.size * granule) (slopeBase k) slopeSize = true →
      Gives (.stackTrainingEnd bad) s (fun t =>
        (t.hold? id).map (·.state) = some 4)) ∧
    (∀ (bad : Nat), (s.pwr.stage < 6 ∨ s.pwr.stage = 15) →
      Gives (.stackTrainingEnd bad) s (fun t =>
        OnlyIn [] s t)) ∧
    (s.pwr.stage = 7 → s.cad.state = .acquire → s.cad.master = false →
      Gives (.linksStageEnd) s (fun t =>
        t.pwr.stage = 8 ∧ t.pwr.linksDown = s.linksNotUp ∧ t.rbit .cadCtrl 0 = true ∧ RegsBut [RegName.cadCtrl.key 0 0, RegName.cadHoldCount.key 0 0] s t ∧ OnlyIn [.regs, .cad, .pwr] s t)) ∧
    (s.pwr.stage = 7 → s.rbit .cadCtrl 0 = true → (s.cad.state = .locked ∨ s.cad.master = true) →
      Gives (.linksStageEnd) s (fun t =>
        t.pwr.stage = 9 ∧ t.pwr.linksDown = s.linksNotUp ∧ OnlyIn [.pwr] s t)) ∧
    (s.pwr.stage ≠ 7 →
      Gives (.linksStageEnd) s (fun t =>
        OnlyIn [] s t)) ∧
    (∀ (k : Fin 2), s.domainOn (domCxl k) = true →
      Gives (.foothillLinkDown k) s (fun t =>
        k.val ∈ t.tier.fhDown ∧ t.rnat .sclTierEvent = s.rnat .sclTierEvent ||| 2 ^ (3 + k.val) ∧ t.tier.holdings = s.tier.holdings ∧
        RegsBut [RegName.sclTierEvent.key 0 0] s t ∧ OnlyIn [.regs, .tier] s t)) ∧
    (∀ (k : Fin 2), s.domainOn (domCxl k) = false →
      Gives (.foothillLinkDown k) s (fun t =>
        OnlyIn [] s t))

/-- LOG_WRITER_DRAIN, TALLY_FLUSH, TEMPERATURE_SAMPLE, LOG_READ_SEQ, LOG_TIME_SET, I2C_READ, I2C_WRITE, BYPASS, IDCODE, SAMPLE_PRELOAD, EXTEST, HIGHZ, CLAMP and DEBUG (R527 to R538, R554 to R556). The cells of the boundary register and the form of DEBUG are the model's reading (NOTES.md, Assumptions). -/
def Obligations.LogTallyAndSidePorts : Prop :=
  ∀ (s : State) (p : Path), s.noLeftFailures →
    (s.log.batch = [] → (s.log.staged.map (fun e => e.seq % 131072)).Nodup →
      Gives (.logWriterDrain) s (fun t =>
        t.log.staged = [] ∧ t.log.written = s.log.written + s.log.staged.length ∧ t.log.nextSeq = s.log.nextSeq ∧
        (∀ e ∈ s.log.staged, NMap.get? t.log.ring (e.seq % 131072) = some (e, true)) ∧ t.tally = s.tally ∧ OnlyIn [] s t)) ∧
    (∀ (k : Nat), NMap.sorted s.tally.acc = true → s.log.batch = [] →
      Gives (.tallyFlush) s (fun t =>
        NMap.getD t.tally.mram k 0 = (match NMap.get? s.tally.acc k with
          | some x => min (2 ^ 64 - 1) (NMap.getD s.tally.mram k 0 + x) | none => NMap.getD s.tally.mram k 0) ∧
        t.tally.acc = [] ∧ t.log = s.log ∧ OnlyIn [] s t)) ∧
    (s.pwr.st.running = true → s.log.batch = [] →
      Gives (.temperatureSample) s (fun t =>
        (∀ k : Fin 32, NMap.getD t.tally.acc (0x4060 + k.val) 0 =
          NMap.getD s.tally.acc (0x4060 + k.val) 0 + b2n (decide (k.val = tempBin ((s.tempMax.map (·.2)).getD 0)))) ∧
        t.tally.mram = s.tally.mram ∧ t.log = s.log ∧ OnlyIn [] s t)) ∧
    (s.pwr.st.running = false →
      Gives (.temperatureSample) s (fun t =>
        OnlyIn [] s t)) ∧
    (∀ (v : W64), s.writes p .logReadSeq 0 0 v.toNat → RegName.logReadSeq.fieldOk 0 v.toNat = true →
      s.rwAccept p.idx .logReadSeq 0 0 v.toNat = true →
      Gives (.logReadSeq p v) s (fun t =>
        t.pget p.idx .logReadSeq = v.toNat ∧ t.pget p.idx .logReadStatus = (s.logSelect (decide (1 ≤ p.idx) && decide (p.idx ≤ 8)) ((s.partOfFn p.idx).map (·.id)) v.toNat).1 ∧
        (∀ k : Fin 16, t.pget p.idx .logEntry k = fieldAt (s.logSelect (decide (1 ≤ p.idx) && decide (p.idx ≤ 8)) ((s.partOfFn p.idx).map (·.id)) v.toNat).2 (4 * k) 4) ∧ OnlyIn [.regs] s t)) ∧
    (∀ (v : W64), s.writes p .logTimeSet 0 0 v.toNat →
      Gives (.logTimeSet p v) s (fun t =>
        (if s.log.timeRuns then t.log.timeBase = v.toNat ∧ t.log.timeFrom = s.now else t.log.timePreset = some v.toNat) ∧
        t.log.timeRuns = s.log.timeRuns ∧ OnlyIn [] s t)) ∧
    (∀ (off : Nat) (n : RegName) (i j : Nat), s.pwr.st.running = true → accessAt off 4 = some (n, i, j, false) →
      n.row.w64 = false → n.row.acc ≠ .rc → s.reaches .i2c n i → s.mayRead .i2c n i j = true →
      Gives (.i2cRead off true) s (fun t =>
        t.side = { s.side with i2cNack := false, i2cData := some (BitVec.ofNat 32 (s.regValue .i2c n i j)) } ∧ OnlyIn [.side] s t)) ∧
    (∀ (off : Nat) (whole : Bool), (s.pwr.st.running = false ∨ whole = false) →
      Gives (.i2cRead off whole) s (fun t =>
        t.side = { s.side with i2cNack := true, i2cData := none } ∧ OnlyIn [.side] s t)) ∧
    (∀ (v : W32), s.pwr.st.running = true → s.writes .i2c .tlySel 0 0 v.toNat →
      RegName.tlySel.fieldOk 0 (v.toNat &&& RegName.tlySel.row.mask) = true →
      s.rwAccept Path.i2c.idx .tlySel 0 0 (v.toNat &&& RegName.tlySel.row.mask) = true →
      Gives (.i2cWrite 0x500004 v true) s (fun t =>
        t.pget Path.i2c.idx .tlySel = v.toNat &&& RegName.tlySel.row.mask ∧
        t.side = { s.side with i2cNack := false, i2cData := none } ∧ OnlyIn [.regs, .side] s t)) ∧
    (∀ (off : Nat) (v : W32) (whole : Bool), (s.pwr.st.running = false ∨ whole = false) →
      Gives (.i2cWrite off v whole) s (fun t =>
        t.side = { s.side with i2cNack := true, i2cData := none } ∧ OnlyIn [.side] s t)) ∧
    (∀ (off : Nat) (v : W32) (n : RegName) (i j : Nat), s.pwr.st.running = true → accessAt off 4 = some (n, i,
      j, false) → n.row.acc ≠ .ro → s.mayWrite .i2c n i j v.toNat = false → notOwnedCode n v.toNat = 0 →
      s.pwr.stage = 9 →
      Gives (.i2cWrite off v true) s (fun t =>
        t.side = { s.side with i2cNack := false, i2cData := none } ∧ OnlyIn [.side] s t)) ∧
    (∀ (x : Bool), s.pwr.st.running = true →
      Gives (.bypass x) s (fun t =>
        t.side = { s.side with ir := .bypass, fromCells := false, hiZ := false, bypassBit := x, tdo := 0 } ∧ OnlyIn [.side] s t)) ∧
    (∀ (x : Bool), s.pwr.st.running = false →
      Gives (.bypass x) s (fun t =>
        OnlyIn [] s t)) ∧
    (s.pwr.st.running = true →
      Gives (.idcode) s (fun t =>
        t.side = { s.side with ir := .idcode, fromCells := false, hiZ := false, tdo := 0x11A64001 } ∧ OnlyIn [.side] s t)) ∧
    (s.pwr.st.running = false →
      Gives (.idcode) s (fun t =>
        OnlyIn [] s t)) ∧
    (∀ (a b : BitVec 26), s.pwr.st.running = true →
      Gives (.samplePreload a b) s (fun t =>
        t.side = { s.side with ir := .samplePreload, fromCells := false, hiZ := false, captured := a, cells := b, tdo := a.setWidth 64 } ∧ OnlyIn [.side] s t)) ∧
    (∀ (a b : BitVec 26), s.pwr.st.running = false →
      Gives (.samplePreload a b) s (fun t =>
        OnlyIn [] s t)) ∧
    (∀ (a b : BitVec 26), s.pwr.st.running = true →
      Gives (.extest a b) s (fun t =>
        t.side = { s.side with ir := .extest, fromCells := true, hiZ := false, captured := a, cells := b, tdo := a.setWidth 64 } ∧ OnlyIn [.side] s t)) ∧
    (∀ (a b : BitVec 26), s.pwr.st.running = false →
      Gives (.extest a b) s (fun t =>
        OnlyIn [] s t)) ∧
    (∀ (x : Bool), s.pwr.st.running = true →
      Gives (.highz x) s (fun t =>
        t.side = { s.side with ir := .highz, fromCells := false, hiZ := true, bypassBit := x, tdo := 0 } ∧ OnlyIn [.side] s t)) ∧
    (∀ (x : Bool), s.pwr.st.running = false →
      Gives (.highz x) s (fun t =>
        OnlyIn [] s t)) ∧
    (∀ (x : Bool), s.pwr.st.running = true →
      Gives (.clamp x) s (fun t =>
        t.side = { s.side with ir := .clamp, fromCells := true, hiZ := false, bypassBit := x, tdo := 0 } ∧ OnlyIn [.side] s t)) ∧
    (∀ (x : Bool), s.pwr.st.running = false →
      Gives (.clamp x) s (fun t =>
        OnlyIn [] s t)) ∧
    (∀ (off : Nat) (n : RegName) (i j : Nat) (v : W32), s.pwr.st.running = true → off < 0x40000000 →
      accessAt off 4 = some (n, i, j, false) → n.row.w64 = false → n.row.acc ≠ .rc → s.reaches .jtag n i →
      s.mayRead .jtag n i j = true →
      Gives (.debug (0x40000000 + off) v false) s (fun t =>
        t.side = { s.side with ir := .debug, fromCells := false, hiZ := false, tdo := BitVec.ofNat 64 (s.regValue .jtag n i j) } ∧ OnlyIn [.side] s t)) ∧
    (∀ (off : Nat) (n : RegName) (i j : Nat) (v : W32), s.pwr.st.running = true → off < 0x40000000 →
      accessAt off 4 = some (n, i, j, false) → n.row.w64 = false → n.row.acc = .rw → n.plain = true →
      s.writes .jtag n i j v.toNat → n.fieldOk i (v.toNat &&& n.row.mask) = true →
      s.rwAccept Path.jtag.idx n i j (v.toNat &&& n.row.mask) = true →
      Gives (.debug (0x40000000 + off) v true) s (fun t =>
        t.pget Path.jtag.idx n i j = v.toNat &&& n.row.mask ∧
        RegsBut [n.key (n.copy i j Path.jtag.idx).1 (n.copy i j Path.jtag.idx).2] s t ∧
        t.side = { s.side with ir := .debug, fromCells := false, hiZ := false } ∧ OnlyIn [.regs, .side] s t)) ∧
    (∀ (a : Nat) (v : W32) (w : Bool), s.pwr.st.running = false →
      Gives (.debug a v w) s (fun t =>
        OnlyIn [] s t))
end

