-- ==== Sys2Proof/Laws/Memory.lean ====
section
/-! SUPPORT. Sparse data and memory: reads after writes, and the canonical form that every memory operation keeps. -/
namespace Sys2Proof
set_option Elab.async false

/-! ### Finite maps -/

@[simp] theorem NMap.get?_nil {α : Type} (k : Nat) : NMap.get? ([] : NMap α) k = none := rfl

theorem NMap.get?_put_same {α : Type} (m : NMap α) (k : Nat) (v : α) : NMap.get? (NMap.put m k v) k = some v := by
  induction m with
  | nil => simp [NMap.put, NMap.get?]
  | cons e m ih =>
    obtain ⟨a, b⟩ := e
    simp only [NMap.put]
    split
    · simp [NMap.get?]
    · split
      · simp [NMap.get?]
      · simp [NMap.get?, *]

theorem NMap.get?_put_ne {α : Type} (m : NMap α) (k k' : Nat) (v : α) (h : k' ≠ k) :
    NMap.get? (NMap.put m k v) k' = NMap.get? m k' := by
  induction m with
  | nil => simp [NMap.put, NMap.get?, Ne.symm h]
  | cons e m ih =>
    obtain ⟨a, b⟩ := e
    simp only [NMap.put]
    split
    · simp [NMap.get?, Ne.symm h]
    · split
      · next h1 h2 => subst h2; simp [NMap.get?, Ne.symm h]
      · simp [NMap.get?, ih]

@[simp] theorem NMap.getD_put_same {α : Type} (m : NMap α) (k : Nat) (v d : α) : NMap.getD (NMap.put m k v) k d = v := by
  simp [NMap.getD, NMap.get?_put_same]

theorem NMap.getD_put_ne {α : Type} (m : NMap α) (k k' : Nat) (v d : α) (h : k' ≠ k) :
    NMap.getD (NMap.put m k v) k' d = NMap.getD m k' d := by
  simp [NMap.getD, NMap.get?_put_ne _ _ _ _ h]

theorem NMap.get?_del_same {α : Type} (m : NMap α) (k : Nat) : NMap.get? (NMap.del m k) k = none := by
  induction m with
  | nil => rfl
  | cons e m ih =>
    obtain ⟨a, b⟩ := e
    by_cases h : a = k
    · simpa [NMap.del, h] using ih
    · simp [NMap.del, h, NMap.get?]; simpa [NMap.del] using ih

theorem NMap.get?_del_ne {α : Type} (m : NMap α) (k k' : Nat) (h : k' ≠ k) :
    NMap.get? (NMap.del m k) k' = NMap.get? m k' := by
  induction m with
  | nil => rfl
  | cons e m ih =>
    obtain ⟨a, b⟩ := e
    have ih' : NMap.get? (List.filter (fun e => decide (e.1 ≠ k)) m) k' = NMap.get? m k' := ih
    by_cases h1 : a = k
    · subst h1; simp [NMap.del, NMap.get?, Ne.symm h]; simpa using ih'
    · simp [NMap.del, h1, NMap.get?]; split <;> simp_all

/-- Strictly rising keys, said with the order of the whole list. -/
theorem NMap.sorted_iff {α : Type} (m : NMap α) : NMap.sorted m = true ↔ m.Pairwise (fun a b => a.1 < b.1) := by
  induction m with
  | nil => simp [NMap.sorted]
  | cons e m ih =>
    obtain ⟨a, x⟩ := e
    cases m with
    | nil => simp [NMap.sorted]
    | cons f m =>
      obtain ⟨b, y⟩ := f
      rw [List.pairwise_cons]
      simp only [NMap.sorted, Bool.and_eq_true, decide_eq_true_eq, ih]
      constructor
      · rintro ⟨h1, h2⟩
        refine ⟨?_, h2⟩
        intro z hz
        rcases List.mem_cons.1 hz with rfl | hz
        · exact h1
        · exact Nat.lt_trans h1 ((List.pairwise_cons.1 h2).1 z hz)
      · rintro ⟨h1, h2⟩
        exact ⟨h1 (b, y) (by simp), h2⟩

theorem NMap.mem_put {α : Type} {m : NMap α} {k : Nat} {v : α} {e : Nat × α} (h : e ∈ NMap.put m k v) :
    e = (k, v) ∨ e ∈ m := by
  induction m with
  | nil => simp [NMap.put] at h; exact .inl h
  | cons f m ih =>
    obtain ⟨a, b⟩ := f
    simp only [NMap.put] at h
    split at h
    · simpa using h
    · split at h
      · rcases List.mem_cons.1 h with h | h
        · exact .inl h
        · exact .inr (List.mem_cons_of_mem _ h)
      · rcases List.mem_cons.1 h with h | h
        · exact .inr (by simp [h])
        · rcases ih h with h | h
          · exact .inl h
          · exact .inr (List.mem_cons_of_mem _ h)

theorem NMap.sorted_put {α : Type} (m : NMap α) (k : Nat) (v : α) (h : NMap.sorted m = true) :
    NMap.sorted (NMap.put m k v) = true := by
  rw [NMap.sorted_iff] at h ⊢
  induction m with
  | nil => simp [NMap.put]
  | cons e m ih =>
    obtain ⟨a, b⟩ := e
    rw [List.pairwise_cons] at h
    simp only [NMap.put]
    split
    · next h1 =>
      rw [List.pairwise_cons]
      refine ⟨?_, List.pairwise_cons.2 h⟩
      intro z hz
      rcases List.mem_cons.1 hz with rfl | hz
      · exact h1
      · exact Nat.lt_trans h1 (h.1 z hz)
    · split
      · next h1 h2 => subst h2; exact List.pairwise_cons.2 h
      · next h1 h2 =>
        rw [List.pairwise_cons]
        refine ⟨?_, ih h.2⟩
        intro z hz
        rcases NMap.mem_put hz with rfl | hz
        · simp only; omega
        · exact h.1 z hz

theorem NMap.sorted_filter {α : Type} (m : NMap α) (p : Nat × α → Bool) (h : NMap.sorted m = true) :
    NMap.sorted (m.filter p) = true := by
  rw [NMap.sorted_iff] at h ⊢
  exact h.filter p

namespace Machine

/-! ### Memory -/

theorem Memory.wf_iff (m : List Host.Cell) :
    Memory.wf m = true ↔ NMap.sorted m = true ∧ ∀ e ∈ m, e.2 ≠ Memory.unlisted e.1 := by
  simp [Memory.wf, List.all_eq_true]

/-- Writing a byte keeps the canonical form. -/
theorem Memory.wf_write (m : List Host.Cell) (a : Nat) (b : Byte) (h : Memory.wf m = true) :
    Memory.wf (Memory.write m a b) = true := by
  rw [Memory.wf_iff] at h ⊢
  unfold Memory.write
  split
  · exact ⟨NMap.sorted_filter _ _ h.1, fun e he => h.2 e (List.mem_filter.1 he).1⟩
  · next hb =>
    refine ⟨NMap.sorted_put _ _ _ h.1, fun e he => ?_⟩
    rcases NMap.mem_put he with rfl | he
    · exact hb
    · exact h.2 e he

/-- Writing bytes one after another keeps the canonical form. -/
theorem Memory.wf_writeList (bs : List Byte) (m : List Host.Cell) (a : Nat) (h : Memory.wf m = true) :
    Memory.wf (Memory.writeList m a bs) = true := by
  induction bs generalizing m a with
  | nil => exact h
  | cons b bs ih => exact ih _ _ (Memory.wf_write m a b h)

/-- Clearing a range keeps the canonical form. -/
theorem Memory.wf_zeroRange (m : List Host.Cell) (a n : Nat) (h : Memory.wf m = true) :
    Memory.wf (Memory.zeroRange m a n) = true := by
  rw [Memory.wf_iff] at h ⊢
  exact ⟨NMap.sorted_filter _ _ h.1, fun e he => h.2 e (List.mem_filter.1 he).1⟩

/-- The byte written is the byte read. -/
@[simp] theorem Memory.read_write_same (m : List Host.Cell) (a : Nat) (b : Byte) :
    Memory.read (Memory.write m a b) a = b := by
  unfold Memory.read Memory.write
  split
  · next h => simp [NMap.getD, NMap.get?_del_same, h]
  · simp

/-- A write leaves every other byte alone. -/
theorem Memory.read_write_ne (m : List Host.Cell) (a x : Nat) (b : Byte) (h : x ≠ a) :
    Memory.read (Memory.write m a b) x = Memory.read m x := by
  unfold Memory.read Memory.write
  split
  · simp [NMap.getD, NMap.get?_del_ne _ _ _ h]
  · simp [NMap.getD_put_ne _ _ _ _ _ h]

/-- Bytes outside the ones written are as they were. -/
theorem Memory.read_writeList_out (bs : List Byte) (m : List Host.Cell) (a x : Nat) (h : x < a ∨ a + bs.length ≤ x) :
    Memory.read (Memory.writeList m a bs) x = Memory.read m x := by
  induction bs generalizing m a with
  | nil => rfl
  | cons b bs ih =>
    simp only [List.length_cons] at h
    rw [Memory.writeList, ih _ _ (by omega), Memory.read_write_ne _ _ _ _ (by omega)]

/-- Bytes written read back in place. -/
theorem Memory.read_writeList_in (bs : List Byte) (m : List Host.Cell) (a k : Nat) (h : k < bs.length) :
    Memory.read (Memory.writeList m a bs) (a + k) = bs[k] := by
  induction bs generalizing m a k with
  | nil => simp at h
  | cons b bs ih =>
    cases k with
    | zero => rw [Memory.writeList, Memory.read_writeList_out _ _ _ _ (by omega)]; simp
    | succ k =>
      have := ih (Memory.write m a b) (a + 1) k (by simpa using h)
      rw [Memory.writeList, show a + (k + 1) = a + 1 + k by omega, this]; simp

/-- A cleared byte reads as zero, any other byte as before. -/
theorem Memory.read_zeroRange (m : List Host.Cell) (a n x : Nat) :
    Memory.read (Memory.zeroRange m a n) x = if a ≤ x ∧ x < a + n then 0 else Memory.read m x := by
  unfold Memory.read Memory.zeroRange NMap.getD
  induction m with
  | nil => simp [NMap.get?, Memory.unlisted]
  | cons e m ih =>
    obtain ⟨k, b⟩ := e
    by_cases h : a ≤ k ∧ k < a + n
    · simp only [List.filter_cons, h, decide_true, Bool.and_true, Bool.not_true, Bool.false_eq_true, if_false, ih, NMap.get?]
      split
      · rfl
      · next hx => simp [show k ≠ x by rintro rfl; exact hx h]
    · have hb : (!(decide (a ≤ k) && decide (k < a + n))) = true := by
        simp only [Bool.not_eq_true', Bool.and_eq_false_iff, decide_eq_false_iff_not]; omega
      simp only [List.filter_cons, hb, if_true, NMap.get?]
      by_cases hx : k = x
      · subst hx; simp [h]
      · simp only [hx, if_false, ih]

theorem State.wr_wf (s : State) (a : Nat) (bs : List Byte) (h : Memory.wf s.mem = true) :
    Memory.wf (s.wr a bs).mem = true := Memory.wf_writeList bs s.mem a h

theorem State.zero_wf (s : State) (a n : Nat) (h : Memory.wf s.mem = true) :
    Memory.wf (s.zero a n).mem = true := Memory.wf_zeroRange s.mem a n h

theorem Memory.reset_wf : Memory.wf State.reset.mem = true := rfl

end Machine
end Sys2Proof
end

