-- ==== Sys2Proof/Laws/State.lean ====
section
/-! SUPPORT. What the shared updates of the state leave alone: one lemma per field per update. -/
namespace Sys2Proof.Machine
set_option Elab.async false

variable (s : State)


/-! ### `rput` -/

@[simp] theorem State.rput_pending (n : RegName) (v : W64) (i j : Nat) : (s.rput n v i j).pending = s.pending := rfl
@[simp] theorem State.rput_latch (n : RegName) (v : W64) (i j : Nat) : (s.rput n v i j).latch = s.latch := rfl
@[simp] theorem State.rput_held (n : RegName) (v : W64) (i j : Nat) : (s.rput n v i j).held = s.held := rfl
@[simp] theorem State.rput_readVal (n : RegName) (v : W64) (i j : Nat) : (s.rput n v i j).readVal = s.readVal := rfl
@[simp] theorem State.rput_mem (n : RegName) (v : W64) (i j : Nat) : (s.rput n v i j).mem = s.mem := rfl
@[simp] theorem State.rput_now (n : RegName) (v : W64) (i j : Nat) : (s.rput n v i j).now = s.now := rfl
@[simp] theorem State.rput_free (n : RegName) (v : W64) (i j : Nat) : (s.rput n v i j).free = s.free := rfl
@[simp] theorem State.rput_outs (n : RegName) (v : W64) (i j : Nat) : (s.rput n v i j).outs = s.outs := rfl
@[simp] theorem State.rput_log (n : RegName) (v : W64) (i j : Nat) : (s.rput n v i j).log = s.log := rfl
@[simp] theorem State.rput_tally (n : RegName) (v : W64) (i j : Nat) : (s.rput n v i j).tally = s.tally := rfl
@[simp] theorem State.rput_cad (n : RegName) (v : W64) (i j : Nat) : (s.rput n v i j).cad = s.cad := rfl
@[simp] theorem State.rput_img (n : RegName) (v : W64) (i j : Nat) : (s.rput n v i j).img = s.img := rfl
@[simp] theorem State.rput_hif (n : RegName) (v : W64) (i j : Nat) : (s.rput n v i j).hif = s.hif := rfl
@[simp] theorem State.rput_pwr (n : RegName) (v : W64) (i j : Nat) : (s.rput n v i j).pwr = s.pwr := rfl
@[simp] theorem State.rput_side (n : RegName) (v : W64) (i j : Nat) : (s.rput n v i j).side = s.side := rfl
@[simp] theorem State.rput_tier (n : RegName) (v : W64) (i j : Nat) : (s.rput n v i j).tier = s.tier := rfl
@[simp] theorem State.rput_scl (n : RegName) (v : W64) (i j : Nat) : (s.rput n v i j).scl = s.scl := rfl
@[simp] theorem State.rput_crn (n : RegName) (v : W64) (i j : Nat) : (s.rput n v i j).crn = s.crn := rfl
@[simp] theorem State.rput_fab (n : RegName) (v : W64) (i j : Nat) : (s.rput n v i j).fab = s.fab := rfl
@[simp] theorem State.rput_dma (n : RegName) (v : W64) (i j : Nat) : (s.rput n v i j).dma = s.dma := rfl
@[simp] theorem State.rput_tiles (n : RegName) (v : W64) (i j : Nat) : (s.rput n v i j).tiles = s.tiles := rfl
@[simp] theorem State.rput_upd (n : RegName) (v : W64) (i j : Nat) : (s.rput n v i j).upd = s.upd := rfl
@[simp] theorem State.rput_coll (n : RegName) (v : W64) (i j : Nat) : (s.rput n v i j).coll = s.coll := rfl
@[simp] theorem State.rput_srv (n : RegName) (v : W64) (i j : Nat) : (s.rput n v i j).srv = s.srv := rfl
@[simp] theorem State.rput_intake (n : RegName) (v : W64) (i j : Nat) : (s.rput n v i j).intake = s.intake := rfl
@[simp] theorem State.rput_aln (n : RegName) (v : W64) (i j : Nat) : (s.rput n v i j).aln = s.aln := rfl

/-! ### `rputN` -/

@[simp] theorem State.rputN_pending (n : RegName) (v i j : Nat) : (s.rputN n v i j).pending = s.pending := rfl
@[simp] theorem State.rputN_latch (n : RegName) (v i j : Nat) : (s.rputN n v i j).latch = s.latch := rfl
@[simp] theorem State.rputN_held (n : RegName) (v i j : Nat) : (s.rputN n v i j).held = s.held := rfl
@[simp] theorem State.rputN_readVal (n : RegName) (v i j : Nat) : (s.rputN n v i j).readVal = s.readVal := rfl
@[simp] theorem State.rputN_mem (n : RegName) (v i j : Nat) : (s.rputN n v i j).mem = s.mem := rfl
@[simp] theorem State.rputN_now (n : RegName) (v i j : Nat) : (s.rputN n v i j).now = s.now := rfl
@[simp] theorem State.rputN_free (n : RegName) (v i j : Nat) : (s.rputN n v i j).free = s.free := rfl
@[simp] theorem State.rputN_outs (n : RegName) (v i j : Nat) : (s.rputN n v i j).outs = s.outs := rfl
@[simp] theorem State.rputN_log (n : RegName) (v i j : Nat) : (s.rputN n v i j).log = s.log := rfl
@[simp] theorem State.rputN_tally (n : RegName) (v i j : Nat) : (s.rputN n v i j).tally = s.tally := rfl
@[simp] theorem State.rputN_cad (n : RegName) (v i j : Nat) : (s.rputN n v i j).cad = s.cad := rfl
@[simp] theorem State.rputN_img (n : RegName) (v i j : Nat) : (s.rputN n v i j).img = s.img := rfl
@[simp] theorem State.rputN_hif (n : RegName) (v i j : Nat) : (s.rputN n v i j).hif = s.hif := rfl
@[simp] theorem State.rputN_pwr (n : RegName) (v i j : Nat) : (s.rputN n v i j).pwr = s.pwr := rfl
@[simp] theorem State.rputN_side (n : RegName) (v i j : Nat) : (s.rputN n v i j).side = s.side := rfl
@[simp] theorem State.rputN_tier (n : RegName) (v i j : Nat) : (s.rputN n v i j).tier = s.tier := rfl
@[simp] theorem State.rputN_scl (n : RegName) (v i j : Nat) : (s.rputN n v i j).scl = s.scl := rfl
@[simp] theorem State.rputN_crn (n : RegName) (v i j : Nat) : (s.rputN n v i j).crn = s.crn := rfl
@[simp] theorem State.rputN_fab (n : RegName) (v i j : Nat) : (s.rputN n v i j).fab = s.fab := rfl
@[simp] theorem State.rputN_dma (n : RegName) (v i j : Nat) : (s.rputN n v i j).dma = s.dma := rfl
@[simp] theorem State.rputN_tiles (n : RegName) (v i j : Nat) : (s.rputN n v i j).tiles = s.tiles := rfl
@[simp] theorem State.rputN_upd (n : RegName) (v i j : Nat) : (s.rputN n v i j).upd = s.upd := rfl
@[simp] theorem State.rputN_coll (n : RegName) (v i j : Nat) : (s.rputN n v i j).coll = s.coll := rfl
@[simp] theorem State.rputN_srv (n : RegName) (v i j : Nat) : (s.rputN n v i j).srv = s.srv := rfl
@[simp] theorem State.rputN_intake (n : RegName) (v i j : Nat) : (s.rputN n v i j).intake = s.intake := rfl
@[simp] theorem State.rputN_aln (n : RegName) (v i j : Nat) : (s.rputN n v i j).aln = s.aln := rfl

/-! ### `raise` -/

@[simp] theorem State.raise_pending (n : RegName) (b i : Nat) : (s.raise n b i).pending = s.pending := rfl
@[simp] theorem State.raise_latch (n : RegName) (b i : Nat) : (s.raise n b i).latch = s.latch := rfl
@[simp] theorem State.raise_held (n : RegName) (b i : Nat) : (s.raise n b i).held = s.held := rfl
@[simp] theorem State.raise_readVal (n : RegName) (b i : Nat) : (s.raise n b i).readVal = s.readVal := rfl
@[simp] theorem State.raise_mem (n : RegName) (b i : Nat) : (s.raise n b i).mem = s.mem := rfl
@[simp] theorem State.raise_now (n : RegName) (b i : Nat) : (s.raise n b i).now = s.now := rfl
@[simp] theorem State.raise_free (n : RegName) (b i : Nat) : (s.raise n b i).free = s.free := rfl
@[simp] theorem State.raise_outs (n : RegName) (b i : Nat) : (s.raise n b i).outs = s.outs := rfl
@[simp] theorem State.raise_log (n : RegName) (b i : Nat) : (s.raise n b i).log = s.log := rfl
@[simp] theorem State.raise_tally (n : RegName) (b i : Nat) : (s.raise n b i).tally = s.tally := rfl
@[simp] theorem State.raise_cad (n : RegName) (b i : Nat) : (s.raise n b i).cad = s.cad := rfl
@[simp] theorem State.raise_img (n : RegName) (b i : Nat) : (s.raise n b i).img = s.img := rfl
@[simp] theorem State.raise_hif (n : RegName) (b i : Nat) : (s.raise n b i).hif = s.hif := rfl
@[simp] theorem State.raise_pwr (n : RegName) (b i : Nat) : (s.raise n b i).pwr = s.pwr := rfl
@[simp] theorem State.raise_side (n : RegName) (b i : Nat) : (s.raise n b i).side = s.side := rfl
@[simp] theorem State.raise_tier (n : RegName) (b i : Nat) : (s.raise n b i).tier = s.tier := rfl
@[simp] theorem State.raise_scl (n : RegName) (b i : Nat) : (s.raise n b i).scl = s.scl := rfl
@[simp] theorem State.raise_crn (n : RegName) (b i : Nat) : (s.raise n b i).crn = s.crn := rfl
@[simp] theorem State.raise_fab (n : RegName) (b i : Nat) : (s.raise n b i).fab = s.fab := rfl
@[simp] theorem State.raise_dma (n : RegName) (b i : Nat) : (s.raise n b i).dma = s.dma := rfl
@[simp] theorem State.raise_tiles (n : RegName) (b i : Nat) : (s.raise n b i).tiles = s.tiles := rfl
@[simp] theorem State.raise_upd (n : RegName) (b i : Nat) : (s.raise n b i).upd = s.upd := rfl
@[simp] theorem State.raise_coll (n : RegName) (b i : Nat) : (s.raise n b i).coll = s.coll := rfl
@[simp] theorem State.raise_srv (n : RegName) (b i : Nat) : (s.raise n b i).srv = s.srv := rfl
@[simp] theorem State.raise_intake (n : RegName) (b i : Nat) : (s.raise n b i).intake = s.intake := rfl
@[simp] theorem State.raise_aln (n : RegName) (b i : Nat) : (s.raise n b i).aln = s.aln := rfl

/-! ### `count` -/

@[simp] theorem State.count_pending (n : RegName) (k i j : Nat) : (s.count n k i j).pending = s.pending := rfl
@[simp] theorem State.count_latch (n : RegName) (k i j : Nat) : (s.count n k i j).latch = s.latch := rfl
@[simp] theorem State.count_held (n : RegName) (k i j : Nat) : (s.count n k i j).held = s.held := rfl
@[simp] theorem State.count_readVal (n : RegName) (k i j : Nat) : (s.count n k i j).readVal = s.readVal := rfl
@[simp] theorem State.count_mem (n : RegName) (k i j : Nat) : (s.count n k i j).mem = s.mem := rfl
@[simp] theorem State.count_now (n : RegName) (k i j : Nat) : (s.count n k i j).now = s.now := rfl
@[simp] theorem State.count_free (n : RegName) (k i j : Nat) : (s.count n k i j).free = s.free := rfl
@[simp] theorem State.count_outs (n : RegName) (k i j : Nat) : (s.count n k i j).outs = s.outs := rfl
@[simp] theorem State.count_log (n : RegName) (k i j : Nat) : (s.count n k i j).log = s.log := rfl
@[simp] theorem State.count_tally (n : RegName) (k i j : Nat) : (s.count n k i j).tally = s.tally := rfl
@[simp] theorem State.count_cad (n : RegName) (k i j : Nat) : (s.count n k i j).cad = s.cad := rfl
@[simp] theorem State.count_img (n : RegName) (k i j : Nat) : (s.count n k i j).img = s.img := rfl
@[simp] theorem State.count_hif (n : RegName) (k i j : Nat) : (s.count n k i j).hif = s.hif := rfl
@[simp] theorem State.count_pwr (n : RegName) (k i j : Nat) : (s.count n k i j).pwr = s.pwr := rfl
@[simp] theorem State.count_side (n : RegName) (k i j : Nat) : (s.count n k i j).side = s.side := rfl
@[simp] theorem State.count_tier (n : RegName) (k i j : Nat) : (s.count n k i j).tier = s.tier := rfl
@[simp] theorem State.count_scl (n : RegName) (k i j : Nat) : (s.count n k i j).scl = s.scl := rfl
@[simp] theorem State.count_crn (n : RegName) (k i j : Nat) : (s.count n k i j).crn = s.crn := rfl
@[simp] theorem State.count_fab (n : RegName) (k i j : Nat) : (s.count n k i j).fab = s.fab := rfl
@[simp] theorem State.count_dma (n : RegName) (k i j : Nat) : (s.count n k i j).dma = s.dma := rfl
@[simp] theorem State.count_tiles (n : RegName) (k i j : Nat) : (s.count n k i j).tiles = s.tiles := rfl
@[simp] theorem State.count_upd (n : RegName) (k i j : Nat) : (s.count n k i j).upd = s.upd := rfl
@[simp] theorem State.count_coll (n : RegName) (k i j : Nat) : (s.count n k i j).coll = s.coll := rfl
@[simp] theorem State.count_srv (n : RegName) (k i j : Nat) : (s.count n k i j).srv = s.srv := rfl
@[simp] theorem State.count_intake (n : RegName) (k i j : Nat) : (s.count n k i j).intake = s.intake := rfl
@[simp] theorem State.count_aln (n : RegName) (k i j : Nat) : (s.count n k i j).aln = s.aln := rfl

/-! ### `wr` -/

@[simp] theorem State.wr_pending (a : Nat) (bs : List Byte) : (s.wr a bs).pending = s.pending := rfl
@[simp] theorem State.wr_regs (a : Nat) (bs : List Byte) : (s.wr a bs).regs = s.regs := rfl
@[simp] theorem State.wr_latch (a : Nat) (bs : List Byte) : (s.wr a bs).latch = s.latch := rfl
@[simp] theorem State.wr_held (a : Nat) (bs : List Byte) : (s.wr a bs).held = s.held := rfl
@[simp] theorem State.wr_readVal (a : Nat) (bs : List Byte) : (s.wr a bs).readVal = s.readVal := rfl
@[simp] theorem State.wr_now (a : Nat) (bs : List Byte) : (s.wr a bs).now = s.now := rfl
@[simp] theorem State.wr_free (a : Nat) (bs : List Byte) : (s.wr a bs).free = s.free := rfl
@[simp] theorem State.wr_outs (a : Nat) (bs : List Byte) : (s.wr a bs).outs = s.outs := rfl
@[simp] theorem State.wr_log (a : Nat) (bs : List Byte) : (s.wr a bs).log = s.log := rfl
@[simp] theorem State.wr_tally (a : Nat) (bs : List Byte) : (s.wr a bs).tally = s.tally := rfl
@[simp] theorem State.wr_cad (a : Nat) (bs : List Byte) : (s.wr a bs).cad = s.cad := rfl
@[simp] theorem State.wr_img (a : Nat) (bs : List Byte) : (s.wr a bs).img = s.img := rfl
@[simp] theorem State.wr_hif (a : Nat) (bs : List Byte) : (s.wr a bs).hif = s.hif := rfl
@[simp] theorem State.wr_pwr (a : Nat) (bs : List Byte) : (s.wr a bs).pwr = s.pwr := rfl
@[simp] theorem State.wr_side (a : Nat) (bs : List Byte) : (s.wr a bs).side = s.side := rfl
@[simp] theorem State.wr_tier (a : Nat) (bs : List Byte) : (s.wr a bs).tier = s.tier := rfl
@[simp] theorem State.wr_scl (a : Nat) (bs : List Byte) : (s.wr a bs).scl = s.scl := rfl
@[simp] theorem State.wr_crn (a : Nat) (bs : List Byte) : (s.wr a bs).crn = s.crn := rfl
@[simp] theorem State.wr_fab (a : Nat) (bs : List Byte) : (s.wr a bs).fab = s.fab := rfl
@[simp] theorem State.wr_dma (a : Nat) (bs : List Byte) : (s.wr a bs).dma = s.dma := rfl
@[simp] theorem State.wr_tiles (a : Nat) (bs : List Byte) : (s.wr a bs).tiles = s.tiles := rfl
@[simp] theorem State.wr_upd (a : Nat) (bs : List Byte) : (s.wr a bs).upd = s.upd := rfl
@[simp] theorem State.wr_coll (a : Nat) (bs : List Byte) : (s.wr a bs).coll = s.coll := rfl
@[simp] theorem State.wr_srv (a : Nat) (bs : List Byte) : (s.wr a bs).srv = s.srv := rfl
@[simp] theorem State.wr_intake (a : Nat) (bs : List Byte) : (s.wr a bs).intake = s.intake := rfl
@[simp] theorem State.wr_aln (a : Nat) (bs : List Byte) : (s.wr a bs).aln = s.aln := rfl

/-! ### `wrNat` -/

@[simp] theorem State.wrNat_pending (a n v : Nat) : (s.wrNat a n v).pending = s.pending := rfl
@[simp] theorem State.wrNat_regs (a n v : Nat) : (s.wrNat a n v).regs = s.regs := rfl
@[simp] theorem State.wrNat_latch (a n v : Nat) : (s.wrNat a n v).latch = s.latch := rfl
@[simp] theorem State.wrNat_held (a n v : Nat) : (s.wrNat a n v).held = s.held := rfl
@[simp] theorem State.wrNat_readVal (a n v : Nat) : (s.wrNat a n v).readVal = s.readVal := rfl
@[simp] theorem State.wrNat_now (a n v : Nat) : (s.wrNat a n v).now = s.now := rfl
@[simp] theorem State.wrNat_free (a n v : Nat) : (s.wrNat a n v).free = s.free := rfl
@[simp] theorem State.wrNat_outs (a n v : Nat) : (s.wrNat a n v).outs = s.outs := rfl
@[simp] theorem State.wrNat_log (a n v : Nat) : (s.wrNat a n v).log = s.log := rfl
@[simp] theorem State.wrNat_tally (a n v : Nat) : (s.wrNat a n v).tally = s.tally := rfl
@[simp] theorem State.wrNat_cad (a n v : Nat) : (s.wrNat a n v).cad = s.cad := rfl
@[simp] theorem State.wrNat_img (a n v : Nat) : (s.wrNat a n v).img = s.img := rfl
@[simp] theorem State.wrNat_hif (a n v : Nat) : (s.wrNat a n v).hif = s.hif := rfl
@[simp] theorem State.wrNat_pwr (a n v : Nat) : (s.wrNat a n v).pwr = s.pwr := rfl
@[simp] theorem State.wrNat_side (a n v : Nat) : (s.wrNat a n v).side = s.side := rfl
@[simp] theorem State.wrNat_tier (a n v : Nat) : (s.wrNat a n v).tier = s.tier := rfl
@[simp] theorem State.wrNat_scl (a n v : Nat) : (s.wrNat a n v).scl = s.scl := rfl
@[simp] theorem State.wrNat_crn (a n v : Nat) : (s.wrNat a n v).crn = s.crn := rfl
@[simp] theorem State.wrNat_fab (a n v : Nat) : (s.wrNat a n v).fab = s.fab := rfl
@[simp] theorem State.wrNat_dma (a n v : Nat) : (s.wrNat a n v).dma = s.dma := rfl
@[simp] theorem State.wrNat_tiles (a n v : Nat) : (s.wrNat a n v).tiles = s.tiles := rfl
@[simp] theorem State.wrNat_upd (a n v : Nat) : (s.wrNat a n v).upd = s.upd := rfl
@[simp] theorem State.wrNat_coll (a n v : Nat) : (s.wrNat a n v).coll = s.coll := rfl
@[simp] theorem State.wrNat_srv (a n v : Nat) : (s.wrNat a n v).srv = s.srv := rfl
@[simp] theorem State.wrNat_intake (a n v : Nat) : (s.wrNat a n v).intake = s.intake := rfl
@[simp] theorem State.wrNat_aln (a n v : Nat) : (s.wrNat a n v).aln = s.aln := rfl

/-! ### `zero` -/

@[simp] theorem State.zero_pending (a n : Nat) : (s.zero a n).pending = s.pending := rfl
@[simp] theorem State.zero_regs (a n : Nat) : (s.zero a n).regs = s.regs := rfl
@[simp] theorem State.zero_latch (a n : Nat) : (s.zero a n).latch = s.latch := rfl
@[simp] theorem State.zero_held (a n : Nat) : (s.zero a n).held = s.held := rfl
@[simp] theorem State.zero_readVal (a n : Nat) : (s.zero a n).readVal = s.readVal := rfl
@[simp] theorem State.zero_now (a n : Nat) : (s.zero a n).now = s.now := rfl
@[simp] theorem State.zero_free (a n : Nat) : (s.zero a n).free = s.free := rfl
@[simp] theorem State.zero_outs (a n : Nat) : (s.zero a n).outs = s.outs := rfl
@[simp] theorem State.zero_log (a n : Nat) : (s.zero a n).log = s.log := rfl
@[simp] theorem State.zero_tally (a n : Nat) : (s.zero a n).tally = s.tally := rfl
@[simp] theorem State.zero_cad (a n : Nat) : (s.zero a n).cad = s.cad := rfl
@[simp] theorem State.zero_img (a n : Nat) : (s.zero a n).img = s.img := rfl
@[simp] theorem State.zero_hif (a n : Nat) : (s.zero a n).hif = s.hif := rfl
@[simp] theorem State.zero_pwr (a n : Nat) : (s.zero a n).pwr = s.pwr := rfl
@[simp] theorem State.zero_side (a n : Nat) : (s.zero a n).side = s.side := rfl
@[simp] theorem State.zero_tier (a n : Nat) : (s.zero a n).tier = s.tier := rfl
@[simp] theorem State.zero_scl (a n : Nat) : (s.zero a n).scl = s.scl := rfl
@[simp] theorem State.zero_crn (a n : Nat) : (s.zero a n).crn = s.crn := rfl
@[simp] theorem State.zero_fab (a n : Nat) : (s.zero a n).fab = s.fab := rfl
@[simp] theorem State.zero_dma (a n : Nat) : (s.zero a n).dma = s.dma := rfl
@[simp] theorem State.zero_tiles (a n : Nat) : (s.zero a n).tiles = s.tiles := rfl
@[simp] theorem State.zero_upd (a n : Nat) : (s.zero a n).upd = s.upd := rfl
@[simp] theorem State.zero_coll (a n : Nat) : (s.zero a n).coll = s.coll := rfl
@[simp] theorem State.zero_srv (a n : Nat) : (s.zero a n).srv = s.srv := rfl
@[simp] theorem State.zero_intake (a n : Nat) : (s.zero a n).intake = s.intake := rfl
@[simp] theorem State.zero_aln (a n : Nat) : (s.zero a n).aln = s.aln := rfl

/-! ### `tally1` -/

@[simp] theorem State.tally1_pending (id k : Nat) : (s.tally1 id k).pending = s.pending := rfl
@[simp] theorem State.tally1_regs (id k : Nat) : (s.tally1 id k).regs = s.regs := rfl
@[simp] theorem State.tally1_latch (id k : Nat) : (s.tally1 id k).latch = s.latch := rfl
@[simp] theorem State.tally1_held (id k : Nat) : (s.tally1 id k).held = s.held := rfl
@[simp] theorem State.tally1_readVal (id k : Nat) : (s.tally1 id k).readVal = s.readVal := rfl
@[simp] theorem State.tally1_mem (id k : Nat) : (s.tally1 id k).mem = s.mem := rfl
@[simp] theorem State.tally1_now (id k : Nat) : (s.tally1 id k).now = s.now := rfl
@[simp] theorem State.tally1_free (id k : Nat) : (s.tally1 id k).free = s.free := rfl
@[simp] theorem State.tally1_outs (id k : Nat) : (s.tally1 id k).outs = s.outs := rfl
@[simp] theorem State.tally1_log (id k : Nat) : (s.tally1 id k).log = s.log := rfl
@[simp] theorem State.tally1_cad (id k : Nat) : (s.tally1 id k).cad = s.cad := rfl
@[simp] theorem State.tally1_img (id k : Nat) : (s.tally1 id k).img = s.img := rfl
@[simp] theorem State.tally1_hif (id k : Nat) : (s.tally1 id k).hif = s.hif := rfl
@[simp] theorem State.tally1_pwr (id k : Nat) : (s.tally1 id k).pwr = s.pwr := rfl
@[simp] theorem State.tally1_side (id k : Nat) : (s.tally1 id k).side = s.side := rfl
@[simp] theorem State.tally1_tier (id k : Nat) : (s.tally1 id k).tier = s.tier := rfl
@[simp] theorem State.tally1_scl (id k : Nat) : (s.tally1 id k).scl = s.scl := rfl
@[simp] theorem State.tally1_crn (id k : Nat) : (s.tally1 id k).crn = s.crn := rfl
@[simp] theorem State.tally1_fab (id k : Nat) : (s.tally1 id k).fab = s.fab := rfl
@[simp] theorem State.tally1_dma (id k : Nat) : (s.tally1 id k).dma = s.dma := rfl
@[simp] theorem State.tally1_tiles (id k : Nat) : (s.tally1 id k).tiles = s.tiles := rfl
@[simp] theorem State.tally1_upd (id k : Nat) : (s.tally1 id k).upd = s.upd := rfl
@[simp] theorem State.tally1_coll (id k : Nat) : (s.tally1 id k).coll = s.coll := rfl
@[simp] theorem State.tally1_srv (id k : Nat) : (s.tally1 id k).srv = s.srv := rfl
@[simp] theorem State.tally1_intake (id k : Nat) : (s.tally1 id k).intake = s.intake := rfl
@[simp] theorem State.tally1_aln (id k : Nat) : (s.tally1 id k).aln = s.aln := rfl

/-! ### `observe` -/

@[simp] theorem State.observe_pending (h b : Nat) : (s.observe h b).pending = s.pending := rfl
@[simp] theorem State.observe_regs (h b : Nat) : (s.observe h b).regs = s.regs := rfl
@[simp] theorem State.observe_latch (h b : Nat) : (s.observe h b).latch = s.latch := rfl
@[simp] theorem State.observe_held (h b : Nat) : (s.observe h b).held = s.held := rfl
@[simp] theorem State.observe_readVal (h b : Nat) : (s.observe h b).readVal = s.readVal := rfl
@[simp] theorem State.observe_mem (h b : Nat) : (s.observe h b).mem = s.mem := rfl
@[simp] theorem State.observe_now (h b : Nat) : (s.observe h b).now = s.now := rfl
@[simp] theorem State.observe_free (h b : Nat) : (s.observe h b).free = s.free := rfl
@[simp] theorem State.observe_outs (h b : Nat) : (s.observe h b).outs = s.outs := rfl
@[simp] theorem State.observe_log (h b : Nat) : (s.observe h b).log = s.log := rfl
@[simp] theorem State.observe_cad (h b : Nat) : (s.observe h b).cad = s.cad := rfl
@[simp] theorem State.observe_img (h b : Nat) : (s.observe h b).img = s.img := rfl
@[simp] theorem State.observe_hif (h b : Nat) : (s.observe h b).hif = s.hif := rfl
@[simp] theorem State.observe_pwr (h b : Nat) : (s.observe h b).pwr = s.pwr := rfl
@[simp] theorem State.observe_side (h b : Nat) : (s.observe h b).side = s.side := rfl
@[simp] theorem State.observe_tier (h b : Nat) : (s.observe h b).tier = s.tier := rfl
@[simp] theorem State.observe_scl (h b : Nat) : (s.observe h b).scl = s.scl := rfl
@[simp] theorem State.observe_crn (h b : Nat) : (s.observe h b).crn = s.crn := rfl
@[simp] theorem State.observe_fab (h b : Nat) : (s.observe h b).fab = s.fab := rfl
@[simp] theorem State.observe_dma (h b : Nat) : (s.observe h b).dma = s.dma := rfl
@[simp] theorem State.observe_tiles (h b : Nat) : (s.observe h b).tiles = s.tiles := rfl
@[simp] theorem State.observe_upd (h b : Nat) : (s.observe h b).upd = s.upd := rfl
@[simp] theorem State.observe_coll (h b : Nat) : (s.observe h b).coll = s.coll := rfl
@[simp] theorem State.observe_srv (h b : Nat) : (s.observe h b).srv = s.srv := rfl
@[simp] theorem State.observe_intake (h b : Nat) : (s.observe h b).intake = s.intake := rfl
@[simp] theorem State.observe_aln (h b : Nat) : (s.observe h b).aln = s.aln := rfl

/-! ### `logAdd` -/

@[simp] theorem State.logAdd_pending (e : LogEntry) : (s.logAdd e).pending = s.pending := rfl
@[simp] theorem State.logAdd_regs (e : LogEntry) : (s.logAdd e).regs = s.regs := rfl
@[simp] theorem State.logAdd_latch (e : LogEntry) : (s.logAdd e).latch = s.latch := rfl
@[simp] theorem State.logAdd_held (e : LogEntry) : (s.logAdd e).held = s.held := rfl
@[simp] theorem State.logAdd_readVal (e : LogEntry) : (s.logAdd e).readVal = s.readVal := rfl
@[simp] theorem State.logAdd_mem (e : LogEntry) : (s.logAdd e).mem = s.mem := rfl
@[simp] theorem State.logAdd_now (e : LogEntry) : (s.logAdd e).now = s.now := rfl
@[simp] theorem State.logAdd_free (e : LogEntry) : (s.logAdd e).free = s.free := rfl
@[simp] theorem State.logAdd_outs (e : LogEntry) : (s.logAdd e).outs = s.outs := rfl
@[simp] theorem State.logAdd_tally (e : LogEntry) : (s.logAdd e).tally = s.tally := rfl
@[simp] theorem State.logAdd_cad (e : LogEntry) : (s.logAdd e).cad = s.cad := rfl
@[simp] theorem State.logAdd_img (e : LogEntry) : (s.logAdd e).img = s.img := rfl
@[simp] theorem State.logAdd_hif (e : LogEntry) : (s.logAdd e).hif = s.hif := rfl
@[simp] theorem State.logAdd_pwr (e : LogEntry) : (s.logAdd e).pwr = s.pwr := rfl
@[simp] theorem State.logAdd_side (e : LogEntry) : (s.logAdd e).side = s.side := rfl
@[simp] theorem State.logAdd_tier (e : LogEntry) : (s.logAdd e).tier = s.tier := rfl
@[simp] theorem State.logAdd_scl (e : LogEntry) : (s.logAdd e).scl = s.scl := rfl
@[simp] theorem State.logAdd_crn (e : LogEntry) : (s.logAdd e).crn = s.crn := rfl
@[simp] theorem State.logAdd_fab (e : LogEntry) : (s.logAdd e).fab = s.fab := rfl
@[simp] theorem State.logAdd_dma (e : LogEntry) : (s.logAdd e).dma = s.dma := rfl
@[simp] theorem State.logAdd_tiles (e : LogEntry) : (s.logAdd e).tiles = s.tiles := rfl
@[simp] theorem State.logAdd_upd (e : LogEntry) : (s.logAdd e).upd = s.upd := rfl
@[simp] theorem State.logAdd_coll (e : LogEntry) : (s.logAdd e).coll = s.coll := rfl
@[simp] theorem State.logAdd_srv (e : LogEntry) : (s.logAdd e).srv = s.srv := rfl
@[simp] theorem State.logAdd_intake (e : LogEntry) : (s.logAdd e).intake = s.intake := rfl
@[simp] theorem State.logAdd_aln (e : LogEntry) : (s.logAdd e).aln = s.aln := rfl

/-! ### `logSeries` -/

@[simp] theorem State.logSeries_pending (es : List LogEntry) : (s.logSeries es).pending = s.pending := by unfold State.logSeries; split <;> rfl
@[simp] theorem State.logSeries_regs (es : List LogEntry) : (s.logSeries es).regs = s.regs := by unfold State.logSeries; split <;> rfl
@[simp] theorem State.logSeries_latch (es : List LogEntry) : (s.logSeries es).latch = s.latch := by unfold State.logSeries; split <;> rfl
@[simp] theorem State.logSeries_held (es : List LogEntry) : (s.logSeries es).held = s.held := by unfold State.logSeries; split <;> rfl
@[simp] theorem State.logSeries_readVal (es : List LogEntry) : (s.logSeries es).readVal = s.readVal := by unfold State.logSeries; split <;> rfl
@[simp] theorem State.logSeries_mem (es : List LogEntry) : (s.logSeries es).mem = s.mem := by unfold State.logSeries; split <;> rfl
@[simp] theorem State.logSeries_now (es : List LogEntry) : (s.logSeries es).now = s.now := by unfold State.logSeries; split <;> rfl
@[simp] theorem State.logSeries_free (es : List LogEntry) : (s.logSeries es).free = s.free := by unfold State.logSeries; split <;> rfl
@[simp] theorem State.logSeries_outs (es : List LogEntry) : (s.logSeries es).outs = s.outs := by unfold State.logSeries; split <;> rfl
@[simp] theorem State.logSeries_tally (es : List LogEntry) : (s.logSeries es).tally = s.tally := by unfold State.logSeries; split <;> rfl
@[simp] theorem State.logSeries_cad (es : List LogEntry) : (s.logSeries es).cad = s.cad := by unfold State.logSeries; split <;> rfl
@[simp] theorem State.logSeries_img (es : List LogEntry) : (s.logSeries es).img = s.img := by unfold State.logSeries; split <;> rfl
@[simp] theorem State.logSeries_hif (es : List LogEntry) : (s.logSeries es).hif = s.hif := by unfold State.logSeries; split <;> rfl
@[simp] theorem State.logSeries_pwr (es : List LogEntry) : (s.logSeries es).pwr = s.pwr := by unfold State.logSeries; split <;> rfl
@[simp] theorem State.logSeries_side (es : List LogEntry) : (s.logSeries es).side = s.side := by unfold State.logSeries; split <;> rfl
@[simp] theorem State.logSeries_tier (es : List LogEntry) : (s.logSeries es).tier = s.tier := by unfold State.logSeries; split <;> rfl
@[simp] theorem State.logSeries_scl (es : List LogEntry) : (s.logSeries es).scl = s.scl := by unfold State.logSeries; split <;> rfl
@[simp] theorem State.logSeries_crn (es : List LogEntry) : (s.logSeries es).crn = s.crn := by unfold State.logSeries; split <;> rfl
@[simp] theorem State.logSeries_fab (es : List LogEntry) : (s.logSeries es).fab = s.fab := by unfold State.logSeries; split <;> rfl
@[simp] theorem State.logSeries_dma (es : List LogEntry) : (s.logSeries es).dma = s.dma := by unfold State.logSeries; split <;> rfl
@[simp] theorem State.logSeries_tiles (es : List LogEntry) : (s.logSeries es).tiles = s.tiles := by unfold State.logSeries; split <;> rfl
@[simp] theorem State.logSeries_upd (es : List LogEntry) : (s.logSeries es).upd = s.upd := by unfold State.logSeries; split <;> rfl
@[simp] theorem State.logSeries_coll (es : List LogEntry) : (s.logSeries es).coll = s.coll := by unfold State.logSeries; split <;> rfl
@[simp] theorem State.logSeries_srv (es : List LogEntry) : (s.logSeries es).srv = s.srv := by unfold State.logSeries; split <;> rfl
@[simp] theorem State.logSeries_intake (es : List LogEntry) : (s.logSeries es).intake = s.intake := by unfold State.logSeries; split <;> rfl
@[simp] theorem State.logSeries_aln (es : List LogEntry) : (s.logSeries es).aln = s.aln := by unfold State.logSeries; split <;> rfl

/-! ### `emit` -/

@[simp] theorem State.emit_pending (o : Out) : (s.emit o).pending = s.pending := rfl
@[simp] theorem State.emit_regs (o : Out) : (s.emit o).regs = s.regs := rfl
@[simp] theorem State.emit_latch (o : Out) : (s.emit o).latch = s.latch := rfl
@[simp] theorem State.emit_held (o : Out) : (s.emit o).held = s.held := rfl
@[simp] theorem State.emit_readVal (o : Out) : (s.emit o).readVal = s.readVal := rfl
@[simp] theorem State.emit_mem (o : Out) : (s.emit o).mem = s.mem := rfl
@[simp] theorem State.emit_now (o : Out) : (s.emit o).now = s.now := rfl
@[simp] theorem State.emit_free (o : Out) : (s.emit o).free = s.free := rfl
@[simp] theorem State.emit_log (o : Out) : (s.emit o).log = s.log := rfl
@[simp] theorem State.emit_tally (o : Out) : (s.emit o).tally = s.tally := rfl
@[simp] theorem State.emit_cad (o : Out) : (s.emit o).cad = s.cad := rfl
@[simp] theorem State.emit_img (o : Out) : (s.emit o).img = s.img := rfl
@[simp] theorem State.emit_hif (o : Out) : (s.emit o).hif = s.hif := rfl
@[simp] theorem State.emit_pwr (o : Out) : (s.emit o).pwr = s.pwr := rfl
@[simp] theorem State.emit_side (o : Out) : (s.emit o).side = s.side := rfl
@[simp] theorem State.emit_tier (o : Out) : (s.emit o).tier = s.tier := rfl
@[simp] theorem State.emit_scl (o : Out) : (s.emit o).scl = s.scl := rfl
@[simp] theorem State.emit_crn (o : Out) : (s.emit o).crn = s.crn := rfl
@[simp] theorem State.emit_fab (o : Out) : (s.emit o).fab = s.fab := rfl
@[simp] theorem State.emit_dma (o : Out) : (s.emit o).dma = s.dma := rfl
@[simp] theorem State.emit_tiles (o : Out) : (s.emit o).tiles = s.tiles := rfl
@[simp] theorem State.emit_upd (o : Out) : (s.emit o).upd = s.upd := rfl
@[simp] theorem State.emit_coll (o : Out) : (s.emit o).coll = s.coll := rfl
@[simp] theorem State.emit_srv (o : Out) : (s.emit o).srv = s.srv := rfl
@[simp] theorem State.emit_intake (o : Out) : (s.emit o).intake = s.intake := rfl
@[simp] theorem State.emit_aln (o : Out) : (s.emit o).aln = s.aln := rfl

/-! ### `recordClass` -/

@[simp] theorem State.recordClass_pending (c : Nat) (w : At) : (s.recordClass c w).pending = s.pending := by
  unfold State.recordClass; (repeat' split) <;> rfl
@[simp] theorem State.recordClass_latch (c : Nat) (w : At) : (s.recordClass c w).latch = s.latch := by
  unfold State.recordClass; (repeat' split) <;> rfl
@[simp] theorem State.recordClass_held (c : Nat) (w : At) : (s.recordClass c w).held = s.held := by
  unfold State.recordClass; (repeat' split) <;> rfl
@[simp] theorem State.recordClass_readVal (c : Nat) (w : At) : (s.recordClass c w).readVal = s.readVal := by
  unfold State.recordClass; (repeat' split) <;> rfl
@[simp] theorem State.recordClass_mem (c : Nat) (w : At) : (s.recordClass c w).mem = s.mem := by
  unfold State.recordClass; (repeat' split) <;> rfl
@[simp] theorem State.recordClass_now (c : Nat) (w : At) : (s.recordClass c w).now = s.now := by
  unfold State.recordClass; (repeat' split) <;> rfl
@[simp] theorem State.recordClass_free (c : Nat) (w : At) : (s.recordClass c w).free = s.free := by
  unfold State.recordClass; (repeat' split) <;> rfl
@[simp] theorem State.recordClass_outs (c : Nat) (w : At) : (s.recordClass c w).outs = s.outs := by
  unfold State.recordClass; (repeat' split) <;> rfl
@[simp] theorem State.recordClass_log (c : Nat) (w : At) : (s.recordClass c w).log = s.log := by
  unfold State.recordClass; (repeat' split) <;> rfl
@[simp] theorem State.recordClass_tally (c : Nat) (w : At) : (s.recordClass c w).tally = s.tally := by
  unfold State.recordClass; (repeat' split) <;> rfl
@[simp] theorem State.recordClass_cad (c : Nat) (w : At) : (s.recordClass c w).cad = s.cad := by
  unfold State.recordClass; (repeat' split) <;> rfl
@[simp] theorem State.recordClass_img (c : Nat) (w : At) : (s.recordClass c w).img = s.img := by
  unfold State.recordClass; (repeat' split) <;> rfl
@[simp] theorem State.recordClass_hif (c : Nat) (w : At) : (s.recordClass c w).hif = s.hif := by
  unfold State.recordClass; (repeat' split) <;> rfl
@[simp] theorem State.recordClass_pwr (c : Nat) (w : At) : (s.recordClass c w).pwr = s.pwr := by
  unfold State.recordClass; (repeat' split) <;> rfl
@[simp] theorem State.recordClass_side (c : Nat) (w : At) : (s.recordClass c w).side = s.side := by
  unfold State.recordClass; (repeat' split) <;> rfl
@[simp] theorem State.recordClass_tier (c : Nat) (w : At) : (s.recordClass c w).tier = s.tier := by
  unfold State.recordClass; (repeat' split) <;> rfl
@[simp] theorem State.recordClass_scl (c : Nat) (w : At) : (s.recordClass c w).scl = s.scl := by
  unfold State.recordClass; (repeat' split) <;> rfl
@[simp] theorem State.recordClass_crn (c : Nat) (w : At) : (s.recordClass c w).crn = s.crn := by
  unfold State.recordClass; (repeat' split) <;> rfl
@[simp] theorem State.recordClass_fab (c : Nat) (w : At) : (s.recordClass c w).fab = s.fab := by
  unfold State.recordClass; (repeat' split) <;> rfl
@[simp] theorem State.recordClass_dma (c : Nat) (w : At) : (s.recordClass c w).dma = s.dma := by
  unfold State.recordClass; (repeat' split) <;> rfl
@[simp] theorem State.recordClass_tiles (c : Nat) (w : At) : (s.recordClass c w).tiles = s.tiles := by
  unfold State.recordClass; (repeat' split) <;> rfl
@[simp] theorem State.recordClass_upd (c : Nat) (w : At) : (s.recordClass c w).upd = s.upd := by
  unfold State.recordClass; (repeat' split) <;> rfl
@[simp] theorem State.recordClass_coll (c : Nat) (w : At) : (s.recordClass c w).coll = s.coll := by
  unfold State.recordClass; (repeat' split) <;> rfl
@[simp] theorem State.recordClass_srv (c : Nat) (w : At) : (s.recordClass c w).srv = s.srv := by
  unfold State.recordClass; (repeat' split) <;> rfl
@[simp] theorem State.recordClass_intake (c : Nat) (w : At) : (s.recordClass c w).intake = s.intake := by
  unfold State.recordClass; (repeat' split) <;> rfl
@[simp] theorem State.recordClass_aln (c : Nat) (w : At) : (s.recordClass c w).aln = s.aln := by
  unfold State.recordClass; (repeat' split) <;> rfl

/-! ### `issue` -/

@[simp] theorem State.issue_pending (c : Nat) (w : At) : (s.issue c w).pending = s.pending := by
  unfold State.issue; split
  · rfl
  · simp
@[simp] theorem State.issue_latch (c : Nat) (w : At) : (s.issue c w).latch = s.latch := by
  unfold State.issue; split
  · rfl
  · simp
@[simp] theorem State.issue_held (c : Nat) (w : At) : (s.issue c w).held = s.held := by
  unfold State.issue; split
  · rfl
  · simp
@[simp] theorem State.issue_readVal (c : Nat) (w : At) : (s.issue c w).readVal = s.readVal := by
  unfold State.issue; split
  · rfl
  · simp
@[simp] theorem State.issue_mem (c : Nat) (w : At) : (s.issue c w).mem = s.mem := by
  unfold State.issue; split
  · rfl
  · simp
@[simp] theorem State.issue_now (c : Nat) (w : At) : (s.issue c w).now = s.now := by
  unfold State.issue; split
  · rfl
  · simp
@[simp] theorem State.issue_free (c : Nat) (w : At) : (s.issue c w).free = s.free := by
  unfold State.issue; split
  · rfl
  · simp
@[simp] theorem State.issue_outs (c : Nat) (w : At) : (s.issue c w).outs = s.outs := by
  unfold State.issue; split
  · rfl
  · simp
@[simp] theorem State.issue_log (c : Nat) (w : At) : (s.issue c w).log = s.log := by
  unfold State.issue; split
  · rfl
  · simp
@[simp] theorem State.issue_cad (c : Nat) (w : At) : (s.issue c w).cad = s.cad := by
  unfold State.issue; split
  · rfl
  · simp
@[simp] theorem State.issue_img (c : Nat) (w : At) : (s.issue c w).img = s.img := by
  unfold State.issue; split
  · rfl
  · simp
@[simp] theorem State.issue_hif (c : Nat) (w : At) : (s.issue c w).hif = s.hif := by
  unfold State.issue; split
  · rfl
  · simp
@[simp] theorem State.issue_pwr (c : Nat) (w : At) : (s.issue c w).pwr = s.pwr := by
  unfold State.issue; split
  · rfl
  · simp
@[simp] theorem State.issue_side (c : Nat) (w : At) : (s.issue c w).side = s.side := by
  unfold State.issue; split
  · rfl
  · simp
@[simp] theorem State.issue_tier (c : Nat) (w : At) : (s.issue c w).tier = s.tier := by
  unfold State.issue; split
  · rfl
  · simp
@[simp] theorem State.issue_scl (c : Nat) (w : At) : (s.issue c w).scl = s.scl := by
  unfold State.issue; split
  · rfl
  · simp
@[simp] theorem State.issue_crn (c : Nat) (w : At) : (s.issue c w).crn = s.crn := by
  unfold State.issue; split
  · rfl
  · simp
@[simp] theorem State.issue_fab (c : Nat) (w : At) : (s.issue c w).fab = s.fab := by
  unfold State.issue; split
  · rfl
  · simp
@[simp] theorem State.issue_dma (c : Nat) (w : At) : (s.issue c w).dma = s.dma := by
  unfold State.issue; split
  · rfl
  · simp
@[simp] theorem State.issue_tiles (c : Nat) (w : At) : (s.issue c w).tiles = s.tiles := by
  unfold State.issue; split
  · rfl
  · simp
@[simp] theorem State.issue_upd (c : Nat) (w : At) : (s.issue c w).upd = s.upd := by
  unfold State.issue; split
  · rfl
  · simp
@[simp] theorem State.issue_coll (c : Nat) (w : At) : (s.issue c w).coll = s.coll := by
  unfold State.issue; split
  · rfl
  · simp
@[simp] theorem State.issue_srv (c : Nat) (w : At) : (s.issue c w).srv = s.srv := by
  unfold State.issue; split
  · rfl
  · simp
@[simp] theorem State.issue_intake (c : Nat) (w : At) : (s.issue c w).intake = s.intake := by
  unfold State.issue; split
  · rfl
  · simp
@[simp] theorem State.issue_aln (c : Nat) (w : At) : (s.issue c w).aln = s.aln := by
  unfold State.issue; split
  · rfl
  · simp

end Sys2Proof.Machine
end

