-- ==== Sys2Proof/Laws/Regs.lean ====
section
/-! SUPPORT. The register store: what is written is read back, and no write reaches another register. -/
namespace Sys2Proof.Machine
set_option Elab.async false

theorem RegName.ctorIdx_lt (n : RegName) : n.ctorIdx < 512 := by
  cases n <;> decide

theorem RegName.ctorIdx_inj {n m : RegName} (h : n.ctorIdx = m.ctorIdx) : n = m := by
  have e1 := RegName.ofNat_ctorIdx n
  have e2 := RegName.ofNat_ctorIdx m
  rw [← e1, ← e2, h]

theorem RegName.key_mod (n : RegName) (i j : Nat) : n.key i j % 512 = n.ctorIdx := by
  have := n.ctorIdx_lt
  unfold RegName.key; omega

/-- Registers of different names are held apart. -/
theorem RegName.key_ne {n m : RegName} (h : n ≠ m) (i j i' j' : Nat) : n.key i j ≠ m.key i' j' := by
  intro e
  apply h
  apply RegName.ctorIdx_inj
  rw [← RegName.key_mod n i j, ← RegName.key_mod m i' j', e]

/-- Instances of one register are held apart. -/
theorem RegName.key_inj (n : RegName) {i j i' j' : Nat} (hi : i < 65536) (hi' : i' < 65536)
    (h : n.key i j = n.key i' j') : i = i' ∧ j = j' := by
  have := n.ctorIdx_lt
  unfold RegName.key at h
  omega

@[simp] theorem State.rget_rput_same (s : State) (n : RegName) (v : W64) (i j : Nat) :
    (s.rput n v i j).rget n i j = v := by
  simp [State.rget, State.rput]

theorem State.rget_rput_key (s : State) (n m : RegName) (v : W64) (i j i' j' : Nat) (h : m.key i' j' ≠ n.key i j) :
    (s.rput n v i j).rget m i' j' = s.rget m i' j' := by
  simp [State.rget, State.rput, NMap.getD_put_ne _ _ _ _ _ h]

@[simp] theorem State.rget_rput_ne (s : State) (n m : RegName) (v : W64) (i j i' j' : Nat) (h : m ≠ n) :
    (s.rput n v i j).rget m i' j' = s.rget m i' j' :=
  s.rget_rput_key n m v i j i' j' (RegName.key_ne h i' j' i j)

theorem State.rget_rput (s : State) (n m : RegName) (v : W64) (i j i' j' : Nat) :
    (s.rput n v i j).rget m i' j' = if m.key i' j' = n.key i j ∧ m = n then v else s.rget m i' j' := by
  by_cases h : m.key i' j' = n.key i j
  · have hn : m = n := by
      apply Classical.byContradiction; intro hne
      exact RegName.key_ne hne _ _ _ _ h
    subst hn
    simp [h, State.rget, State.rput]
  · simp [h, s.rget_rput_key n m v i j i' j' h]

@[simp] theorem State.rnat_rputN_same (s : State) (n : RegName) (v i j : Nat) :
    (s.rputN n v i j).rnat n i j = v % 2 ^ 64 := by
  simp [State.rnat, State.rputN]

@[simp] theorem State.rget_rputN_ne (s : State) (n m : RegName) (v i j i' j' : Nat) (h : m ≠ n) :
    (s.rputN n v i j).rget m i' j' = s.rget m i' j' := by
  simp [State.rputN, h]

@[simp] theorem State.rnat_rputN_ne (s : State) (n m : RegName) (v i j i' j' : Nat) (h : m ≠ n) :
    (s.rputN n v i j).rnat m i' j' = s.rnat m i' j' := by
  simp [State.rnat, h]

theorem State.rnat_rputN_key (s : State) (n m : RegName) (v i j i' j' : Nat) (h : m.key i' j' ≠ n.key i j) :
    (s.rputN n v i j).rnat m i' j' = s.rnat m i' j' := by
  simp [State.rnat, State.rputN, s.rget_rput_key n m _ i j i' j' h]

/-- Values depend on the register store alone. -/
theorem State.rget_congr {s t : State} (h : t.regs = s.regs) (n : RegName) (i j : Nat) : t.rget n i j = s.rget n i j := by
  simp [State.rget, h]

theorem State.rnat_congr {s t : State} (h : t.regs = s.regs) (n : RegName) (i j : Nat) : t.rnat n i j = s.rnat n i j := by
  simp [State.rnat, State.rget, h]

@[simp] theorem State.rnat_logAdd (s : State) (e : LogEntry) (n : RegName) (i j : Nat) :
    (s.logAdd e).rnat n i j = s.rnat n i j := rfl
@[simp] theorem State.rget_logAdd (s : State) (e : LogEntry) (n : RegName) (i j : Nat) :
    (s.logAdd e).rget n i j = s.rget n i j := rfl
@[simp] theorem State.rnat_tally1 (s : State) (id k : Nat) (n : RegName) (i j : Nat) :
    (s.tally1 id k).rnat n i j = s.rnat n i j := rfl
@[simp] theorem State.rnat_wr (s : State) (a : Nat) (bs : List Byte) (n : RegName) (i j : Nat) :
    (s.wr a bs).rnat n i j = s.rnat n i j := rfl
@[simp] theorem State.rnat_emit (s : State) (o : Out) (n : RegName) (i j : Nat) :
    (s.emit o).rnat n i j = s.rnat n i j := rfl

/-- An event bit that is raised reads as set. -/
theorem State.raise_same (s : State) (n : RegName) (b i : Nat) :
    (s.raise n b i).rnat n i = (s.rnat n i ||| 2 ^ b) % 2 ^ 64 := by
  simp [State.raise]

@[simp] theorem State.rnat_raise_ne (s : State) (n m : RegName) (b i i' j' : Nat) (h : m ≠ n) :
    (s.raise n b i).rnat m i' j' = s.rnat m i' j' := by
  simp [State.raise, h]

@[simp] theorem State.rnat_count_ne (s : State) (n m : RegName) (k i j i' j' : Nat) (h : m ≠ n) :
    (s.count n k i j).rnat m i' j' = s.rnat m i' j' := by
  simp [State.count, h]

/-- At reset every register reads its reset value. -/
@[simp] theorem State.reset_rget (n : RegName) (i j : Nat) : State.reset.rget n i j = n.resetOf i j := rfl

end Sys2Proof.Machine
end

