-- ==== Sys2Proof/Laws/End.lean ====
section
/-! SUPPORT. The end of a command: staging its log entries and sending the event vector touch the log, the tally store,
the outputs and the record of events seen, and nothing else. -/
namespace Sys2Proof.Machine
set_option Elab.async false

/-- Staging writes the log and the tally store alone. -/
theorem State.stageOrDrop_eq (s : State) (e : LogEntry) :
    ∃ l ty, s.stageOrDrop e = { s with log := l, tally := ty } := by
  unfold State.stageOrDrop
  simp only
  split
  · exact ⟨_, _, rfl⟩
  · exact ⟨_, _, rfl⟩

theorem State.stageEntry_eq (s : State) (e : LogEntry) :
    ∃ l ty, s.stageEntry e = { s with log := l, tally := ty } := by
  unfold State.stageEntry
  simp only
  split
  · exact State.stageOrDrop_eq s e
  · obtain ⟨l, ty, h⟩ := State.stageOrDrop_eq
      { s.tally1 0x1031 with log := { (s.log.makeRoom e).push (s.stamped { kind := 6, origin := 6, originIdx := 0xFF, aux := (s.log.makeRoom e).dropped }) with dropped := 0 } } e
    exact ⟨l, ty, by rw [h]; rfl⟩

theorem State.stageAll_eq (es : List LogEntry) (s : State) :
    ∃ l ty, es.foldl State.stageEntry s = { s with log := l, tally := ty } := by
  induction es generalizing s with
  | nil => exact ⟨s.log, s.tally, rfl⟩
  | cons e es ih =>
    obtain ⟨l, ty, h⟩ := State.stageEntry_eq s e
    obtain ⟨l', ty', h'⟩ := ih (s.stageEntry e)
    exact ⟨l', ty', by rw [List.foldl_cons, h', h]⟩

theorem State.flushBatch_eq (s : State) : ∃ l ty, s.flushBatch = { s with log := l, tally := ty } := by
  unfold State.flushBatch
  obtain ⟨l, ty, h⟩ := State.stageAll_eq (seriesSort s.log.batch).flatten { s with log := { s.log with batch := [] } }
  exact ⟨l, ty, by simp only [h]⟩

theorem State.sendVector_eq (s : State) (f v : Nat) : ∃ o, s.sendVector f v = { s with outs := o } := by
  unfold State.sendVector
  split
  · exact ⟨_, rfl⟩
  · exact ⟨s.outs, rfl⟩

/-- The end of a command writes the log, the tally store, the outputs and the record of events seen. -/
theorem State.settle_eq (s : State) :
    ∃ l ty o ev, s.settle = { s with log := l, tally := ty, outs := o, hif := { s.hif with seenEvents := ev } } := by
  unfold State.settle
  have key : ∃ l ty, (if s.log.batch.isEmpty = true then s else s.flushBatch) = { s with log := l, tally := ty } := by
    split
    · exact ⟨s.log, s.tally, rfl⟩
    · exact State.flushBatch_eq s
  obtain ⟨l, ty, h⟩ := key
  simp only [h]
  split
  · exact ⟨l, ty, s.outs, s.hif.seenEvents, rfl⟩
  · split
    · obtain ⟨o, h2⟩ := State.sendVector_eq { s with log := l, tally := ty, hif := { s.hif with seenEvents := State.hifEvents { s with log := l, tally := ty } } } 0 (bits (State.rnat { s with log := l, tally := ty } .hifEvtVec) 10 0)
      exact ⟨l, ty, o, _, by rw [h2]⟩
    · exact ⟨l, ty, s.outs, _, rfl⟩

@[simp] theorem State.settle_pending (s : State) : s.settle.pending = s.pending := by
  obtain ⟨l, ty, o, ev, h⟩ := s.settle_eq; rw [h]
@[simp] theorem State.settle_regs (s : State) : s.settle.regs = s.regs := by
  obtain ⟨l, ty, o, ev, h⟩ := s.settle_eq; rw [h]
@[simp] theorem State.settle_latch (s : State) : s.settle.latch = s.latch := by
  obtain ⟨l, ty, o, ev, h⟩ := s.settle_eq; rw [h]
@[simp] theorem State.settle_held (s : State) : s.settle.held = s.held := by
  obtain ⟨l, ty, o, ev, h⟩ := s.settle_eq; rw [h]
@[simp] theorem State.settle_readVal (s : State) : s.settle.readVal = s.readVal := by
  obtain ⟨l, ty, o, ev, h⟩ := s.settle_eq; rw [h]
@[simp] theorem State.settle_mem (s : State) : s.settle.mem = s.mem := by
  obtain ⟨l, ty, o, ev, h⟩ := s.settle_eq; rw [h]
@[simp] theorem State.settle_now (s : State) : s.settle.now = s.now := by
  obtain ⟨l, ty, o, ev, h⟩ := s.settle_eq; rw [h]
@[simp] theorem State.settle_free (s : State) : s.settle.free = s.free := by
  obtain ⟨l, ty, o, ev, h⟩ := s.settle_eq; rw [h]
@[simp] theorem State.settle_cad (s : State) : s.settle.cad = s.cad := by
  obtain ⟨l, ty, o, ev, h⟩ := s.settle_eq; rw [h]
@[simp] theorem State.settle_img (s : State) : s.settle.img = s.img := by
  obtain ⟨l, ty, o, ev, h⟩ := s.settle_eq; rw [h]
@[simp] theorem State.settle_pwr (s : State) : s.settle.pwr = s.pwr := by
  obtain ⟨l, ty, o, ev, h⟩ := s.settle_eq; rw [h]
@[simp] theorem State.settle_side (s : State) : s.settle.side = s.side := by
  obtain ⟨l, ty, o, ev, h⟩ := s.settle_eq; rw [h]
@[simp] theorem State.settle_tier (s : State) : s.settle.tier = s.tier := by
  obtain ⟨l, ty, o, ev, h⟩ := s.settle_eq; rw [h]
@[simp] theorem State.settle_scl (s : State) : s.settle.scl = s.scl := by
  obtain ⟨l, ty, o, ev, h⟩ := s.settle_eq; rw [h]
@[simp] theorem State.settle_crn (s : State) : s.settle.crn = s.crn := by
  obtain ⟨l, ty, o, ev, h⟩ := s.settle_eq; rw [h]
@[simp] theorem State.settle_fab (s : State) : s.settle.fab = s.fab := by
  obtain ⟨l, ty, o, ev, h⟩ := s.settle_eq; rw [h]
@[simp] theorem State.settle_dma (s : State) : s.settle.dma = s.dma := by
  obtain ⟨l, ty, o, ev, h⟩ := s.settle_eq; rw [h]
@[simp] theorem State.settle_tiles (s : State) : s.settle.tiles = s.tiles := by
  obtain ⟨l, ty, o, ev, h⟩ := s.settle_eq; rw [h]
@[simp] theorem State.settle_upd (s : State) : s.settle.upd = s.upd := by
  obtain ⟨l, ty, o, ev, h⟩ := s.settle_eq; rw [h]
@[simp] theorem State.settle_coll (s : State) : s.settle.coll = s.coll := by
  obtain ⟨l, ty, o, ev, h⟩ := s.settle_eq; rw [h]
@[simp] theorem State.settle_srv (s : State) : s.settle.srv = s.srv := by
  obtain ⟨l, ty, o, ev, h⟩ := s.settle_eq; rw [h]
@[simp] theorem State.settle_intake (s : State) : s.settle.intake = s.intake := by
  obtain ⟨l, ty, o, ev, h⟩ := s.settle_eq; rw [h]
@[simp] theorem State.settle_aln (s : State) : s.settle.aln = s.aln := by
  obtain ⟨l, ty, o, ev, h⟩ := s.settle_eq; rw [h]
/-- The host port is as it was, but for the record of events seen. -/
theorem State.settle_hif (s : State) : s.settle.hif = { s.hif with seenEvents := s.settle.hif.seenEvents } := by
  obtain ⟨l, ty, o, ev, h⟩ := s.settle_eq; rw [h]

@[simp] theorem State.settle_rget (s : State) (n : RegName) (i j : Nat) : s.settle.rget n i j = s.rget n i j :=
  State.rget_congr s.settle_regs n i j
@[simp] theorem State.settle_rnat (s : State) (n : RegName) (i j : Nat) : s.settle.rnat n i j = s.rnat n i j :=
  State.rnat_congr s.settle_regs n i j

/-- With no channel and no context changed, no failure spreads. -/
theorem State.spread_same (s old : State) (h1 : s.dma.chans = old.dma.chans) (h2 : s.tiles = old.tiles) :
    s.spread old = s := by
  simp [State.spread, State.sameEngines, h1, h2]

theorem State.finish_same (s old : State) (h1 : s.dma.chans = old.dma.chans) (h2 : s.tiles = old.tiles) :
    s.finish old = s.settle := by
  simp [State.finish, State.spread_same s old h1 h2]

theorem done_eq (s old : State) : done old s = .next (s.finish old) := rfl

/-- Outcome of a command that changes no channel and no context. -/
theorem done_same (s old : State) (h1 : s.dma.chans = old.dma.chans) (h2 : s.tiles = old.tiles) :
    done old s = .next s.settle := by
  rw [done_eq, State.finish_same s old h1 h2]

end Sys2Proof.Machine
end

