-- ==== Sys2Proof/Laws/Frames.lean ====
section
/-! SUPPORT. Which parts the shared operations touch, and how frames compose. -/
namespace Sys2Proof.Machine
set_option Elab.async false

theorem Area.same_refl (s : State) (p : Area) : Area.same s s p := by
  cases p <;> first | rfl | exact Or.inl rfl

theorem OnlyIn.refl (ps : List Area) (s : State) : OnlyIn ps s s := ⟨rfl, fun p _ => Area.same_refl s p⟩

/-- A larger list says less. -/
theorem OnlyIn.mono {ps qs : List Area} {s t : State} (h : OnlyIn ps s t) (hs : ∀ p, p ∈ ps → p ∈ qs) :
    OnlyIn qs s t := ⟨h.1, fun p hp => h.2 p (fun k => hp (hs p k))⟩

theorem Area.same_trans {s t u : State} {p : Area} (ho : t.outs = s.outs) (a : Area.same s t p) (b : Area.same t u p) :
    Area.same s u p := by
  cases p
  case outs => simp only [Area.same] at *; rw [ho] at b; exact b
  all_goals exact Eq.trans b a

/-- A step that leaves the outputs alone may come first. -/
theorem OnlyIn.trans {ps : List Area} {s t u : State} (h : OnlyIn ps s t) (ho : t.outs = s.outs) (k : OnlyIn ps t u) :
    OnlyIn ps s u := ⟨k.1.trans h.1, fun p hp => Area.same_trans ho (h.2 p hp) (k.2 p hp)⟩

theorem State.sendVector_outs (s : State) (f v : Nat) :
    (s.sendVector f v).outs = s.outs ∨ ∃ g w, (s.sendVector f v).outs = s.outs ++ [.msix g w] := by
  unfold State.sendVector
  split
  · exact Or.inr ⟨_, _, rfl⟩
  · exact Or.inl rfl

/-- Settling makes at most an MSI-X message. -/
theorem State.settle_outs (s : State) : s.settle.outs = s.outs ∨ ∃ f v, s.settle.outs = s.outs ++ [.msix f v] := by
  unfold State.settle
  have hb : (if s.log.batch.isEmpty = true then s else s.flushBatch).outs = s.outs := by
    split
    · rfl
    · obtain ⟨l, ty, h⟩ := State.flushBatch_eq s; rw [h]
  generalize (if s.log.batch.isEmpty = true then s else s.flushBatch) = u at hb
  simp only
  split
  · exact Or.inl hb
  · split
    · rw [← hb]; exact State.sendVector_outs _ _ _
    · exact Or.inl hb

/-- The end of a command touches none of the parts. -/
theorem OnlyIn.settle (ps : List Area) (s : State) : OnlyIn ps s s.settle :=
  ⟨s.settle_pending, fun p _ => match p with
    | .regs => s.settle_regs | .latch => s.settle_latch | .held => s.settle_held | .readVal => s.settle_readVal
    | .mem => s.settle_mem | .now => s.settle_now | .free => s.settle_free | .outs => s.settle_outs
    | .cad => s.settle_cad | .img => s.settle_img | .hif => by unfold Area.same; rw [s.settle_hif]
    | .pwr => s.settle_pwr | .side => s.settle_side | .tier => s.settle_tier | .scl => s.settle_scl
    | .crn => s.settle_crn | .fab => s.settle_fab | .dma => s.settle_dma | .tiles => s.settle_tiles
    | .upd => s.settle_upd | .coll => s.settle_coll | .srv => s.settle_srv | .intake => s.settle_intake
    | .aln => s.settle_aln⟩

/-- A command that changes no channel and no context gives the state of its effect, settled. -/
theorem done_gives {c : Instr} {s u : State} {P : State → Prop} (e : exec c s = done s u)
    (h1 : u.dma.chans = s.dma.chans) (h2 : u.tiles = s.tiles) (h : P u.settle) : Gives c s P :=
  ⟨u.settle, e.trans (done_same u s h1 h2), h⟩

/-- Frames of the effect are frames of the command. -/
theorem OnlyIn.settled {ps : List Area} {s u : State} (h : OnlyIn ps s u) (ho : u.outs = s.outs) :
    OnlyIn ps s u.settle := h.trans ho (OnlyIn.settle ps u)

theorem OnlyIn.rput (s : State) (n : RegName) (v : W64) (i j : Nat) : OnlyIn [.regs] s (s.rput n v i j) := by
  refine ⟨rfl, fun p hp => ?_⟩
  cases p <;> first | rfl | exact Or.inl rfl | exact absurd (List.mem_singleton.mpr rfl) hp

theorem OnlyIn.logAdd (ps : List Area) (s : State) (e : LogEntry) : OnlyIn ps s (s.logAdd e) := by
  refine ⟨rfl, fun p _ => ?_⟩
  cases p <;> first | rfl | exact Or.inl rfl

theorem OnlyIn.tally1 (ps : List Area) (s : State) (i k : Nat) : OnlyIn ps s (s.tally1 i k) := by
  refine ⟨rfl, fun p _ => ?_⟩
  cases p <;> first | rfl | exact Or.inl rfl

theorem RegsBut.refl (ks : List Nat) (s : State) : RegsBut ks s s := fun _ _ _ _ => rfl

theorem RegsBut.of {ks : List Nat} {s t : State} (h : t.regs = s.regs) : RegsBut ks s t :=
  fun n i j _ => State.rget_congr h n i j

theorem RegsBut.trans {ks : List Nat} {s t u : State} (h : RegsBut ks s t) (k : RegsBut ks t u) : RegsBut ks s u :=
  fun n i j hk => (k n i j hk).trans (h n i j hk)

theorem RegsBut.rput (s : State) (n : RegName) (v : W64) (i j : Nat) : RegsBut [n.key i j] s (s.rput n v i j) :=
  fun m a b h => State.rget_rput_key s n m v i j a b (fun e => h (List.mem_singleton.mpr e))

theorem BytesBut.of {a n : Nat} {s t : State} (h : t.mem = s.mem) : BytesBut a n s t := fun b _ => by rw [h]

/-- What `wr` writes it writes inside its range. -/
theorem BytesBut.wr (s : State) (a : Nat) (bs : List Byte) : BytesBut a bs.length s (s.wr a bs) :=
  fun b h => Memory.read_writeList_out bs s.mem a b h

/-! ### What failures bring with them -/

theorem State.servingError_none {s : State} {p c : Nat} (h : s.notServing p) : s.servingError p c = s := by
  unfold State.servingError
  unfold State.notServing at h
  simp [h]

theorem State.servingErrors_none {s : State} (l : List (Nat × Nat)) (h : ∀ e ∈ l, s.notServing e.1) :
    l.foldl (fun s e => s.servingError e.1 e.2) s = s := by
  induction l with
  | nil => rfl
  | cons e l ih =>
    rw [List.foldl_cons, State.servingError_none (h e (List.mem_cons_self ..))]
    exact ih (fun x hx => h x (List.mem_cons_of_mem _ hx))

theorem State.sweepChan_none {s : State} {d n : Nat} (h : (s.chan d n).st = .stopped → (s.chan d n).work.owned = false) :
    s.sweepChan d n = s := by
  unfold State.sweepChan
  simp only
  split
  · rfl
  · next k =>
    have hs : (s.chan d n).st = .stopped := Classical.not_not.mp k
    have := h hs
    split
    all_goals first | rfl | (next e => rw [e] at this; cases this)

/-- With no failure left over, none is dealt with. -/
theorem State.sweep_none {s : State} (h : s.noLeftFailures) : s.sweep = s := by
  unfold State.sweep
  have key (l : List (Nat × Chan)) (hl : ∀ e ∈ l, e ∈ s.dma.chans) :
      (l.map (·.1)).foldl (fun s key => s.sweepChan (key / 64) (key % 64)) s = s := by
    induction l with
    | nil => rfl
    | cons k l ih =>
      rw [List.map_cons, List.foldl_cons, State.sweepChan_none (h k (hl k (by simp)))]
      exact ih (fun e he => hl e (List.mem_cons_of_mem _ he))
  exact key _ (fun _ h => h)

/-- A command spreads no failure where its new ones concern partitions without a serving engine and none is left over. -/
theorem State.spread_none {u s : State} (h : ∀ e ∈ u.newErrors s, u.notServing e.1) (k : u.noLeftFailures) :
    u.spread s = u := by
  unfold State.spread
  split
  · rfl
  · rw [State.servingErrors_none _ h, State.sweep_none k]

/-- Channels and contexts that fail were seen failing by their old state, or there is no new error. -/
theorem State.newErrors_none {u s : State} (h1 : ∀ d n, (u.chan d n).st = .stopped → (s.chan d n).st = .stopped)
    (h2 : ∀ t c, (u.ctx t c).st = .fault → (s.ctx t c).st = .fault) : u.newErrors s = [] := by
  unfold State.newErrors
  have a : u.dma.chans.filterMap (fun e =>
      let d := e.1 / 64
      let n := e.1 % 64
      if (u.chan d n).st = .stopped && (s.chan d n).st ≠ .stopped && !(u.chan d n).work.isScaler then
        (u.chanPart d n).map (fun p => (p, (u.chan d n).err))
      else none) = [] := by
    rw [List.filterMap_eq_nil_iff]
    intro e _
    simp only
    rw [if_neg]
    simp only [Bool.and_eq_true, decide_eq_true_eq]
    rintro ⟨⟨x, y⟩, _⟩
    exact y (h1 _ _ x)
  have b : u.tiles.flatMap (fun e => e.2.ctxs.filterMap (fun f =>
      if (u.ctx e.1 f.1).st = .fault && (s.ctx e.1 f.1).st ≠ .fault then
        (u.ownerTile e.1).map (fun p => (p, (u.ctx e.1 f.1).err))
      else none)) = [] := by
    rw [List.flatMap_eq_nil_iff]
    intro e _
    rw [List.filterMap_eq_nil_iff]
    intro f _
    rw [if_neg]
    simp only [Bool.and_eq_true, decide_eq_true_eq]
    rintro ⟨x, y⟩
    exact y (h2 _ _ x)
  simp only at a ⊢
  rw [a, b]
  rfl

/-- The outcome of a command that spreads no failure. -/
theorem done_quiet {c : Instr} {s u : State} {P : State → Prop} (e : exec c s = done s u)
    (h : ∀ x ∈ u.newErrors s, u.notServing x.1) (k : u.noLeftFailures) (hp : P u.settle) : Gives c s P :=
  ⟨u.settle, by rw [e, done_eq, State.finish, State.spread_none h k], hp⟩

/-- The same of a command by which nothing fails. -/
theorem done_unfailed {c : Instr} {s u : State} {P : State → Prop} (e : exec c s = done s u)
    (h1 : ∀ d n, (u.chan d n).st = .stopped → (s.chan d n).st = .stopped)
    (h2 : ∀ t x, (u.ctx t x).st = .fault → (s.ctx t x).st = .fault) (k : u.noLeftFailures) (hp : P u.settle) :
    Gives c s P :=
  done_quiet e (by rw [State.newErrors_none h1 h2]; intro x hx; cases hx) k hp

theorem State.chan_setChan (s : State) (d n d' n' : Nat) (c : Chan) :
    (s.setChan d n c).chan d' n' = if d' * 64 + n' = d * 64 + n then c else s.chan d' n' := by
  unfold State.chan State.setChan
  split
  · next h => rw [h]; exact NMap.getD_put_same ..
  · next h => exact NMap.getD_put_ne _ _ _ _ _ h

theorem State.ctx_setCtx (s : State) (t x t' x' : Nat) (c : Ctx) :
    (s.setCtx t x c).ctx t' x' = if t' = t ∧ x' = x then c else s.ctx t' x' := by
  unfold State.ctx State.setCtx State.setTile State.tile
  by_cases ht : t' = t
  · subst ht
    simp only [NMap.getD_put_same, true_and]
    split
    · next h => rw [h]; exact NMap.getD_put_same ..
    · next h => exact NMap.getD_put_ne _ _ _ _ _ h
  · simp only [ht, false_and, if_false]
    rw [NMap.getD_put_ne _ _ _ _ _ ht]

end Sys2Proof.Machine
end

