-- ==== Sys2Proof/Laws/Access.lean ====
section
/-! SUPPORT. Where a register command leads: the registers that have rows of their own are found at their own offsets, and
a write that the path may make is the register's own. -/
namespace Sys2Proof.Machine
set_option Elab.async false

/-- Every instance of the register is found at its own offset (Table 23.3). -/
def RegName.found (n : RegName) : Bool :=
  (List.range n.row.c1).all fun i => (List.range n.row.c2).all fun j =>
    match findReg (n.row.base + i * n.row.s1 + j * n.row.s2) with
    | some (m, a, b, up) => m.ctorIdx == n.ctorIdx && (a == i && (b == j && (!up
      && (!n.row.w64 || (n.row.base + i * n.row.s1 + j * n.row.s2) % 8 == 0))))
    | none => false

theorem RegName.found_spec {n : RegName} (h : n.found = true) {i j : Nat} (hi : i < n.row.c1) (hj : j < n.row.c2) :
    accessAt (n.row.base + i * n.row.s1 + j * n.row.s2) (if n.row.w64 then 8 else 4) = some (n, i, j, false) := by
  unfold RegName.found at h
  rw [List.all_eq_true] at h
  have h1 := h i (List.mem_range.mpr hi)
  rw [List.all_eq_true] at h1
  have h2 := h1 j (List.mem_range.mpr hj)
  split at h2
  · next m a b up e =>
    simp only [Bool.and_eq_true, beq_iff_eq, Bool.not_eq_true'] at h2
    obtain ⟨x1, x2, x3, x4, x5⟩ := h2
    cases RegName.ctorIdx_inj x1
    subst x2 x3 x4
    unfold accessAt
    cases hw : n.row.w64 with
    | false => simp [e]
    | true =>
      simp only [hw, Bool.not_true, Bool.false_or, beq_iff_eq] at x5
      simp [e, hw, x5]
  · cases h2

/-- The registers whose writes have rows of their own. -/
def commandRegs1 : List RegName :=
  [.cadCtrl, .cadMasterCmd, .cadMasterPeriod, .imgCmd, .imgKeyCmd, .imgSvFloor, .pwrCmd, .pwrSsc, .logReadSeq,
   .logTimeSet, .sclLedgerCmd, .sclStreamCfg, .hifRingCtrl]
def commandRegs2 : List RegName :=
  [.crnHcAdd, .crnHcSet, .crnHcWcfg, .crnDebugSet, .srvModelCmd, .srvPartCtrl, .srvSlots, .srvTreeCmd, .admKvLimit,
   .admAcctCmd, .updCtrl, .updLsExp, .nynPortCmd, .nynPortCtrl, .nynFailed, .nynCollCtrl]
def commandRegs3 : List RegName := [.tilCtxCtrl, .intPortCmd, .intNsOwner, .intPortCfg, .intRingCfg, .alnGCtrl]
def commandRegs4 : List RegName := [.dmaChCtrl]

theorem commandRegs1_found : commandRegs1.all RegName.found = true := by decide +kernel
theorem commandRegs2_found : commandRegs2.all RegName.found = true := by decide +kernel
theorem commandRegs3_found : commandRegs3.all RegName.found = true := by decide +kernel
theorem commandRegs4_found : commandRegs4.all RegName.found = true := by decide +kernel

/-- A write that the path may make goes through to the register. -/
theorem State.regWrite_open {s : State} {p : Path} {n : RegName} {i j v : Nat} (h : s.writes p n i j v)
    (hf : n.found = true) (hi : i < n.row.c1) (hj : j < n.row.c2) (raced : Nat) (ext ext2 : List Byte) :
    s.regWrite p n i j v raced ext ext2
      = s.writeWhole p n i j (n.row.base + i * n.row.s1 + j * n.row.s2) v raced ext ext2 := by
  obtain ⟨⟨h1, h2, h3⟩, h4⟩ := h
  unfold State.regWrite State.busWrite
  rw [RegName.found_spec hf hi hj]
  cases hw : n.row.w64 <;> simp [h1, h2, h3, h4, hw]

/-- What a plain register takes on a write is the value. -/
theorem State.rwStore_plain {n : RegName} (h : n.plain = true) (s : State) (k i j v : Nat) :
    s.rwStore k n i j v = s.pput k n v i j := by
  cases n <;> first | exact Bool.noConfusion (show false = true from h) | rfl

theorem ringRises_plain {n : RegName} (h : n.plain = true) (a b : Nat) : ringRises n a b = false := by
  cases n <;> first | exact Bool.noConfusion (show false = true from h) | rfl

/-- A write of the whole of an accepted plain register: the value is stored, and logged where writes of it are. -/
theorem State.writeWhole_plain {s : State} {p : Path} {n : RegName} {i j off v : Nat} (ha : n.row.acc = .rw)
    (hp : n.plain = true) (hf : n.fieldOk i (v &&& n.row.mask) = true)
    (hk : s.rwAccept p.idx n i j (v &&& n.row.mask) = true) :
    s.writeWhole p n i j off v 0 [] [] =
      if n.unlogged then s.pput p.idx n (v &&& n.row.mask) i j
      else (s.pput p.idx n (v &&& n.row.mask) i j).logReg p 1 n i j (s.rwValue p.idx n i j) (v &&& n.row.mask) := by
  unfold State.writeWhole State.writeRw
  rw [ha]
  simp [hf, hk, ringRises_plain hp, dropBits, State.rwStore_plain hp]

/-- A write by bus that the path may make, of a whole register, goes through to it. -/
theorem State.busWrite_open {s : State} {p : Path} {n : RegName} {i j off size v : Nat}
    (ha : accessAt off size = some (n, i, j, false)) (hs : size = 8 ∨ n.row.w64 = false) (hw : s.writes p n i j v)
    (raced : Nat) (ext ext2 : List Byte) :
    s.busWrite p off size v raced ext ext2 = s.writeWhole p n i j off v raced ext ext2 := by
  obtain ⟨⟨h1, h2, h3⟩, h4⟩ := hw
  unfold State.busWrite
  rw [ha]
  have : ¬ (size = 4 ∧ n.row.w64 = true) := by
    rintro ⟨a, b⟩
    rcases hs with hs | hs
    · omega
    · rw [hs] at b; cases b
  by_cases h8 : size = 4 <;> cases hww : n.row.w64 <;> simp_all

/-- The registers of the lists above, one by one. -/
theorem commandRegs_found {n : RegName} (h : n ∈ commandRegs1 ++ commandRegs2 ++ commandRegs3 ++ commandRegs4) :
    n.found = true := by
  simp only [List.mem_append] at h
  rcases h with ((h | h) | h) | h
  · exact List.all_eq_true.mp commandRegs1_found n h
  · exact List.all_eq_true.mp commandRegs2_found n h
  · exact List.all_eq_true.mp commandRegs3_found n h
  · exact List.all_eq_true.mp commandRegs4_found n h

end Sys2Proof.Machine
end

