-- ==== Sys2Proof/Laws/Keeps.lean ====
section
/-! SUPPORT. What no operation of the part does, whatever the command: touch the queue, leave memory out of its canonical
form, lower the version floor, take back a revocation, unwrite a log entry, turn back time, or change how many functions
there are. `Goes s t` says so of going from `s` to `t`. `Keeps s t` says, of all operations but those that move the phase
or take the spine's power, that real time, the step, the phase and the period stand still too; the forms below say it of
operations that answer more than a state. -/
namespace Sys2Proof.Machine
set_option Elab.async false

/-- What going from `s` to `t` leaves as it must be. -/
structure Goes (s t : State) : Prop where
  queue : t.pending = s.pending
  mem : Memory.wf s.mem = true → Memory.wf t.mem = true
  floor : s.img.svFloor ≤ t.img.svFloor
  revoked : ∀ k ∈ s.img.revoked, k ∈ t.img.revoked
  written : s.log.written ≤ t.log.written
  time : s.now ≤ t.now
  vfs : t.hif.numVfs = s.hif.numVfs
  free : s.free ≤ t.free

/-- Real time and the phase timebase of a state: what only the cadence and a loss of the spine move. -/
abbrev State.clock (s : State) : Nat × Nat × Nat × Nat := (s.now, s.cad.step, s.cad.phase, s.cad.period)

/-- What going from `s` to `t` leaves as it must be, the clock standing still. -/
structure Keeps (s t : State) : Prop extends Goes s t where
  clock : t.clock = s.clock

/-- The parts of a state that `Goes` and `Keeps` speak of. -/
abbrev State.gone (s : State) : List Instr × List Host.Cell × Nat × List Nat × Nat × Nat × Nat × Nat :=
  (s.pending, s.mem, s.img.svFloor, s.img.revoked, s.log.written, s.now, s.hif.numVfs, s.free)
abbrev State.kept (s : State) : (List Instr × List Host.Cell × Nat × List Nat × Nat × Nat × Nat × Nat) × Nat × Nat × Nat :=
  (s.gone, s.cad.step, s.cad.phase, s.cad.period)

theorem Keeps.goes {s t : State} (h : Keeps s t) : Goes s t := h.toGoes

def KeepsOpt (s : State) (o : Option State) : Prop := ∀ t, o = some t → Keeps s t
def KeepsExc {ε : Type} (s : State) (e : Except ε State) : Prop := ∀ t, e = .ok t → Keeps s t
def KeepsTwo (s : State) (e : Except State State) : Prop := (∀ t, e = .ok t → Keeps s t) ∧ (∀ t, e = .error t → Keeps s t)
def KeepsSnd {α : Type} (s : State) (p : α × State) : Prop := Keeps s p.2
def KeepsFst {α : Type} (s : State) (p : State × α) : Prop := Keeps s p.1
def KeepsOptSnd {α : Type} (s : State) (o : Option (α × State)) : Prop := ∀ a t, o = some (a, t) → Keeps s t
def KeepsExcSnd {α ε : Type} (s : State) (e : Except ε (α × State)) : Prop := ∀ a t, e = .ok (a, t) → Keeps s t
def KeepsTwoFst {α : Type} (s : State) (e : Except State (State × α)) : Prop :=
  (∀ a t, e = .ok (t, a) → Keeps s t) ∧ (∀ t, e = .error t → Keeps s t)

def KeepsOut (s : State) (o : Host.Outcome State Fault Refusal) : Prop := ∀ t, o = .next t → Keeps s t

def GoesOut (s : State) (o : Host.Outcome State Fault Refusal) : Prop := ∀ t, o = .next t → Goes s t

theorem Goes.refl (s : State) : Goes s s :=
  ⟨rfl, id, Nat.le_refl _, fun _ h => h, Nat.le_refl _, Nat.le_refl _, rfl, Nat.le_refl _⟩

theorem Goes.trans {s t u : State} (h : Goes s t) (k : Goes t u) : Goes s u :=
  ⟨k.queue.trans h.queue, fun w => k.mem (h.mem w), Nat.le_trans h.floor k.floor, fun x hx => k.revoked x (h.revoked x hx),
   Nat.le_trans h.written k.written, Nat.le_trans h.time k.time, k.vfs.trans h.vfs, Nat.le_trans h.free k.free⟩

theorem Goes.of {s t : State} (h : t.gone = s.gone) : Goes s t := by
  simp only [Prod.mk.injEq] at h
  obtain ⟨h1, h2, h3, h4, h5, h6, h7, h8⟩ := h
  exact ⟨h1, fun w => by rw [h2]; exact w, Nat.le_of_eq h3.symm, fun x hx => by rw [h4]; exact hx, Nat.le_of_eq h5.symm, Nat.le_of_eq h6.symm, h7,
    Nat.le_of_eq h8.symm⟩

theorem Goes.upd {s u t : State} (e : t.gone = u.gone) (h : Goes s u) : Goes s t := h.trans (Goes.of e)

theorem Goes.foldl {α : Type} {f : State → α → State} (hf : ∀ x a, Goes x (f x a)) (l : List α) (s : State) :
    Goes s (l.foldl f s) := by
  induction l generalizing s with
  | nil => exact Goes.refl s
  | cons a l ih => exact (hf s a).trans (ih (f s a))

theorem Keeps.refl (s : State) : Keeps s s := ⟨Goes.refl s, rfl⟩

theorem Keeps.trans {s t u : State} (h : Keeps s t) (k : Keeps t u) : Keeps s u :=
  ⟨h.toGoes.trans k.toGoes, k.clock.trans h.clock⟩

theorem Keeps.of {s t : State} (h : t.kept = s.kept) : Keeps s t := by
  simp only [Prod.mk.injEq] at h
  obtain ⟨hg, h9, h10, h11⟩ := h
  refine ⟨Goes.of (by simp only [Prod.mk.injEq]; exact hg), ?_⟩
  simp only [State.clock, h9, h10, h11, hg.2.2.2.2.2.1]

/-- An update of other parts. -/
theorem Keeps.upd {s u t : State} (e : t.kept = u.kept) (h : Keeps s u) : Keeps s t := h.trans (Keeps.of e)

theorem Keeps.foldl {α : Type} {f : State → α → State} (hf : ∀ x a, Keeps x (f x a)) (l : List α) (s : State) :
    Keeps s (l.foldl f s) := by
  induction l generalizing s with
  | nil => exact Keeps.refl s
  | cons a l ih => exact (hf s a).trans (ih (f s a))

theorem Keeps.getD {s d : State} {o : Option State} (h : KeepsOpt s o) (k : Keeps s d) : Keeps s (o.getD d) := by
  cases o with
  | none => exact k
  | some x => exact h x rfl

theorem KeepsOpt.none {s : State} : KeepsOpt s none := fun _ h => by cases h
theorem KeepsOpt.some {s t : State} (h : Keeps s t) : KeepsOpt s (some t) := fun _ e => by cases e; exact h
theorem KeepsOpt.trans {s t : State} {o : Option State} (h : Keeps s t) (k : KeepsOpt t o) : KeepsOpt s o :=
  fun u e => h.trans (k u e)

theorem KeepsOpt.map {α : Type} {s : State} {f : α → State} (o : Option α) (h : ∀ a, Keeps s (f a)) : KeepsOpt s (o.map f) := by
  cases o with
  | none => exact KeepsOpt.none
  | some a => exact KeepsOpt.some (h a)
theorem KeepsOpt.bind {α : Type} {s : State} {f : α → Option State} (o : Option α) (h : ∀ a, KeepsOpt s (f a)) :
    KeepsOpt s (o.bind f) := by
  cases o with
  | none => exact KeepsOpt.none
  | some a => exact h a

theorem KeepsOpt.findSome {α : Type} {s : State} {f : α → Option State} (l : List α) (h : ∀ a, KeepsOpt s (f a)) :
    KeepsOpt s (l.findSome? f) := by
  induction l with
  | nil => exact KeepsOpt.none
  | cons a l ih =>
    simp only [List.findSome?_cons]
    split
    · next b hb => intro t e; cases e; exact h a _ hb
    · exact ih

theorem KeepsExc.error {ε : Type} {s : State} {c : ε} : KeepsExc s (.error c) := fun _ h => by cases h
theorem KeepsExc.ok {ε : Type} {s t : State} (h : Keeps s t) : KeepsExc (ε := ε) s (.ok t) := fun _ e => by cases e; exact h
theorem KeepsExc.trans {ε : Type} {s t : State} {o : Except ε State} (h : Keeps s t) (k : KeepsExc t o) : KeepsExc s o :=
  fun u e => h.trans (k u e)

theorem KeepsTwo.error {s t : State} (h : Keeps s t) : KeepsTwo s (.error t) :=
  ⟨fun _ e => (by cases e), fun _ e => by cases e; exact h⟩
theorem KeepsTwo.ok {s t : State} (h : Keeps s t) : KeepsTwo s (.ok t) :=
  ⟨fun _ e => (by cases e; exact h), fun _ e => by cases e⟩
theorem KeepsTwo.trans {s t : State} {o : Except State State} (h : Keeps s t) (k : KeepsTwo t o) : KeepsTwo s o :=
  ⟨fun u e => h.trans (k.1 u e), fun u e => h.trans (k.2 u e)⟩

theorem KeepsSnd.mk {α : Type} {s t : State} {a : α} (h : Keeps s t) : KeepsSnd s (a, t) := h
theorem KeepsSnd.trans {α : Type} {s t : State} {p : α × State} (h : Keeps s t) (k : KeepsSnd t p) : KeepsSnd s p :=
  Keeps.trans h k
theorem KeepsSnd.of {α : Type} {s t : State} {a : α} {p : α × State} (h : KeepsSnd s p) (e : p = (a, t)) : Keeps s t := by
  subst e; exact h

theorem KeepsFst.mk {α : Type} {s t : State} {a : α} (h : Keeps s t) : KeepsFst s (t, a) := h
theorem KeepsFst.trans {α : Type} {s t : State} {p : State × α} (h : Keeps s t) (k : KeepsFst t p) : KeepsFst s p :=
  Keeps.trans h k
theorem KeepsFst.of {α : Type} {s t : State} {a : α} {p : State × α} (h : KeepsFst s p) (e : p = (t, a)) : Keeps s t := by
  subst e; exact h

theorem KeepsOptSnd.none {α : Type} {s : State} : KeepsOptSnd (α := α) s none := fun _ _ h => by cases h
theorem KeepsOptSnd.some {α : Type} {s t : State} {a : α} (h : Keeps s t) : KeepsOptSnd s (some (a, t)) :=
  fun _ _ e => by cases e; exact h
theorem KeepsOptSnd.trans {α : Type} {s t : State} {o : Option (α × State)} (h : Keeps s t) (k : KeepsOptSnd t o) :
    KeepsOptSnd s o := fun a u e => h.trans (k a u e)

theorem KeepsExcSnd.error {α ε : Type} {s : State} {c : ε} : KeepsExcSnd (α := α) s (.error c) := fun _ _ h => by cases h
theorem KeepsExcSnd.ok {α ε : Type} {s t : State} {a : α} (h : Keeps s t) : KeepsExcSnd (ε := ε) s (.ok (a, t)) :=
  fun _ _ e => by cases e; exact h
theorem KeepsExcSnd.trans {α ε : Type} {s t : State} {o : Except ε (α × State)} (h : Keeps s t) (k : KeepsExcSnd t o) :
    KeepsExcSnd s o := fun a u e => h.trans (k a u e)

theorem KeepsTwoFst.error {α : Type} {s t : State} (h : Keeps s t) : KeepsTwoFst (α := α) s (.error t) :=
  ⟨fun _ _ e => (by cases e), fun _ e => by cases e; exact h⟩
theorem KeepsTwoFst.ok {α : Type} {s t : State} {a : α} (h : Keeps s t) : KeepsTwoFst s (.ok (t, a)) :=
  ⟨fun _ _ e => (by cases e; exact h), fun _ e => by cases e⟩
theorem KeepsTwoFst.trans {α : Type} {s t : State} {o : Except State (State × α)} (h : Keeps s t) (k : KeepsTwoFst t o) :
    KeepsTwoFst s o := ⟨fun a u e => h.trans (k.1 a u e), fun u e => h.trans (k.2 u e)⟩

/-! ### The operations that do touch one of them -/

theorem Keeps.ofMem {s : State} {m : List Host.Cell} (h : Memory.wf s.mem = true → Memory.wf m = true) :
    Keeps s { s with mem := m } :=
  ⟨⟨rfl, h, Nat.le_refl _, fun _ h => h, Nat.le_refl _, Nat.le_refl _, rfl, Nat.le_refl _⟩, rfl⟩

theorem Keeps.ofLog {s : State} {l : LogUnit} (h : s.log.written ≤ l.written) : Keeps s { s with log := l } :=
  ⟨⟨rfl, id, Nat.le_refl _, fun _ h => h, h, Nat.le_refl _, rfl, Nat.le_refl _⟩, rfl⟩

theorem State.wr_keeps {s : State} {a : Nat} {bs : List Byte} : Keeps s (s.wr a bs) := Keeps.ofMem (fun h => s.wr_wf a bs h)
theorem State.zero_keeps {s : State} {a n : Nat} : Keeps s (s.zero a n) := Keeps.ofMem (fun h => s.zero_wf a n h)
theorem State.wrNat_keeps {s : State} {a n v : Nat} : Keeps s (s.wrNat a n v) := State.wr_keeps

theorem LogUnit.written_drain1 (l : LogUnit) : l.written ≤ l.drain1.written := by
  unfold LogUnit.drain1; split
  · exact Nat.le_refl _
  · exact Nat.le_succ _

theorem LogUnit.written_makeRoom (l : LogUnit) (e : LogEntry) : l.written ≤ (l.makeRoom e).written := by
  unfold LogUnit.makeRoom; split
  · exact l.written_drain1
  · exact Nat.le_refl _

theorem LogUnit.written_drain (n : Nat) (l : LogUnit) : l.written ≤ (LogUnit.drain n l).written := by
  induction n generalizing l with
  | zero => exact Nat.le_refl _
  | succ n ih => exact Nat.le_trans l.written_drain1 (ih _)

theorem State.stageOrDrop_keeps {s : State} {e : LogEntry} : Keeps s (s.stageOrDrop e) := by
  have h := s.log.written_makeRoom e
  unfold State.stageOrDrop
  simp only
  split
  · exact ⟨⟨rfl, id, Nat.le_refl _, fun _ h => h, h, Nat.le_refl _, rfl, Nat.le_refl _⟩, rfl⟩
  · exact ⟨⟨rfl, id, Nat.le_refl _, fun _ h => h, h, Nat.le_refl _, rfl, Nat.le_refl _⟩, rfl⟩

theorem State.stageEntry_keeps {s : State} {e : LogEntry} : Keeps s (s.stageEntry e) := by
  have h := s.log.written_makeRoom e
  unfold State.stageEntry
  simp only
  split
  · exact State.stageOrDrop_keeps
  · refine Keeps.trans ?_ State.stageOrDrop_keeps
    exact ⟨⟨rfl, id, Nat.le_refl _, fun _ h => h, h, Nat.le_refl _, rfl, Nat.le_refl _⟩, rfl⟩

theorem State.logDrain_keeps {s : State} : Keeps s s.logDrain := Keeps.ofLog (LogUnit.written_drain _ _)

theorem State.fresh_keeps {s : State} : KeepsSnd s s.fresh :=
  ⟨⟨rfl, id, Nat.le_refl _, fun _ h => h, Nat.le_refl _, Nat.le_refl _, rfl, Nat.le_succ _⟩, rfl⟩

end Sys2Proof.Machine
end

