-- ==== Sys2Proof/Laws/KeepsOps1.lean ====
section
/-! SUPPORT. `Keeps` of the shared operations, part 1 of 5, in the order they build on each other: one lemma per
operation. -/
namespace Sys2Proof.Machine
set_option Elab.async false

theorem State.rput_keeps {s : State} {b1 : RegName} {b2 : W64} {b3 b4 : Nat} :
    Keeps s (State.rput s b1 b2 b3 b4) := by
  delta State.rput
  exact Keeps.of rfl

theorem State.rputN_keeps {s : State} {b1 : RegName} {b2 b3 b4 : Nat} :
    Keeps s (State.rputN s b1 b2 b3 b4) := by
  delta State.rputN
  exact State.rput_keeps

theorem State.raise_keeps {s : State} {b1 : RegName} {b2 b3 : Nat} :
    Keeps s (State.raise s b1 b2 b3) := by
  delta State.raise
  exact State.rputN_keeps

theorem State.count_keeps {s : State} {b1 : RegName} {b2 b3 b4 : Nat} :
    Keeps s (State.count s b1 b2 b3 b4) := by
  delta State.count
  exact State.rputN_keeps

theorem State.tally1_keeps {s : State} {b1 b2 : Nat} :
    Keeps s (State.tally1 s b1 b2) := by
  delta State.tally1
  extract_lets v0
  clear_value v0
  exact Keeps.of rfl

theorem State.observe_keeps {s : State} {b1 b2 : Nat} :
    Keeps s (State.observe s b1 b2) := by
  delta State.observe
  exact State.tally1_keeps

theorem State.logAdd_keeps {s : State} {b1 : LogEntry} :
    Keeps s (State.logAdd s b1) := by
  delta State.logAdd
  extract_lets v0
  exact Keeps.of rfl

theorem State.logSeries_keeps {s : State} {b1 : List LogEntry} :
    Keeps s (State.logSeries s b1) := by
  delta State.logSeries
  extract_lets v0
  split
  · exact Keeps.refl _
  · exact Keeps.of rfl

theorem State.flushBatch_keeps {s : State} :
    Keeps s (State.flushBatch s) := by
  delta State.flushBatch
  extract_lets v0 v1
  clear_value v0
  refine Keeps.trans ?_ (Keeps.foldl (fun x2 a3 => ?_) _ _)
  · exact Keeps.of rfl
  · exact State.stageEntry_keeps

theorem State.recordClass_keeps {s : State} {b1 : Nat} {b2 : At} :
    Keeps s (State.recordClass s b1 b2) := by
  delta State.recordClass
  split
  · exact State.rputN_keeps
  · exact State.rputN_keeps
  · exact State.rputN_keeps
  · split
    · exact State.rputN_keeps
    · exact State.rputN_keeps
  · exact State.rputN_keeps
  · exact State.rputN_keeps
  · exact State.rputN_keeps
  · exact State.rputN_keeps
  · exact State.rputN_keeps
  · split
    · exact State.rputN_keeps
    · exact Keeps.refl _
  · exact State.rputN_keeps
  · exact State.rputN_keeps
  · exact State.rputN_keeps
  · exact State.rputN_keeps
  · exact Keeps.refl _

theorem State.issue_keeps {s : State} {b1 : Nat} {b2 : At} :
    Keeps s (State.issue s b1 b2) := by
  delta State.issue
  split
  · exact Keeps.refl _
  · refine Keeps.trans ?_ State.recordClass_keeps
    exact State.tally1_keeps

theorem State.emit_keeps {s : State} {b1 : Out} :
    Keeps s (State.emit s b1) := by
  delta State.emit
  exact Keeps.of rfl

theorem State.fsmNoTransition_keeps {s : State} :
    Keeps s (State.fsmNoTransition s) := by
  delta State.fsmNoTransition
  refine Keeps.trans ?_ State.issue_keeps
  exact State.count_keeps

theorem State.fsmLog_keeps {s : State} {b1 b2 b3 b4 b5 : Nat} {b6 : Cell} :
    Keeps s (State.fsmLog s b1 b2 b3 b4 b5 b6) := by
  delta State.fsmLog
  split
  · exact State.logAdd_keeps
  · exact Keeps.refl _

theorem State.updateHold_keeps {s : State} :
    Keeps s (State.updateHold s) := by
  delta State.updateHold
  split
  · extract_lets v5
    refine Keeps.trans ?_ State.tally1_keeps
    refine Keeps.trans ?_ State.count_keeps
    exact Keeps.of rfl
  · extract_lets v12
    refine Keeps.trans ?_ State.observe_keeps
    exact Keeps.of rfl
  · exact Keeps.refl _

theorem State.holdFor_keeps {s : State} {b1 : Item} :
    Keeps s (State.holdFor s b1) := by
  delta State.holdFor
  extract_lets v0
  split
  · exact Keeps.refl _
  · refine Keeps.trans ?_ State.updateHold_keeps
    exact Keeps.of rfl

theorem State.holdEnd_keeps {s : State} {b1 : Item} :
    Keeps s (State.holdEnd s b1) := by
  delta State.holdEnd
  extract_lets v0
  split
  · refine Keeps.trans ?_ State.updateHold_keeps
    exact Keeps.of rfl
  · exact Keeps.refl _

theorem State.late_keeps {s : State} {b1 : Item} {b2 : Nat} {b3 : Option Nat} {b4 : Bool} {b5 b6 : Nat} :
    Keeps s (State.late s b1 b2 b3 b4 b5 b6) := by
  delta State.late
  extract_lets v0 v1 v2 v3 v4
  have h5 : Keeps s v0 := by
    unfold v0
    refine Keeps.trans ?_ State.tally1_keeps
    exact State.count_keeps
  clear_value v0
  have h6 : Keeps s v1 := by
    unfold v1
    refine Keeps.trans ?_ State.rputN_keeps
    exact h5
  clear_value v1
  have h7 : Keeps s v2 := by
    unfold v2
    refine Keeps.trans ?_ State.rputN_keeps
    exact h6
  clear_value v2
  have h8 : Keeps s v3 := by
    unfold v3
    refine Keeps.trans ?_ State.raise_keeps
    exact h7
  clear_value v3
  have h9 : Keeps s v4 := by
    unfold v4
    split
    · extract_lets v13
      clear_value v13
      split
      · exact h8
      · refine Keeps.trans ?_ State.observe_keeps
        exact h8
    · exact h8
  clear_value v4
  split
  · refine Keeps.trans ?_ State.holdFor_keeps
    exact h9
  · exact h9

theorem State.setStage_keeps {s : State} {b1 : Nat} :
    Keeps s (State.setStage s b1) := by
  delta State.setStage
  extract_lets v0 v1 v2 v3
  clear_value v0
  have h4 : Keeps s v1 := by
    unfold v1
    exact State.logAdd_keeps
  clear_value v1 v2 v3
  refine Keeps.upd (u := v1) rfl ?_
  exact h4

theorem State.firstLock_keeps {s : State} :
    Keeps s (State.firstLock s) := by
  delta State.firstLock
  extract_lets v0 v1
  have h2 : Keeps s v1 := by
    unfold v1
    split
    · exact Keeps.refl _
    · exact Keeps.of rfl
  clear_value v1
  split
  · refine Keeps.trans ?_ State.setStage_keeps
    exact h2
  · exact h2

theorem State.sendVector_keeps {s : State} {b1 b2 : Nat} :
    Keeps s (State.sendVector s b1 b2) := by
  delta State.sendVector
  split
  · exact State.emit_keeps
  · exact Keeps.refl _

theorem State.settle_keeps {s : State} :
    Keeps s (State.settle s) := by
  delta State.settle
  extract_lets v0 v1 v2 v3 v4
  have h5 : Keeps s v0 := by
    unfold v0
    split
    · exact Keeps.refl _
    · exact State.flushBatch_keeps
  clear_value v0 v1
  have h10 : Keeps s v3 := by
    unfold v3
    refine Keeps.upd (u := v0) rfl ?_
    exact h5
  clear_value v3 v4
  split
  · exact h5
  · split
    · refine Keeps.trans ?_ State.sendVector_keeps
      exact h10
    · exact h10

theorem State.setHold_keeps {s : State} {b1 : Nat} {b2 : Holding} :
    Keeps s (State.setHold s b1 b2) := by
  delta State.setHold
  extract_lets v0
  clear_value v0
  exact Keeps.of rfl

theorem State.dropHold_keeps {s : State} {b1 : Nat} :
    Keeps s (State.dropHold s b1) := by
  delta State.dropHold
  extract_lets v0
  clear_value v0
  exact Keeps.of rfl

theorem State.touchHold_keeps {s : State} {b1 : Nat} :
    Keeps s (State.touchHold s b1) := by
  delta State.touchHold
  split
  · exact State.setHold_keeps
  · exact Keeps.refl _

theorem State.touchAt_keeps {s : State} {b1 b2 : Nat} :
    Keeps s (State.touchAt s b1 b2) := by
  delta State.touchAt
  split
  · exact State.touchHold_keeps
  · exact Keeps.refl _

theorem State.shiftAges_keeps {s : State} {b1 : Int} :
    Keeps s (State.shiftAges s b1) := by
  delta State.shiftAges
  extract_lets v0
  clear_value v0
  exact Keeps.of rfl

theorem State.untag_keeps {s : State} {b1 b2 : Nat} :
    Keeps s (State.untag s b1 b2) := by
  delta State.untag
  extract_lets v0
  clear_value v0
  exact Keeps.of rfl

theorem State.tag_keeps {s : State} {b1 b2 b3 : Nat} :
    Keeps s (State.tag s b1 b2 b3) := by
  delta State.tag
  extract_lets v0 v1
  have h2 : Keeps s v0 := by
    unfold v0
    exact State.untag_keeps
  clear_value v0 v1
  split
  · exact Keeps.refl _
  · refine Keeps.upd (u := v0) rfl ?_
    exact h2

theorem State.makeHold_keeps {s : State} {b1 : Holding} :
    KeepsSnd s (State.makeHold s b1) := by
  delta State.makeHold
  extract_lets v0
  clear_value v0
  refine KeepsSnd.mk ?_
  refine Keeps.trans ?_ State.setHold_keeps
  exact State.untag_keeps

theorem State.freeHold_keeps {s : State} {b1 : Nat} :
    Keeps s (State.freeHold s b1) := by
  delta State.freeHold
  split
  · exact Keeps.refl _
  · extract_lets v7
    have h8 : Keeps s v7 := by
      unfold v7
      exact State.dropHold_keeps
    clear_value v7
    split
    · exact h8
    · refine Keeps.trans ?_ State.tag_keeps
      exact h8

theorem State.eccCorrected_keeps {s : State} :
    Keeps s (State.eccCorrected s) := by
  delta State.eccCorrected
  refine Keeps.trans ?_ State.raise_keeps
  refine Keeps.trans ?_ State.tally1_keeps
  exact State.count_keeps

theorem State.eccUncorrected_keeps {s : State} {b1 : Nat} :
    Keeps s (State.eccUncorrected s b1) := by
  delta State.eccUncorrected
  extract_lets v0
  have h1 : Keeps s v0 := by
    unfold v0
    refine Keeps.trans ?_ State.rputN_keeps
    refine Keeps.trans ?_ State.raise_keeps
    exact State.count_keeps
  clear_value v0
  split
  · refine Keeps.trans ?_ State.setHold_keeps
    exact h1
  · exact h1

theorem State.loseRange_keeps {s : State} {b1 b2 : Nat} :
    Keeps s (State.loseRange s b1 b2) := by
  delta State.loseRange
  extract_lets v0
  clear_value v0
  exact Keeps.of rfl

theorem State.setPort_keeps {s : State} {b1 : Nat} {b2 : Port} :
    Keeps s (State.setPort s b1 b2) := by
  delta State.setPort
  extract_lets v0
  clear_value v0
  exact Keeps.of rfl

theorem State.enqueue_keeps {s : State} {b1 : Nat} {b2 : Packet} :
    Keeps s (State.enqueue s b1 b2) := by
  delta State.enqueue
  extract_lets v0 v1
  clear_value v0 v1
  exact State.setPort_keeps

theorem State.sendPacket_keeps {s : State} {b1 : Packet} :
    Keeps s (State.sendPacket s b1) := by
  delta State.sendPacket
  split
  · exact State.enqueue_keeps
  · exact Keeps.refl _

theorem State.noRoute_keeps {s : State} {b1 : Nat} :
    Keeps s (State.noRoute s b1) := by
  delta State.noRoute
  extract_lets v0
  have h1 : Keeps s v0 := by
    unfold v0
    refine Keeps.trans ?_ State.issue_keeps
    exact State.raise_keeps
  clear_value v0
  split
  · refine Keeps.trans ?_ State.rputN_keeps
    exact h1
  · refine Keeps.trans ?_ State.rputN_keeps
    exact h1

theorem State.sendRequest_keeps {s : State} {b1 : Packet} {b2 : Purpose} :
    KeepsTwo s (State.sendRequest s b1 b2) := by
  delta State.sendRequest
  split
  · refine KeepsTwo.error ?_
    exact State.noRoute_keeps
  · extract_lets v7 v8 v9 v10
    clear_value v7 v8 v9
    have h11 : Keeps s v10 := by
      unfold v10
      exact Keeps.of rfl
    clear_value v10
    refine KeepsTwo.ok ?_
    refine Keeps.trans ?_ State.enqueue_keeps
    exact h11

theorem State.dropReq_keeps {s : State} {b1 : Nat} :
    Keeps s (State.dropReq s b1) := by
  delta State.dropReq
  extract_lets v0
  clear_value v0
  exact Keeps.of rfl

theorem State.resendReq_keeps {s : State} {b1 : Nat} :
    Keeps s (State.resendReq s b1) := by
  delta State.resendReq
  split
  · exact Keeps.refl _
  · split
    · exact Keeps.refl _
    · extract_lets v12 v13 v14
      clear_value v12
      have h15 : Keeps s v13 := by
        unfold v13
        exact Keeps.of rfl
      clear_value v13 v14
      refine Keeps.trans ?_ State.enqueue_keeps
      refine Keeps.trans ?_ State.count_keeps
      exact h15

theorem State.resendRerouted_keeps {s : State} {b1 : State} :
    Keeps s (State.resendRerouted s b1) := by
  delta State.resendRerouted
  refine Keeps.trans ?_ (Keeps.foldl (fun x0 a1 => ?_) _ _)
  · exact Keeps.refl _
  · exact State.resendReq_keeps

theorem State.cairnPut_keeps {s : State} {b1 b2 : Nat} :
    Keeps s (State.cairnPut s b1 b2) := by
  delta State.cairnPut
  extract_lets v0 v1
  clear_value v0 v1
  exact Keeps.of rfl

theorem State.cairnAdd_keeps {s : State} {b1 b2 : Nat} {b3 : AddSrc} :
    Keeps s (State.cairnAdd s b1 b2 b3) := by
  delta State.cairnAdd
  refine Keeps.trans ?_ State.cairnPut_keeps
  exact State.tally1_keeps

theorem State.cairnSet_keeps {s : State} {b1 b2 b3 b4 : Nat} :
    Keeps s (State.cairnSet s b1 b2 b3 b4) := by
  delta State.cairnSet
  extract_lets v0 v1
  clear_value v0
  have h2 : Keeps s v1 := by
    unfold v1
    exact State.logAdd_keeps
  clear_value v1
  refine Keeps.trans ?_ State.cairnPut_keeps
  exact h2

theorem State.remoteAdd_keeps {s : State} {b1 b2 b3 : Nat} {b4 : AddSrc} :
    KeepsSnd s (State.remoteAdd s b1 b2 b3 b4) := by
  delta State.remoteAdd
  extract_lets v0 v1 v2 v3
  clear_value v0 v1 v2 v3
  split
  · refine KeepsSnd.mk ?_
    exact Keeps.refl _
  · split
    · refine KeepsSnd.mk ?_
      exact Keeps.refl _
    · split
      · refine KeepsSnd.mk ?_
        exact Keeps.refl _
      · split
        · refine KeepsSnd.mk ?_
          refine Keeps.trans ?_ State.tally1_keeps
          exact State.sendRequest_keeps.1 _ (by assumption)
        · refine KeepsSnd.mk ?_
          exact State.sendRequest_keeps.2 _ (by assumption)

theorem State.addRef_keeps {s : State} {b1 b2 b3 : Nat} {b4 : AddSrc} :
    KeepsSnd s (State.addRef s b1 b2 b3 b4) := by
  delta State.addRef
  split
  · split
    · refine KeepsSnd.mk ?_
      exact Keeps.refl _
    · refine KeepsSnd.trans ?_ State.remoteAdd_keeps
      exact Keeps.refl _
  · split
    · refine KeepsSnd.mk ?_
      exact State.cairnAdd_keeps
    · refine KeepsSnd.mk ?_
      exact Keeps.refl _

theorem State.hwAdd_keeps {s : State} {b1 b2 b3 : Nat} {b4 : AddSrc} :
    Keeps s (State.hwAdd s b1 b2 b3 b4) := by
  delta State.hwAdd
  split
  · split
    · refine Keeps.trans ?_ State.raise_keeps
      refine Keeps.trans ?_ State.count_keeps
      exact KeepsSnd.of State.addRef_keeps (by assumption)
    · refine Keeps.trans ?_ State.issue_keeps
      refine Keeps.trans ?_ State.raise_keeps
      refine Keeps.trans ?_ State.count_keeps
      exact KeepsSnd.of State.addRef_keeps (by assumption)
  · exact KeepsSnd.of State.addRef_keeps (by assumption)

theorem State.errCairn_keeps {s : State} {b1 : Option Nat} {b2 : Nat} :
    Keeps s (State.errCairn s b1 b2) := by
  delta State.errCairn
  split
  · split
    · exact State.hwAdd_keeps
    · exact Keeps.refl _
  · exact Keeps.refl _

theorem State.registerWait_keeps {s : State} {b1 : Waiter} {b2 b3 b4 : Nat} :
    Keeps s (State.registerWait s b1 b2 b3 b4) := by
  delta State.registerWait
  extract_lets v0
  clear_value v0
  exact Keeps.of rfl

theorem State.cancelWait_keeps {s : State} {b1 : Waiter} :
    Keeps s (State.cancelWait s b1) := by
  delta State.cancelWait
  extract_lets v0
  clear_value v0
  exact Keeps.of rfl

theorem State.recordTimeout_keeps {s : State} {b1 : Wait} :
    Keeps s (State.recordTimeout s b1) := by
  delta State.recordTimeout
  extract_lets v0 v1 v2 v3
  clear_value v0 v1
  have h4 : Keeps s v2 := by
    unfold v2
    refine Keeps.trans ?_ State.rputN_keeps
    exact State.cancelWait_keeps
  clear_value v2
  have h5 : Keeps s v3 := by
    unfold v3
    refine Keeps.trans ?_ State.raise_keeps
    refine Keeps.trans ?_ State.count_keeps
    refine Keeps.trans ?_ State.rputN_keeps
    exact h4
  clear_value v3
  refine Keeps.trans ?_ State.logAdd_keeps
  refine Keeps.trans ?_ State.issue_keeps
  exact h5

theorem State.fireWatch_keeps {s : State} {b1 : Nat} :
    Keeps s (State.fireWatch s b1) := by
  delta State.fireWatch
  split
  · extract_lets v7 v8 v9 v10 v11 v12
    clear_value v7
    have h13 : Keeps s v8 := by
      unfold v8
      split
      · split
        · split
          · split
            · exact State.emit_keeps
            · exact Keeps.refl _
          · exact Keeps.refl _
        · exact Keeps.refl _
      · exact Keeps.refl _
    clear_value v8
    have h34 : Keeps s v9 := by
      unfold v9
      refine Keeps.trans ?_ State.sendVector_keeps
      exact h13
    clear_value v9
    have h35 : Keeps s v10 := by
      unfold v10
      refine Keeps.trans ?_ State.rputN_keeps
      refine Keeps.trans ?_ State.cancelWait_keeps
      exact h34
    clear_value v10
    have h36 : Keeps s v11 := by
      unfold v11
      refine Keeps.trans ?_ State.rputN_keeps
      exact h35
    clear_value v11 v12
    split
    · exact Keeps.refl _
    · refine Keeps.upd (u := v11) rfl ?_
      exact h36
  · exact Keeps.refl _

theorem State.cancelWatch_keeps {s : State} {b1 : Nat} :
    Keeps s (State.cancelWatch s b1) := by
  delta State.cancelWatch
  extract_lets v0 v1
  have h2 : Keeps s v0 := by
    unfold v0
    exact State.cancelWait_keeps
  clear_value v0 v1
  refine Keeps.upd (u := v0) rfl ?_
  exact h2

theorem State.watchTimeout_keeps {s : State} {b1 : Nat} {b2 : Wait} :
    Keeps s (State.watchTimeout s b1 b2) := by
  delta State.watchTimeout
  extract_lets v0 v1 v2 v3 v4 v5
  clear_value v0
  have h6 : Keeps s v1 := by
    unfold v1
    exact State.recordTimeout_keeps
  clear_value v1
  have h7 : Keeps s v2 := by
    unfold v2
    refine Keeps.trans ?_ State.rputN_keeps
    exact h6
  clear_value v2
  have h8 : Keeps s v3 := by
    unfold v3
    refine Keeps.trans ?_ State.rputN_keeps
    exact h7
  clear_value v3 v4
  have h9 : Keeps s v5 := by
    unfold v5
    refine Keeps.upd (u := v3) rfl ?_
    exact h8
  clear_value v5
  split
  · refine Keeps.trans ?_ State.sendVector_keeps
    exact h9
  · exact h9

theorem State.watchWritten_keeps {s : State} {b1 : Nat} :
    Keeps s (State.watchWritten s b1) := by
  delta State.watchWritten
  extract_lets v0 v1 v2
  clear_value v0
  have h3 : Keeps s v1 := by
    unfold v1
    exact State.cancelWatch_keeps
  clear_value v1 v2
  split
  · exact h3
  · split
    · exact h3
    · extract_lets v13 v14 v15
      clear_value v13 v14
      have h16 : Keeps s v15 := by
        unfold v15
        refine Keeps.upd (u := v1) rfl ?_
        exact h3
      clear_value v15
      refine Keeps.trans ?_ State.registerWait_keeps
      exact h16

theorem State.clearCairns_keeps {s : State} :
    Keeps s (State.clearCairns s) := by
  delta State.clearCairns
  exact Keeps.of rfl

theorem State.clearDomainCairns_keeps {s : State} {b1 b2 : Nat} :
    Keeps s (State.clearDomainCairns s b1 b2) := by
  delta State.clearDomainCairns
  extract_lets v0
  clear_value v0
  exact Keeps.of rfl

theorem State.setFn_keeps {s : State} {b1 : Nat} {b2 : HostFn} :
    Keeps s (State.setFn s b1 b2) := by
  delta State.setFn
  extract_lets v0
  exact Keeps.of rfl

theorem State.ready_keeps {s : State} {b1 : Nat} {b2 : Cpl} :
    Keeps s (State.ready s b1 b2) := by
  delta State.ready
  extract_lets v0
  clear_value v0
  exact State.setFn_keeps

theorem State.complete_keeps {s : State} {b1 b2 b3 b4 b5 b6 b7 : Nat} :
    Keeps s (State.complete s b1 b2 b3 b4 b5 b6 b7) := by
  delta State.complete
  exact State.ready_keeps

theorem State.cplDone_keeps {s : State} {b1 b2 : Nat} :
    Keeps s (State.cplDone s b1 b2) := by
  delta State.cplDone
  exact State.complete_keeps

theorem State.cplError_keeps {s : State} {b1 b2 b3 : Nat} :
    Keeps s (State.cplError s b1 b2 b3) := by
  delta State.cplError
  exact State.complete_keeps

theorem State.cplNotPermitted_keeps {s : State} {b1 b2 b3 : Nat} :
    Keeps s (State.cplNotPermitted s b1 b2 b3) := by
  delta State.cplNotPermitted
  exact State.complete_keeps

theorem State.dropCpls_keeps {s : State} {b1 : Nat} :
    Keeps s (State.dropCpls s b1) := by
  delta State.dropCpls
  extract_lets v0
  clear_value v0
  exact State.setFn_keeps

theorem State.setLedger_keeps {s : State} {b1 : Nat} {b2 : Ledger} :
    Keeps s (State.setLedger s b1 b2) := by
  delta State.setLedger
  extract_lets v0
  clear_value v0
  exact Keeps.of rfl

theorem State.ledgerFailed_keeps {s : State} {b1 b2 : Nat} {b3 b4 : Option Nat} :
    Keeps s (State.ledgerFailed s b1 b2 b3 b4) := by
  delta State.ledgerFailed
  extract_lets v0 v1 v2 v3
  clear_value v0
  have h4 : Keeps s v1 := by
    unfold v1
    exact State.setLedger_keeps
  clear_value v1
  have h5 : Keeps s v2 := by
    unfold v2
    refine Keeps.trans ?_ State.rputN_keeps
    exact h4
  clear_value v2
  have h6 : Keeps s v3 := by
    unfold v3
    refine Keeps.trans ?_ State.rputN_keeps
    refine Keeps.trans ?_ State.issue_keeps
    exact h5
  clear_value v3
  refine Keeps.trans ?_ State.raise_keeps
  exact h6

theorem State.ledgerSubmit_keeps {s : State} {b1 b2 : Nat} {b3 : Bool} {b4 : List Byte} :
    Keeps s (State.ledgerSubmit s b1 b2 b3 b4) := by
  delta State.ledgerSubmit
  extract_lets v0 v1 v2
  clear_value v0
  have h3 : Keeps s v1 := by
    unfold v1
    exact State.setLedger_keeps
  clear_value v1 v2
  split
  · refine Keeps.trans ?_ State.ledgerFailed_keeps
    exact h3
  · split
    · refine Keeps.trans ?_ State.ledgerFailed_keeps
      exact h3
    · refine Keeps.trans ?_ State.setLedger_keeps
      exact h3

theorem State.ledgerWithdraw_keeps {s : State} {b1 : Nat} :
    Keeps s (State.ledgerWithdraw s b1) := by
  delta State.ledgerWithdraw
  extract_lets v0 v1
  clear_value v0
  have h2 : Keeps s v1 := by
    unfold v1
    exact State.setLedger_keeps
  clear_value v1
  refine Keeps.trans ?_ State.logAdd_keeps
  exact h2

theorem State.countOverride_keeps {s : State} {b1 : Nat} :
    Keeps s (State.countOverride s b1) := by
  delta State.countOverride
  split
  · exact Keeps.refl _
  · refine Keeps.trans ?_ State.raise_keeps
    refine Keeps.trans ?_ State.tally1_keeps
    exact State.count_keeps

theorem State.passEnd_keeps {s : State} {b1 : Nat} :
    Keeps s (State.passEnd s b1) := by
  delta State.passEnd
  extract_lets v0
  clear_value v0
  split
  · exact Keeps.refl _
  · split
    · refine Keeps.trans ?_ State.ledgerFailed_keeps
      exact State.setLedger_keeps
    · extract_lets v14 v15 v16 v17 v18 v19
      clear_value v14 v15
      have h20 : Keeps s v16 := by
        unfold v16
        exact State.setLedger_keeps
      clear_value v16 v17
      have h21 : Keeps s v18 := by
        unfold v18
        refine Keeps.trans ?_ (Keeps.foldl (fun x22 a23 => ?_) _ _)
        · exact h20
        · exact State.logAdd_keeps
      clear_value v18
      have h24 : Keeps s v19 := by
        unfold v19
        refine Keeps.trans ?_ State.countOverride_keeps
        exact h21
      clear_value v19
      refine Keeps.trans ?_ State.raise_keeps
      refine Keeps.trans ?_ State.logAdd_keeps
      exact h24

theorem State.allocTry_keeps {s : State} {b1 : AllocReq} :
    KeepsSnd s (State.allocTry s b1) := by
  delta State.allocTry
  extract_lets v0
  have h1 : ∀ c0, KeepsSnd s (v0 c0) := by
    unfold v0
    intro c0
    split
    · refine KeepsSnd.mk ?_
      exact KeepsSnd.of State.makeHold_keeps (by assumption)
  clear_value v0
  split
  · refine KeepsSnd.mk ?_
    exact Keeps.refl _
  · split
    · refine KeepsSnd.mk ?_
      exact Keeps.refl _
    · split
      · refine KeepsSnd.mk ?_
        exact Keeps.refl _
      · split
        · split
          · refine KeepsSnd.mk ?_
            exact Keeps.refl _
          · split
            · exact h1 _
            · refine KeepsSnd.mk ?_
              exact Keeps.refl _
        · split
          · exact h1 _
          · split
            · refine KeepsSnd.mk ?_
              exact Keeps.refl _
            · refine KeepsSnd.mk ?_
              exact Keeps.refl _

theorem State.pickVictims_keeps {s : State} {b1 b2 b3 b4 : Nat} : KeepsOpt s (State.pickVictims s b1 b2 b3 b4) := by
  induction b3 generalizing s b4 with
  | zero =>
    cases b4 with
    | zero => exact KeepsOpt.some (Keeps.refl _)
    | succ n => exact KeepsOpt.none
  | succ fuel ih =>
    cases b4 with
    | zero => exact KeepsOpt.some (Keeps.refl _)
    | succ n =>
      show KeepsOpt s (match s.nextVictim b1 with
        | none => none
        | some (id, h) => State.pickVictims { s with tier := { s.tier with evictQueue := s.tier.evictQueue ++ [(id, b2)] } } b1 b2 fuel
            (n + 1 - h.size))
      split
      · exact KeepsOpt.none
      · refine KeepsOpt.trans ?_ ih
        exact Keeps.of rfl

theorem State.setEvict_keeps {s : State} {b1 : Evict} :
    Keeps s (State.setEvict s b1) := by
  delta State.setEvict
  extract_lets v0
  clear_value v0
  exact Keeps.of rfl

theorem State.dropEvict_keeps {s : State} {b1 : Nat} :
    Keeps s (State.dropEvict s b1) := by
  delta State.dropEvict
  extract_lets v0
  clear_value v0
  exact Keeps.of rfl

theorem State.startRoute_keeps {s : State} {b1 : Evict} {b2 : Holding} {b3 : Bool} :
    KeepsOpt s (State.startRoute s b1 b2 b3) := by
  delta State.startRoute
  extract_lets v0
  have h1 : ∀ c0, Keeps s (v0 c0) := by
    unfold v0
    intro c0
    extract_lets v2 v3
    have h4 : Keeps s v2 := by
      unfold v2
      exact State.setHold_keeps
    clear_value v2 v3
    refine Keeps.upd (u := v2) rfl ?_
    exact h4
  clear_value v0
  split
  · refine KeepsOpt.some ?_
    exact h1 _
  · refine KeepsOpt.map _ (fun a11 => ?_)
    exact h1 _
  · refine KeepsOpt.map _ (fun a15 => ?_)
    exact h1 _
  · refine KeepsOpt.map _ (fun a19 => ?_)
    exact h1 _
  · exact KeepsOpt.none

theorem State.exhausted_keeps {s : State} {b1 : Nat} :
    Keeps s (State.exhausted s b1) := by
  delta State.exhausted
  refine Keeps.trans ?_ State.raise_keeps
  exact State.issue_keeps

theorem State.settleAlloc_keeps {s : State} {b1 : Nat} :
    Keeps s (State.settleAlloc s b1) := by
  delta State.settleAlloc
  split
  · exact Keeps.refl _
  · extract_lets v7
    have h8 : ∀ c0, Keeps c0 (v7 c0) := by
      unfold v7
      intro c0
      extract_lets v9
      clear_value v9
      exact Keeps.of rfl
    clear_value v7
    split
    · exact Keeps.refl _
    · split
      · refine Keeps.trans ?_ State.complete_keeps
        refine Keeps.trans ?_ (h8 _)
        exact KeepsSnd.of State.allocTry_keeps (by assumption)
      · refine Keeps.trans ?_ State.cplError_keeps
        refine Keeps.trans ?_ State.issue_keeps
        refine Keeps.trans ?_ (h8 _)
        exact KeepsSnd.of State.allocTry_keeps (by assumption)
      · exact KeepsSnd.of State.allocTry_keeps (by assumption)
      · split
        · exact KeepsSnd.of State.allocTry_keeps (by assumption)
        · refine Keeps.trans ?_ State.cplError_keeps
          refine Keeps.trans ?_ State.exhausted_keeps
          refine Keeps.trans ?_ (h8 _)
          exact KeepsSnd.of State.allocTry_keeps (by assumption)

theorem State.replaceVictim_keeps {s : State} {b1 : Nat} :
    Keeps s (State.replaceVictim s b1) := by
  delta State.replaceVictim
  split
  · exact Keeps.refl _
  · split
    · extract_lets v11
      clear_value v11
      exact Keeps.of rfl
    · exact State.settleAlloc_keeps

theorem State.evictAction_keeps {s : State} {b1 : Evict} {b2 : Holding} {b3 : Cell} :
    Keeps s (State.evictAction s b1 b2 b3) := by
  delta State.evictAction
  split
  · extract_lets v3
    clear_value v3
    exact State.setEvict_keeps
  · split
    · exact State.startRoute_keeps _ (by assumption)
    · exact State.setEvict_keeps
  · extract_lets v15 v16
    have h17 : Keeps s v15 := by
      unfold v15
      exact State.count_keeps
    clear_value v15
    have h18 : Keeps s v16 := by
      unfold v16
      split
      · refine Keeps.trans ?_ State.countOverride_keeps
        refine Keeps.trans ?_ State.logAdd_keeps
        exact h17
      · exact h17
    clear_value v16
    refine Keeps.trans ?_ State.settleAlloc_keeps
    exact h18
  · refine Keeps.trans ?_ State.replaceVictim_keeps
    exact State.dropEvict_keeps
  · refine Keeps.trans ?_ State.replaceVictim_keeps
    refine Keeps.trans ?_ State.count_keeps
    exact State.dropEvict_keeps
  · exact Keeps.refl _

theorem State.evictEventOn_keeps {s : State} {b1 : Evict} {b2 : Holding} {b3 : Nat} :
    Keeps s (State.evictEventOn s b1 b2 b3) := by
  delta State.evictEventOn
  extract_lets v0
  clear_value v0
  split
  · exact State.dropEvict_keeps
  · split
    · exact State.fsmNoTransition_keeps
    · extract_lets v10 v11
      clear_value v10
      have h12 : Keeps s v11 := by
        unfold v11
        refine Keeps.trans ?_ State.evictAction_keeps
        refine Keeps.trans ?_ State.fsmLog_keeps
        exact State.setEvict_keeps
      clear_value v11
      split
      · refine Keeps.trans ?_ State.dropEvict_keeps
        exact h12
      · exact h12

theorem State.evictEvent_keeps {s : State} {b1 b2 : Nat} :
    Keeps s (State.evictEvent s b1 b2) := by
  delta State.evictEvent
  split
  · exact State.evictEventOn_keeps
  · exact State.dropEvict_keeps
  · exact Keeps.refl _

theorem State.startVictims_keeps {b0 : Nat} {s : State} :
    Keeps s (State.startVictims b0 s) := by
  fun_induction State.startVictims b0 s
  · exact Keeps.refl _
  · exact Keeps.refl _
  · exact Keeps.refl _
  · rename_i r20 r21 r22 r23 r24 r25 r26 r27 r28
    clear_value r26
    have h29 : Keeps r20 r27 := by
      unfold r27
      extract_lets v30
      clear_value v30
      exact Keeps.of rfl
    clear_value r27
    refine Keeps.trans ?_ (by assumption)
    refine Keeps.trans ?_ State.evictEvent_keeps
    exact h29

theorem State.runVictims_keeps {s : State} :
    Keeps s (State.runVictims s) := by
  delta State.runVictims
  exact State.startVictims_keeps

theorem State.evictPending_keeps {s : State} :
    Keeps s (State.evictPending s) := by
  delta State.evictPending
  refine Keeps.trans ?_ State.runVictims_keeps
  refine Keeps.trans ?_ (Keeps.foldl (fun x0 a1 => ?_) _ _)
  · exact Keeps.refl _
  · split
    · exact State.evictEvent_keeps
    · exact Keeps.refl _

theorem State.nameHold_keeps {s : State} {b1 : Nat} :
    Keeps s (State.nameHold s b1) := by
  delta State.nameHold
  extract_lets v0
  clear_value v0
  split
  · refine Keeps.trans ?_ State.runVictims_keeps
    exact State.evictEvent_keeps
  · exact Keeps.of rfl

theorem State.scrubRange_keeps {s : State} {b1 b2 : Nat} :
    Keeps s (State.scrubRange s b1 b2) := by
  delta State.scrubRange
  extract_lets v0
  clear_value v0
  refine Keeps.trans ?_ State.untag_keeps
  refine Keeps.trans ?_ (Keeps.foldl (fun x1 a2 => ?_) _ _)
  · exact Keeps.refl _
  · extract_lets v3 v4
    clear_value v3 v4
    split
    · exact State.zero_keeps
    · exact Keeps.refl _

theorem KeepsOpt.mapTo {s : State} {f : State → State} {o : Option State} (h : KeepsOpt s o) (hf : ∀ x, Keeps x (f x)) :
    KeepsOpt s (o.map f) := by
  cases o with
  | none => exact KeepsOpt.none
  | some t => exact KeepsOpt.some ((h t rfl).trans (hf t))

theorem State.evictFor_keeps {s : State} {b1 b2 b3 : Nat} : KeepsSnd s (State.evictFor s b1 b2 b3) := by
  unfold State.evictFor
  refine KeepsSnd.mk (Keeps.getD ?_ (Keeps.refl _))
  exact KeepsOpt.mapTo State.pickVictims_keeps (fun _ => State.runVictims_keeps)

theorem State.placeKv_keeps {s : State} {b1 b2 b3 : Nat} : KeepsSnd s (State.placeKv s b1 b2 b3) := by
  unfold State.placeKv
  split
  · exact Keeps.refl _
  · split
    · exact State.scrubRange_keeps
    · split
      · refine KeepsSnd.trans ?_ State.evictFor_keeps
        exact Keeps.of rfl
      · exact Keeps.refl _

theorem State.allocKv_keeps {s : State} {b1 b2 b3 b4 : Nat} {b5 : HoldBy} :
    KeepsSnd s (State.allocKv s b1 b2 b3 b4 b5) := by
  delta State.allocKv
  split
  · refine KeepsSnd.mk ?_
    exact Keeps.refl _
  · split
    · split
      · refine KeepsSnd.mk ?_
        refine Keeps.trans ?_ (KeepsSnd.of State.makeHold_keeps (by assumption))
        exact KeepsSnd.of State.placeKv_keeps (by assumption)
    · refine KeepsSnd.mk ?_
      exact KeepsSnd.of State.placeKv_keeps (by assumption)

theorem State.hostAlloc_keeps {s : State} {b1 b2 : Nat} {b3 : AllocReq} : Keeps s (State.hostAlloc s b1 b2 b3) := by
  unfold State.hostAlloc
  have h := @State.allocTry_keeps s b3
  generalize s.allocTry b3 = q at h
  obtain ⟨res, u⟩ := q
  replace h : Keeps s u := h
  simp only
  split
  · next e => cases e; exact Keeps.trans h State.complete_keeps
  · next e => cases e; exact Keeps.trans (Keeps.trans h State.issue_keeps) State.cplError_keeps
  · next e =>
    cases e
    split
    · refine Keeps.trans ?_ State.raise_keeps
      exact h.trans (Keeps.of rfl)
    · split
      · next t e2 =>
        refine h.trans (Keeps.trans ?_ State.runVictims_keeps)
        split at e2
        · refine Keeps.trans ?_ (State.pickVictims_keeps _ e2)
          exact Keeps.of rfl
        · cases e2
      · exact h.trans (State.exhausted_keeps.trans State.cplError_keeps)

theorem State.retryAllocs_keeps {s : State} :
    Keeps s (State.retryAllocs s) := by
  delta State.retryAllocs
  extract_lets v0 v1 v2
  clear_value v0 v1 v2
  refine Keeps.trans ?_ (Keeps.foldl (fun x3 a4 => ?_) _ _)
  · exact Keeps.refl _
  · exact State.settleAlloc_keeps

theorem State.zeroGranule_keeps {s : State} {b1 : Nat} :
    Keeps s (State.zeroGranule s b1) := by
  delta State.zeroGranule
  extract_lets v0
  clear_value v0
  split
  · refine Keeps.trans ?_ State.untag_keeps
    exact State.zero_keeps
  · exact Keeps.refl _

theorem State.setChan_keeps {s : State} {b1 b2 : Nat} {b3 : Chan} :
    Keeps s (State.setChan s b1 b2 b3) := by
  delta State.setChan
  extract_lets v0
  clear_value v0
  exact Keeps.of rfl

theorem State.startOfWork_keeps {s : State} :
    Keeps s (State.startOfWork s) := by
  delta State.startOfWork
  extract_lets v0
  clear_value v0
  split
  · exact Keeps.of rfl
  · exact Keeps.refl _

theorem State.releaseChan_keeps {s : State} {b1 b2 : Nat} :
    Keeps s (State.releaseChan s b1 b2) := by
  delta State.releaseChan
  extract_lets v0 v1 v2 v3
  clear_value v0
  have h4 : Keeps s v1 := by
    unfold v1
    exact State.setChan_keeps
  clear_value v1
  have h5 : Keeps s v2 := by
    unfold v2
    refine Keeps.trans ?_ State.holdEnd_keeps
    refine Keeps.trans ?_ State.cancelWait_keeps
    exact h4
  clear_value v2 v3
  refine Keeps.upd (u := v2) rfl ?_
  exact h5

theorem State.stopChan_keeps {s : State} {b1 b2 b3 b4 : Nat} {b5 : Bool} :
    Keeps s (State.stopChan s b1 b2 b3 b4 b5) := by
  delta State.stopChan
  extract_lets v0 v1 v2 v3 v4 v5 v6 v7 v8
  clear_value v0 v1
  have h9 : Keeps s v2 := by
    unfold v2
    exact State.releaseChan_keeps
  clear_value v2 v3
  have h10 : Keeps s v4 := by
    unfold v4
    refine Keeps.trans ?_ State.setChan_keeps
    exact h9
  clear_value v4
  have h11 : Keeps s v5 := by
    unfold v5
    split
    · exact h10
    · refine Keeps.trans ?_ State.issue_keeps
      exact h10
  clear_value v5
  have h16 : Keeps s v6 := by
    unfold v6
    refine Keeps.trans ?_ State.rputN_keeps
    exact h11
  clear_value v6
  have h17 : Keeps s v7 := by
    unfold v7
    refine Keeps.trans ?_ State.tally1_keeps
    refine Keeps.trans ?_ State.count_keeps
    refine Keeps.trans ?_ State.raise_keeps
    exact h16
  clear_value v7
  have h18 : Keeps s v8 := by
    unfold v8
    split
    · refine Keeps.trans ?_ State.cplError_keeps
      exact h17
    · exact h17
  clear_value v8
  refine Keeps.trans ?_ State.errCairn_keeps
  exact h18

theorem State.startChain_keeps {s : State} {b1 b2 b3 : Nat} :
    Keeps s (State.startChain s b1 b2 b3) := by
  delta State.startChain
  extract_lets v0 v1
  have h2 : Keeps s v0 := by
    unfold v0
    refine Keeps.trans ?_ State.startOfWork_keeps
    exact State.rputN_keeps
  clear_value v0 v1
  refine Keeps.trans ?_ State.setChan_keeps
  exact h2

theorem State.xpcNote_keeps {s : State} {b1 b2 b3 b4 b5 b6 : Nat} :
    Keeps s (State.xpcNote s b1 b2 b3 b4 b5 b6) := by
  delta State.xpcNote
  extract_lets v0 v1
  have h2 : Keeps s v0 := by
    unfold v0
    split
    · exact State.raise_keeps
    · exact Keeps.refl _
  clear_value v0
  have h10 : Keeps s v1 := by
    unfold v1
    refine Keeps.trans ?_ State.rputN_keeps
    refine Keeps.trans ?_ State.rputN_keeps
    exact h2
  clear_value v1
  split
  · exact Keeps.refl _
  · split
    · refine Keeps.trans ?_ State.tally1_keeps
      refine Keeps.trans ?_ State.count_keeps
      exact h10
    · exact h10

theorem State.descReady_keeps {s : State} {b1 b2 : Nat} {b3 : Desc} :
    Keeps s (State.descReady s b1 b2 b3) := by
  delta State.descReady
  extract_lets v0 v1 v2 v3 v4 v5
  clear_value v0 v1 v2 v3 v4
  have h6 : Keeps s v5 := by
    unfold v5
    exact State.setChan_keeps
  clear_value v5
  split
  · exact h6
  · split
    · refine Keeps.trans ?_ State.stopChan_keeps
      exact h6
    · split
      · refine Keeps.trans ?_ State.stopChan_keeps
        exact h6
      · extract_lets v22 v23
        have h24 : Keeps s v22 := by
          unfold v22
          refine Keeps.trans ?_ State.registerWait_keeps
          exact h6
        clear_value v22 v23
        split
        · refine Keeps.trans ?_ State.setChan_keeps
          refine Keeps.trans ?_ State.cancelWait_keeps
          exact h24
        · exact h24

theorem State.descRead_keeps {s : State} {b1 b2 : Nat} {b3 : List Byte} :
    Keeps s (State.descRead s b1 b2 b3) := by
  delta State.descRead
  extract_lets v0
  clear_value v0
  split
  · refine Keeps.trans ?_ State.stopChan_keeps
    exact State.xpcNote_keeps
  · exact State.descReady_keeps

theorem State.faultAt_keeps {s : State} {b1 b2 b3 : Nat} :
    Keeps s (State.faultAt s b1 b2 b3) := by
  delta State.faultAt
  extract_lets v0
  clear_value v0
  exact State.setChan_keeps

theorem State.fetchDesc_keeps {s : State} {b1 b2 : Nat} {b3 : List Byte} {b4 : Ecc} :
    Keeps s (State.fetchDesc s b1 b2 b3 b4) := by
  delta State.fetchDesc
  extract_lets v0 v1
  clear_value v0
  have h2 : ∀ c0, Keeps s (v1 c0) := by
    unfold v1
    intro c0
    refine Keeps.trans ?_ State.stopChan_keeps
    exact State.faultAt_keeps
  clear_value v1
  split
  · exact Keeps.refl _
  · split
    · exact h2 _
    · split
      · extract_lets v17
        clear_value v17
        refine Keeps.trans ?_ State.setChan_keeps
        exact State.sendRequest_keeps.1 _ (by assumption)
      · refine Keeps.trans ?_ State.stopChan_keeps
        refine Keeps.trans ?_ State.faultAt_keeps
        exact State.sendRequest_keeps.2 _ (by assumption)
    · split
      · exact h2 _
      · split
        · exact h2 _
        · extract_lets v35
          clear_value v35
          split
          · refine Keeps.trans ?_ State.stopChan_keeps
            refine Keeps.trans ?_ State.faultAt_keeps
            exact State.eccUncorrected_keeps
          · refine Keeps.trans ?_ State.stopChan_keeps
            refine Keeps.trans ?_ State.faultAt_keeps
            exact State.raise_keeps
          · refine Keeps.trans ?_ State.descRead_keeps
            exact State.eccCorrected_keeps
          · exact State.descRead_keeps

theorem State.nameRanges_keeps {s : State} {b1 : Desc} :
    Keeps s (State.nameRanges s b1) := by
  delta State.nameRanges
  refine Keeps.trans ?_ (Keeps.foldl (fun x0 a1 => ?_) _ _)
  · exact Keeps.refl _
  · split
    · split
      · refine Keeps.trans ?_ State.nameHold_keeps
        exact State.touchHold_keeps
      · exact Keeps.refl _
    · exact Keeps.refl _

theorem State.takeXpcSlots_keeps {s : State} {b1 b2 b3 : Nat} :
    Keeps s (State.takeXpcSlots s b1 b2 b3) := by
  delta State.takeXpcSlots
  extract_lets v0 v1 v2
  clear_value v0 v1
  have h3 : Keeps s v2 := by
    unfold v2
    exact State.setChan_keeps
  clear_value v2
  split
  · refine Keeps.trans ?_ State.count_keeps
    exact h3
  · exact h3

theorem State.beginXfer_keeps {s : State} {b1 b2 b3 b4 b5 : Nat} :
    Keeps s (State.beginXfer s b1 b2 b3 b4 b5) := by
  delta State.beginXfer
  extract_lets v0 v1
  clear_value v0
  have h2 : ∀ c0 c1, Keeps c0 (v1 c0 c1) := by
    unfold v1
    intro c0 c1
    extract_lets v3
    clear_value v3
    refine Keeps.trans ?_ State.takeXpcSlots_keeps
    exact State.setChan_keeps
  clear_value v1
  split
  · split
    · exact State.stopChan_keeps
    · split
      · exact Keeps.refl _
      · extract_lets v17
        have h18 : Keeps s v17 := by
          unfold v17
          refine Keeps.trans ?_ State.nameHold_keeps
          exact State.touchHold_keeps
        clear_value v17
        split
        · refine Keeps.trans ?_ (h2 _ _)
          refine Keeps.trans ?_ State.setHold_keeps
          exact h18
        · refine Keeps.trans ?_ (h2 _ _)
          refine Keeps.trans ?_ State.setHold_keeps
          exact h18
  · split
    · refine Keeps.trans ?_ State.stopChan_keeps
      exact State.xpcNote_keeps
    · refine Keeps.trans ?_ (h2 _ _)
      exact State.nameRanges_keeps

theorem State.grantAll_keeps {s : State} {b1 : Nat} {b2 : List Nat} :
    Keeps s (State.grantAll s b1 b2) := by
  fun_induction State.grantAll s b1 b2
  · exact Keeps.refl _
  · rename_i r10 r11
    clear_value r10
    exact State.count_keeps
  · rename_i r20 r21 r22
    clear_value r20
    refine Keeps.trans ?_ (by assumption)
    exact State.beginXfer_keeps
  · rename_i r28
    exact r28
  · exact State.count_keeps

theorem State.grant_keeps {s : State} {b1 : Nat} :
    Keeps s (State.grant s b1) := by
  delta State.grant
  extract_lets v0
  clear_value v0
  exact State.grantAll_keeps

theorem State.askPieces_keeps {s : State} {b1 b2 b3 b4 b5 b6 b7 b8 : Nat} {b9 : List Nat} :
    KeepsTwoFst s (State.askPieces s b1 b2 b3 b4 b5 b6 b7 b8 b9) := by
  fun_induction State.askPieces s b1 b2 b3 b4 b5 b6 b7 b8 b9
  · refine KeepsTwoFst.ok ?_
    exact Keeps.refl _
  · refine KeepsTwoFst.ok ?_
    exact Keeps.refl _
  · rename_i r28 r29 r30
    clear_value r28
    refine KeepsTwoFst.error ?_
    exact State.sendRequest_keeps.2 _ (by assumption)
  · rename_i r41 r42 r43 r44
    clear_value r41
    refine KeepsTwoFst.trans ?_ (by assumption)
    exact State.sendRequest_keeps.1 _ (by assumption)

theorem State.askAll_keeps {s : State} {b1 b2 : Nat} {b3 : List (Nat × Nat × Nat)} {b4 : List Nat} :
    KeepsTwoFst s (State.askAll s b1 b2 b3 b4) := by
  fun_induction State.askAll s b1 b2 b3 b4
  · refine KeepsTwoFst.ok ?_
    exact Keeps.refl _
  · rename_i r15 r16 r17
    clear_value r15
    refine KeepsTwoFst.error ?_
    exact State.askPieces_keeps.2 _ (by assumption)
  · rename_i r29 r30 r31 r32 r33
    clear_value r29
    refine KeepsTwoFst.trans ?_ (by assumption)
    exact State.askPieces_keeps.1 _ _ (by assumption)
  · rename_i r43
    exact r43

theorem State.sendPieces_keeps {s : State} {b1 b2 b3 b4 b5 b6 : Nat} {b7 : List Byte} {b8 : List Nat} :
    KeepsTwoFst s (State.sendPieces s b1 b2 b3 b4 b5 b6 b7 b8) := by
  fun_induction State.sendPieces s b1 b2 b3 b4 b5 b6 b7 b8
  · refine KeepsTwoFst.ok ?_
    exact Keeps.refl _
  · refine KeepsTwoFst.ok ?_
    exact Keeps.refl _
  · rename_i r25 r26 r27
    clear_value r25
    refine KeepsTwoFst.error ?_
    exact State.sendRequest_keeps.2 _ (by assumption)
  · rename_i r37 r38 r39 r40
    clear_value r37
    refine KeepsTwoFst.trans ?_ (by assumption)
    exact State.sendRequest_keeps.1 _ (by assumption)

theorem State.writeOut_keeps {s : State} {b1 b2 b3 : Nat} {b4 : List Byte} :
    Keeps s (State.writeOut s b1 b2 b3 b4) := by
  delta State.writeOut
  split
  · extract_lets v4
    clear_value v4
    split
    · split
      · exact State.emit_keeps
      · exact Keeps.refl _
    · exact State.wr_keeps
  · split
    · extract_lets v21
      clear_value v21
      refine Keeps.trans ?_ State.setChan_keeps
      exact State.sendPieces_keeps.1 _ _ (by assumption)
    · extract_lets v25
      clear_value v25
      refine Keeps.trans ?_ State.setChan_keeps
      exact State.sendPieces_keeps.2 _ (by assumption)
  · exact Keeps.refl _

theorem State.moveFailed_keeps {s : State} {b1 b2 : Nat} :
    Keeps s (State.moveFailed s b1 b2) := by
  delta State.moveFailed
  split
  · exact State.setHold_keeps
  · exact Keeps.refl _

theorem State.failChan_keeps {s : State} {b1 b2 b3 b4 : Nat} {b5 : Bool} :
    Keeps s (State.failChan s b1 b2 b3 b4 b5) := by
  delta State.failChan
  extract_lets v0 v1
  clear_value v0
  have h2 : Keeps s v1 := by
    unfold v1
    split
    · extract_lets v7
      clear_value v7
      exact State.moveFailed_keeps
    · exact Keeps.refl _
  clear_value v1
  refine Keeps.trans ?_ State.stopChan_keeps
  refine Keeps.trans ?_ State.faultAt_keeps
  exact h2

theorem State.commitOp_keeps {s : State} {b1 b2 : Nat} {b3 : OpOut} {b4 : Nat} :
    Keeps s (State.commitOp s b1 b2 b3 b4) := by
  delta State.commitOp
  extract_lets v0 v1 v2 v3 v4 v5 v6 v7 v8
  clear_value v0
  have h9 : Keeps s v1 := by
    unfold v1
    refine Keeps.trans ?_ (Keeps.foldl (fun x10 a11 => ?_) _ _)
    · exact Keeps.refl _
    · exact State.writeOut_keeps
  clear_value v1
  have h12 : Keeps s v2 := by
    unfold v2
    refine Keeps.trans ?_ State.count_keeps
    refine Keeps.trans ?_ State.count_keeps
    exact h9
  clear_value v2
  have h13 : Keeps s v3 := by
    unfold v3
    refine Keeps.trans ?_ State.count_keeps
    refine Keeps.trans ?_ State.count_keeps
    exact h12
  clear_value v3
  have h14 : Keeps s v4 := by
    unfold v4
    refine Keeps.trans ?_ State.count_keeps
    refine Keeps.trans ?_ State.count_keeps
    exact h13
  clear_value v4
  have h15 : Keeps s v5 := by
    unfold v5
    refine Keeps.trans ?_ State.count_keeps
    exact h14
  clear_value v5 v6
  have h16 : Keeps s v7 := by
    unfold v7
    refine Keeps.trans ?_ State.setChan_keeps
    exact h15
  clear_value v7 v8
  split
  · refine Keeps.trans ?_ State.failChan_keeps
    refine Keeps.trans ?_ State.xpcNote_keeps
    exact h16
  · split
    · refine Keeps.trans ?_ State.failChan_keeps
      exact h16
    · refine Keeps.trans ?_ State.setChan_keeps
      exact h16

theorem State.runOp_keeps {s : State} {b1 b2 : Nat} {b3 : Ext} :
    Keeps s (State.runOp s b1 b2 b3) := by
  delta State.runOp
  extract_lets v0 v1 v2 v3
  clear_value v0 v1 v2 v3
  split
  · exact Keeps.refl _
  · split
    · exact State.failChan_keeps
    · split
      · refine Keeps.trans ?_ State.failChan_keeps
        exact State.askAll_keeps.2 _ (by assumption)
      · extract_lets v23
        clear_value v23
        split
        · refine Keeps.trans ?_ State.setChan_keeps
          exact State.askAll_keeps.1 _ _ (by assumption)
        · refine Keeps.trans ?_ State.commitOp_keeps
          exact State.askAll_keeps.1 _ _ (by assumption)

theorem State.reserveRemote_keeps {s : State} {b1 b2 b3 b4 : Nat} :
    Keeps s (State.reserveRemote s b1 b2 b3 b4) := by
  delta State.reserveRemote
  extract_lets v0
  clear_value v0
  split
  · extract_lets v5
    clear_value v5
    refine Keeps.trans ?_ State.setChan_keeps
    exact State.sendRequest_keeps.1 _ (by assumption)
  · refine Keeps.trans ?_ State.failChan_keeps
    exact State.sendRequest_keeps.2 _ (by assumption)

theorem State.opCommand_keeps {s : State} {b1 b2 b3 : Nat} {b4 : Ext} {b5 : Ecc} :
    Keeps s (State.opCommand s b1 b2 b3 b4 b5) := by
  delta State.opCommand
  extract_lets v0
  clear_value v0
  split
  · exact Keeps.refl _
  · split
    · exact Keeps.refl _
    · split
      · refine Keeps.trans ?_ State.failChan_keeps
        exact State.eccUncorrected_keeps
      · refine Keeps.trans ?_ State.failChan_keeps
        exact State.raise_keeps
      · extract_lets v13
        have h14 : Keeps s v13 := by
          unfold v13
          split
          · exact State.eccCorrected_keeps
          · exact Keeps.refl _
        clear_value v13
        split
        · refine Keeps.trans ?_ State.reserveRemote_keeps
          exact h14
        · refine Keeps.trans ?_ State.runOp_keeps
          exact h14

theorem State.moveHome_keeps {s : State} {b1 : Nat} :
    Keeps s (State.moveHome s b1) := by
  delta State.moveHome
  split
  · split
    · extract_lets v7 v8
      have h9 : Keeps s v7 := by
        unfold v7
        exact State.setHold_keeps
      clear_value v7
      have h10 : Keeps s v8 := by
        unfold v8
        refine Keeps.trans ?_ State.untag_keeps
        exact h9
      clear_value v8
      split
      · exact h10
      · refine Keeps.trans ?_ State.tag_keeps
        exact h10
    · exact State.freeHold_keeps
  · exact Keeps.refl _

theorem State.nextDesc_keeps {s : State} {b1 b2 : Nat} :
    Keeps s (State.nextDesc s b1 b2) := by
  delta State.nextDesc
  extract_lets v0
  clear_value v0
  split
  · exact State.setChan_keeps
  · split
    · exact State.setChan_keeps
    · exact State.stopChan_keeps

theorem State.completeDesc_keeps {s : State} {b1 b2 : Nat} {b3 : Option Nat} :
    Keeps s (State.completeDesc s b1 b2 b3) := by
  delta State.completeDesc
  extract_lets v0 v1 v2 v3 v4 v5 v6
  clear_value v0
  have h7 : Keeps s v1 := by
    unfold v1
    refine Keeps.trans ?_ State.count_keeps
    exact State.releaseChan_keeps
  clear_value v1 v2
  have h8 : Keeps s v3 := by
    unfold v3
    refine Keeps.trans ?_ State.setChan_keeps
    exact h7
  clear_value v3
  have h9 : ∀ c0, Keeps c0 (v4 c0) := by
    unfold v4
    intro c0
    split
    · exact State.stopChan_keeps
    · exact State.nextDesc_keeps
  clear_value v4 v5
  have h15 : Keeps s v6 := by
    unfold v6
    refine Keeps.trans ?_ State.setChan_keeps
    exact h8
  clear_value v6
  split
  · refine Keeps.trans ?_ State.cplDone_keeps
    split
    · refine Keeps.trans ?_ State.stopChan_keeps
      exact h15
    · exact h15
  · split
    · refine Keeps.trans ?_ (h9 _)
      exact h8
    · split
      · refine Keeps.trans ?_ (h9 _)
        exact h8
      · split
        · refine Keeps.trans ?_ (h9 _)
          refine Keeps.trans ?_ (KeepsSnd.of State.addRef_keeps (by assumption))
          exact h8
        · split
          · refine Keeps.trans ?_ (h9 _)
            refine Keeps.trans ?_ (KeepsSnd.of State.addRef_keeps (by assumption))
            exact h8
          · extract_lets v43
            clear_value v43
            refine Keeps.trans ?_ State.setChan_keeps
            refine Keeps.trans ?_ (KeepsSnd.of State.addRef_keeps (by assumption))
            exact h8
        · refine Keeps.trans ?_ State.stopChan_keeps
          refine Keeps.trans ?_ (KeepsSnd.of State.addRef_keeps (by assumption))
          exact h8

theorem State.descComplete_keeps {s : State} {b1 b2 : Nat} :
    Keeps s (State.descComplete s b1 b2) := by
  delta State.descComplete
  extract_lets v0
  clear_value v0
  split
  · exact State.completeDesc_keeps
  · exact Keeps.refl _

theorem State.moveComplete_keeps {s : State} {b1 b2 : Nat} :
    Keeps s (State.moveComplete s b1 b2) := by
  delta State.moveComplete
  extract_lets v0
  clear_value v0
  split
  · split
    · refine Keeps.trans ?_ State.setChan_keeps
      exact State.moveHome_keeps
    · exact Keeps.refl _
  · exact Keeps.refl _

theorem State.abortChan_keeps {s : State} {b1 b2 : Nat} :
    KeepsOpt s (State.abortChan s b1 b2) := by
  delta State.abortChan
  extract_lets v0 v1 v2
  clear_value v0
  have h3 : Keeps s v1 := by
    unfold v1
    split
    · exact State.moveHome_keeps
    · exact Keeps.refl _
  clear_value v1
  have h11 : Keeps s v2 := by
    unfold v2
    split
    · exact State.moveFailed_keeps
    · exact Keeps.refl _
  clear_value v2
  split
  · exact KeepsOpt.none
  · exact KeepsOpt.none
  · split
    · split
      · refine KeepsOpt.some ?_
        refine Keeps.trans ?_ State.completeDesc_keeps
        exact h3
      · refine KeepsOpt.some ?_
        exact State.stopChan_keeps
    · refine KeepsOpt.some ?_
      refine Keeps.trans ?_ State.stopChan_keeps
      exact h11

theorem State.clearChan_keeps {s : State} {b1 b2 : Nat} :
    KeepsOpt s (State.clearChan s b1 b2) := by
  delta State.clearChan
  extract_lets v0
  clear_value v0
  split
  · refine KeepsOpt.some ?_
    exact State.setChan_keeps
  · exact KeepsOpt.none

theorem State.partialOp_keeps {s : State} {b1 b2 b3 : Nat} {b4 : Ext} :
    Keeps s (State.partialOp s b1 b2 b3 b4) := by
  delta State.partialOp
  extract_lets v0 v1 v2
  clear_value v0 v1 v2
  split
  · exact Keeps.refl _
  · split
    · exact Keeps.refl _
    · extract_lets v12 v13 v14 v15
      clear_value v12 v13
      have h16 : Keeps s v14 := by
        unfold v14
        refine Keeps.trans ?_ (Keeps.foldl (fun x17 a18 => ?_) _ _)
        · exact Keeps.refl _
        · exact State.writeOut_keeps
      clear_value v14 v15
      refine Keeps.trans ?_ State.setChan_keeps
      exact h16

theorem State.chainFailure_keeps {s : State} {b1 b2 b3 b4 b5 : Nat} {b6 : Ext} :
    Keeps s (State.chainFailure s b1 b2 b3 b4 b5 b6) := by
  delta State.chainFailure
  extract_lets v0 v1 v2 v3
  clear_value v0
  have h4 : Keeps s v1 := by
    unfold v1
    split
    · exact State.partialOp_keeps
    · exact Keeps.refl _
  clear_value v1 v2
  have h9 : Keeps s v3 := by
    unfold v3
    split
    · refine Keeps.trans ?_ State.raise_keeps
      exact h4
    · split
      · refine Keeps.trans ?_ State.eccUncorrected_keeps
        exact h4
      · exact h4
  clear_value v3
  split
  · exact Keeps.refl _
  · split
    · refine Keeps.trans ?_ State.setChan_keeps
      exact h4
    · refine Keeps.trans ?_ State.failChan_keeps
      exact h9

theorem State.chanTimeout_keeps {s : State} {b1 b2 b3 b4 : Nat} {b5 : Ext} :
    Keeps s (State.chanTimeout s b1 b2 b3 b4 b5) := by
  delta State.chanTimeout
  extract_lets v0
  clear_value v0
  split
  · refine Keeps.trans ?_ State.stopChan_keeps
    refine Keeps.trans ?_ State.faultAt_keeps
    exact State.count_keeps
  · refine Keeps.trans ?_ State.chainFailure_keeps
    exact State.count_keeps
  · exact Keeps.refl _

theorem State.retryAccess_keeps {s : State} {b1 b2 : Nat} {b3 : Option Nat} :
    Keeps s (State.retryAccess s b1 b2 b3) := by
  delta State.retryAccess
  extract_lets v0
  clear_value v0
  split
  · exact Keeps.refl _
  · extract_lets v10 v11
    have h12 : Keeps s v10 := by
      unfold v10
      refine Keeps.trans ?_ State.tally1_keeps
      exact State.count_keeps
    clear_value v10 v11
    split
    · refine Keeps.trans ?_ State.observe_keeps
      refine Keeps.trans ?_ State.setChan_keeps
      exact h12
    · split
      · refine Keeps.trans ?_ State.setChan_keeps
        exact h12
      · refine Keeps.trans ?_ State.failChan_keeps
        refine Keeps.trans ?_ State.observe_keeps
        refine Keeps.trans ?_ State.setChan_keeps
        exact h12

theorem State.grantSlots_keeps {s : State} {b1 : Nat} :
    Keeps s (State.grantSlots s b1) := by
  delta State.grantSlots
  refine Keeps.trans ?_ (Keeps.foldl (fun x0 a1 => ?_) _ _)
  · exact Keeps.refl _
  · extract_lets v2
    clear_value v2
    split
    · split
      · extract_lets v8 v9
        clear_value v8 v9
        exact State.setChan_keeps
      · exact Keeps.refl _
    · exact Keeps.refl _

theorem State.chanData_keeps {s : State} {b1 b2 b3 : Nat} {b4 : List Byte} :
    Keeps s (State.chanData s b1 b2 b3 b4) := by
  delta State.chanData
  extract_lets v0 v1 v2
  clear_value v0 v1
  have h3 : Keeps s v2 := by
    unfold v2
    exact State.setChan_keeps
  clear_value v2
  split
  · exact Keeps.refl _
  · split
    · refine Keeps.trans ?_ State.descRead_keeps
      exact State.setChan_keeps
    · split
      · refine Keeps.trans ?_ State.runOp_keeps
        refine Keeps.trans ?_ State.setChan_keeps
        exact h3
      · exact h3

theorem State.chanAck_keeps {s : State} {b1 b2 b3 : Nat} :
    Keeps s (State.chanAck s b1 b2 b3) := by
  delta State.chanAck
  extract_lets v0 v1
  clear_value v0 v1
  split
  · exact Keeps.refl _
  · exact State.setChan_keeps

theorem State.setUnit_keeps {s : State} {b1 : Nat} {b2 : UpdUnit} :
    Keeps s (State.setUnit s b1 b2) := by
  delta State.setUnit
  extract_lets v0
  clear_value v0
  exact Keeps.of rfl

theorem State.setTrain_keeps {s : State} {b1 : Nat} {b2 : TrainPart} :
    Keeps s (State.setTrain s b1 b2) := by
  delta State.setTrain
  extract_lets v0
  clear_value v0
  exact Keeps.of rfl

theorem State.stepFault_keeps {s : State} {b1 b2 : Nat} :
    Keeps s (State.stepFault s b1 b2) := by
  delta State.stepFault
  extract_lets v0 v1 v2
  clear_value v0
  have h3 : Keeps s v1 := by
    unfold v1
    refine Keeps.trans ?_ State.rputN_keeps
    exact State.setTrain_keeps
  clear_value v1
  have h4 : Keeps s v2 := by
    unfold v2
    refine Keeps.trans ?_ State.logAdd_keeps
    refine Keeps.trans ?_ State.raise_keeps
    exact h3
  clear_value v2
  split
  · exact Keeps.refl _
  · refine Keeps.trans ?_ State.errCairn_keeps
    exact h4

theorem State.setTile_keeps {s : State} {b1 : Nat} {b2 : TileSt} :
    Keeps s (State.setTile s b1 b2) := by
  delta State.setTile
  exact Keeps.of rfl

theorem State.setCtx_keeps {s : State} {b1 b2 : Nat} {b3 : Ctx} :
    Keeps s (State.setCtx s b1 b2 b3) := by
  delta State.setCtx
  extract_lets v0
  clear_value v0
  exact State.setTile_keeps

theorem Ctx.overlay_wf (x : Ctx) (m : List Host.Cell) (h : Memory.wf m = true) : Memory.wf (x.overlay m) = true := by
  unfold Ctx.overlay
  induction x.posted generalizing m with
  | nil => exact h
  | cons w ws ih => exact ih _ (Memory.wf_writeList _ _ _ h)

theorem State.drainCtx_keeps {s : State} {b1 b2 : Nat} : Keeps s (State.drainCtx s b1 b2) := by
  unfold State.drainCtx
  simp only
  split
  · exact Keeps.refl _
  · exact Keeps.trans (Keeps.ofMem (fun h => (s.ctx b1 b2).overlay_wf _ h)) State.setCtx_keeps

theorem State.drainAll_keeps {s : State} :
    Keeps s (State.drainAll s) := by
  delta State.drainAll
  refine Keeps.trans ?_ (Keeps.foldl (fun x0 a1 => ?_) _ _)
  · exact Keeps.refl _
  · refine Keeps.trans ?_ (Keeps.foldl (fun x2 a3 => ?_) _ _)
    · exact Keeps.refl _
    · exact State.drainCtx_keeps

theorem State.post_keeps {s : State} {b1 b2 b3 : Nat} {b4 : List Byte} :
    Keeps s (State.post s b1 b2 b3 b4) := by
  delta State.post
  extract_lets v0
  clear_value v0
  exact State.setCtx_keeps

theorem State.ctxFault_keeps {s : State} {b1 b2 b3 : Nat} {b4 : Bool} :
    Keeps s (State.ctxFault s b1 b2 b3 b4) := by
  delta State.ctxFault
  extract_lets v0 v1 v2 v3 v4 v5
  have h6 : Keeps s v0 := by
    unfold v0
    exact State.drainCtx_keeps
  clear_value v0 v1
  have h7 : Keeps s v2 := by
    unfold v2
    refine Keeps.trans ?_ State.setCtx_keeps
    exact h6
  clear_value v2
  have h8 : Keeps s v3 := by
    unfold v3
    refine Keeps.trans ?_ State.count_keeps
    refine Keeps.trans ?_ State.holdEnd_keeps
    refine Keeps.trans ?_ State.cancelWait_keeps
    exact h7
  clear_value v3
  have h9 : Keeps s v4 := by
    unfold v4
    split
    · exact h8
    · refine Keeps.trans ?_ State.issue_keeps
      exact h8
  clear_value v4
  have h14 : Keeps s v5 := by
    unfold v5
    split
    · split
      · refine Keeps.trans ?_ State.stepFault_keeps
        exact h9
      · exact by assumption
    · exact by assumption
  clear_value v5
  refine Keeps.trans ?_ State.errCairn_keeps
  exact h14

theorem State.operatorEnd_keeps {s : State} {b1 b2 : Nat} :
    Keeps s (State.operatorEnd s b1 b2) := by
  delta State.operatorEnd
  extract_lets v0 v1
  have h2 : Keeps s v0 := by
    unfold v0
    exact State.drainCtx_keeps
  clear_value v0 v1
  refine Keeps.trans ?_ State.holdEnd_keeps
  refine Keeps.trans ?_ State.setCtx_keeps
  exact h2

theorem State.ctxGo_keeps {s : State} {b1 b2 b3 : Nat} :
    Keeps s (State.ctxGo s b1 b2 b3) := by
  delta State.ctxGo
  extract_lets v0 v1
  have h2 : Keeps s v0 := by
    unfold v0
    refine Keeps.trans ?_ State.startOfWork_keeps
    exact State.rputN_keeps
  clear_value v0 v1
  refine Keeps.trans ?_ State.setCtx_keeps
  exact h2

theorem State.ctxStop_keeps {s : State} {b1 b2 : Nat} :
    KeepsOpt s (State.ctxStop s b1 b2) := by
  delta State.ctxStop
  split
  · refine KeepsOpt.some ?_
    exact State.ctxFault_keeps
  · refine KeepsOpt.some ?_
    exact State.ctxFault_keeps
  · exact KeepsOpt.none

theorem State.ctxClear_keeps {s : State} {b1 b2 : Nat} :
    KeepsOpt s (State.ctxClear s b1 b2) := by
  delta State.ctxClear
  extract_lets v0
  clear_value v0
  split
  · refine KeepsOpt.some ?_
    exact State.setCtx_keeps
  · exact KeepsOpt.none

theorem State.wload_keeps {s : State} {b1 b2 b3 b4 : Nat} :
    KeepsExc s (State.wload s b1 b2 b3 b4) := by
  delta State.wload
  extract_lets v0 v1 v2
  clear_value v0 v1 v2
  split
  · exact KeepsExc.error
  · split
    · extract_lets v11 v12 v13
      clear_value v11 v12 v13
      split
      · exact KeepsExc.error
      · refine KeepsExc.ok ?_
        exact State.setTile_keeps

theorem State.setAcc_keeps {s : State} {b1 b2 : Nat} {b3 : Option AccRow} :
    Keeps s (State.setAcc s b1 b2 b3) := by
  delta State.setAcc
  extract_lets v0
  clear_value v0
  exact State.setTile_keeps

theorem State.mmpass_keeps {s : State} {b1 b2 b3 b4 : Nat} :
    KeepsExc s (State.mmpass s b1 b2 b3 b4) := by
  delta State.mmpass
  extract_lets v0 v1 v2 v3 v4 v5 v6
  clear_value v0 v1 v2 v3 v4
  have h7 : Keeps s v5 := by
    unfold v5
    split
    · refine Keeps.trans ?_ (Keeps.foldl (fun x10 a11 => ?_) _ _)
      · exact Keeps.refl _
      · exact State.setAcc_keeps
    · exact Keeps.refl _
  clear_value v5
  have h14 : Keeps s v6 := by
    unfold v6
    refine Keeps.trans ?_ (Keeps.foldl (fun x15 a16 => ?_) _ _)
    · exact h7
    · exact State.setAcc_keeps
  clear_value v6
  split
  · exact KeepsExc.error
  · split
    · exact KeepsExc.error
    · split
      · exact KeepsExc.error
      · split
        · exact KeepsExc.error
        · refine KeepsExc.ok ?_
          refine Keeps.trans ?_ State.count_keeps
          exact h14

theorem State.ctxFlags_keeps {s : State} {b1 b2 : Nat} {b3 b4 b5 : Bool} :
    Keeps s (State.ctxFlags s b1 b2 b3 b4 b5) := by
  delta State.ctxFlags
  exact State.rputN_keeps

theorem State.flagsOf_keeps {s : State} {b1 b2 : Nat} {b3 : List FRes} :
    Keeps s (State.flagsOf s b1 b2 b3) := by
  delta State.flagsOf
  exact State.ctxFlags_keeps

theorem State.draw_keeps {s : State} {b1 b2 : Nat} :
    KeepsSnd s (State.draw s b1 b2) := by
  delta State.draw
  extract_lets v0
  clear_value v0
  refine KeepsSnd.mk ?_
  exact State.setCtx_keeps

theorem State.drawFor_keeps {s : State} {b1 b2 b3 : Nat} :
    KeepsSnd s (State.drawFor s b1 b2 b3) := by
  delta State.drawFor
  split
  · refine KeepsSnd.trans ?_ State.draw_keeps
    exact Keeps.refl _
  · refine KeepsSnd.mk ?_
    exact Keeps.refl _

theorem State.accout_keeps {s : State} {b1 b2 b3 b4 : Nat} :
    KeepsExc s (State.accout s b1 b2 b3 b4) := by
  delta State.accout
  extract_lets v0 v1 v2 v3 v4 v5 v6 v7
  clear_value v0 v1 v2 v3 v4 v5 v6 v7
  split
  · exact KeepsExc.error
  · split
    · exact KeepsExc.error
    · split
      · exact KeepsExc.error
      · refine KeepsExc.ok ?_
        refine Keeps.trans ?_ (Keeps.foldl (fun x19 a20 => ?_) _ _)
        · exact Keeps.refl _
        · extract_lets v21
          clear_value v21
          split
          · extract_lets v26 v27 v28
            clear_value v26
            have h29 : Keeps x19 v27 := by
              unfold v27
              split
              · exact KeepsSnd.of State.drawFor_keeps (by assumption)
              · refine Keeps.trans ?_ State.flagsOf_keeps
                exact KeepsSnd.of State.drawFor_keeps (by assumption)
            clear_value v27
            have h32 : Keeps x19 v28 := by
              unfold v28
              refine Keeps.trans ?_ State.post_keeps
              exact h29
            clear_value v28
            split
            · refine Keeps.trans ?_ State.setAcc_keeps
              exact h32
            · exact h32

theorem State.freeForm_keeps {s : State} :
    KeepsSnd s (State.freeForm s) := by
  delta State.freeForm
  split
  · refine KeepsSnd.mk ?_
    exact KeepsSnd.of State.fresh_keeps (by assumption)

theorem State.rowForms_keeps {s : State} {b1 : Nat} {b2 : List Nat} : KeepsSnd s (State.rowForms s b1 b2) := by
  induction b2 generalizing s with
  | nil => exact Keeps.refl _
  | cons r rs ih =>
    unfold State.rowForms
    cases s.accRow b1 r with
    | none => exact KeepsSnd.trans (p := State.rowForms s.freeForm.2 b1 rs) State.freeForm_keeps ih
    | some x => cases x <;> exact ih

theorem State.accdump_keeps {s : State} {b1 b2 b3 b4 : Nat} :
    KeepsExc s (State.accdump s b1 b2 b3 b4) := by
  delta State.accdump
  extract_lets v0
  clear_value v0
  split
  · exact KeepsExc.error
  · split
    · extract_lets v9
      clear_value v9
      split
      · exact KeepsExc.error
      · refine KeepsExc.ok ?_
        refine Keeps.trans ?_ (Keeps.foldl (fun x15 a16 => ?_) _ _)
        · exact KeepsSnd.of State.rowForms_keeps (by assumption)
        · exact State.post_keeps

theorem State.accin_keeps {s : State} {b1 b2 b3 b4 : Nat} :
    KeepsExc s (State.accin s b1 b2 b3 b4) := by
  delta State.accin
  extract_lets v0
  clear_value v0
  split
  · exact KeepsExc.error
  · split
    · extract_lets v9
      clear_value v9
      split
      · exact KeepsExc.error
      · refine KeepsExc.ok ?_
        refine Keeps.trans ?_ (Keeps.foldl (fun x15 a16 => ?_) _ _)
        · exact KeepsSnd.of State.rowForms_keeps (by assumption)
        · exact State.setAcc_keeps

theorem State.setVreg_keeps {s : State} {b1 b2 b3 : Nat} {b4 : List Nat} :
    Keeps s (State.setVreg s b1 b2 b3 b4) := by
  delta State.setVreg
  extract_lets v0
  clear_value v0
  exact State.setCtx_keeps

theorem State.vlane_keeps {s : State} {b1 b2 b3 : Nat} {b4 : Rnd → Nat → Nat → Nat → FRes} :
    Keeps s (State.vlane s b1 b2 b3 b4) := by
  delta State.vlane
  extract_lets v0
  clear_value v0
  split
  · extract_lets v6
    clear_value v6
    refine Keeps.trans ?_ State.setVreg_keeps
    refine Keeps.trans ?_ State.flagsOf_keeps
    exact KeepsSnd.of State.drawFor_keeps (by assumption)

theorem State.vplain_keeps {s : State} {b1 b2 b3 : Nat} {b4 : Nat → Nat → Nat → FRes} :
    Keeps s (State.vplain s b1 b2 b3 b4) := by
  delta State.vplain
  extract_lets v0
  clear_value v0
  refine Keeps.trans ?_ State.setVreg_keeps
  exact State.flagsOf_keeps

theorem State.rsum_keeps {s : State} {b1 b2 b3 b4 : Nat} {b5 : List Nat} :
    KeepsSnd s (State.rsum s b1 b2 b3 b4 b5) := by
  fun_induction State.rsum s b1 b2 b3 b4 b5
  · refine KeepsSnd.mk ?_
    exact Keeps.refl _
  · rename_i r12 r13
    clear_value r12
    refine KeepsSnd.trans ?_ (by assumption)
    refine Keeps.trans ?_ State.flagsOf_keeps
    exact KeepsSnd.of State.drawFor_keeps (by assumption)

theorem State.dropLanes_keeps {s : State} {b1 b2 b3 : Nat} :
    Keeps s (State.dropLanes s b1 b2 b3) := by
  delta State.dropLanes
  extract_lets v0 v1
  clear_value v0 v1
  exact State.vlane_keeps

theorem State.vld_keeps {s : State} {b1 b2 b3 b4 : Nat} :
    KeepsExc s (State.vld s b1 b2 b3 b4) := by
  delta State.vld
  extract_lets v0 v1
  clear_value v0 v1
  split
  · exact KeepsExc.error
  · refine KeepsExc.ok ?_
    exact State.setVreg_keeps

theorem State.vst_keeps {s : State} {b1 b2 b3 b4 : Nat} :
    KeepsExc s (State.vst s b1 b2 b3 b4) := by
  delta State.vst
  extract_lets v0 v1 v2
  clear_value v0 v1 v2
  split
  · exact KeepsExc.error
  · split
    · extract_lets v14
      clear_value v14
      refine KeepsExc.ok ?_
      refine Keeps.trans ?_ State.post_keeps
      refine Keeps.trans ?_ State.flagsOf_keeps
      exact KeepsSnd.of State.drawFor_keeps (by assumption)

end Sys2Proof.Machine
end

