-- ==== Sys2Proof/Laws/KeepsOps2.lean ====
section
/-! SUPPORT. `Keeps` of the shared operations, part 2 of 5, in the order they build on each other: one lemma per
operation. -/
namespace Sys2Proof.Machine
set_option Elab.async false

theorem State.dmago_keeps {s : State} {b1 b2 b3 b4 : Nat} :
    KeepsExc s (State.dmago s b1 b2 b3 b4) := by
  delta State.dmago
  extract_lets v0 v1
  clear_value v0 v1
  split
  · refine KeepsExc.ok ?_
    refine Keeps.trans ?_ State.rputN_keeps
    exact State.issue_keeps
  · refine KeepsExc.ok ?_
    exact State.startChain_keeps

theorem State.csig_keeps {s : State} {b1 b2 b3 b4 : Nat} :
    KeepsExc s (State.csig s b1 b2 b3 b4) := by
  delta State.csig
  extract_lets v0 v1 v2 v3
  clear_value v0
  have h4 : Keeps s v1 := by
    unfold v1
    split
    · exact Keeps.refl _
    · exact State.drainCtx_keeps
  clear_value v1 v2 v3
  split
  · split
    · refine KeepsExc.ok ?_
      refine Keeps.trans ?_ State.cairnSet_keeps
      exact h4
    · exact KeepsExc.error
  · split
    · exact KeepsExc.error
    · refine KeepsExc.ok ?_
      refine Keeps.trans ?_ (KeepsSnd.of State.addRef_keeps (by assumption))
      exact h4

theorem State.ctxWaits_keeps {s : State} {b1 b2 : Nat} {b3 : CtxWait} :
    Keeps s (State.ctxWaits s b1 b2 b3) := by
  delta State.ctxWaits
  extract_lets v0
  clear_value v0
  exact State.setCtx_keeps

theorem State.cwait_keeps {s : State} {b1 b2 b3 b4 : Nat} :
    KeepsExc s (State.cwait s b1 b2 b3 b4) := by
  delta State.cwait
  extract_lets v0 v1
  clear_value v0
  have h2 : Keeps s v1 := by
    unfold v1
    split
    · exact State.rputN_keeps
    · exact Keeps.refl _
  clear_value v1
  split
  · exact KeepsExc.error
  · extract_lets v15
    have h16 : Keeps s v15 := by
      unfold v15
      refine Keeps.trans ?_ State.registerWait_keeps
      exact h2
    clear_value v15
    refine KeepsExc.ok ?_
    refine Keeps.trans ?_ State.ctxWaits_keeps
    exact h16

theorem State.phaseWord_keeps {s : State} {b1 b2 b3 : Nat} :
    Keeps s (State.phaseWord s b1 b2 b3) := by
  delta State.phaseWord
  extract_lets v0 v1 v2 v3 v4 v5 v6
  have h7 : Keeps s v0 := by
    unfold v0
    exact State.operatorEnd_keeps
  clear_value v0 v1 v2 v3 v4 v5
  have h8 : Keeps s v6 := by
    unfold v6
    refine Keeps.trans ?_ State.setCtx_keeps
    exact h7
  clear_value v6
  split
  · exact h8
  · refine Keeps.trans ?_ State.ctxWaits_keeps
    exact h8

theorem State.ownWord_keeps {s : State} {b1 b2 b3 : Nat} :
    KeepsExc s (State.ownWord s b1 b2 b3) := by
  delta State.ownWord
  split
  · exact KeepsExc.error
  · refine KeepsExc.ok ?_
    exact State.rputN_keeps

theorem State.endWord_keeps {s : State} {b1 b2 : Nat} :
    Keeps s (State.endWord s b1 b2) := by
  delta State.endWord
  extract_lets v0 v1
  have h2 : Keeps s v0 := by
    unfold v0
    exact State.operatorEnd_keeps
  clear_value v0 v1
  refine Keeps.trans ?_ State.setCtx_keeps
  exact h2

theorem State.keysetWord_keeps {s : State} {b1 b2 b3 : Nat} :
    Keeps s (State.keysetWord s b1 b2 b3) := by
  delta State.keysetWord
  extract_lets v0
  clear_value v0
  exact State.setCtx_keeps

theorem State.srsetWord_keeps {s : State} {b1 b2 b3 : Nat} :
    Keeps s (State.srsetWord s b1 b2 b3) := by
  delta State.srsetWord
  extract_lets v0
  clear_value v0
  exact State.setCtx_keeps

theorem State.randLanes_keeps {s : State} {b1 b2 b3 : Nat} :
    Keeps s (State.randLanes s b1 b2 b3) := by
  delta State.randLanes
  split
  · refine Keeps.trans ?_ State.setVreg_keeps
    exact KeepsSnd.of State.draw_keeps (by assumption)

theorem State.sumLanes_keeps {s : State} {b1 b2 b3 : Nat} :
    Keeps s (State.sumLanes s b1 b2 b3) := by
  delta State.sumLanes
  split
  · refine Keeps.trans ?_ State.setVreg_keeps
    exact KeepsSnd.of State.rsum_keeps (by assumption)

theorem State.ctxResume_keeps {s : State} {b1 b2 : Nat} :
    Keeps s (State.ctxResume s b1 b2) := by
  delta State.ctxResume
  extract_lets v0
  clear_value v0
  exact State.setCtx_keeps

theorem State.setRun_keeps {s : State} {b1 b2 : Nat} {b3 : Run} :
    Keeps s (State.setRun s b1 b2 b3) := by
  delta State.setRun
  extract_lets v0
  clear_value v0
  exact Keeps.of rfl

theorem State.modRun_keeps {s : State} {b1 b2 : Nat} {b3 : Run → Run} :
    Keeps s (State.modRun s b1 b2 b3) := by
  delta State.modRun
  split
  · exact State.setRun_keeps
  · exact Keeps.refl _

theorem State.clearRun_keeps {s : State} {b1 b2 : Nat} :
    Keeps s (State.clearRun s b1 b2) := by
  delta State.clearRun
  extract_lets v0
  clear_value v0
  exact Keeps.of rfl

theorem State.addOut_keeps {s : State} {b1 b2 : Nat} {b3 : List (Nat × Nat)} :
    Keeps s (State.addOut s b1 b2 b3) := by
  fun_induction State.addOut s b1 b2 b3
  · exact Keeps.refl _
  · exact Keeps.refl _
  · rename_i r16
    exact r16
  · exact Keeps.refl _
  · rename_i r35
    exact r35
  · rename_i r45
    exact r45
  · refine Keeps.trans ?_ (by assumption)
    refine Keeps.trans ?_ State.hwAdd_keeps
    exact State.setRun_keeps
  · exact Keeps.refl _

theorem State.addIn_keeps {s : State} {b1 b2 : Nat} {b3 : List (Nat × Nat)} :
    Keeps s (State.addIn s b1 b2 b3) := by
  fun_induction State.addIn s b1 b2 b3
  · exact Keeps.refl _
  · rename_i r13
    exact r13
  · exact Keeps.refl _
  · rename_i r36
    exact r36
  · refine Keeps.trans ?_ (by assumption)
    refine Keeps.trans ?_ State.hwAdd_keeps
    exact State.setRun_keeps
  · exact Keeps.refl _
  · rename_i r71
    exact r71
  · exact Keeps.refl _
  · rename_i r87
    exact r87

theorem State.flushOut_keeps {s : State} {b1 b2 : Nat} :
    Keeps s (State.flushOut s b1 b2) := by
  delta State.flushOut
  exact State.addOut_keeps

theorem State.flushIn_keeps {s : State} {b1 b2 : Nat} :
    Keeps s (State.flushIn s b1 b2) := by
  delta State.flushIn
  exact State.addIn_keeps

theorem State.outDone_keeps {s : State} {b1 b2 : Nat} {b3 : LEntry} {b4 : Nat} :
    Keeps s (State.outDone s b1 b2 b3 b4) := by
  delta State.outDone
  refine Keeps.trans ?_ State.flushOut_keeps
  exact State.modRun_keeps

theorem State.itemDone_keeps {s : State} {b1 b2 : Nat} {b3 : LEntry} {b4 : Nat} :
    Keeps s (State.itemDone s b1 b2 b3 b4) := by
  delta State.itemDone
  extract_lets v0 v1 v2 v3
  clear_value v0 v1
  have h4 : Keeps s v2 := by
    unfold v2
    exact State.rputN_keeps
  clear_value v2
  have h5 : Keeps s v3 := by
    unfold v3
    refine Keeps.trans ?_ State.modRun_keeps
    exact h4
  clear_value v3
  refine Keeps.trans ?_ State.flushIn_keeps
  refine Keeps.trans ?_ State.holdEnd_keeps
  exact h5

theorem State.openRaw_keeps {s : State} {b1 b2 : Nat} {b3 : LEntry} :
    Keeps s (State.openRaw s b1 b2 b3) := by
  delta State.openRaw
  split
  · exact Keeps.refl _
  · split
    · refine Keeps.trans ?_ State.modRun_keeps
      exact KeepsSnd.of State.makeHold_keeps (by assumption)

theorem State.closeRaw_keeps {s : State} {b1 b2 : Nat} :
    Keeps s (State.closeRaw s b1 b2) := by
  delta State.closeRaw
  split
  · exact Keeps.refl _
  · extract_lets v7 v8
    clear_value v7
    have h9 : Keeps s v8 := by
      unfold v8
      split
      · split
        · exact Keeps.of rfl
        · refine Keeps.trans ?_ State.freeHold_keeps
          exact State.touchHold_keeps
      · exact Keeps.refl _
    clear_value v8
    refine Keeps.trans ?_ State.modRun_keeps
    exact h9

theorem State.freeRest_keeps {s : State} {b1 b2 : Nat} :
    Keeps s (State.freeRest s b1 b2) := by
  delta State.freeRest
  split
  · exact Keeps.refl _
  · refine Keeps.trans ?_ State.modRun_keeps
    exact State.freeHold_keeps

theorem State.runInfo_keeps {s : State} {b1 b2 : Nat} {b3 : LEntry} :
    Keeps s (State.runInfo s b1 b2 b3) := by
  delta State.runInfo
  exact State.rputN_keeps

theorem State.itemFailed_keeps {s : State} {b1 b2 : Nat} {b3 : LEntry} {b4 : Nat} :
    Keeps s (State.itemFailed s b1 b2 b3 b4) := by
  delta State.itemFailed
  extract_lets v0 v1
  have h2 : Keeps s v0 := by
    unfold v0
    exact State.modRun_keeps
  clear_value v0
  have h3 : Keeps s v1 := by
    unfold v1
    refine Keeps.trans ?_ State.raise_keeps
    refine Keeps.trans ?_ State.count_keeps
    refine Keeps.trans ?_ State.holdEnd_keeps
    exact h2
  clear_value v1
  refine Keeps.trans ?_ State.stepFault_keeps
  refine Keeps.trans ?_ State.runInfo_keeps
  exact h3

theorem State.tryRegrow_keeps {s : State} {b1 b2 : Nat} {b3 : LEntry} :
    Keeps s (State.tryRegrow s b1 b2 b3) := by
  delta State.tryRegrow
  split
  · exact Keeps.refl _
  · split
    · exact Keeps.refl _
    · split
      · exact Keeps.refl _
      · extract_lets v13
        have h14 : Keeps s v13 := by
          unfold v13
          exact State.issue_keeps
        clear_value v13
        refine Keeps.trans ?_ State.itemFailed_keeps
        refine Keeps.trans ?_ State.modRun_keeps
        exact h14
      · extract_lets v17 v18 v19 v20
        have h21 : Keeps s v17 := by
          unfold v17
          refine Keeps.trans ?_ State.raise_keeps
          exact State.issue_keeps
        clear_value v17 v18 v19
        have h22 : Keeps s v20 := by
          unfold v20
          exact State.setCtx_keeps
        clear_value v20
        split
        · refine Keeps.trans ?_ State.itemFailed_keeps
          refine Keeps.trans ?_ State.modRun_keeps
          exact h21
        · split
          · exact Keeps.refl _
          · refine Keeps.trans ?_ State.modRun_keeps
            exact h22

theorem State.regrowComplete_keeps {s : State} {b1 b2 : Nat} :
    Keeps s (State.regrowComplete s b1 b2) := by
  delta State.regrowComplete
  split
  · split
    · exact Keeps.refl _
    · split
      · extract_lets v13 v14
        clear_value v13
        have h15 : Keeps s v14 := by
          unfold v14
          exact State.setCtx_keeps
        clear_value v14
        split
        · exact Keeps.refl _
        · refine Keeps.trans ?_ State.itemDone_keeps
          refine Keeps.trans ?_ State.count_keeps
          exact h15
      · exact Keeps.refl _
  · exact Keeps.refl _

theorem State.useRegrow_keeps {s : State} {b1 : LEntry} {b2 b3 : Nat} :
    Keeps s (State.useRegrow s b1 b2 b3) := by
  delta State.useRegrow
  extract_lets v0 v1
  clear_value v0 v1
  exact Keeps.of rfl

theorem State.putItem_keeps {s : State} {b1 b2 : Nat} {b3 : Work} {b4 : Desc} {b5 : Option Nat} :
    Keeps s (State.putItem s b1 b2 b3 b4 b5) := by
  delta State.putItem
  extract_lets v0
  clear_value v0
  exact State.setChan_keeps

theorem State.startOut_keeps {s : State} {b1 b2 : Nat} {b3 : LEntry} {b4 : Run} :
    Keeps s (State.startOut s b1 b2 b3 b4) := by
  delta State.startOut
  split
  · extract_lets v5 v6
    clear_value v5
    have h7 : Keeps s v6 := by
      unfold v6
      exact State.modRun_keeps
    clear_value v6
    split
    · split
      · split
        · refine Keeps.trans ?_ State.putItem_keeps
          refine Keeps.trans ?_ State.setHold_keeps
          exact h7
        · refine Keeps.trans ?_ State.modRun_keeps
          exact h7
      · exact h7
    · split
      · refine Keeps.trans ?_ State.putItem_keeps
        exact h7
      · exact h7

theorem State.fallback_keeps {s : State} {b1 b2 : Nat} {b3 : LEntry} {b4 : Nat} :
    Keeps s (State.fallback s b1 b2 b3 b4) := by
  delta State.fallback
  extract_lets v0 v1 v2 v3 v4 v5 v6
  have h7 : Keeps s v0 := by
    unfold v0
    exact State.freeRest_keeps
  clear_value v0
  have h8 : Keeps s v1 := by
    unfold v1
    refine Keeps.trans ?_ State.raise_keeps
    refine Keeps.trans ?_ State.tally1_keeps
    refine Keeps.trans ?_ State.count_keeps
    exact h7
  clear_value v1 v2
  have h9 : Keeps s v3 := by
    unfold v3
    refine Keeps.trans ?_ State.logAdd_keeps
    exact h8
  clear_value v3
  have h10 : Keeps s v4 := by
    unfold v4
    refine Keeps.trans ?_ State.modRun_keeps
    exact h9
  clear_value v4
  have h11 : Keeps s v5 := by
    unfold v5
    refine Keeps.trans ?_ State.issue_keeps
    exact h7
  clear_value v5
  have h12 : Keeps s v6 := by
    unfold v6
    refine Keeps.trans ?_ State.closeRaw_keeps
    refine Keeps.trans ?_ State.modRun_keeps
    exact h11
  clear_value v6
  split
  · refine Keeps.trans ?_ State.tryRegrow_keeps
    refine Keeps.trans ?_ State.openRaw_keeps
    exact h10
  · refine Keeps.trans ?_ State.itemFailed_keeps
    exact h12

theorem State.startBack_keeps {s : State} {b1 b2 : Nat} {b3 : LEntry} {b4 : Run} :
    Keeps s (State.startBack s b1 b2 b3 b4) := by
  delta State.startBack
  split
  · extract_lets v5 v6
    clear_value v5
    have h7 : Keeps s v6 := by
      unfold v6
      refine Keeps.trans ?_ State.modRun_keeps
      exact State.openRaw_keeps
    clear_value v6
    split
    · exact State.fallback_keeps
    · split
      · exact State.fallback_keeps
      · extract_lets v16
        have h17 : Keeps s v16 := by
          unfold v16
          exact State.setHold_keeps
        clear_value v16
        split
        · exact State.fallback_keeps
        · split
          · exact Keeps.refl _
          · split
            · refine Keeps.trans ?_ State.putItem_keeps
              refine Keeps.trans ?_ State.modRun_keeps
              exact h17
            · refine Keeps.trans ?_ State.putItem_keeps
              exact h7

theorem State.pump_keeps {s : State} {b1 b2 : Nat} :
    Keeps s (State.pump s b1 b2) := by
  fun_induction State.pump s b1 b2
  · exact Keeps.refl _
  · exact Keeps.refl _
  · exact Keeps.refl _
  · rename_i r12 r13 r14 r15 r16 r17 r18 r19 r20 r21 r22 r23 r24 r25
    have h26 : Keeps r12 r24 := by
      unfold r24
      split
      · exact State.startBack_keeps
      · exact State.startOut_keeps
    clear_value r24
    refine Keeps.trans ?_ (by assumption)
    exact h26
  · exact Keeps.refl _

theorem State.legAlloc_keeps {s : State} {b1 b2 : Nat} {b3 : LEntry} {b4 b5 : Nat} :
    KeepsExc s (State.legAlloc s b1 b2 b3 b4 b5) := by
  delta State.legAlloc
  extract_lets v0
  clear_value v0
  split
  · split
    · exact KeepsExc.error
    · split
      · refine KeepsExc.ok ?_
        split
        · exact State.setHold_keeps
        · exact Keeps.refl _
      · exact KeepsExc.error
  · split
    · refine KeepsExc.ok ?_
      refine Keeps.trans ?_ State.modRun_keeps
      exact KeepsSnd.of State.allocTry_keeps (by assumption)
    · exact KeepsExc.error
    · exact KeepsExc.error

theorem State.queueLeg_keeps {s : State} {b1 b2 : Nat} {b3 : LEntry} {b4 b5 b6 : Nat} :
    Keeps s (State.queueLeg s b1 b2 b3 b4 b5 b6) := by
  delta State.queueLeg
  extract_lets v0
  have h1 : Keeps s v0 := by
    unfold v0
    exact State.modRun_keeps
  clear_value v0
  refine Keeps.trans ?_ State.pump_keeps
  exact h1

theorem State.adapt_keeps {s : State} {b1 b2 : Nat} {b3 : LEntry} {b4 : Nat} :
    Keeps s (State.adapt s b1 b2 b3 b4) := by
  delta State.adapt
  extract_lets v0 v1 v2
  clear_value v0
  have h3 : Keeps s v1 := by
    unfold v1
    exact State.logAdd_keeps
  clear_value v1
  have h4 : Keeps s v2 := by
    unfold v2
    split
    · refine Keeps.trans ?_ State.raise_keeps
      refine Keeps.trans ?_ State.countOverride_keeps
      exact h3
    · refine Keeps.trans ?_ State.raise_keeps
      refine Keeps.trans ?_ State.tally1_keeps
      refine Keeps.trans ?_ State.count_keeps
      exact h3
  clear_value v2
  refine Keeps.trans ?_ State.modRun_keeps
  exact h4

theorem State.tryAlt_keeps {s : State} {b1 b2 : Nat} {b3 : LEntry} {b4 : Run} {b5 : Plan} {b6 : Nat} :
    KeepsOpt s (State.tryAlt s b1 b2 b3 b4 b5 b6) := by
  delta State.tryAlt
  extract_lets v0 v1 v2
  clear_value v0 v1
  have h3 : ∀ c0, KeepsOpt s (v2 c0) := by
    unfold v2
    intro c0
    split
    · exact KeepsOpt.none
    · split
      · exact KeepsOpt.none
      · split
        · refine KeepsOpt.some ?_
          refine Keeps.trans ?_ State.queueLeg_keeps
          refine Keeps.trans ?_ State.adapt_keeps
          exact State.legAlloc_keeps _ (by assumption)
        · exact KeepsOpt.none
  clear_value v2
  split
  · refine KeepsOpt.map _ (fun a22 => ?_)
    extract_lets v23
    have h24 : Keeps s v23 := by
      unfold v23
      refine Keeps.trans ?_ State.useRegrow_keeps
      refine Keeps.trans ?_ State.closeRaw_keeps
      exact State.adapt_keeps
    clear_value v23
    refine Keeps.trans ?_ State.outDone_keeps
    refine Keeps.trans ?_ State.modRun_keeps
    exact h24
  · split
    · exact h3 _
    · exact KeepsOpt.none
  · split
    · refine KeepsOpt.findSome _ (fun a32 => ?_)
      exact h3 _
    · exact KeepsOpt.none
  · split
    · refine KeepsOpt.findSome _ (fun a37 => ?_)
      exact h3 _
    · exact KeepsOpt.none
  · exact KeepsOpt.none

theorem State.pressureAt_keeps {s : State} {b1 b2 : Nat} {b3 : LEntry} {b4 : Run} {b5 : Plan} {b6 : Nat} :
    Keeps s (State.pressureAt s b1 b2 b3 b4 b5 b6) := by
  unfold State.pressureAt
  simp only
  split
  · next t e =>
    split at e
    · exact KeepsOpt.findSome _ (fun a => State.tryAlt_keeps) _ e
    · cases e
  · split
    · exact State.modRun_keeps.trans State.raise_keeps
    · exact (State.issue_keeps.trans State.modRun_keeps).trans State.itemFailed_keeps

theorem State.tryLeg_keeps {s : State} {b1 b2 : Nat} {b3 : LEntry} {b4 : Run} {b5 : Plan} {b6 : Bool} :
    Keeps s (State.tryLeg s b1 b2 b3 b4 b5 b6) := by
  unfold State.tryLeg
  split
  · next t e => exact Keeps.trans (State.legAlloc_keeps _ e) State.queueLeg_keeps
  · simp only
    split
    · next t e =>
      refine Keeps.trans (Keeps.trans ?_ State.modRun_keeps) State.runVictims_keeps
      split at e
      · refine Keeps.trans ?_ (State.pickVictims_keeps _ e)
        exact Keeps.of rfl
      · cases e
    · exact State.pressureAt_keeps

theorem State.dropLegWait_keeps {s : State} {b1 b2 : Nat} :
    Keeps s (State.dropLegWait s b1 b2) := by
  delta State.dropLegWait
  extract_lets v0
  clear_value v0
  exact Keeps.of rfl

theorem State.retryLegs_keeps {s : State} :
    Keeps s (State.retryLegs s) := by
  delta State.retryLegs
  extract_lets v0
  clear_value v0
  refine Keeps.trans ?_ (Keeps.foldl (fun x1 a2 => ?_) _ _)
  · exact Keeps.refl _
  · extract_lets v3 v4
    clear_value v3 v4
    split
    · split
      · refine Keeps.trans ?_ State.queueLeg_keeps
        refine Keeps.trans ?_ State.dropLegWait_keeps
        exact State.legAlloc_keeps _ (by assumption)
      · split
        · exact Keeps.refl _
        · refine Keeps.trans ?_ State.pressureAt_keeps
          exact State.dropLegWait_keeps
    · exact Keeps.refl _

theorem State.produceAt_keeps {s : State} {b1 b2 : Nat} {b3 : LEntry} {b4 : Plan} {b5 : Nat} :
    Keeps s (State.produceAt s b1 b2 b3 b4 b5) := by
  delta State.produceAt
  extract_lets v0 v1 v2 v3 v4
  clear_value v0 v1
  have h5 : Keeps s v2 := by
    unfold v2
    refine Keeps.trans ?_ State.openRaw_keeps
    exact State.setRun_keeps
  clear_value v2
  have h6 : Keeps s v3 := by
    unfold v3
    refine Keeps.trans ?_ State.modRun_keeps
    refine Keeps.trans ?_ State.closeRaw_keeps
    exact h5
  clear_value v3
  have h7 : Keeps s v4 := by
    unfold v4
    refine Keeps.trans ?_ State.modRun_keeps
    exact h5
  clear_value v4
  split
  · refine Keeps.trans ?_ State.outDone_keeps
    refine Keeps.trans ?_ State.modRun_keeps
    exact h5
  · refine Keeps.trans ?_ State.outDone_keeps
    refine Keeps.trans ?_ State.useRegrow_keeps
    exact h6
  · refine Keeps.trans ?_ State.tryLeg_keeps
    exact h7

theorem State.startPoint_keeps {s : State} {b1 b2 : Nat} {b3 : LEntry} {b4 : Run} :
    Keeps s (State.startPoint s b1 b2 b3 b4) := by
  delta State.startPoint
  extract_lets v0
  have h1 : Keeps s v0 := by
    unfold v0
    exact State.modRun_keeps
  clear_value v0
  split
  · refine Keeps.trans ?_ State.tryRegrow_keeps
    refine Keeps.trans ?_ State.openRaw_keeps
    exact h1
  · refine Keeps.trans ?_ State.pump_keeps
    exact h1

theorem State.firstPoint_keeps {s : State} {b1 b2 : Nat} {b3 : LEntry} {b4 : Run} :
    Keeps s (State.firstPoint s b1 b2 b3 b4) := by
  delta State.firstPoint
  extract_lets v0
  have h1 : Keeps s v0 := by
    unfold v0
    refine Keeps.trans ?_ State.adapt_keeps
    exact State.dropLegWait_keeps
  clear_value v0
  split
  · refine Keeps.trans ?_ State.itemDone_keeps
    refine Keeps.trans ?_ State.modRun_keeps
    exact h1
  · split
    · exact State.itemDone_keeps
    · exact Keeps.refl _

theorem State.setArena_keeps {s : State} {b1 : Nat} :
    Keeps s (State.setArena s b1) := by
  delta State.setArena
  extract_lets v0 v1 v2 v3 v4 v5
  clear_value v0 v1
  have h6 : Keeps s v2 := by
    unfold v2
    refine Keeps.trans ?_ (Keeps.foldl (fun x7 a8 => ?_) _ _)
    · exact Keeps.refl _
    · exact State.tag_keeps
  clear_value v2 v3
  have h9 : Keeps s v4 := by
    unfold v4
    refine Keeps.trans ?_ (Keeps.foldl (fun x10 a11 => ?_) _ _)
    · exact h6
    · exact State.untag_keeps
  clear_value v4 v5
  refine Keeps.upd (u := v4) rfl ?_
  exact h9

theorem State.lastPoint_keeps {s : State} {b1 b2 : Nat} {b3 : LEntry} {b4 : Run} :
    Keeps s (State.lastPoint s b1 b2 b3 b4) := by
  delta State.lastPoint
  extract_lets v0 v1
  have h2 : Keeps s v0 := by
    unfold v0
    split
    · exact State.outDone_keeps
    · exact Keeps.refl _
  clear_value v0
  have h7 : Keeps s v1 := by
    unfold v1
    refine Keeps.trans ?_ State.modRun_keeps
    refine Keeps.trans ?_ State.closeRaw_keeps
    exact h2
  clear_value v1
  split
  · refine Keeps.trans ?_ State.setArena_keeps
    exact h7
  · exact h7

theorem State.entryPoints_keeps {s : State} {b1 b2 : Nat} :
    Keeps s (State.entryPoints s b1 b2) := by
  delta State.entryPoints
  split
  · extract_lets v7 v8 v9 v10
    clear_value v7
    have h11 : ∀ c0, Keeps c0 (v8 c0) := by
      unfold v8
      intro c0
      split
      · exact Keeps.refl _
      · extract_lets v17 v18 v19 v20
        have h21 : Keeps c0 v17 := by
          unfold v17
          split
          · exact State.startPoint_keeps
          · exact Keeps.refl _
        clear_value v17 v18
        have h24 : Keeps c0 v19 := by
          unfold v19
          split
          · refine Keeps.trans ?_ State.firstPoint_keeps
            exact h21
          · exact h21
        clear_value v19 v20
        split
        · refine Keeps.trans ?_ State.lastPoint_keeps
          exact h24
        · split
          · refine Keeps.trans ?_ State.lastPoint_keeps
            exact h24
          · exact h24
    clear_value v8
    have h31 : Keeps s v9 := by
      unfold v9
      exact h11 _
    clear_value v9 v10
    split
    · split
      · refine Keeps.trans ?_ (h11 _)
        refine Keeps.trans ?_ State.produceAt_keeps
        exact h31
      · exact h31
    · split
      · refine Keeps.trans ?_ (h11 _)
        refine Keeps.trans ?_ State.produceAt_keeps
        exact h31
      · exact h31
  · exact Keeps.refl _

theorem State.noteObject_keeps {s : State} {b1 : Nat} :
    Keeps s (State.noteObject s b1) := by
  delta State.noteObject
  split
  · extract_lets v4
    clear_value v4
    exact State.setHold_keeps
  · exact Keeps.refl _

theorem State.freeChan_keeps {s : State} {b1 b2 : Nat} :
    Keeps s (State.freeChan s b1 b2) := by
  delta State.freeChan
  extract_lets v0 v1
  have h2 : Keeps s v0 := by
    unfold v0
    exact State.releaseChan_keeps
  clear_value v0 v1
  refine Keeps.trans ?_ State.setChan_keeps
  exact h2

theorem State.outComplete_keeps {s : State} {b1 b2 b3 b4 : Nat} {b5 : LEntry} {b6 : Run} :
    Keeps s (State.outComplete s b1 b2 b3 b4 b5 b6) := by
  delta State.outComplete
  extract_lets v0 v1
  have h2 : Keeps s v0 := by
    unfold v0
    split
    · refine Keeps.trans ?_ State.modRun_keeps
      exact State.moveHome_keeps
    · refine Keeps.trans ?_ State.closeRaw_keeps
      exact State.noteObject_keeps
    · exact Keeps.refl _
  clear_value v0
  have h23 : Keeps s v1 := by
    unfold v1
    refine Keeps.trans ?_ State.modRun_keeps
    exact h2
  clear_value v1
  refine Keeps.trans ?_ State.pump_keeps
  refine Keeps.trans ?_ State.outDone_keeps
  refine Keeps.trans ?_ State.freeChan_keeps
  exact h23

theorem State.backComplete_keeps {s : State} {b1 b2 b3 b4 : Nat} {b5 : LEntry} {b6 : Run} :
    Keeps s (State.backComplete s b1 b2 b3 b4 b5 b6) := by
  delta State.backComplete
  extract_lets v0 v1
  have h2 : Keeps s v0 := by
    unfold v0
    split
    · refine Keeps.trans ?_ State.modRun_keeps
      exact State.moveHome_keeps
    · exact State.freeRest_keeps
  clear_value v0
  have h10 : Keeps s v1 := by
    unfold v1
    refine Keeps.trans ?_ State.count_keeps
    refine Keeps.trans ?_ State.freeChan_keeps
    exact h2
  clear_value v1
  refine Keeps.trans ?_ State.pump_keeps
  refine Keeps.trans ?_ State.itemDone_keeps
  exact h10

theorem State.outFailed_keeps {s : State} {b1 b2 : Nat} {b3 : LEntry} {b4 : Run} {b5 : Nat} :
    Keeps s (State.outFailed s b1 b2 b3 b4 b5) := by
  delta State.outFailed
  extract_lets v0 v1 v2 v3
  have h4 : Keeps s v0 := by
    unfold v0
    split
    · exact Keeps.refl _
    · exact State.freeRest_keeps
  clear_value v0 v1
  have h9 : Keeps s v2 := by
    unfold v2
    split
    · refine Keeps.trans ?_ State.modRun_keeps
      refine Keeps.trans ?_ State.adapt_keeps
      exact h4
    · refine Keeps.trans ?_ State.modRun_keeps
      exact h4
  clear_value v2
  have h14 : Keeps s v3 := by
    unfold v3
    refine Keeps.trans ?_ State.modRun_keeps
    exact h9
  clear_value v3
  split
  · exact State.modRun_keeps
  · refine Keeps.trans ?_ State.pump_keeps
    refine Keeps.trans ?_ State.outDone_keeps
    exact h14

theorem State.backFailed_keeps {s : State} {b1 b2 : Nat} {b3 : LEntry} {b4 : Run} {b5 : Nat} :
    Keeps s (State.backFailed s b1 b2 b3 b4 b5) := by
  delta State.backFailed
  split
  · exact State.modRun_keeps
  · refine Keeps.trans ?_ State.pump_keeps
    exact State.fallback_keeps

theorem State.legFailed_keeps {s : State} {b1 b2 b3 b4 : Nat} {b5 : Bool} {b6 : Nat} :
    Keeps s (State.legFailed s b1 b2 b3 b4 b5 b6) := by
  delta State.legFailed
  extract_lets v0
  have h1 : Keeps s v0 := by
    unfold v0
    exact State.freeChan_keeps
  clear_value v0
  split
  · split
    · refine Keeps.trans ?_ State.pump_keeps
      exact h1
    · split
      · refine Keeps.trans ?_ State.backFailed_keeps
        exact h1
      · refine Keeps.trans ?_ State.outFailed_keeps
        exact h1
  · exact h1

theorem State.legTransfer_keeps {s : State} {b1 b2 : Nat} {b3 : Ext} {b4 : Ecc} :
    Keeps s (State.legTransfer s b1 b2 b3 b4) := by
  delta State.legTransfer
  extract_lets v0
  clear_value v0
  split
  · exact Keeps.refl _
  · split
    · exact Keeps.refl _
    · split
      · refine Keeps.trans ?_ State.failChan_keeps
        exact State.eccUncorrected_keeps
      · refine Keeps.trans ?_ State.failChan_keeps
        exact State.raise_keeps
      · refine Keeps.trans ?_ State.runOp_keeps
        split
        · exact State.eccCorrected_keeps
        · exact Keeps.refl _

theorem State.legComplete_keeps {s : State} {b1 b2 : Nat} {b3 : Bool} {b4 : Ext} {b5 : Ecc} :
    Keeps s (State.legComplete s b1 b2 b3 b4 b5) := by
  delta State.legComplete
  split
  · split
    · extract_lets v11
      have h12 : Keeps s v11 := by
        unfold v11
        exact State.legTransfer_keeps
      clear_value v11
      split
      · exact Keeps.refl _
      · split
        · split
          · refine Keeps.trans ?_ State.backComplete_keeps
            exact h12
          · refine Keeps.trans ?_ State.outComplete_keeps
            exact h12
        · exact h12
  · exact Keeps.refl _

theorem State.backStart_keeps {s : State} {b1 b2 : Nat} :
    Keeps s (State.backStart s b1 b2) := by
  delta State.backStart
  split
  · split
    · exact Keeps.refl _
    · split
      · split
        · exact State.startPoint_keeps
        · exact Keeps.refl _
      · exact State.pump_keeps
  · exact Keeps.refl _

theorem State.regrowStart_keeps {s : State} {b1 b2 : Nat} :
    Keeps s (State.regrowStart s b1 b2) := by
  delta State.regrowStart
  split
  · split
    · exact Keeps.refl _
    · split
      · split
        · exact State.startPoint_keeps
        · exact Keeps.refl _
      · exact State.tryRegrow_keeps
  · exact Keeps.refl _

theorem State.reissue_keeps {s : State} {b1 b2 : Nat} :
    Keeps s (State.reissue s b1 b2) := by
  delta State.reissue
  split
  · split
    · refine Keeps.trans ?_ State.pump_keeps
      exact State.modRun_keeps
    · exact Keeps.refl _
  · exact Keeps.refl _

theorem State.stopItem_keeps {s : State} {b1 b2 : Nat} {b3 : LEntry} :
    Keeps s (State.stopItem s b1 b2 b3) := by
  delta State.stopItem
  split
  · extract_lets v5 v6 v7
    have h8 : Keeps s v5 := by
      unfold v5
      split
      · exact State.moveFailed_keeps
      · exact Keeps.refl _
    clear_value v5
    have h14 : Keeps s v6 := by
      unfold v6
      split
      · refine Keeps.trans ?_ State.moveFailed_keeps
        exact h8
      · exact h8
    clear_value v6
    have h20 : Keeps s v7 := by
      unfold v7
      split
      · split
        · refine Keeps.trans ?_ State.freeChan_keeps
          exact h14
        · exact by assumption
      · exact by assumption
    clear_value v7
    split
    · extract_lets v34 v35
      have h36 : Keeps s v34 := by
        unfold v34
        refine Keeps.trans ?_ State.drainCtx_keeps
        exact h20
      clear_value v34 v35
      refine Keeps.trans ?_ State.setCtx_keeps
      refine Keeps.trans ?_ State.holdEnd_keeps
      refine Keeps.trans ?_ State.cancelWait_keeps
      exact h36
    · exact by assumption

theorem State.scalerDeadline_keeps {s : State} {b1 b2 : Nat} :
    Keeps s (State.scalerDeadline s b1 b2) := by
  delta State.scalerDeadline
  split
  · extract_lets v7 v8 v9
    clear_value v7
    have h10 : Keeps s v8 := by
      unfold v8
      exact State.late_keeps
    clear_value v8
    have h11 : Keeps s v9 := by
      unfold v9
      refine Keeps.trans ?_ State.modRun_keeps
      refine Keeps.trans ?_ State.issue_keeps
      refine Keeps.trans ?_ State.stopItem_keeps
      exact h10
    clear_value v9
    split
    · exact Keeps.refl _
    · split
      · refine Keeps.trans ?_ State.modRun_keeps
        exact h10
      · refine Keeps.trans ?_ State.pump_keeps
        refine Keeps.trans ?_ State.itemFailed_keeps
        exact h11
  · exact Keeps.refl _

theorem State.endScaler_keeps {s : State} {b1 b2 b3 : Nat} :
    Keeps s (State.endScaler s b1 b2 b3) := by
  delta State.endScaler
  split
  · split
    · exact Keeps.refl _
    · refine Keeps.trans ?_ State.itemFailed_keeps
      refine Keeps.trans ?_ State.modRun_keeps
      exact State.stopItem_keeps
  · exact Keeps.refl _

theorem State.retirePlan_keeps {s : State} {b1 : Nat} :
    Keeps s (State.retirePlan s b1) := by
  delta State.retirePlan
  extract_lets v0 v1 v2 v3 v4 v5 v6
  clear_value v0 v1 v2
  have h7 : Keeps s v3 := by
    unfold v3
    refine Keeps.trans ?_ (Keeps.foldl (fun x8 a9 => ?_) _ _)
    · exact Keeps.refl _
    · refine Keeps.trans ?_ State.clearRun_keeps
      refine Keeps.trans ?_ State.freeRest_keeps
      exact State.closeRaw_keeps
  clear_value v3 v4
  have h10 : Keeps s v5 := by
    unfold v5
    refine Keeps.trans ?_ (Keeps.foldl (fun x11 a12 => ?_) _ _)
    · exact h7
    · refine Keeps.trans ?_ State.setRun_keeps
      exact State.clearRun_keeps
  clear_value v5 v6
  refine Keeps.upd (u := v5) rfl ?_
  exact h10

theorem State.renumberLegs_keeps {s : State} {b1 : Nat} :
    Keeps s (State.renumberLegs s b1) := by
  delta State.renumberLegs
  extract_lets v0
  clear_value v0
  exact Keeps.of rfl

theorem State.activatePlan_keeps {s : State} {b1 : Nat} :
    Keeps s (State.activatePlan s b1) := by
  delta State.activatePlan
  extract_lets v0 v1 v2 v3
  clear_value v0 v1
  have h4 : Keeps s v2 := by
    unfold v2
    exact State.retirePlan_keeps
  clear_value v2 v3
  split
  · exact Keeps.refl _
  · extract_lets v12 v13 v14
    have h15 : ∀ c0, Keeps s (v12 c0) := by
      unfold v12
      intro c0
      refine Keeps.trans ?_ State.logAdd_keeps
      exact State.ledgerFailed_keeps
    clear_value v12
    have h16 : Keeps s v13 := by
      unfold v13
      refine Keeps.trans ?_ State.setLedger_keeps
      exact h4
    clear_value v13
    have h17 : Keeps s v14 := by
      unfold v14
      refine Keeps.trans ?_ State.raise_keeps
      refine Keeps.trans ?_ State.setArena_keeps
      refine Keeps.trans ?_ State.renumberLegs_keeps
      exact h16
    clear_value v14
    split
    · exact Keeps.refl _
    · split
      · exact h15 _
      · split
        · exact h15 _
        · refine Keeps.trans ?_ State.logAdd_keeps
          exact h17

theorem State.withdrawPlan_keeps {s : State} {b1 : Nat} :
    Keeps s (State.withdrawPlan s b1) := by
  delta State.withdrawPlan
  extract_lets v0 v1 v2 v3
  clear_value v0
  have h4 : Keeps s v1 := by
    unfold v1
    exact State.retirePlan_keeps
  clear_value v1 v2
  have h5 : Keeps s v3 := by
    unfold v3
    refine Keeps.trans ?_ State.setLedger_keeps
    exact h4
  clear_value v3
  split
  · exact Keeps.refl _
  · refine Keeps.trans ?_ State.logAdd_keeps
    refine Keeps.trans ?_ State.setArena_keeps
    refine Keeps.trans ?_ State.renumberLegs_keeps
    exact h5

theorem State.scalerWrap_keeps {s : State} :
    Keeps s (State.scalerWrap s) := by
  delta State.scalerWrap
  extract_lets v0 v1
  have h2 : Keeps s v0 := by
    unfold v0
    refine Keeps.trans ?_ (Keeps.foldl (fun x3 a4 => ?_) _ _)
    · exact Keeps.refl _
    · refine Keeps.trans ?_ State.withdrawPlan_keeps
      exact State.activatePlan_keeps
  clear_value v0 v1
  refine Keeps.upd (u := v0) rfl ?_
  exact h2

theorem State.carryData_keeps {s : State} {b1 b2 : Nat} {b3 : Holding} {b4 : Carry} {b5 : List Byte} :
    KeepsExcSnd s (State.carryData s b1 b2 b3 b4 b5) := by
  delta State.carryData
  extract_lets v0 v1 v2 v3
  clear_value v0 v1 v2 v3
  split
  · refine KeepsExcSnd.ok ?_
    exact Keeps.refl _
  · extract_lets v11 v12 v13 v14 v15 v16
    clear_value v11 v12
    have h17 : Keeps s v13 := by
      unfold v13
      refine Keeps.trans ?_ (Keeps.foldl (fun x18 a19 => ?_) _ _)
      · exact Keeps.refl _
      · exact State.writeOut_keeps
    clear_value v13
    have h20 : Keeps s v14 := by
      unfold v14
      refine Keeps.trans ?_ State.count_keeps
      refine Keeps.trans ?_ State.count_keeps
      refine Keeps.trans ?_ State.count_keeps
      exact h17
    clear_value v14 v15
    have h21 : Keeps s v16 := by
      unfold v16
      refine Keeps.trans ?_ State.count_keeps
      refine Keeps.trans ?_ (Keeps.foldl (fun x22 a23 => ?_) _ _)
      · exact Keeps.refl _
      · exact State.writeOut_keeps
    clear_value v16
    split
    · refine KeepsExcSnd.ok ?_
      exact State.writeOut_keeps
    · split
      · exact KeepsExcSnd.error
      · refine KeepsExcSnd.ok ?_
        refine Keeps.trans ?_ State.count_keeps
        exact h20
    · split
      · exact KeepsExcSnd.error
      · refine KeepsExcSnd.ok ?_
        exact h21

theorem State.arrived_keeps {s : State} {b1 b2 : Nat} :
    Keeps s (State.arrived s b1 b2) := by
  delta State.arrived
  extract_lets v0 v1 v2
  have h3 : Keeps s v0 := by
    unfold v0
    exact State.moveHome_keeps
  clear_value v0
  have h4 : Keeps s v1 := by
    unfold v1
    split
    · refine Keeps.trans ?_ State.setHold_keeps
      exact h3
    · exact by assumption
  clear_value v1 v2
  split
  · refine Keeps.trans ?_ State.freeHold_keeps
    refine Keeps.upd (u := v1) rfl ?_
    exact h4
  · exact by assumption

theorem State.setPark_keeps {s : State} {b1 : Parked} :
    Keeps s (State.setPark s b1) := by
  delta State.setPark
  extract_lets v0
  clear_value v0
  exact Keeps.of rfl

theorem State.dropPark_keeps {s : State} {b1 b2 : Nat} :
    Keeps s (State.dropPark s b1 b2) := by
  delta State.dropPark
  extract_lets v0
  clear_value v0
  exact Keeps.of rfl

theorem State.parkEnter_keeps {s : State} {b1 b2 b3 : Nat} {b4 : List Nat} :
    Keeps s (State.parkEnter s b1 b2 b3 b4) := by
  delta State.parkEnter
  extract_lets v0 v1
  clear_value v0 v1
  split
  · exact State.issue_keeps
  · exact Keeps.of rfl

theorem State.startPage_keeps {s : State} {b1 : Parked} {b2 b3 : Nat} {b4 : Holding} {b5 b6 : Nat} {b7 : Bool} :
    Keeps s (State.startPage s b1 b2 b3 b4 b5 b6 b7) := by
  delta State.startPage
  split
  · extract_lets v5 v6
    have h7 : Keeps s v5 := by
      unfold v5
      exact State.setHold_keeps
    clear_value v5
    have h8 : Keeps s v6 := by
      unfold v6
      refine Keeps.trans ?_ State.setPark_keeps
      exact h7
    clear_value v6
    refine Keeps.trans ?_ State.putItem_keeps
    exact h8

theorem State.parkMove_keeps {s : State} {b1 b2 : Nat} :
    Keeps s (State.parkMove s b1 b2) := by
  delta State.parkMove
  split
  · exact Keeps.refl _
  · split
    · exact Keeps.refl _
    · split
      · exact Keeps.refl _
      · split
        · exact Keeps.refl _
        · extract_lets v20 v21
          clear_value v20 v21
          split
          · exact State.startPage_keeps
          · refine Keeps.trans ?_ State.raise_keeps
            refine Keeps.trans ?_ State.count_keeps
            exact State.setPark_keeps

theorem State.returnNext_keeps {s : State} {b1 b2 : Nat} :
    Keeps s (State.returnNext s b1 b2) := by
  delta State.returnNext
  split
  · exact Keeps.refl _
  · split
    · exact Keeps.refl _
    · split
      · exact Keeps.refl _
      · split
        · exact Keeps.refl _
        · extract_lets v20
          clear_value v20
          split
          · exact Keeps.refl _
          · split
            · refine Keeps.trans ?_ State.startPage_keeps
              exact KeepsSnd.of State.placeKv_keeps (by assumption)
            · exact KeepsSnd.of State.placeKv_keeps (by assumption)

theorem State.pageMoved_keeps {s : State} {b1 b2 b3 b4 : Nat} {b6 : Bool} {b7 : List Byte} :
    Keeps s (State.pageMoved s b1 b2 b3 b4 b6 b7) := by
  delta State.pageMoved
  extract_lets v0
  clear_value v0
  split
  · exact State.freeChan_keeps
  · extract_lets v9
    clear_value v9
    split
    · extract_lets v14
      have h15 : Keeps s v14 := by
        unfold v14
        refine Keeps.trans ?_ State.freeChan_keeps
        refine Keeps.trans ?_ State.arrived_keeps
        exact State.carryData_keeps _ _ (by assumption)
      clear_value v14
      split
      · refine Keeps.trans ?_ State.returnNext_keeps
        refine Keeps.trans ?_ State.setPark_keeps
        exact h15
      · exact h15
    · extract_lets v24
      have h25 : Keeps s v24 := by
        unfold v24
        refine Keeps.trans ?_ State.stopChan_keeps
        exact State.moveFailed_keeps
      clear_value v24
      exact h25

theorem State.pageFailed_keeps {s : State} {b1 b2 b3 b4 b5 : Nat} :
    Keeps s (State.pageFailed s b1 b2 b3 b4 b5) := by
  delta State.pageFailed
  extract_lets v0 v1
  have h2 : Keeps s v0 := by
    unfold v0
    refine Keeps.trans ?_ State.count_keeps
    exact State.freeChan_keeps
  clear_value v0
  have h3 : Keeps s v1 := by
    unfold v1
    refine Keeps.trans ?_ State.raise_keeps
    exact h2
  clear_value v1
  split
  · refine Keeps.trans ?_ State.setPark_keeps
    exact h3
  · exact h3

theorem State.parkResume_keeps {s : State} {b1 b2 b3 : Nat} :
    Keeps s (State.parkResume s b1 b2 b3) := by
  delta State.parkResume
  split
  · refine Keeps.trans ?_ State.returnNext_keeps
    exact State.setPark_keeps
  · exact Keeps.refl _

theorem State.parkRelease_keeps {s : State} {b1 b2 : Nat} :
    Keeps s (State.parkRelease s b1 b2) := by
  delta State.parkRelease
  split
  · exact Keeps.refl _
  · refine Keeps.trans ?_ State.dropPark_keeps
    refine Keeps.trans ?_ (Keeps.foldl (fun x7 a8 => ?_) _ _)
    · exact Keeps.refl _
    · split
      · extract_lets v12
        clear_value v12
        split
        · exact Keeps.of rfl
        · exact State.freeHold_keeps
      · exact Keeps.refl _

theorem State.parkExpire_keeps {s : State} :
    KeepsSnd s (State.parkExpire s) := by
  delta State.parkExpire
  extract_lets v0
  clear_value v0
  refine KeepsSnd.mk ?_
  refine Keeps.trans ?_ (Keeps.foldl (fun x1 a2 => ?_) _ _)
  · exact Keeps.refl _
  · refine Keeps.trans ?_ State.issue_keeps
    refine Keeps.trans ?_ State.raise_keeps
    refine Keeps.trans ?_ State.count_keeps
    exact State.parkRelease_keeps

theorem State.parkWrap_keeps {s : State} :
    Keeps s (State.parkWrap s) := by
  delta State.parkWrap
  extract_lets v0
  clear_value v0
  exact Keeps.of rfl

theorem State.setReq_keeps {s : State} {b1 : Nat} {b2 : Req} :
    Keeps s (State.setReq s b1 b2) := by
  delta State.setReq
  extract_lets v0
  clear_value v0
  exact Keeps.of rfl

theorem State.modReq_keeps {s : State} {b1 : Nat} {b2 : Req → Req} :
    Keeps s (State.modReq s b1 b2) := by
  delta State.modReq
  split
  · exact State.setReq_keeps
  · exact Keeps.refl _

theorem State.freeRecord_keeps {s : State} {b1 : Nat} :
    Keeps s (State.freeRecord s b1) := by
  delta State.freeRecord
  extract_lets v0
  clear_value v0
  exact Keeps.of rfl

theorem State.setSrvPart_keeps {s : State} {b1 : Nat} {b2 : SrvPart} :
    Keeps s (State.setSrvPart s b1 b2) := by
  delta State.setSrvPart
  extract_lets v0
  clear_value v0
  exact Keeps.of rfl

theorem State.modSrvPart_keeps {s : State} {b1 : Nat} {b2 : SrvPart → SrvPart} :
    Keeps s (State.modSrvPart s b1 b2) := by
  delta State.modSrvPart
  exact State.setSrvPart_keeps

theorem State.setAcct_keeps {s : State} {b1 b2 : Nat} {b3 : Acct} :
    Keeps s (State.setAcct s b1 b2 b3) := by
  delta State.setAcct
  extract_lets v0
  clear_value v0
  exact Keeps.of rfl

theorem State.queueLeft_keeps {s : State} {b1 b2 : Nat} :
    Keeps s (State.queueLeft s b1 b2) := by
  delta State.queueLeft
  extract_lets v0
  clear_value v0
  split
  · exact State.setAcct_keeps
  · exact Keeps.refl _

theorem State.charge_keeps {s : State} {b1 b2 b3 : Nat} :
    Keeps s (State.charge s b1 b2 b3) := by
  delta State.charge
  extract_lets v0
  clear_value v0
  split
  · exact Keeps.refl _
  · exact State.setAcct_keeps

theorem State.setModel_keeps {s : State} {b1 b2 : Nat} {b3 : Model} :
    Keeps s (State.setModel s b1 b2 b3) := by
  delta State.setModel
  exact State.modSrvPart_keeps

theorem State.ptPut_keeps {s : State} {b1 : Req} {b2 : Bool} {b3 b4 b5 : Nat} :
    Keeps s (State.ptPut s b1 b2 b3 b4 b5) := by
  delta State.ptPut
  exact State.wrNat_keeps

theorem State.ptInit_keeps {s : State} {b1 : Nat} {b2 : Req} :
    Keeps s (State.ptInit s b1 b2) := by
  delta State.ptInit
  split
  · exact Keeps.refl _
  · extract_lets v7 v8 v9 v10 v11
    have h12 : Keeps s v7 := by
      unfold v7
      exact State.zero_keeps
    clear_value v7 v8
    have h13 : ∀ c0 c1 c2, Keeps c0 (v9 c0 c1 c2) := by
      unfold v9
      intro c0 c1 c2
      extract_lets v14
      have h15 : Keeps c0 v14 := by
        unfold v14
        refine Keeps.trans ?_ State.ptPut_keeps
        exact State.ptPut_keeps
      clear_value v14
      refine Keeps.trans ?_ State.ptPut_keeps
      refine Keeps.trans ?_ State.ptPut_keeps
      exact h15
    clear_value v9
    have h16 : Keeps s v10 := by
      unfold v10
      refine Keeps.trans ?_ (h13 _ _ _)
      exact h12
    clear_value v10
    have h17 : Keeps s v11 := by
      unfold v11
      split
      · refine Keeps.trans ?_ State.ptPut_keeps
        exact h16
      · exact h16
    clear_value v11
    split
    · exact h17
    · refine Keeps.trans ?_ (h13 _ _ _)
      refine Keeps.trans ?_ State.ptPut_keeps
      exact h17

theorem State.ptEntry_keeps {s : State} {b1 : Req} {b2 : Bool} {b3 : Nat} {b4 : KvPage} :
    Keeps s (State.ptEntry s b1 b2 b3 b4) := by
  delta State.ptEntry
  extract_lets v0 v1
  clear_value v0 v1
  exact State.wr_keeps

theorem State.putPage_keeps {s : State} {b1 : Nat} {b2 : Req} {b3 : Bool} {b4 : Nat} {b5 : KvPage} :
    Keeps s (State.putPage s b1 b2 b3 b4 b5) := by
  delta State.putPage
  extract_lets v0 v1
  clear_value v0
  have h2 : Keeps s v1 := by
    unfold v1
    refine Keeps.trans ?_ State.ptEntry_keeps
    exact State.setReq_keeps
  clear_value v1
  refine Keeps.trans ?_ State.ptPut_keeps
  exact h2

theorem State.needPage_keeps {s : State} {b1 : Nat} {b2 : Bool} {b3 b4 : Nat} :
    KeepsOpt s (State.needPage s b1 b2 b3 b4) := by
  delta State.needPage
  split
  · refine KeepsOpt.some ?_
    exact Keeps.refl _
  · extract_lets v7
    clear_value v7
    split
    · refine KeepsOpt.some ?_
      exact Keeps.refl _
    · split
      · refine KeepsOpt.some ?_
        refine Keeps.trans ?_ State.putPage_keeps
        exact KeepsSnd.of State.allocKv_keeps (by assumption)
      · exact KeepsOpt.none

theorem State.needPages_keeps {s : State} {b1 b2 b3 b4 : Nat} : KeepsOpt s (State.needPages s b1 b2 b3 b4) := by
  have key (d : Bool) (ns : List Nat) (o : Option State) (h : KeepsOpt s o) :
      KeepsOpt s (ns.foldl (fun (s : Option State) n => s.bind (fun s => s.needPage b1 d n b4)) o) := by
    induction ns generalizing o with
    | nil => exact h
    | cons n ns ih =>
      refine ih _ ?_
      cases o with
      | none => exact KeepsOpt.none
      | some t => exact KeepsOpt.trans (h t rfl) State.needPage_keeps
  unfold State.needPages
  split
  · exact KeepsOpt.some (Keeps.refl _)
  · simp only
    split
    · exact key _ _ _ (KeepsOpt.some (Keeps.refl _))
    · exact key _ _ _ (key _ _ _ (KeepsOpt.some (Keeps.refl _)))

theorem State.setNode_keeps {s : State} {b1 b2 : Nat} {b3 : Node} :
    Keeps s (State.setNode s b1 b2 b3) := by
  delta State.setNode
  exact State.wr_keeps

theorem State.setRefs_keeps {s : State} {b1 b2 : Nat} {b3 : Node} {b4 : Nat} :
    Keeps s (State.setRefs s b1 b2 b3 b4) := by
  delta State.setRefs
  extract_lets v0
  have h1 : Keeps s v0 := by
    unfold v0
    exact State.setNode_keeps
  clear_value v0
  split
  · split
    · refine Keeps.trans ?_ State.setHold_keeps
      exact h1
    · exact h1
  · exact h1

theorem State.unlinkNode_keeps {s : State} {b1 b2 b3 : Nat} :
    Keeps s (State.unlinkNode s b1 b2 b3) := by
  delta State.unlinkNode
  refine Keeps.trans ?_ (Keeps.foldl (fun x0 a1 => ?_) _ _)
  · exact Keeps.refl _
  · split
    · split
      · exact State.setNode_keeps
      · exact Keeps.refl _
    · exact Keeps.refl _

theorem State.freeTreeHold_keeps {s : State} {b1 b2 : Nat} :
    Keeps s (State.freeTreeHold s b1 b2) := by
  delta State.freeTreeHold
  extract_lets v0
  clear_value v0
  split
  · exact Keeps.refl _
  · split
    · split
      · exact State.freeHold_keeps
      · exact Keeps.refl _
    · exact Keeps.refl _

theorem State.discardNode_keeps {s : State} {b1 b2 : Nat} :
    Keeps s (State.discardNode s b1 b2) := by
  delta State.discardNode
  extract_lets v0 v1 v2 v3 v4
  clear_value v0 v1
  have h5 : Keeps s v2 := by
    unfold v2
    exact State.unlinkNode_keeps
  clear_value v2
  have h6 : Keeps s v3 := by
    unfold v3
    refine Keeps.trans ?_ (Keeps.foldl (fun x7 a8 => ?_) _ _)
    · exact h5
    · split
      · exact State.freeTreeHold_keeps
      · exact Keeps.refl _
  clear_value v3
  have h16 : Keeps s v4 := by
    unfold v4
    refine Keeps.trans ?_ (Keeps.foldl (fun x17 a18 => ?_) _ _)
    · exact h6
    · exact State.setNode_keeps
  clear_value v4
  refine Keeps.trans ?_ State.modSrvPart_keeps
  exact h16

theorem State.discardPage_keeps {s : State} {b1 b2 : Nat} :
    Keeps s (State.discardPage s b1 b2) := by
  delta State.discardPage
  split
  · exact Keeps.refl _
  · split
    · exact State.discardNode_keeps
    · exact State.freeTreeHold_keeps

theorem State.sweepTree_keeps {s : State} {b1 b2 : Nat} :
    Keeps s (State.sweepTree s b1 b2) := by
  delta State.sweepTree
  extract_lets v0 v1 v2 v3 v4 v5
  clear_value v0 v1
  have h6 : Keeps s v2 := by
    unfold v2
    exact State.modSrvPart_keeps
  clear_value v2
  have h7 : Keeps s v3 := by
    unfold v3
    refine Keeps.trans ?_ (Keeps.foldl (fun x8 a9 => ?_) _ _)
    · exact h6
    · exact State.setNode_keeps
  clear_value v3 v4 v5
  refine Keeps.trans ?_ (Keeps.foldl (fun x10 a11 => ?_) _ _)
  · exact h7
  · exact State.freeTreeHold_keeps

theorem State.unshare_keeps {s : State} {b1 b2 b3 : Nat} :
    Keeps s (State.unshare s b1 b2 b3) := by
  delta State.unshare
  split
  · split
    · exact State.setRefs_keeps
    · exact State.freeTreeHold_keeps
  · exact State.freeTreeHold_keeps

theorem State.settleLeft_keeps {s : State} {b1 : Leftover} :
    KeepsSnd s (State.settleLeft s b1) := by
  delta State.settleLeft
  extract_lets v0 v1 v2 v3 v4 v5
  clear_value v0 v1
  have h6 : Keeps s v2 := by
    unfold v2
    refine Keeps.trans ?_ (Keeps.foldl (fun x7 a8 => ?_) _ _)
    · exact Keeps.refl _
    · exact State.freeHold_keeps
  clear_value v2 v3
  have h9 : Keeps s v4 := by
    unfold v4
    refine Keeps.upd (u := v2) rfl ?_
    exact h6
  clear_value v4
  have h10 : Keeps s v5 := by
    unfold v5
    refine Keeps.trans ?_ (Keeps.foldl (fun x11 a12 => ?_) _ _)
    · exact h9
    · exact State.unshare_keeps
  clear_value v5
  split
  · refine KeepsSnd.mk ?_
    exact Keeps.refl _
  · split
    · refine KeepsSnd.mk ?_
      exact h6
    · refine KeepsSnd.mk ?_
      split
      · refine Keeps.trans ?_ State.freeHold_keeps
        exact h10
      · exact h10

theorem State.settleLeftovers_keeps {s : State} : Keeps s (State.settleLeftovers s) := by
  have key (l : List Leftover) (acc : List Leftover × State) :
      Keeps acc.2 (l.foldl (fun (acc : List Leftover × State) x =>
        ((match (acc.2.settleLeft x).1 with | some y => acc.1 ++ [y] | none => acc.1, (acc.2.settleLeft x).2) : List Leftover × State)) acc).2 := by
    induction l generalizing acc with
    | nil => exact Keeps.refl _
    | cons x l ih =>
      rw [List.foldl_cons]
      exact Keeps.trans (show Keeps acc.2 (acc.2.settleLeft x).2 from State.settleLeft_keeps) (ih (_, (acc.2.settleLeft x).2))
  unfold State.settleLeftovers
  exact Keeps.trans (key s.srv.left ([], s)) (Keeps.of rfl)

theorem State.wrapLeftovers_keeps {s : State} :
    Keeps s (State.wrapLeftovers s) := by
  delta State.wrapLeftovers
  extract_lets v0
  clear_value v0
  refine Keeps.trans ?_ State.settleLeftovers_keeps
  exact Keeps.of rfl

theorem State.finalEntry_keeps {s : State} {b1 b2 b3 b4 b5 b6 : Nat} {b7 : Bool} :
    Keeps s (State.finalEntry s b1 b2 b3 b4 b5 b6 b7) := by
  delta State.finalEntry
  exact State.ready_keeps

theorem State.postNotice_keeps {s : State} {b1 b2 b3 b4 b5 b6 : Nat} :
    Keeps s (State.postNotice s b1 b2 b3 b4 b5 b6) := by
  delta State.postNotice
  extract_lets v0 v1 v2
  clear_value v0 v1
  have h3 : Keeps s v2 := by
    unfold v2
    exact State.setFn_keeps
  clear_value v2
  refine Keeps.trans ?_ State.ready_keeps
  exact h3

theorem State.leave_keeps {s : State} {b1 : Nat} {b2 : Req} {b3 : Option Nat} {b4 : Bool} :
    Keeps s (State.leave s b1 b2 b3 b4) := by
  delta State.leave
  extract_lets v0 v1 v2 v3 v4
  clear_value v0 v1 v2
  have h5 : Keeps s v3 := by
    unfold v3
    exact State.setReq_keeps
  clear_value v3 v4
  refine Keeps.trans ?_ State.settleLeftovers_keeps
  refine Keeps.upd (u := v3) rfl ?_
  exact h5

theorem State.forget_keeps {s : State} {b1 b2 b3 : Nat} :
    Keeps s (State.forget s b1 b2 b3) := by
  delta State.forget
  extract_lets v0
  have h1 : Keeps s v0 := by
    unfold v0
    exact State.modSrvPart_keeps
  clear_value v0
  refine Keeps.trans ?_ State.dropPark_keeps
  exact h1

theorem State.endReq_keeps {s : State} {b1 b2 b3 : Nat} :
    Keeps s (State.endReq s b1 b2 b3) := by
  delta State.endReq
  split
  · exact Keeps.refl _
  · extract_lets v7 v8 v9 v10 v11 v12 v13
    clear_value v7 v8 v9
    have h14 : Keeps s v10 := by
      unfold v10
      exact State.setReq_keeps
    clear_value v10
    have h15 : Keeps s v11 := by
      unfold v11
      refine Keeps.trans ?_ State.issue_keeps
      refine Keeps.trans ?_ State.forget_keeps
      exact h14
    clear_value v11
    have h16 : Keeps s v12 := by
      unfold v12
      split
      · refine Keeps.trans ?_ State.cplError_keeps
        exact h15
      · exact h15
    clear_value v12
    have h23 : Keeps s v13 := by
      unfold v13
      split
      · refine Keeps.trans ?_ State.queueLeft_keeps
        exact h16
      · refine Keeps.trans ?_ State.leave_keeps
        exact h16
    clear_value v13
    refine Keeps.trans ?_ State.finalEntry_keeps
    exact h23

theorem State.srvWrite_keeps {s : State} {b1 : Nat} {b2 : List Byte} :
    Keeps s (State.srvWrite s b1 b2) := by
  delta State.srvWrite
  split
  · split
    · split
      · exact State.emit_keeps
      · exact Keeps.refl _
    · split
      · exact State.wr_keeps
      · exact Keeps.refl _
  · exact Keeps.refl _

theorem State.offerChunk_keeps {s : State} {b1 b2 : Nat} {b3 : Req} :
    KeepsSnd s (State.offerChunk s b1 b2 b3) := by
  delta State.offerChunk
  extract_lets v0 v1 v2
  clear_value v0 v1 v2
  split
  · refine KeepsSnd.mk ?_
    exact Keeps.refl _
  · split
    · refine KeepsSnd.mk ?_
      exact Keeps.refl _
    · split
      · refine KeepsSnd.mk ?_
        exact Keeps.refl _
      · extract_lets v14 v15 v16 v17
        clear_value v14
        have h18 : Keeps s v15 := by
          unfold v15
          refine Keeps.trans ?_ State.srvWrite_keeps
          exact State.needPages_keeps _ (by assumption)
        clear_value v15
        have h19 : Keeps s v16 := by
          unfold v16
          refine Keeps.trans ?_ State.setSrvPart_keeps
          exact h18
        clear_value v16
        have h20 : Keeps s v17 := by
          unfold v17
          refine Keeps.trans ?_ State.modReq_keeps
          exact h19
        clear_value v17
        refine KeepsSnd.mk ?_
        refine Keeps.trans ?_ State.hwAdd_keeps
        exact h20

theorem State.runOffers_keeps {s : State} {b1 b2 : Nat} :
    Keeps s (State.runOffers s b1 b2) := by
  fun_induction State.runOffers s b1 b2
  · exact Keeps.refl _
  · rename_i r5 r6
    clear_value r5
    exact Keeps.refl _
  · rename_i r10 r11 r12
    clear_value r10
    exact Keeps.refl _
  · rename_i r16 r17 r18 r19 r20 r21 r22 r23 r24
    clear_value r16
    have h25 : ∀ c0, Keeps c0 (r22 c0) := by
      unfold r22
      intro c0
      exact State.modSrvPart_keeps
    clear_value r22
    refine Keeps.trans ?_ (by assumption)
    exact h25 _
  · rename_i r29 r30 r31 r32 r33 r34 r35 r36 r37 r38 r39
    clear_value r29
    have h40 : ∀ c0, Keeps c0 (r35 c0) := by
      unfold r35
      intro c0
      exact State.modSrvPart_keeps
    clear_value r35
    refine Keeps.trans ?_ (by assumption)
    exact h40 _
  · rename_i r44 r45 r46 r47 r48 r49 r50 r51 r52 r53 r54 r55 r56
    clear_value r44
    have h57 : ∀ c0, Keeps c0 (r50 c0) := by
      unfold r50
      intro c0
      exact State.modSrvPart_keeps
    clear_value r50
    refine Keeps.trans ?_ (by assumption)
    refine Keeps.trans ?_ (h57 _)
    exact KeepsSnd.of State.offerChunk_keeps (by assumption)
  · rename_i r61 r62 r63 r64 r65 r66 r67 r68 r69 r70 r71
    clear_value r61
    exact KeepsSnd.of State.offerChunk_keeps (by assumption)
  · rename_i r75 r76 r77 r78 r79 r80 r81 r82 r83 r84 r85
    clear_value r75
    refine Keeps.trans ?_ State.modSrvPart_keeps
    exact KeepsSnd.of State.offerChunk_keeps (by assumption)

theorem State.offerAll_keeps {s : State} {b1 : Nat} :
    Keeps s (State.offerAll s b1) := by
  delta State.offerAll
  exact State.runOffers_keeps

theorem State.offerWrap_keeps {s : State} {b1 : Nat} :
    Keeps s (State.offerWrap s b1) := by
  delta State.offerWrap
  extract_lets v0 v1 v2
  clear_value v0 v1 v2
  refine Keeps.trans ?_ State.offerAll_keeps
  exact State.modSrvPart_keeps

theorem State.handoverNext_keeps {s : State} {b1 : Nat} :
    Keeps s (State.handoverNext s b1) := by
  delta State.handoverNext
  extract_lets v0 v1
  clear_value v0 v1
  split
  · exact Keeps.refl _
  · split
    · exact Keeps.refl _
    · split
      · split
        · split
          · refine Keeps.trans ?_ State.putItem_keeps
            refine Keeps.trans ?_ State.setHold_keeps
            exact KeepsSnd.of State.placeKv_keeps (by assumption)
        · exact KeepsSnd.of State.placeKv_keeps (by assumption)
      · exact Keeps.refl _

theorem State.pageNote_keeps {s : State} {b1 : Nat} :
    Keeps s (State.pageNote s b1) := by
  delta State.pageNote
  extract_lets v0 v1 v2
  clear_value v0
  have h3 : ∀ c0 c1, Keeps s (v2 c0 c1) := by
    unfold v2
    intro c0 c1
    extract_lets v4 v5 v6 v7
    clear_value v4 v5 v6 v7
    exact State.putPage_keeps
  clear_value v2
  split
  · exact h3 _ _
  · exact h3 _ _
  · exact Keeps.refl _

theorem State.startReq_keeps {s : State} {b1 b2 : Nat} : Keeps s (State.startReq s b1 b2) := by
  delta State.startReq
  split
  · exact Keeps.refl _
  · extract_lets cap
    split
    next h u e =>
    have hu : Keeps s u := KeepsSnd.of State.allocKv_keeps e
    split
    next h2 w e2 =>
    have hw : Keeps s w := by
      split at e2
      · cases e2; exact hu
      · exact hu.trans (KeepsSnd.of State.allocKv_keeps e2)
    extract_lets y v1 q v2
    clear_value y
    have h1 : Keeps s v1 := by
      unfold v1
      refine Keeps.trans ?_ State.ptInit_keeps
      refine Keeps.trans ?_ State.setReq_keeps
      exact hw
    clear_value v1
    have h3 : Keeps s v2 := by
      unfold v2
      refine Keeps.upd (u := v1) rfl ?_
      exact h1
    clear_value v2
    refine Keeps.trans ?_ State.queueLeft_keeps
    refine Keeps.trans ?_ State.modSrvPart_keeps
    exact h3

theorem State.setGen_keeps {s : State} {b1 : Req} {b2 : Bool} :
    Keeps s (State.setGen s b1 b2) := by
  delta State.setGen
  extract_lets v0
  have h1 : ∀ c0 c1, Keeps c0 (v0 c0 c1) := by
    unfold v0
    intro c0 c1
    refine Keeps.trans ?_ (Keeps.foldl (fun x2 a3 => ?_) _ _)
    · exact Keeps.refl _
    · split
      · exact Keeps.refl _
      · split
        · exact State.setHold_keeps
        · exact Keeps.refl _
  clear_value v0
  refine Keeps.trans ?_ (h1 _ _)
  exact h1 _ _

theorem State.parkReq_keeps {s : State} {b1 b2 : Nat} :
    Keeps s (State.parkReq s b1 b2) := by
  delta State.parkReq
  split
  · exact Keeps.refl _
  · extract_lets v7 v8 v9 v10 v11 v12
    have h13 : Keeps s v7 := by
      unfold v7
      refine Keeps.trans ?_ State.ptPut_keeps
      exact State.ptPut_keeps
    clear_value v7
    have h14 : Keeps s v8 := by
      unfold v8
      refine Keeps.trans ?_ State.setReq_keeps
      exact h13
    clear_value v8 v9 v10
    have h15 : Keeps s v11 := by
      unfold v11
      refine Keeps.upd (u := v8) rfl ?_
      exact h14
    clear_value v11 v12
    refine Keeps.trans ?_ State.parkEnter_keeps
    refine Keeps.trans ?_ State.setGen_keeps
    exact h15

theorem State.unparkReq_keeps {s : State} {b1 b2 : Nat} :
    Keeps s (State.unparkReq s b1 b2) := by
  delta State.unparkReq
  split
  · exact Keeps.refl _
  · extract_lets v7 v8 v9 v10 v11 v12
    clear_value v7 v8
    have h13 : Keeps s v9 := by
      unfold v9
      exact State.setReq_keeps
    clear_value v9 v10 v11
    have h14 : Keeps s v12 := by
      unfold v12
      split
      · exact h13
      · refine Keeps.upd (u := v9) rfl ?_
        exact h13
    clear_value v12
    refine Keeps.trans ?_ State.parkResume_keeps
    exact h14

theorem State.reqAction_keeps {s : State} {b1 b2 b3 : Nat} :
    KeepsSnd s (State.reqAction s b1 b2 b3) := by
  delta State.reqAction
  split
  · refine KeepsSnd.mk ?_
    exact Keeps.refl _
  · split
    · extract_lets v8
      have h9 : Keeps s v8 := by
        unfold v8
        exact State.modReq_keeps
      clear_value v8
      refine KeepsSnd.mk ?_
      refine Keeps.trans ?_ State.postNotice_keeps
      exact h9
    · refine KeepsSnd.mk ?_
      exact State.startReq_keeps
    · extract_lets v12
      have h13 : Keeps s v12 := by
        unfold v12
        exact State.modReq_keeps
      clear_value v12
      split
      · refine KeepsSnd.mk ?_
        refine Keeps.trans ?_ State.handoverNext_keeps
        exact h13
      · refine KeepsSnd.mk ?_
        exact h13
    · refine KeepsSnd.mk ?_
      refine Keeps.trans ?_ State.setGen_keeps
      exact State.modReq_keeps
    · refine KeepsSnd.mk ?_
      exact State.parkReq_keeps
    · refine KeepsSnd.mk ?_
      exact State.unparkReq_keeps
    · refine KeepsSnd.mk ?_
      refine Keeps.trans ?_ State.count_keeps
      exact State.endReq_keeps
    · refine KeepsSnd.mk ?_
      refine Keeps.trans ?_ State.count_keeps
      exact State.endReq_keeps
    · refine KeepsSnd.mk ?_
      refine Keeps.trans ?_ State.rputN_keeps
      exact State.endReq_keeps
    · refine KeepsSnd.mk ?_
      exact State.endReq_keeps
    · refine KeepsSnd.mk ?_
      exact Keeps.refl _

theorem State.reqEventFuel_keeps {b0 : Nat} {s : State} {b2 b3 b4 : Nat} :
    Keeps s (State.reqEventFuel b0 s b2 b3 b4) := by
  fun_induction State.reqEventFuel b0 s b2 b3 b4
  · exact Keeps.refl _
  · exact Keeps.refl _
  · exact Keeps.refl _
  · exact State.fsmNoTransition_keeps
  · rename_i r53 r54 r55 r56 r57 r58 r59 r60 r61 r62 r63 r64 r65 r66
    have h67 : Keeps r53 r62 := by
      unfold r62
      refine Keeps.trans ?_ State.fsmLog_keeps
      exact State.setReq_keeps
    clear_value r62
    refine Keeps.trans ?_ (by assumption)
    refine Keeps.trans ?_ (KeepsSnd.of State.reqAction_keeps (by assumption))
    exact h67
  · rename_i r74 r75 r76 r77 r78 r79 r80 r81 r82 r83 r84 r85
    have h86 : Keeps r74 r83 := by
      unfold r83
      refine Keeps.trans ?_ State.fsmLog_keeps
      exact State.setReq_keeps
    clear_value r83
    refine Keeps.trans ?_ (KeepsSnd.of State.reqAction_keeps (by assumption))
    exact h86

theorem State.reqEvent_keeps {s : State} {b1 b2 b3 : Nat} :
    Keeps s (State.reqEvent s b1 b2 b3) := by
  delta State.reqEvent
  exact State.reqEventFuel_keeps

theorem State.prefillDone_keeps {s : State} {b1 : Nat} :
    Keeps s (State.prefillDone s b1) := by
  delta State.prefillDone
  split
  · exact Keeps.refl _
  · extract_lets v7 v8
    have h9 : Keeps s v7 := by
      unfold v7
      refine Keeps.trans ?_ State.ptPut_keeps
      exact State.ptPut_keeps
    clear_value v7
    have h10 : Keeps s v8 := by
      unfold v8
      split
      · exact h9
      · refine Keeps.trans ?_ State.ptPut_keeps
        exact h9
    clear_value v8
    refine Keeps.trans ?_ State.reqEvent_keeps
    refine Keeps.trans ?_ State.modReq_keeps
    exact h10

theorem State.chunkDone_keeps {s : State} {b1 : Nat} {b2 : Chunk} {b3 : Req} :
    Keeps s (State.chunkDone s b1 b2 b3) := by
  delta State.chunkDone
  extract_lets v0 v1 v2 v3 v4 v5
  clear_value v0 v1 v2 v3
  have h6 : Keeps s v4 := by
    unfold v4
    exact State.setReq_keeps
  clear_value v4
  have h7 : Keeps s v5 := by
    unfold v5
    refine Keeps.trans ?_ State.modSrvPart_keeps
    exact h6
  clear_value v5
  refine Keeps.trans ?_ State.handoverNext_keeps
  split
  · refine Keeps.trans ?_ State.prefillDone_keeps
    exact h7
  · exact h7

theorem State.prefillChunkDone_keeps {s : State} {b1 : Nat} :
    Keeps s (State.prefillChunkDone s b1) := by
  delta State.prefillChunkDone
  extract_lets v0 v1
  clear_value v0
  have h2 : Keeps s v1 := by
    unfold v1
    exact State.setSrvPart_keeps
  clear_value v1
  split
  · exact Keeps.refl _
  · extract_lets v11
    clear_value v11
    split
    · exact Keeps.refl _
    · split
      · exact h2
      · extract_lets v20 v21
        have h22 : Keeps s v20 := by
          unfold v20
          refine Keeps.trans ?_ State.modSrvPart_keeps
          exact h2
        clear_value v20
        have h23 : Keeps s v21 := by
          unfold v21
          split
          · split
            · refine Keeps.trans ?_ State.chunkDone_keeps
              exact h22
            · exact by assumption
          · exact by assumption
        clear_value v21
        refine Keeps.trans ?_ State.offerAll_keeps
        refine Keeps.trans ?_ State.settleLeftovers_keeps
        exact h23

theorem State.handoverCheck_keeps {s : State} {b1 : Nat} :
    Keeps s (State.handoverCheck s b1) := by
  delta State.handoverCheck
  split
  · split
    · exact State.reqEvent_keeps
    · exact Keeps.refl _
  · exact Keeps.refl _

theorem State.handoverFailed_keeps {s : State} {b1 b2 b3 b4 : Nat} :
    Keeps s (State.handoverFailed s b1 b2 b3 b4) := by
  delta State.handoverFailed
  extract_lets v0
  have h1 : Keeps s v0 := by
    unfold v0
    refine Keeps.trans ?_ State.settleLeftovers_keeps
    exact State.freeChan_keeps
  clear_value v0
  split
  · extract_lets v6
    have h7 : Keeps s v6 := by
      unfold v6
      split
      · refine Keeps.trans ?_ State.reqEvent_keeps
        exact h1
      · exact h1
    clear_value v6
    refine Keeps.trans ?_ State.handoverNext_keeps
    exact h7
  · exact h1

theorem State.handoverDone_keeps {s : State} {b1 b2 : Nat} {b3 : Ecc} :
    Keeps s (State.handoverDone s b1 b2 b3) := by
  delta State.handoverDone
  extract_lets v0
  clear_value v0
  split
  · extract_lets v10 v11
    clear_value v10 v11
    split
    · exact Keeps.refl _
    · split
      · refine Keeps.trans ?_ State.handoverFailed_keeps
        refine Keeps.trans ?_ State.failChan_keeps
        exact State.eccUncorrected_keeps
      · refine Keeps.trans ?_ State.handoverFailed_keeps
        refine Keeps.trans ?_ State.failChan_keeps
        exact State.raise_keeps
      · extract_lets v20
        have h21 : Keeps s v20 := by
          unfold v20
          split
          · exact State.eccCorrected_keeps
          · exact Keeps.refl _
        clear_value v20
        split
        · refine Keeps.trans ?_ State.handoverFailed_keeps
          refine Keeps.trans ?_ State.failChan_keeps
          exact h21
        · extract_lets v31 v32
          have h33 : Keeps s v31 := by
            unfold v31
            refine Keeps.trans ?_ State.settleLeftovers_keeps
            refine Keeps.trans ?_ State.freeChan_keeps
            refine Keeps.trans ?_ State.arrived_keeps
            refine Keeps.trans ?_ (State.carryData_keeps _ _ (by assumption))
            exact h21
          clear_value v31
          have h34 : Keeps s v32 := by
            unfold v32
            split
            · split
              · split
                · refine Keeps.trans ?_ State.putPage_keeps
                  exact h33
                · exact by assumption
              · exact by assumption
            · exact by assumption
          clear_value v32
          refine Keeps.trans ?_ State.handoverNext_keeps
          refine Keeps.trans ?_ State.handoverCheck_keeps
          exact h34
  · exact Keeps.refl _

end Sys2Proof.Machine
end

