-- ==== Sys2Proof/Laws/KeepsOps3.lean ====
section
/-! SUPPORT. `Keeps` of the shared operations, part 3 of 5, in the order they build on each other: one lemma per
operation. -/
namespace Sys2Proof.Machine
set_option Elab.async false

theorem State.servingError_keeps {s : State} {b1 b2 : Nat} :
    Keeps s (State.servingError s b1 b2) := by
  delta State.servingError
  extract_lets v0 v1 v2 v3
  clear_value v0 v1
  have h4 : Keeps s v2 := by
    unfold v2
    refine Keeps.trans ?_ (Keeps.foldl (fun x5 a6 => ?_) _ _)
    · exact Keeps.refl _
    · exact State.reqEvent_keeps
  clear_value v2
  have h7 : Keeps s v3 := by
    unfold v3
    refine Keeps.trans ?_ State.rputN_keeps
    exact h4
  clear_value v3
  split
  · exact Keeps.refl _
  · refine Keeps.trans ?_ State.rputN_keeps
    refine Keeps.trans ?_ State.raise_keeps
    exact h7

theorem State.genPages_keeps {s : State} {b1 : Nat} {b2 : Req} :
    KeepsOpt s (State.genPages s b1 b2) := by
  delta State.genPages
  extract_lets v0
  clear_value v0
  split
  · exact KeepsOpt.none
  · refine KeepsOpt.some ?_
    refine Keeps.trans ?_ State.modReq_keeps
    exact State.needPages_keeps _ (by assumption)

theorem State.genListWrite_keeps {s : State} {b1 : Nat} :
    Keeps s (State.genListWrite s b1) := by
  delta State.genListWrite
  extract_lets v0 v1 v2 v3 v4 v5 v6 v7 v8
  clear_value v0
  have h9 : Keeps s v1 := by
    unfold v1
    refine Keeps.trans ?_ (Keeps.foldl (fun x10 a11 => ?_) _ _)
    · exact Keeps.refl _
    · refine Keeps.getD ?_ ?_
      · refine KeepsOpt.trans ?_ State.genPages_keeps
        exact Keeps.refl _
      · exact Keeps.refl _
  clear_value v1 v2 v3 v4 v5
  have h12 : Keeps s v6 := by
    unfold v6
    refine Keeps.trans ?_ State.srvWrite_keeps
    exact h9
  clear_value v6
  have h13 : Keeps s v7 := by
    unfold v7
    refine Keeps.trans ?_ (Keeps.foldl (fun x14 a15 => ?_) _ _)
    · exact h12
    · exact State.modReq_keeps
  clear_value v7
  have h16 : Keeps s v8 := by
    unfold v8
    refine Keeps.trans ?_ State.modSrvPart_keeps
    exact h13
  clear_value v8
  split
  · exact Keeps.refl _
  · refine Keeps.trans ?_ State.hwAdd_keeps
    exact h16

theorem State.servingWrap_keeps {s : State} :
    Keeps s (State.servingWrap s) := by
  delta State.servingWrap
  extract_lets v0
  have h1 : Keeps s v0 := by
    unfold v0
    exact State.wrapLeftovers_keeps
  clear_value v0
  refine Keeps.trans ?_ (Keeps.foldl (fun x2 a3 => ?_) _ _)
  · exact h1
  · extract_lets v4
    have h5 : Keeps x2 v4 := by
      unfold v4
      refine Keeps.trans ?_ State.offerWrap_keeps
      exact State.genListWrite_keeps
    clear_value v4
    refine Keeps.trans ?_ State.modSrvPart_keeps
    exact h5

theorem State.expireReq_keeps {s : State} {b1 b2 : Nat} :
    Keeps s (State.expireReq s b1 b2) := by
  delta State.expireReq
  split
  · split
    · exact State.reqEvent_keeps
    · exact Keeps.refl _
  · exact Keeps.refl _

theorem State.resumeComplete_keeps {s : State} {b1 b2 : Nat} :
    Keeps s (State.resumeComplete s b1 b2) := by
  delta State.resumeComplete
  split
  · exact Keeps.refl _
  · extract_lets v7
    have h8 : Keeps s v7 := by
      unfold v7
      exact State.dropPark_keeps
    clear_value v7
    split
    · exact Keeps.refl _
    · split
      · refine Keeps.trans ?_ State.reqEvent_keeps
        split
        · split
          · refine Keeps.trans ?_ State.cplError_keeps
            exact State.modReq_keeps
          · exact Keeps.refl _
        · exact Keeps.refl _
      · split
        · exact State.returnNext_keeps
        · split
          · exact h8
          · extract_lets v31
            have h32 : Keeps s v31 := by
              unfold v31
              split
              · refine Keeps.trans ?_ State.cplDone_keeps
                refine Keeps.trans ?_ State.modReq_keeps
                exact h8
              · exact h8
            clear_value v31
            refine Keeps.trans ?_ State.reqEvent_keeps
            exact h32

theorem State.modelDefine_keeps {s : State} {b1 b2 : Nat} {b3 b4 : List Byte} :
    Keeps s (State.modelDefine s b1 b2 b3 b4) := by
  delta State.modelDefine
  split
  · exact State.issue_keeps
  · split
    · exact State.issue_keeps
    · extract_lets v9 v10 v11 v12
      have h13 : Keeps s v9 := by
        unfold v9
        exact State.setModel_keeps
      clear_value v9
      have h14 : Keeps s v10 := by
        unfold v10
        refine Keeps.trans ?_ (Keeps.foldl (fun x15 a16 => ?_) _ _)
        · exact h13
        · split
          · exact State.setHold_keeps
          · exact Keeps.refl _
      clear_value v10 v11 v12
      refine Keeps.upd (u := v10) rfl ?_
      exact h14

theorem State.modelUndefine_keeps {s : State} {b1 b2 : Nat} :
    Keeps s (State.modelUndefine s b1 b2) := by
  delta State.modelUndefine
  extract_lets v0 v1 v2 v3 v4 v5
  clear_value v0
  have h6 : Keeps s v1 := by
    unfold v1
    refine Keeps.trans ?_ (Keeps.foldl (fun x7 a8 => ?_) _ _)
    · exact Keeps.refl _
    · split
      · exact State.setHold_keeps
      · exact Keeps.refl _
  clear_value v1 v2 v3
  have h16 : Keeps s v4 := by
    unfold v4
    refine Keeps.upd (u := v1) rfl ?_
    exact h6
  clear_value v4
  have h17 : Keeps s v5 := by
    unfold v5
    refine Keeps.trans ?_ State.modSrvPart_keeps
    exact h16
  clear_value v5
  refine Keeps.trans ?_ State.setModel_keeps
  exact h17

theorem State.queueSwap_keeps {s : State} {b1 : Nat} {b2 : SwapReq} :
    Keeps s (State.queueSwap s b1 b2) := by
  delta State.queueSwap
  exact State.modSrvPart_keeps

theorem State.autoSwap_keeps {s : State} {b1 b2 : Nat} :
    KeepsOpt s (State.autoSwap s b1 b2) := by
  delta State.autoSwap
  split
  · exact KeepsOpt.none
  · split
    · refine KeepsOpt.some ?_
      exact Keeps.refl _
    · refine KeepsOpt.some ?_
      exact State.queueSwap_keeps

theorem State.modelSwap_keeps {s : State} {b1 b2 : Nat} {b3 : Bool} :
    Keeps s (State.modelSwap s b1 b2 b3) := by
  delta State.modelSwap
  extract_lets v0
  clear_value v0
  split
  · exact Keeps.refl _
  · exact State.queueSwap_keeps

theorem State.swapPump_keeps {s : State} {b1 : Nat} :
    Keeps s (State.swapPump s b1) := by
  delta State.swapPump
  extract_lets v0 v1
  clear_value v0 v1
  refine Keeps.trans ?_ (Keeps.foldl (fun x2 a3 => ?_) _ _)
  · exact Keeps.refl _
  · split
    · exact Keeps.refl _
    · split
      · exact Keeps.refl _
      · split
        · exact Keeps.refl _
        · split
          · exact Keeps.refl _
          · extract_lets v26 v27
            clear_value v26
            have h28 : Keeps x2 v27 := by
              unfold v27
              exact State.modSrvPart_keeps
            clear_value v27
            split
            · refine Keeps.trans ?_ State.putItem_keeps
              refine Keeps.trans ?_ State.setHold_keeps
              exact h28

theorem State.swapBring_keeps {s : State} {b1 : Nat} :
    Keeps s (State.swapBring s b1) := by
  delta State.swapBring
  split
  · exact Keeps.refl _
  · extract_lets v7 v8
    clear_value v7
    have h9 : Keeps s v8 := by
      unfold v8
      exact State.setModel_keeps
    clear_value v8
    split
    · exact Keeps.refl _
    · split
      · exact State.modSrvPart_keeps
      · refine Keeps.trans ?_ State.swapPump_keeps
        refine Keeps.trans ?_ State.modSrvPart_keeps
        exact h9

theorem State.swapStart_keeps {s : State} {b1 : Nat} :
    Keeps s (State.swapStart s b1) := by
  delta State.swapStart
  extract_lets v0
  clear_value v0
  split
  · extract_lets v8 v9 v10 v11 v12 v13
    clear_value v8
    have h14 : Keeps s v9 := by
      unfold v9
      exact State.setSrvPart_keeps
    clear_value v9 v10
    have h15 : Keeps s v11 := by
      unfold v11
      refine Keeps.trans ?_ (Keeps.foldl (fun x16 a17 => ?_) _ _)
      · exact h14
      · extract_lets v18
        clear_value v18
        exact State.setModel_keeps
    clear_value v11 v12
    have h19 : Keeps s v13 := by
      unfold v13
      refine Keeps.trans ?_ State.modSrvPart_keeps
      exact h15
    clear_value v13
    split
    · exact h14
    · split
      · exact Keeps.refl _
      · split
        · refine Keeps.trans ?_ State.swapBring_keeps
          exact h19
        · refine Keeps.trans ?_ State.swapPump_keeps
          exact h19
  · exact Keeps.refl _

theorem State.pieceArrived_keeps {s : State} {b1 b2 b3 : Nat} :
    Keeps s (State.pieceArrived s b1 b2 b3) := by
  delta State.pieceArrived
  extract_lets v0 v1 v2
  clear_value v0 v1
  have h3 : Keeps s v2 := by
    unfold v2
    exact State.setModel_keeps
  clear_value v2
  split
  · exact h3
  · extract_lets v11 v12 v13
    clear_value v11
    have h14 : Keeps s v12 := by
      unfold v12
      refine Keeps.trans ?_ State.modSrvPart_keeps
      exact h3
    clear_value v12
    have h15 : Keeps s v13 := by
      unfold v13
      split
      · refine Keeps.trans ?_ State.setModel_keeps
        exact h14
      · split
        · refine Keeps.trans ?_ State.count_keeps
          refine Keeps.trans ?_ State.raise_keeps
          refine Keeps.trans ?_ State.setModel_keeps
          exact h14
        · exact h14
    clear_value v13
    refine Keeps.trans ?_ State.swapBring_keeps
    refine Keeps.trans ?_ State.swapPump_keeps
    exact h15

theorem State.pieceFailed_keeps {s : State} {b1 b2 b3 b4 b5 : Nat} :
    Keeps s (State.pieceFailed s b1 b2 b3 b4 b5) := by
  delta State.pieceFailed
  extract_lets v0 v1 v2 v3 v4 v5 v6
  have h7 : Keeps s v0 := by
    unfold v0
    exact State.freeChan_keeps
  clear_value v0
  have h8 : Keeps s v1 := by
    unfold v1
    refine Keeps.trans ?_ State.modSrvPart_keeps
    exact h7
  clear_value v1
  have h9 : Keeps s v2 := by
    unfold v2
    split
    · exact by assumption
    · refine Keeps.trans ?_ (Keeps.foldl (fun x17 a18 => ?_) _ _)
      · exact h8
      · extract_lets v19
        clear_value v19
        split
        · exact Keeps.refl _
        · split
          · exact State.setModel_keeps
          · exact State.setModel_keeps
  clear_value v2 v3
  have h24 : Keeps s v4 := by
    unfold v4
    refine Keeps.trans ?_ State.raise_keeps
    refine Keeps.trans ?_ State.setModel_keeps
    exact h9
  clear_value v4
  have h25 : Keeps s v5 := by
    unfold v5
    refine Keeps.trans ?_ State.rputN_keeps
    refine Keeps.trans ?_ State.issue_keeps
    exact h24
  clear_value v5 v6
  refine Keeps.trans ?_ (Keeps.foldl (fun x26 a27 => ?_) _ _)
  · exact h25
  · exact State.reqEvent_keeps

theorem State.swapPieceDone_keeps {s : State} {b1 b2 : Nat} {b3 : List Byte} {b4 : Ecc} :
    Keeps s (State.swapPieceDone s b1 b2 b3 b4) := by
  delta State.swapPieceDone
  extract_lets v0
  clear_value v0
  split
  · split
    · exact Keeps.refl _
    · split
      · refine Keeps.trans ?_ State.pieceFailed_keeps
        refine Keeps.trans ?_ State.failChan_keeps
        exact State.eccUncorrected_keeps
      · refine Keeps.trans ?_ State.pieceFailed_keeps
        refine Keeps.trans ?_ State.failChan_keeps
        exact State.raise_keeps
      · extract_lets v19
        have h20 : Keeps s v19 := by
          unfold v19
          split
          · exact State.eccCorrected_keeps
          · exact Keeps.refl _
        clear_value v19
        split
        · refine Keeps.trans ?_ State.pieceFailed_keeps
          refine Keeps.trans ?_ State.failChan_keeps
          exact h20
        · refine Keeps.trans ?_ State.pieceArrived_keeps
          refine Keeps.trans ?_ State.freeChan_keeps
          refine Keeps.trans ?_ State.arrived_keeps
          refine Keeps.trans ?_ (State.carryData_keeps _ _ (by assumption))
          exact h20
  · exact Keeps.refl _

theorem State.shareOne_keeps {s : State} {b1 b2 b3 b4 b5 : Nat} :
    Keeps s (State.shareOne s b1 b2 b3 b4 b5) := by
  delta State.shareOne
  extract_lets v0 v1
  have h2 : Keeps s v0 := by
    unfold v0
    split
    · exact State.setRefs_keeps
    · exact Keeps.refl _
  clear_value v0
  have h10 : Keeps s v1 := by
    unfold v1
    refine Keeps.trans ?_ State.touchHold_keeps
    exact h2
  clear_value v1
  split
  · refine Keeps.trans ?_ State.putPage_keeps
    exact h10
  · exact by assumption

theorem State.putCounts_keeps {s : State} {b1 : Req} {b2 : NMap (Nat × Nat)} :
    Keeps s (State.putCounts s b1 b2) := by
  delta State.putCounts
  split
  · exact Keeps.refl _
  · refine Keeps.trans ?_ (Keeps.foldl (fun x4 a5 => ?_) _ _)
    · exact Keeps.refl _
    · exact State.wr_keeps

theorem State.walkComplete_keeps {s : State} {b1 : List Byte} :
    Keeps s (State.walkComplete s b1) := by
  delta State.walkComplete
  split
  · exact Keeps.refl _
  · extract_lets v9 v10
    clear_value v9
    have h11 : Keeps s v10 := by
      unfold v10
      exact State.modSrvPart_keeps
    clear_value v10
    split
    · extract_lets v16 v17 v18 v19 v20 v21
      have h22 : Keeps s v16 := by
        unfold v16
        split
        · refine Keeps.trans ?_ State.raise_keeps
          refine Keeps.trans ?_ State.issue_keeps
          exact h11
        · exact h11
      clear_value v16 v17
      have h25 : Keeps s v18 := by
        unfold v18
        refine Keeps.trans ?_ (Keeps.foldl (fun x26 a27 => ?_) _ _)
        · exact h22
        · exact State.shareOne_keeps
      clear_value v18 v19
      have h28 : Keeps s v20 := by
        unfold v20
        refine Keeps.trans ?_ State.count_keeps
        exact h25
      clear_value v20
      have h29 : Keeps s v21 := by
        unfold v21
        refine Keeps.trans ?_ State.modReq_keeps
        exact h28
      clear_value v21
      split
      · exact h29
      · extract_lets v35 v36 v37
        have h38 : Keeps s v35 := by
          unfold v35
          refine Keeps.trans ?_ State.ptPut_keeps
          refine Keeps.trans ?_ State.ptPut_keeps
          exact h29
        clear_value v35 v36
        have h39 : Keeps s v37 := by
          unfold v37
          split
          · refine Keeps.trans ?_ State.count_keeps
            refine Keeps.trans ?_ State.putCounts_keeps
            exact h38
          · exact h38
        clear_value v37
        split
        · refine Keeps.trans ?_ State.prefillDone_keeps
          exact h39
        · refine Keeps.trans ?_ State.offerAll_keeps
          refine Keeps.trans ?_ State.modSrvPart_keeps
          exact h39

theorem State.growPath_keeps {s : State} {b1 b2 b3 b4 : Nat} {b5 : List (List Byte)} {b6 : List Nat} :
    KeepsFst s (State.growPath s b1 b2 b3 b4 b5 b6) := by
  fun_induction State.growPath s b1 b2 b3 b4 b5 b6
  · refine KeepsFst.mk ?_
    exact Keeps.refl _
  · rename_i r16 r17 r18 r19 r20 r21 r22 r23 r24 r25 r26 r27 r28
    have h29 : Keeps r16 r25 := by
      unfold r25
      exact State.setNode_keeps
    clear_value r25
    have h30 : Keeps r16 r26 := by
      unfold r26
      refine Keeps.trans ?_ State.setNode_keeps
      exact h29
    clear_value r26
    have h31 : Keeps r16 r27 := by
      unfold r27
      refine Keeps.trans ?_ State.modSrvPart_keeps
      exact h30
    clear_value r27
    refine KeepsFst.trans ?_ (by assumption)
    exact h31
  · refine KeepsFst.mk ?_
    exact Keeps.refl _

theorem State.insertPage_keeps {s : State} {b1 b2 : Nat} {b3 : Req} {b4 : Nat} {b5 : KvPage} {b6 : List Byte} :
    Keeps s (State.insertPage s b1 b2 b3 b4 b5 b6) := by
  delta State.insertPage
  extract_lets blocks
  clear_value blocks
  split
  next path bad e =>
  split
  · exact Keeps.refl _
  · extract_lets missing fresh
    clear_value missing fresh
    split
    · exact State.count_keeps
    · split
      next u node e2 =>
      have hu : Keeps s u := KeepsFst.of State.growPath_keeps e2
      split
      · split
        · exact hu
        · extract_lets v1 v2 v3
          have h3 : Keeps s v3 := by
            unfold v3 v2 v1
            refine Keeps.trans ?_ State.putPage_keeps
            refine Keeps.trans ?_ State.setRefs_keeps
            refine Keeps.trans ?_ State.setHold_keeps
            exact hu
          clear_value v3
          split
          · refine Keeps.trans ?_ State.ptPut_keeps
            exact h3
          · exact h3
      · exact hu

theorem State.insertion_keeps {s : State} {b1 : Nat} {b2 : List Byte} :
    Keeps s (State.insertion s b1 b2) := by
  delta State.insertion
  split
  · exact Keeps.refl _
  · extract_lets v10
    have h11 : Keeps s v10 := by
      unfold v10
      exact State.modSrvPart_keeps
    clear_value v10
    split
    · exact h11
    · split
      · exact h11
      · split
        · exact h11
        · extract_lets v24 v25 v26 v27
          clear_value v24
          have h28 : Keeps s v25 := by
            unfold v25
            refine Keeps.trans ?_ State.setReq_keeps
            exact h11
          clear_value v25 v26
          have h29 : Keeps s v27 := by
            unfold v27
            split
            · refine Keeps.trans ?_ State.insertPage_keeps
              exact h28
            · exact h28
          clear_value v27
          split
          · exact h11
          · refine Keeps.trans ?_ State.handoverNext_keeps
            refine Keeps.trans ?_ State.handoverCheck_keeps
            exact h29

theorem State.treeInit_keeps {s : State} {b1 b2 : Nat} :
    Keeps s (State.treeInit s b1 b2) := by
  delta State.treeInit
  extract_lets v0
  have h1 : Keeps s v0 := by
    unfold v0
    exact State.modSrvPart_keeps
  clear_value v0
  refine Keeps.trans ?_ State.sweepTree_keeps
  refine Keeps.trans ?_ State.setNode_keeps
  exact h1

theorem State.treeFlush_keeps {s : State} {b1 b2 : Nat} :
    Keeps s (State.treeFlush s b1 b2) := by
  delta State.treeFlush
  extract_lets v0 v1 v2
  clear_value v0
  have h3 : Keeps s v1 := by
    unfold v1
    refine Keeps.trans ?_ (Keeps.foldl (fun x4 a5 => ?_) _ _)
    · exact Keeps.refl _
    · split
      · split
        · exact State.discardNode_keeps
        · exact Keeps.refl _
      · exact Keeps.refl _
  clear_value v1
  have h15 : Keeps s v2 := by
    unfold v2
    refine Keeps.trans ?_ (Keeps.foldl (fun x16 a17 => ?_) _ _)
    · exact h3
    · split
      · exact State.unlinkNode_keeps
      · exact Keeps.refl _
  clear_value v2
  refine Keeps.trans ?_ State.sweepTree_keeps
  exact h15

theorem State.commitReq_keeps {s : State} {b1 b2 : Nat} {b3 : Req} {b4 : Sampled} :
    Keeps s (State.commitReq s b1 b2 b3 b4) := by
  delta State.commitReq
  extract_lets v0 v1 v2 v3 v4 v5 v6 v7 v8
  clear_value v0 v1 v2
  have h9 : Keeps s v3 := by
    unfold v3
    refine Keeps.trans ?_ State.count_keeps
    exact State.putCounts_keeps
  clear_value v3
  have h10 : Keeps s v4 := by
    unfold v4
    refine Keeps.trans ?_ State.ptPut_keeps
    refine Keeps.trans ?_ State.ptPut_keeps
    exact h9
  clear_value v4
  have h11 : Keeps s v5 := by
    unfold v5
    refine Keeps.trans ?_ State.ptPut_keeps
    refine Keeps.trans ?_ State.ptPut_keeps
    refine Keeps.trans ?_ State.ptPut_keeps
    exact h10
  clear_value v5
  have h12 : Keeps s v6 := by
    unfold v6
    split
    · exact h11
    · refine Keeps.trans ?_ State.ptPut_keeps
      exact h11
  clear_value v6
  have h17 : Keeps s v7 := by
    unfold v7
    refine Keeps.trans ?_ State.count_keeps
    refine Keeps.trans ?_ State.count_keeps
    exact h12
  clear_value v7
  have h18 : Keeps s v8 := by
    unfold v8
    refine Keeps.trans ?_ State.count_keeps
    refine Keeps.trans ?_ State.modReq_keeps
    exact h17
  clear_value v8
  refine Keeps.trans ?_ State.charge_keeps
  exact h18

theorem State.strAdvance_keeps {s : State} {b1 b2 : Nat} :
    Keeps s (State.strAdvance s b1 b2) := by
  delta State.strAdvance
  extract_lets v0 v1 v2
  clear_value v0 v1 v2
  exact State.setFn_keeps

theorem State.writeRecord_keeps {s : State} {b1 : Nat} {b2 : List (List Byte)} {b3 b4 : Nat} :
    Keeps s (State.writeRecord s b1 b2 b3 b4) := by
  delta State.writeRecord
  extract_lets v0 v1 v2 v3 v4 v5 v6 v7 v8 v9 v10
  clear_value v0 v1 v2 v3 v4
  have h11 : Keeps s v5 := by
    unfold v5
    split
    · refine Keeps.trans ?_ State.strAdvance_keeps
      exact State.emit_keeps
    · exact Keeps.refl _
  clear_value v5 v6 v7
  have h16 : Keeps s v8 := by
    unfold v8
    refine Keeps.trans ?_ State.emit_keeps
    exact h11
  clear_value v8
  have h17 : Keeps s v9 := by
    unfold v9
    refine Keeps.trans ?_ State.strAdvance_keeps
    exact h16
  clear_value v9 v10
  split
  · refine Keeps.trans ?_ State.sendVector_keeps
    exact h17
  · exact h17

theorem State.sampleFails_keeps {s : State} {b1 : Nat} {b2 : List (Nat × Req × Sampled)} :
    Keeps s (State.sampleFails s b1 b2) := by
  delta State.sampleFails
  refine Keeps.trans ?_ (Keeps.foldl (fun x0 a1 => ?_) _ _)
  · exact Keeps.refl _
  · extract_lets v2 v3
    have h4 : Keeps x0 v2 := by
      unfold v2
      exact State.issue_keeps
    clear_value v2
    have h5 : Keeps x0 v3 := by
      unfold v3
      split
      · refine Keeps.trans ?_ State.raise_keeps
        exact h4
      · exact h4
    clear_value v3
    split
    · exact Keeps.refl _
    · refine Keeps.trans ?_ State.reqEvent_keeps
      exact h5

theorem State.samplerServe_keeps {s : State} {b1 : Nat} :
    Keeps s (State.samplerServe s b1) := by
  delta State.samplerServe
  extract_lets v0 v1 v2 v3 v4 v5 v6 v7 v8 v9 v10 v11 v12 v13
  clear_value v0 v1 v2
  have h14 : Keeps s v3 := by
    unfold v3
    exact State.setFn_keeps
  clear_value v3
  have h15 : Keeps s v4 := by
    unfold v4
    refine Keeps.trans ?_ State.modSrvPart_keeps
    exact h14
  clear_value v4 v5
  have h16 : Keeps s v6 := by
    unfold v6
    refine Keeps.trans ?_ State.sampleFails_keeps
    exact h15
  clear_value v6 v7 v8
  have h17 : Keeps s v9 := by
    unfold v9
    refine Keeps.trans ?_ (Keeps.foldl (fun x18 a19 => ?_) _ _)
    · exact h16
    · exact State.commitReq_keeps
  clear_value v9 v10 v11
  have h20 : Keeps s v12 := by
    unfold v12
    split
    · exact h17
    · refine Keeps.trans ?_ State.writeRecord_keeps
      exact h17
  clear_value v12
  have h25 : Keeps s v13 := by
    unfold v13
    refine Keeps.trans ?_ (Keeps.foldl (fun x26 a27 => ?_) _ _)
    · exact h20
    · exact State.reqEvent_keeps
  clear_value v13
  split
  · exact Keeps.refl _
  · split
    · split
      · exact Keeps.refl _
      · refine Keeps.trans ?_ State.count_keeps
        exact State.setFn_keeps
    · refine Keeps.trans ?_ State.hwAdd_keeps
      exact h25

theorem State.writeMoments_keeps {s : State} {b1 b2 b3 b4 b5 : Nat} {b6 : Bool} {b7 : List Nat} :
    Keeps s (State.writeMoments s b1 b2 b3 b4 b5 b6 b7) := by
  delta State.writeMoments
  extract_lets v0 v1 v2
  clear_value v0 v1
  have h3 : Keeps s v2 := by
    unfold v2
    exact State.wr_keeps
  clear_value v2
  split
  · exact State.wr_keeps
  · refine Keeps.trans ?_ State.wr_keeps
    exact h3

theorem State.closeRun_keeps {s : State} {b1 b2 : Nat} :
    Keeps s (State.closeRun s b1 b2) := by
  delta State.closeRun
  extract_lets v0 v1
  clear_value v0 v1
  exact State.setUnit_keeps

theorem State.unitError_keeps {s : State} {b1 b2 b3 b4 : Nat} {b5 : Bool} :
    Keeps s (State.unitError s b1 b2 b3 b4 b5) := by
  delta State.unitError
  extract_lets v0 v1
  have h2 : Keeps s v0 := by
    unfold v0
    refine Keeps.trans ?_ State.rputN_keeps
    exact State.rputN_keeps
  clear_value v0
  have h3 : Keeps s v1 := by
    unfold v1
    refine Keeps.trans ?_ State.rputN_keeps
    split
    · exact h2
    · refine Keeps.trans ?_ State.issue_keeps
      exact h2
  clear_value v1
  refine Keeps.trans ?_ State.stepFault_keeps
  exact h3

theorem State.readJobs_keeps {s : State} {b1 b2 b3 : Nat} : Keeps s (State.readJobs s b1 b2 b3) := by
  induction b3 generalizing s with
  | zero => exact State.closeRun_keeps
  | succ n ih =>
    unfold State.readJobs
    extract_lets x a next b j st v
    have hn : ∀ u, Keeps u (next u) := by
      unfold next
      intro u
      refine Keeps.trans ?_ ih
      exact State.setUnit_keeps
    clear_value next
    split
    · exact State.closeRun_keeps
    · split
      · refine Keeps.trans ?_ (hn _)
        exact State.unitError_keeps
      · split
        · refine Keeps.trans ?_ (hn _)
          exact State.unitError_keeps
        · have hv : Keeps s v := by
            unfold v
            exact State.setUnit_keeps
          clear_value v
          split
          · exact hv
          · split
            · refine Keeps.trans ?_ (hn _)
              refine Keeps.trans ?_ State.unitError_keeps
              exact hv
            · refine Keeps.trans ?_ State.registerWait_keeps
              exact hv

theorem State.nextJob_keeps {s : State} {b1 b2 : Nat} :
    Keeps s (State.nextJob s b1 b2) := by
  delta State.nextJob
  extract_lets v0 v1
  have h2 : Keeps s v0 := by
    unfold v0
    refine Keeps.trans ?_ State.holdEnd_keeps
    exact State.cancelWait_keeps
  clear_value v0 v1
  refine Keeps.trans ?_ State.readJobs_keeps
  refine Keeps.trans ?_ State.setUnit_keeps
  exact h2

theorem State.jobError_keeps {s : State} {b1 b2 b3 b4 : Nat} {b5 : Bool} :
    Keeps s (State.jobError s b1 b2 b3 b4 b5) := by
  delta State.jobError
  refine Keeps.trans ?_ State.nextJob_keeps
  exact State.unitError_keeps

theorem State.jobDone_keeps {s : State} {b1 b2 : Nat} :
    Keeps s (State.jobDone s b1 b2) := by
  delta State.jobDone
  extract_lets v0 v1
  clear_value v0
  have h2 : Keeps s v1 := by
    unfold v1
    split
    · exact State.hwAdd_keeps
    · exact Keeps.refl _
  clear_value v1
  refine Keeps.trans ?_ State.nextJob_keeps
  exact h2

theorem State.jobSkipped_keeps {s : State} {b1 b2 : Nat} :
    Keeps s (State.jobSkipped s b1 b2) := by
  delta State.jobSkipped
  extract_lets v0 v1 v2 v3
  have h4 : Keeps s v0 := by
    unfold v0
    refine Keeps.trans ?_ State.raise_keeps
    refine Keeps.trans ?_ State.tally1_keeps
    exact State.count_keeps
  clear_value v0
  have h5 : Keeps s v1 := by
    unfold v1
    refine Keeps.trans ?_ State.rputN_keeps
    exact h4
  clear_value v1 v2
  have h6 : Keeps s v3 := by
    unfold v3
    refine Keeps.trans ?_ State.setTrain_keeps
    exact h5
  clear_value v3
  refine Keeps.trans ?_ State.jobDone_keeps
  exact h6

theorem State.setNf_keeps {s : State} {b1 b2 : Nat} :
    Keeps s (State.setNf s b1 b2) := by
  delta State.setNf
  extract_lets v0 v1 v2 v3 v4
  clear_value v0
  have h5 : Keeps s v1 := by
    unfold v1
    exact State.setTrain_keeps
  clear_value v1 v2
  have h6 : Keeps s v3 := by
    unfold v3
    refine Keeps.trans ?_ State.raise_keeps
    refine Keeps.trans ?_ State.setTrain_keeps
    exact h5
  clear_value v3
  have h7 : Keeps s v4 := by
    unfold v4
    refine Keeps.trans ?_ State.rputN_keeps
    refine Keeps.trans ?_ State.issue_keeps
    exact h6
  clear_value v4
  split
  · refine Keeps.trans ?_ State.stepFault_keeps
    exact h7
  · exact h5

theorem State.startApply_keeps {s : State} {b1 b2 : Nat} :
    Keeps s (State.startApply s b1 b2) := by
  delta State.startApply
  extract_lets v0 v1 v2 v3
  clear_value v0 v1
  have h4 : Keeps s v2 := by
    unfold v2
    split
    · exact State.setTrain_keeps
    · exact Keeps.refl _
  clear_value v2 v3
  split
  · exact State.jobDone_keeps
  · split
    · exact State.jobSkipped_keeps
    · refine Keeps.trans ?_ State.setUnit_keeps
      exact h4

theorem State.jobEligible_keeps {s : State} {b1 : Nat} :
    Keeps s (State.jobEligible s b1) := by
  delta State.jobEligible
  split
  · exact Keeps.refl _
  · extract_lets v7 v8 v9 v10
    clear_value v7 v8
    have h11 : Keeps s v9 := by
      unfold v9
      refine Keeps.trans ?_ State.setUnit_keeps
      exact State.cancelWait_keeps
    clear_value v9 v10
    split
    · exact Keeps.refl _
    · split
      · refine Keeps.trans ?_ State.jobError_keeps
        exact h11
      · split
        · refine Keeps.trans ?_ State.startApply_keeps
          exact h11
        · refine Keeps.trans ?_ State.setUnit_keeps
          exact h11

theorem State.gradError_keeps {s : State} {b1 : Job} {b2 : Nat} :
    Keeps s (State.gradError s b1 b2) := by
  delta State.gradError
  exact State.eccUncorrected_keeps

theorem State.checkEnd_keeps {s : State} {b1 : Nat} {b2 : Option Nat} :
    Keeps s (State.checkEnd s b1 b2) := by
  delta State.checkEnd
  split
  · exact Keeps.refl _
  · extract_lets v7 v8 v9 v10 v11 v12 v13
    clear_value v7 v8 v9 v10 v11
    have h14 : Keeps s v12 := by
      unfold v12
      exact State.rputN_keeps
    clear_value v12 v13
    split
    · exact Keeps.refl _
    · split
      · refine Keeps.trans ?_ State.jobError_keeps
        exact State.gradError_keeps
      · split
        · refine Keeps.trans ?_ State.jobSkipped_keeps
          split
          · refine Keeps.trans ?_ State.setNf_keeps
            exact h14
          · exact h14
        · refine Keeps.trans ?_ State.startApply_keeps
          refine Keeps.trans ?_ State.setUnit_keeps
          exact h14

theorem State.applyWrites_keeps {s : State} {b1 b2 b3 : Nat} :
    KeepsFst s (State.applyWrites s b1 b2 b3) := by
  delta State.applyWrites
  extract_lets v0 v1 v2 v3 v4 v5 v6 v7 v8 v9 v10 v11 v12 v13 v14 v15 v16 v17 v18 v19 v20
  clear_value v0 v1 v2 v3 v4 v6 v7 v8 v9 v10 v11 v12 v13
  have h21 : Keeps s v14 := by
    unfold v14
    exact State.wr_keeps
  clear_value v14
  have h22 : Keeps s v15 := by
    unfold v15
    refine Keeps.trans ?_ State.writeMoments_keeps
    exact h21
  clear_value v15
  have h23 : Keeps s v16 := by
    unfold v16
    split
    · refine Keeps.trans ?_ State.writeMoments_keeps
      exact h22
    · exact h22
  clear_value v16
  have h28 : Keeps s v17 := by
    unfold v17
    split
    · exact h23
    · refine Keeps.trans ?_ State.wr_keeps
      exact h23
  clear_value v17 v18 v19 v20
  split
  · refine KeepsFst.mk ?_
    exact State.wr_keeps
  · refine KeepsFst.mk ?_
    exact h28

theorem State.applyEnd_keeps {s : State} {b1 : Nat} {b2 : Option Nat} :
    Keeps s (State.applyEnd s b1 b2) := by
  delta State.applyEnd
  split
  · exact Keeps.refl _
  · extract_lets v7 v8
    clear_value v7 v8
    split
    · exact Keeps.refl _
    · split
      · split
        · refine Keeps.trans ?_ State.jobError_keeps
          refine Keeps.trans ?_ State.gradError_keeps
          exact KeepsFst.of State.applyWrites_keeps (by assumption)
      · split
        · extract_lets v22 v23 v24
          have h25 : Keeps s v22 := by
            unfold v22
            refine Keeps.trans ?_ State.count_keeps
            refine Keeps.trans ?_ State.rputN_keeps
            exact KeepsFst.of State.applyWrites_keeps (by assumption)
          clear_value v22
          have h26 : Keeps s v23 := by
            unfold v23
            refine Keeps.trans ?_ State.count_keeps
            exact h25
          clear_value v23
          have h27 : Keeps s v24 := by
            unfold v24
            split
            · refine Keeps.trans ?_ State.hwAdd_keeps
              exact h26
            · exact h26
          clear_value v24
          split
          · refine Keeps.trans ?_ State.jobError_keeps
            exact h27
          · refine Keeps.trans ?_ State.jobDone_keeps
            exact h26

theorem State.armUnit_keeps {s : State} {b1 : Nat} :
    Keeps s (State.armUnit s b1) := by
  delta State.armUnit
  extract_lets v0
  clear_value v0
  refine Keeps.trans ?_ State.startOfWork_keeps
  exact State.setUnit_keeps

theorem State.disarmUnit_keeps {s : State} {b1 : Nat} :
    Keeps s (State.disarmUnit s b1) := by
  delta State.disarmUnit
  extract_lets v0
  clear_value v0
  split
  · exact State.setUnit_keeps
  · exact State.setUnit_keeps
  · exact Keeps.refl _

theorem State.updDeadline_keeps {s : State} {b1 : Nat} :
    Keeps s (State.updDeadline s b1) := by
  delta State.updDeadline
  extract_lets v0 v1
  clear_value v0 v1
  split
  · extract_lets v9 v10
    have h11 : Keeps s v9 := by
      unfold v9
      exact State.late_keeps
    clear_value v9 v10
    split
    · exact Keeps.refl _
    · split
      · refine Keeps.trans ?_ State.setUnit_keeps
        exact h11
      · refine Keeps.trans ?_ State.jobError_keeps
        exact h11
  · exact Keeps.refl _

theorem State.endUpdate_keeps {s : State} {b1 b2 : Nat} {b3 : Bool} :
    Keeps s (State.endUpdate s b1 b2 b3) := by
  delta State.endUpdate
  split
  · exact Keeps.refl _
  · split
    · exact State.jobError_keeps
    · exact Keeps.refl _

theorem State.lossLoop_keeps {s : State} {b1 : Nat} :
    Keeps s (State.lossLoop s b1) := by
  delta State.lossLoop
  extract_lets v0 v1 v2 v3 v4 v5 v6 v7 v8
  clear_value v0 v1 v2
  have h9 : Keeps s v3 := by
    unfold v3
    split
    · exact Keeps.refl _
    · refine Keeps.trans ?_ State.rputN_keeps
      exact State.rputN_keeps
  clear_value v3 v4 v5 v6 v7 v8
  split
  · exact Keeps.refl _
  · split
    · exact h9
    · split
      · extract_lets v24 v25 v26 v27
        clear_value v24
        have h28 : Keeps s v25 := by
          unfold v25
          refine Keeps.trans ?_ State.setTrain_keeps
          exact h9
        clear_value v25
        have h29 : Keeps s v26 := by
          unfold v26
          split
          · refine Keeps.trans ?_ State.logAdd_keeps
            refine Keeps.trans ?_ State.issue_keeps
            refine Keeps.trans ?_ State.raise_keeps
            exact h28
          · exact h28
        clear_value v26
        have h32 : Keeps s v27 := by
          unfold v27
          refine Keeps.trans ?_ State.raise_keeps
          refine Keeps.trans ?_ State.rputN_keeps
          exact h29
        clear_value v27
        split
        · exact h29
        · refine Keeps.trans ?_ State.logAdd_keeps
          exact h32

theorem State.openRun_keeps {s : State} {b1 : Nat} :
    Keeps s (State.openRun s b1) := by
  delta State.openRun
  split
  · exact Keeps.refl _
  · extract_lets v7 v8 v9
    clear_value v7
    have h10 : Keeps s v8 := by
      unfold v8
      refine Keeps.trans ?_ State.rputN_keeps
      exact State.rputN_keeps
    clear_value v8
    have h11 : Keeps s v9 := by
      unfold v9
      refine Keeps.trans ?_ State.issue_keeps
      refine Keeps.trans ?_ State.raise_keeps
      exact State.setUnit_keeps
    clear_value v9
    split
    · refine Keeps.trans ?_ State.readJobs_keeps
      refine Keeps.trans ?_ State.setUnit_keeps
      exact h10
    · refine Keeps.trans ?_ State.stepFault_keeps
      refine Keeps.trans ?_ State.rputN_keeps
      exact h11
    · exact Keeps.refl _

theorem State.mirrorScale_keeps {s : State} {b1 : Nat} :
    Keeps s (State.mirrorScale s b1) := by
  delta State.mirrorScale
  extract_lets v0 v1 v2 v3
  clear_value v0
  have h4 : Keeps s v1 := by
    unfold v1
    exact State.setTrain_keeps
  clear_value v1 v2
  have h5 : Keeps s v3 := by
    unfold v3
    split
    · exact h4
    · refine Keeps.trans ?_ State.wrNat_keeps
      exact h4
  clear_value v3
  split
  · exact Keeps.refl _
  · refine Keeps.trans ?_ State.errCairn_keeps
    exact h5

theorem State.trainWrap_keeps {s : State} :
    Keeps s (State.trainWrap s) := by
  delta State.trainWrap
  extract_lets v0 v1 v2 v3 v4 v5 v6 v7
  clear_value v0
  have h8 : Keeps s v1 := by
    unfold v1
    refine Keeps.trans ?_ (Keeps.foldl (fun x9 a10 => ?_) _ _)
    · exact Keeps.refl _
    · exact State.lossLoop_keeps
  clear_value v1
  have h11 : Keeps s v2 := by
    unfold v2
    refine Keeps.trans ?_ (Keeps.foldl (fun x12 a13 => ?_) _ _)
    · exact h8
    · extract_lets v14
      clear_value v14
      exact State.setTrain_keeps
  clear_value v2
  have h15 : Keeps s v3 := by
    unfold v3
    refine Keeps.trans ?_ (Keeps.foldl (fun x16 a17 => ?_) _ _)
    · exact h11
    · extract_lets v18
      clear_value v18
      exact State.setUnit_keeps
  clear_value v3
  have h19 : Keeps s v4 := by
    unfold v4
    refine Keeps.trans ?_ (Keeps.foldl (fun x20 a21 => ?_) _ _)
    · exact h15
    · extract_lets v22
      clear_value v22
      exact State.setTrain_keeps
  clear_value v4 v5
  have h23 : Keeps s v6 := by
    unfold v6
    refine Keeps.upd (u := v4) rfl ?_
    exact h19
  clear_value v6
  have h24 : Keeps s v7 := by
    unfold v7
    refine Keeps.trans ?_ (Keeps.foldl (fun x25 a26 => ?_) _ _)
    · exact h23
    · exact State.openRun_keeps
  clear_value v7
  refine Keeps.trans ?_ (Keeps.foldl (fun x27 a28 => ?_) _ _)
  · exact h24
  · exact State.mirrorScale_keeps

theorem State.sendLinkFrame_keeps {s : State} {b1 : Nat} :
    Keeps s (State.sendLinkFrame s b1) := by
  delta State.sendLinkFrame
  extract_lets v0 v1 v2
  clear_value v0 v1 v2
  split
  · exact Keeps.refl _
  · split
    · extract_lets v12
      have h13 : Keeps s v12 := by
        unfold v12
        refine Keeps.trans ?_ State.count_keeps
        exact State.setPort_keeps
      clear_value v12
      refine Keeps.trans ?_ State.emit_keeps
      exact h13
    · split
      · split
        · extract_lets v23
          have h24 : Keeps s v23 := by
            unfold v23
            exact State.setPort_keeps
          clear_value v23
          refine Keeps.trans ?_ State.emit_keeps
          exact h24
        · exact Keeps.refl _
      · split
        · refine Keeps.trans ?_ State.emit_keeps
          exact State.setPort_keeps
        · refine Keeps.trans ?_ State.emit_keeps
          exact State.setPort_keeps

theorem State.linkReceive_keeps {s : State} {b1 : Nat} {b2 : List Byte} :
    Keeps s (State.linkReceive s b1 b2) := by
  delta State.linkReceive
  extract_lets v0
  clear_value v0
  split
  · exact Keeps.refl _
  · split
    · exact Keeps.refl _
    · extract_lets v11 v12 v13 v14 v15 v16 v17
      have h18 : Keeps s v11 := by
        unfold v11
        split
        · exact Keeps.refl _
        · exact State.count_keeps
      clear_value v11 v12 v13 v14 v15 v16 v17
      split
      · refine Keeps.trans ?_ State.setPort_keeps
        exact h18
      · split
        · refine Keeps.trans ?_ State.setPort_keeps
          exact h18
        · refine Keeps.trans ?_ State.setPort_keeps
          exact h18
      · split
        · refine Keeps.trans ?_ State.setPort_keeps
          exact h18
        · refine Keeps.trans ?_ State.setPort_keeps
          exact h18
      · refine Keeps.trans ?_ State.setPort_keeps
        exact h18

theorem State.sendNotice_keeps {s : State} {b1 b2 : Nat} {b3 : Bool} {b4 : Option Nat} :
    Keeps s (State.sendNotice s b1 b2 b3 b4) := by
  delta State.sendNotice
  refine Keeps.trans ?_ (Keeps.foldl (fun x0 a1 => ?_) _ _)
  · exact Keeps.refl _
  · split
    · exact State.emit_keeps
    · exact Keeps.refl _

theorem State.bounce_keeps {s : State} {b1 : Nat} {b2 : Packet} :
    Keeps s (State.bounce s b1 b2) := by
  delta State.bounce
  split
  · exact Keeps.refl _
  · refine Keeps.trans ?_ State.sendPacket_keeps
    exact State.count_keeps

theorem State.dropPort_keeps {s : State} {b1 b2 : Nat} :
    Keeps s (State.dropPort s b1 b2) := by
  delta State.dropPort
  extract_lets v0 v1 v2 v3 v4 v5
  clear_value v0
  have h6 : Keeps s v1 := by
    unfold v1
    exact Keeps.refl _
  clear_value v1 v2
  have h7 : Keeps s v3 := by
    unfold v3
    exact State.setPort_keeps
  clear_value v3
  have h8 : Keeps s v4 := by
    unfold v4
    split
    · refine Keeps.trans ?_ State.sendNotice_keeps
      refine Keeps.trans ?_ State.raise_keeps
      refine Keeps.trans ?_ State.count_keeps
      exact h7
    · exact h7
  clear_value v4
  have h13 : Keeps s v5 := by
    unfold v5
    refine Keeps.trans ?_ (Keeps.foldl (fun x14 a15 => ?_) _ _)
    · exact h8
    · exact State.bounce_keeps
  clear_value v5
  refine Keeps.trans ?_ State.resendRerouted_keeps
  exact h13

theorem State.trainPort_keeps {s : State} {b1 : Nat} :
    Keeps s (State.trainPort s b1) := by
  delta State.trainPort
  extract_lets v0
  clear_value v0
  split
  · exact Keeps.refl _
  · exact State.setPort_keeps

theorem State.trainingResult_keeps {s : State} {b1 b2 b3 b4 : Nat} :
    Keeps s (State.trainingResult s b1 b2 b3 b4) := by
  delta State.trainingResult
  extract_lets v0 v1 v2 v3 v4 v5
  clear_value v0
  have h6 : Keeps s v1 := by
    unfold v1
    exact Keeps.refl _
  clear_value v1
  have h7 : Keeps s v2 := by
    unfold v2
    exact State.setPort_keeps
  clear_value v2
  have h8 : Keeps s v3 := by
    unfold v3
    refine Keeps.trans ?_ State.sendNotice_keeps
    refine Keeps.trans ?_ State.raise_keeps
    exact h7
  clear_value v3
  have h9 : Keeps s v4 := by
    unfold v4
    refine Keeps.trans ?_ State.resendRerouted_keeps
    exact h8
  clear_value v4
  have h10 : Keeps s v5 := by
    unfold v5
    refine Keeps.trans ?_ State.issue_keeps
    refine Keeps.trans ?_ State.raise_keeps
    exact State.setPort_keeps
  clear_value v5
  split
  · exact Keeps.refl _
  · split
    · split
      · refine Keeps.trans ?_ State.raise_keeps
        exact h9
      · exact h9
    · refine Keeps.trans ?_ State.rputN_keeps
      exact h10

theorem State.trainingTimeout_keeps {s : State} {b1 : Nat} :
    Keeps s (State.trainingTimeout s b1) := by
  delta State.trainingTimeout
  split
  · exact State.setPort_keeps
  · exact Keeps.refl _

theorem State.retrain_keeps {s : State} {b1 : Nat} :
    Keeps s (State.retrain s b1) := by
  delta State.retrain
  exact State.trainPort_keeps

theorem State.linkResend_keeps {s : State} {b1 : Nat} :
    Keeps s (State.linkResend s b1) := by
  delta State.linkResend
  extract_lets v0
  clear_value v0
  split
  · exact Keeps.refl _
  · split
    · exact State.dropPort_keeps
    · exact State.setPort_keeps

theorem State.lossOfLock_keeps {s : State} {b1 : Nat} :
    Keeps s (State.lossOfLock s b1) := by
  delta State.lossOfLock
  split
  · exact State.dropPort_keeps
  · exact Keeps.refl _

theorem State.settlePort_keeps {s : State} {b1 : Nat} :
    Keeps s (State.settlePort s b1) := by
  delta State.settlePort
  extract_lets v0
  clear_value v0
  split
  · split
    · exact State.setPort_keeps
    · exact Keeps.refl _
  · split
    · exact Keeps.refl _
    · exact State.dropPort_keeps

theorem State.settlePorts_keeps {s : State} :
    Keeps s (State.settlePorts s) := by
  delta State.settlePorts
  refine Keeps.trans ?_ (Keeps.foldl (fun x0 a1 => ?_) _ _)
  · exact Keeps.refl _
  · exact State.settlePort_keeps

theorem State.failedWritten_keeps {s : State} {b1 : Nat} :
    Keeps s (State.failedWritten s b1) := by
  delta State.failedWritten
  refine Keeps.trans ?_ (Keeps.foldl (fun x0 a1 => ?_) _ _)
  · exact Keeps.refl _
  · extract_lets v2
    clear_value v2
    split
    · refine Keeps.trans ?_ State.trainPort_keeps
      exact State.dropPort_keeps
    · exact Keeps.refl _

theorem State.noticeIn_keeps {s : State} {b1 b2 b3 : Nat} {b4 : Bool} :
    Keeps s (State.noticeIn s b1 b2 b3 b4) := by
  delta State.noticeIn
  extract_lets v0 v1 v2 v3
  clear_value v0
  have h4 : Keeps s v1 := by
    unfold v1
    exact Keeps.refl _
  clear_value v1 v2
  have h5 : Keeps s v3 := by
    unfold v3
    exact Keeps.of rfl
  clear_value v3
  split
  · exact Keeps.refl _
  · refine Keeps.trans ?_ State.resendRerouted_keeps
    refine Keeps.trans ?_ State.sendNotice_keeps
    exact h5

theorem State.setInst_keeps {s : State} {b1 : Inst} :
    Keeps s (State.setInst s b1) := by
  delta State.setInst
  extract_lets v0
  clear_value v0
  exact Keeps.of rfl

theorem State.collRelease_keeps {s : State} {b1 : Nat} :
    Keeps s (State.collRelease s b1) := by
  delta State.collRelease
  extract_lets v0
  split
  · refine Keeps.trans ?_ State.updateHold_keeps
    exact Keeps.of rfl
  · exact Keeps.refl _

theorem State.collClose_keeps {s : State} :
    Keeps s (State.collClose s) := by
  delta State.collClose
  extract_lets v0
  clear_value v0
  split
  · exact Keeps.of rfl
  · exact Keeps.refl _

theorem State.collFail_keeps {s : State} {b1 b2 b3 : Nat} {b4 : Bool} :
    Keeps s (State.collFail s b1 b2 b3 b4) := by
  delta State.collFail
  split
  · exact Keeps.refl _
  · extract_lets v7 v8 v9 v10 v11
    have h12 : Keeps s v7 := by
      unfold v7
      refine Keeps.trans ?_ State.setInst_keeps
      exact State.cancelWait_keeps
    clear_value v7
    have h13 : Keeps s v8 := by
      unfold v8
      refine Keeps.trans ?_ State.collRelease_keeps
      exact h12
    clear_value v8
    have h14 : Keeps s v9 := by
      unfold v9
      refine Keeps.trans ?_ State.raise_keeps
      split
      · exact h13
      · refine Keeps.trans ?_ State.issue_keeps
        exact h13
    clear_value v9
    have h17 : Keeps s v10 := by
      unfold v10
      split
      · refine Keeps.trans ?_ State.raise_keeps
        exact h14
      · exact h14
    clear_value v10
    have h20 : Keeps s v11 := by
      unfold v11
      refine Keeps.trans ?_ State.rputN_keeps
      exact h17
    clear_value v11
    split
    · exact Keeps.refl _
    · refine Keeps.trans ?_ State.collClose_keeps
      refine Keeps.trans ?_ State.stepFault_keeps
      exact h20

theorem State.collDone_keeps {s : State} {b1 : Nat} :
    Keeps s (State.collDone s b1) := by
  delta State.collDone
  split
  · exact Keeps.refl _
  · extract_lets v7 v8
    have h9 : Keeps s v7 := by
      unfold v7
      exact State.setInst_keeps
    clear_value v7
    have h10 : Keeps s v8 := by
      unfold v8
      split
      · refine Keeps.trans ?_ State.hwAdd_keeps
        exact h9
      · exact h9
    clear_value v8
    split
    · exact Keeps.refl _
    · refine Keeps.trans ?_ State.collClose_keeps
      exact h10

theorem State.collSend_keeps {s : State} {b1 : Nat} {b2 : Inst} {b3 b4 b5 b6 b7 : Nat} {b8 : List Byte} :
    Keeps s (State.collSend s b1 b2 b3 b4 b5 b6 b7 b8) := by
  delta State.collSend
  extract_lets v0
  clear_value v0
  refine Keeps.trans ?_ (Keeps.foldl (fun x1 a2 => ?_) _ _)
  · exact Keeps.refl _
  · extract_lets v3
    clear_value v3
    split
    · exact State.sendRequest_keeps.1 _ (by assumption)
    · exact State.sendRequest_keeps.2 _ (by assumption)

theorem State.collWrite_keeps {s : State} {b1 b2 b3 b4 b5 : Nat} {b6 : List Byte} :
    Keeps s (State.collWrite s b1 b2 b3 b4 b5 b6) := by
  delta State.collWrite
  split
  · exact Keeps.refl _
  · extract_lets v7 v8 v9 v10
    clear_value v7 v8
    have h11 : Keeps s v9 := by
      unfold v9
      exact State.wr_keeps
    clear_value v9
    have h12 : Keeps s v10 := by
      unfold v10
      refine Keeps.trans ?_ State.rput_keeps
      exact h11
    clear_value v10
    split
    · exact Keeps.refl _
    · refine Keeps.trans ?_ State.setInst_keeps
      exact h12

theorem State.collResult_keeps {s : State} {b1 b2 b3 b4 b5 : Nat} {b6 : List Byte} :
    Keeps s (State.collResult s b1 b2 b3 b4 b5 b6) := by
  delta State.collResult
  split
  · exact Keeps.refl _
  · extract_lets v7 v8 v9 v10
    clear_value v7 v8
    have h11 : Keeps s v9 := by
      unfold v9
      exact State.collWrite_keeps
    clear_value v9
    have h12 : Keeps s v10 := by
      unfold v10
      split
      · refine Keeps.trans ?_ (Keeps.foldl (fun x14 a15 => ?_) _ _)
        · exact h11
        · exact State.collSend_keeps
      · exact h11
    clear_value v10
    refine Keeps.trans ?_ State.collDone_keeps
    exact h12

theorem State.foldInter_keeps {s : State} {b1 b2 b3 : Nat} :
    Keeps s (State.foldInter s b1 b2 b3) := by
  delta State.foldInter
  split
  · exact Keeps.refl _
  · extract_lets v7 v8 v9 v10 v11 v12 v13 v14 v15 v16 v17 v18
    clear_value v7 v8 v9 v10 v11 v12 v13 v14 v15 v16
    have h19 : Keeps s v17 := by
      unfold v17
      exact State.setInst_keeps
    clear_value v17
    have h20 : Keeps s v18 := by
      unfold v18
      refine Keeps.trans ?_ (Keeps.foldl (fun x21 a22 => ?_) _ _)
      · exact h19
      · exact State.collSend_keeps
    clear_value v18
    split
    · exact Keeps.refl _
    · split
      · exact Keeps.refl _
      · split
        · refine Keeps.trans ?_ State.collDone_keeps
          refine Keeps.trans ?_ State.collWrite_keeps
          exact h19
        · refine Keeps.trans ?_ State.collResult_keeps
          exact h20

theorem State.keepPiece_keeps {s : State} {b1 : Nat} {b2 : Piece} :
    Keeps s (State.keepPiece s b1 b2) := by
  delta State.keepPiece
  split
  · exact State.setInst_keeps
  · exact Keeps.refl _

theorem State.foldIntra_keeps {s : State} {b1 b2 : Nat} :
    Keeps s (State.foldIntra s b1 b2) := by
  delta State.foldIntra
  split
  · exact Keeps.refl _
  · extract_lets v7 v8 v9 v10 v11 v12 v13 v14 v15 v16 v17 v18
    clear_value v7 v8 v9 v10 v11 v12 v13 v14 v15 v16
    have h19 : Keeps s v17 := by
      unfold v17
      exact State.setInst_keeps
    clear_value v17 v18
    split
    · exact Keeps.refl _
    · split
      · exact Keeps.refl _
      · refine Keeps.trans ?_ (Keeps.foldl (fun x24 a25 => ?_) _ _)
        · exact h19
        · split
          · extract_lets v30 v31
            clear_value v30 v31
            split
            · exact Keeps.refl _
            · split
              · refine Keeps.trans ?_ State.foldInter_keeps
                exact State.keepPiece_keeps
              · exact State.collSend_keeps

theorem State.chunkSkipped_keeps {s : State} {b1 b2 b3 b4 : Nat} {b5 : List Byte} :
    Keeps s (State.chunkSkipped s b1 b2 b3 b4 b5) := by
  delta State.chunkSkipped
  split
  · exact Keeps.refl _
  · extract_lets v7 v8 v9 v10 v11 v12 v13
    clear_value v7 v8
    have h14 : Keeps s v9 := by
      unfold v9
      exact State.wr_keeps
    clear_value v9 v10
    have h15 : Keeps s v11 := by
      unfold v11
      split
      · refine Keeps.upd (u := v9) rfl ?_
        exact h14
      · exact Keeps.refl _
    clear_value v11 v12
    have h18 : Keeps s v13 := by
      unfold v13
      refine Keeps.trans ?_ State.setInst_keeps
      exact h15
    clear_value v13
    split
    · exact h15
    · refine Keeps.trans ?_ State.raise_keeps
      split
      · refine Keeps.trans ?_ State.count_keeps
        exact h18
      · refine Keeps.trans ?_ State.count_keeps
        exact h18

theorem State.contribute_keeps {s : State} {b1 : Nat} {b2 : Inst} {b3 : List (Nat × Nat × Nat × List Byte)} :
    Keeps s (State.contribute s b1 b2 b3) := by
  fun_induction State.contribute s b1 b2 b3
  · exact Keeps.refl _
  · rename_i r3 r4 r5 r6 r7 r8 r9 r10 r11 r12
    clear_value r9 r10
    have h13 : Keeps r3 r11 := by
      unfold r11
      split
      · exact State.collSend_keeps
      · split
        · exact State.chunkSkipped_keeps
        · refine Keeps.trans ?_ State.foldIntra_keeps
          exact State.keepPiece_keeps
    clear_value r11
    refine Keeps.trans ?_ (by assumption)
    exact h13

theorem State.give_keeps {s : State} {b1 : Nat} {b2 : Inst} :
    Keeps s (State.give s b1 b2) := by
  delta State.give
  extract_lets v0 v1 v2 v3 v4 v5
  clear_value v0 v1 v2
  have h6 : Keeps s v3 := by
    unfold v3
    refine Keeps.trans ?_ (Keeps.foldl (fun x7 a8 => ?_) _ _)
    · exact Keeps.refl _
    · refine Keeps.trans ?_ (Keeps.foldl (fun x9 a10 => ?_) _ _)
      · exact Keeps.refl _
      · exact State.collSend_keeps
  clear_value v3
  have h11 : Keeps s v4 := by
    unfold v4
    refine Keeps.trans ?_ State.wr_keeps
    exact h6
  clear_value v4 v5
  split
  · exact Keeps.refl _
  · refine Keeps.trans ?_ State.setInst_keeps
    exact h11

theorem State.collStart_keeps {s : State} {b1 : Nat} :
    Keeps s (State.collStart s b1) := by
  delta State.collStart
  split
  · exact Keeps.refl _
  · extract_lets v7 v8 v9 v10 v11 v12 v13 v14 v15
    clear_value v7
    have h16 : Keeps s v8 := by
      unfold v8
      exact State.cancelWait_keeps
    clear_value v8 v9
    have h17 : Keeps s v10 := by
      unfold v10
      refine Keeps.trans ?_ State.setInst_keeps
      exact h16
    clear_value v10 v11 v12 v13
    have h18 : Keeps s v14 := by
      unfold v14
      split
      · refine Keeps.trans ?_ State.zero_keeps
        refine Keeps.upd (u := v10) rfl ?_
        exact h17
      · exact h17
    clear_value v14
    have h21 : Keeps s v15 := by
      unfold v15
      split
      · refine Keeps.trans ?_ State.contribute_keeps
        exact h18
      · refine Keeps.trans ?_ State.give_keeps
        exact h17
    clear_value v15
    split
    · exact Keeps.refl _
    · split
      · refine Keeps.trans ?_ State.collFail_keeps
        exact h16
      · refine Keeps.trans ?_ State.collDone_keeps
        exact h21

theorem State.takePiece_keeps {s : State} {b1 : Nat} {b2 : Piece} :
    Keeps s (State.takePiece s b1 b2) := by
  delta State.takePiece
  split
  · exact Keeps.refl _
  · extract_lets v7 v8 v9 v10 v11 v12 v13 v14 v15 v16 v17 v18 v19 v20 v21
    clear_value v7 v8 v9 v10 v11 v12 v13
    have h22 : Keeps s v14 := by
      unfold v14
      exact State.setInst_keeps
    clear_value v14 v15
    have h23 : Keeps s v16 := by
      unfold v16
      refine Keeps.trans ?_ State.wr_keeps
      exact h22
    clear_value v16 v17 v18 v19 v20 v21
    split
    · refine Keeps.trans ?_ State.collDone_keeps
      refine Keeps.trans ?_ State.setInst_keeps
      exact h23
    · split
      · refine Keeps.trans ?_ State.foldIntra_keeps
        exact h22
      · refine Keeps.trans ?_ State.foldInter_keeps
        exact h22
      · split
        · exact h22
        · refine Keeps.trans ?_ State.collResult_keeps
          refine Keeps.trans ?_ State.setInst_keeps
          exact h22

theorem State.collHoldCheck_keeps {s : State} {b1 : Nat} :
    Keeps s (State.collHoldCheck s b1) := by
  delta State.collHoldCheck
  split
  · split
    · exact State.collRelease_keeps
    · exact Keeps.refl _
  · exact Keeps.refl _

theorem State.collData_keeps {s : State} {b1 b2 b3 b4 : Nat} {b5 : List Byte} :
    KeepsSnd s (State.collData s b1 b2 b3 b4 b5) := by
  delta State.collData
  split
  · extract_lets v3
    clear_value v3
    refine KeepsSnd.mk ?_
    exact Keeps.of rfl
  · extract_lets v8 v9 v10
    clear_value v8 v9 v10
    split
    · refine KeepsSnd.mk ?_
      exact State.collFail_keeps
    · split
      · refine KeepsSnd.mk ?_
        exact Keeps.refl _
      · refine KeepsSnd.mk ?_
        refine Keeps.trans ?_ State.collHoldCheck_keeps
        exact State.takePiece_keeps

theorem State.collDeadline_keeps {s : State} {b1 : Nat} :
    Keeps s (State.collDeadline s b1) := by
  delta State.collDeadline
  split
  · exact Keeps.refl _
  · extract_lets v7 v8 v9 v10 v11 v12 v13 v14 v15
    clear_value v7
    have h16 : Keeps s v8 := by
      unfold v8
      exact State.setInst_keeps
    clear_value v8
    have h17 : Keeps s v9 := by
      unfold v9
      refine Keeps.trans ?_ (Keeps.foldl (fun x18 a19 => ?_) _ _)
      · exact h16
      · exact State.late_keeps
    clear_value v9 v10 v11 v12
    have h20 : Keeps s v13 := by
      unfold v13
      refine Keeps.trans ?_ State.rput_keeps
      exact h17
    clear_value v13
    have h21 : Keeps s v14 := by
      unfold v14
      refine Keeps.trans ?_ State.count_keeps
      exact h20
    clear_value v14
    split
    · exact Keeps.refl _
    · split
      · exact h17
      · split
        · split
          · refine Keeps.trans ?_ (Keeps.foldl (fun x28 a29 => ?_) _ _)
            · exact h17
            · split
              · exact Keeps.refl _
              · extract_lets v35 v36
                clear_value v35
                have h37 : Keeps x28 v36 := by
                  unfold v36
                  exact State.setInst_keeps
                clear_value v36
                split
                · exact Keeps.refl _
                · refine Keeps.trans ?_ State.foldIntra_keeps
                  refine Keeps.trans ?_ State.count_keeps
                  exact h37
          · split
            · refine Keeps.trans ?_ State.collDone_keeps
              refine Keeps.trans ?_ State.setInst_keeps
              exact h21
            · exact h21
        · refine Keeps.trans ?_ State.updateHold_keeps
          refine Keeps.upd (u := v9) rfl ?_
          exact h17

theorem State.sendFail_keeps {s : State} {b1 : Inst} {b2 : Nat} :
    Keeps s (State.sendFail s b1 b2) := by
  delta State.sendFail
  refine Keeps.trans ?_ (Keeps.foldl (fun x0 a1 => ?_) _ _)
  · exact Keeps.refl _
  · exact State.sendPacket_keeps

theorem State.replaceExpiry_keeps {s : State} {b1 b2 : Nat} :
    Keeps s (State.replaceExpiry s b1 b2) := by
  delta State.replaceExpiry
  split
  · exact Keeps.refl _
  · split
    · exact Keeps.refl _
    · split
      · exact State.collRelease_keeps
      · refine Keeps.trans ?_ State.collFail_keeps
        exact State.sendFail_keeps

theorem State.graceExpiry_keeps {s : State} {b1 : Nat} :
    Keeps s (State.graceExpiry s b1) := by
  delta State.graceExpiry
  split
  · exact Keeps.refl _
  · split
    · exact Keeps.refl _
    · split
      · split
        · exact State.collFail_keeps
        · exact Keeps.refl _
      · split
        · exact State.collFail_keeps
        · exact Keeps.refl _

theorem State.collFailIn_keeps {s : State} {b1 b2 b3 : Nat} :
    Keeps s (State.collFailIn s b1 b2 b3) := by
  delta State.collFailIn
  split
  · exact State.collFail_keeps
  · exact Keeps.refl _

theorem State.collSkipped_keeps {s : State} {b1 b2 : Nat} {b3 : List Byte} :
    Keeps s (State.collSkipped s b1 b2 b3) := by
  delta State.collSkipped
  split
  · exact Keeps.refl _
  · extract_lets v7 v8
    clear_value v7 v8
    split
    · exact State.chunkSkipped_keeps
    · exact State.chunkSkipped_keeps

theorem State.collOpen_keeps {s : State} :
    Keeps s (State.collOpen s) := by
  delta State.collOpen
  extract_lets v0 v1 v2 v3 v4 v5 v6 v7
  clear_value v0 v1 v2 v3 v4 v5 v6
  have h8 : Keeps s v7 := by
    unfold v7
    exact Keeps.of rfl
  clear_value v7
  refine Keeps.trans ?_ (Keeps.foldl (fun x9 a10 => ?_) _ _)
  · exact h8
  · split
    · exact State.collFail_keeps
    · extract_lets v19 v20 v21
      clear_value v19 v20
      have h22 : Keeps x9 v21 := by
        unfold v21
        split
        · split
          · exact State.registerWait_keeps
          · exact State.collFail_keeps
        · exact Keeps.refl _
      clear_value v21
      split
      · exact State.collFail_keeps
      · refine Keeps.trans ?_ (Keeps.foldl (fun x33 a34 => ?_) _ _)
        · exact h22
        · exact State.takePiece_keeps

theorem State.collWrap_keeps {s : State} :
    Keeps s (State.collWrap s) := by
  delta State.collWrap
  split
  · exact Keeps.refl _
  · split
    · refine Keeps.trans ?_ State.collClose_keeps
      exact State.collOpen_keeps
    · split
      · refine Keeps.trans ?_ State.stepFault_keeps
        exact State.issue_keeps
      · exact Keeps.refl _

theorem State.collArm_keeps {s : State} :
    Keeps s (State.collArm s) := by
  delta State.collArm
  extract_lets v0
  clear_value v0
  refine Keeps.trans ?_ State.startOfWork_keeps
  exact Keeps.of rfl

theorem State.collDisarm_keeps {s : State} :
    Keeps s (State.collDisarm s) := by
  delta State.collDisarm
  extract_lets v0
  clear_value v0
  split
  · exact Keeps.of rfl
  · split
    · exact Keeps.of rfl
    · exact Keeps.refl _

theorem State.takeCmd_keeps {s : State} {b1 b2 : Nat} :
    KeepsOptSnd s (State.takeCmd s b1 b2) := by
  delta State.takeCmd
  split
  · extract_lets v5
    clear_value v5
    split
    · refine KeepsOptSnd.some ?_
      exact State.setFn_keeps
    · exact KeepsOptSnd.none
  · exact KeepsOptSnd.none

theorem State.countRefusal_keeps {s : State} {b1 b2 b3 : Nat} :
    Keeps s (State.countRefusal s b1 b2 b3) := by
  delta State.countRefusal
  extract_lets v0 v1
  clear_value v0
  have h2 : Keeps s v1 := by
    unfold v1
    exact State.setAcct_keeps
  clear_value v1
  refine Keeps.trans ?_ State.issue_keeps
  refine Keeps.trans ?_ State.raise_keeps
  refine Keeps.trans ?_ State.count_keeps
  exact h2

theorem State.delayReq_keeps {s : State} {b1 b2 : Nat} :
    Keeps s (State.delayReq s b1 b2) := by
  delta State.delayReq
  split
  · exact Keeps.refl _
  · extract_lets v7 v8 v9 v10 v11 v12
    clear_value v7 v8
    have h13 : Keeps s v9 := by
      unfold v9
      exact State.setReq_keeps
    clear_value v9 v10
    have h14 : Keeps s v11 := by
      unfold v11
      refine Keeps.trans ?_ State.setAcct_keeps
      exact h13
    clear_value v11
    have h15 : Keeps s v12 := by
      unfold v12
      refine Keeps.trans ?_ State.issue_keeps
      refine Keeps.trans ?_ State.raise_keeps
      refine Keeps.trans ?_ State.count_keeps
      exact h14
    clear_value v12
    split
    · refine Keeps.trans ?_ State.reqEvent_keeps
      exact h15
    · exact h15

theorem State.modelVerdict_keeps {s : State} {b1 b2 : Nat} :
    KeepsExcSnd s (State.modelVerdict s b1 b2) := by
  delta State.modelVerdict
  split
  · exact KeepsExcSnd.error
  · split
    · split
      · refine KeepsExcSnd.ok ?_
        exact State.autoSwap_keeps _ (by assumption)
      · exact KeepsExcSnd.error
    · exact KeepsExcSnd.error
  · refine KeepsExcSnd.ok ?_
    exact Keeps.refl _
  · exact KeepsExcSnd.error
  · refine KeepsExcSnd.ok ?_
    exact Keeps.refl _

theorem State.arrive_keeps {s : State} {b1 b2 b3 b4 b5 b6 : Nat} {b7 : Sampling} :
    Keeps s (State.arrive s b1 b2 b3 b4 b5 b6 b7) := by
  delta State.arrive
  extract_lets v0 v1 v2
  clear_value v0
  have h3 : ∀ c0, Keeps s (v1 c0) := by
    unfold v1
    intro c0
    refine Keeps.trans ?_ State.finalEntry_keeps
    exact State.countRefusal_keeps
  clear_value v1
  have h4 : ∀ c0, Keeps s (v2 c0) := by
    unfold v2
    intro c0
    refine Keeps.trans ?_ State.finalEntry_keeps
    exact State.issue_keeps
  clear_value v2
  split
  · exact h4 _
  · split
    · exact h3 _
    · split
      · exact h3 _
      · split
        · exact h3 _
        · split
          · exact h3 _
          · split
            · exact h3 _
            · split
              · exact h4 _
              · extract_lets v29 v30 v31 v32 v33 v34 v35
                clear_value v29 v30
                have h36 : Keeps s v31 := by
                  unfold v31
                  refine Keeps.trans ?_ State.setFn_keeps
                  exact State.modelVerdict_keeps _ _ (by assumption)
                clear_value v31 v32 v33
                have h37 : Keeps s v34 := by
                  unfold v34
                  refine Keeps.upd (u := v31) rfl ?_
                  exact h36
                clear_value v34
                have h38 : Keeps s v35 := by
                  unfold v35
                  refine Keeps.trans ?_ State.setReq_keeps
                  exact h37
                clear_value v35
                split
                · refine Keeps.trans ?_ State.delayReq_keeps
                  exact h38
                · exact h38

theorem State.cmdSubmit_keeps {s : State} {b1 : Nat} {b2 : List Byte} :
    Keeps s (State.cmdSubmit s b1 b2) := by
  delta State.cmdSubmit
  split
  · extract_lets v8 v9 v10 v11 v12 v13
    clear_value v8 v9 v10 v11
    have h14 : ∀ c0, Keeps s (v12 c0) := by
      unfold v12
      intro c0
      refine Keeps.trans ?_ State.finalEntry_keeps
      refine Keeps.trans ?_ State.issue_keeps
      exact State.takeCmd_keeps _ _ (by assumption)
    clear_value v12 v13
    split
    · exact h14 _
    · split
      · exact h14 _
      · split
        · exact h14 _
        · refine Keeps.trans ?_ State.arrive_keeps
          exact State.takeCmd_keeps _ _ (by assumption)
  · exact Keeps.refl _

theorem State.reqCommand_keeps {s : State} {f op ev : Nat} {go : Taken → Nat → Machine.Cell → State → State}
    (h : ∀ c r cell s, Keeps s (go c r cell s)) : Keeps s (s.reqCommand f op ev go) := by
  unfold State.reqCommand
  split
  · next c u pr e _ =>
    refine (State.takeCmd_keeps _ _ e).trans ?_
    split
    · exact State.issue_keeps.trans State.cplError_keeps
    · split
      · exact (State.reqEvent_keeps.trans State.issue_keeps).trans State.cplError_keeps
      · exact h _ _ _ _
  · exact Keeps.refl _

theorem State.cmdCancel_keeps {s : State} {b1 : Nat} :
    Keeps s (State.cmdCancel s b1) := by
  delta State.cmdCancel
  refine Keeps.trans ?_ (State.reqCommand_keeps (fun x0 x1 x2 x3 => ?_))
  · exact Keeps.refl _
  · refine Keeps.trans ?_ State.cplDone_keeps
    exact State.reqEvent_keeps

theorem State.cmdPause_keeps {s : State} {b1 : Nat} :
    Keeps s (State.cmdPause s b1) := by
  delta State.cmdPause
  refine Keeps.trans ?_ (State.reqCommand_keeps (fun x0 x1 x2 x3 => ?_))
  · exact Keeps.refl _
  · extract_lets v4 v5
    clear_value v4
    have h6 : Keeps x3 v5 := by
      unfold v5
      exact State.reqEvent_keeps
    clear_value v5
    split
    · refine Keeps.trans ?_ State.cplError_keeps
      exact h6
    · refine Keeps.trans ?_ State.cplDone_keeps
      exact h6

theorem State.cmdResume_keeps {s : State} {b1 : Nat} :
    Keeps s (State.cmdResume s b1) := by
  delta State.cmdResume
  refine Keeps.trans ?_ (State.reqCommand_keeps (fun x0 x1 x2 x3 => ?_))
  · exact Keeps.refl _
  · split
    · exact Keeps.refl _
    · extract_lets v11
      clear_value v11
      split
      · refine Keeps.trans ?_ State.cplDone_keeps
        exact State.reqEvent_keeps
      · split
        · refine Keeps.trans ?_ State.cplError_keeps
          exact State.issue_keeps
        · split
          · refine Keeps.trans ?_ State.cplError_keeps
            exact State.issue_keeps
          · split
            · split
              · refine Keeps.trans ?_ State.cplError_keeps
                exact State.issue_keeps
              · refine Keeps.trans ?_ State.reqEvent_keeps
                exact State.setReq_keeps
            · split
              · refine Keeps.trans ?_ State.cplError_keeps
                exact State.issue_keeps
              · refine Keeps.trans ?_ State.reqEvent_keeps
                exact State.setReq_keeps

theorem State.refill_keeps {s : State} {b1 : Nat} :
    Keeps s (State.refill s b1) := by
  delta State.refill
  extract_lets v0 v1 v2 v3 v4
  clear_value v0 v1 v2 v3 v4
  exact Keeps.of rfl

theorem State.creditQueue_keeps {s : State} {b1 b2 : Nat} {b3 : Req} {b4 : Eval} :
    KeepsSnd s (State.creditQueue s b1 b2 b3 b4) := by
  delta State.creditQueue
  extract_lets v0
  clear_value v0
  split
  · refine KeepsSnd.mk ?_
    exact Keeps.refl _
  · refine KeepsSnd.mk ?_
    exact State.setAcct_keeps

theorem State.judgeFits_keeps {s : State} {b1 b2 b3 : Nat} {b4 : List Nat} {b5 : Option (Nat × Nat)} :
    KeepsSnd s (State.judgeFits s b1 b2 b3 b4 b5) := by
  fun_induction State.judgeFits s b1 b2 b3 b4 b5
  · refine KeepsSnd.mk ?_
    exact Keeps.refl _
  · refine KeepsSnd.mk ?_
    exact Keeps.refl _
  · refine KeepsSnd.trans ?_ (by assumption)
    exact State.fsmNoTransition_keeps
  · refine KeepsSnd.trans ?_ (by assumption)
    exact State.fsmLog_keeps

end Sys2Proof.Machine
end

