-- ==== Sys2Proof/Laws/KeepsOps4.lean ====
section
/-! SUPPORT. `Keeps` of the shared operations, part 4 of 5, in the order they build on each other: one lemma per
operation. -/
namespace Sys2Proof.Machine
set_option Elab.async false

theorem State.admitReq_keeps {s : State} {b1 b2 : Nat} {b3 : Req} {b4 : Eval} :
    KeepsSnd s (State.admitReq s b1 b2 b3 b4) := by
  delta State.admitReq
  split
  · refine KeepsSnd.mk ?_
    exact Keeps.refl _
  · extract_lets v7 v8 v9 v10 v11 v12 v13
    clear_value v7 v8
    have h14 : Keeps s v9 := by
      unfold v9
      exact State.setAcct_keeps
    clear_value v9
    have h15 : Keeps s v10 := by
      unfold v10
      refine Keeps.trans ?_ State.tally1_keeps
      refine Keeps.trans ?_ State.raise_keeps
      refine Keeps.trans ?_ State.count_keeps
      exact h14
    clear_value v10
    have h16 : Keeps s v11 := by
      unfold v11
      refine Keeps.trans ?_ State.charge_keeps
      exact h15
    clear_value v11 v12
    have h17 : Keeps s v13 := by
      unfold v13
      split
      · refine Keeps.trans ?_ State.setAcct_keeps
        exact h16
      · exact h16
    clear_value v13
    split
    · refine KeepsSnd.mk ?_
      refine Keeps.trans ?_ State.reqEvent_keeps
      exact h15
    · refine KeepsSnd.mk ?_
      refine Keeps.trans ?_ State.reqEvent_keeps
      refine Keeps.trans ?_ State.modReq_keeps
      exact h17

theorem State.evalOne_keeps {s : State} {b1 b2 : Nat} {b3 : Eval} :
    KeepsSnd s (State.evalOne s b1 b2 b3) := by
  delta State.evalOne
  split
  · refine KeepsSnd.mk ?_
    exact Keeps.refl _
  · split
    · refine KeepsSnd.mk ?_
      exact Keeps.refl _
    · split
      · split
        · refine KeepsSnd.trans ?_ State.admitReq_keeps
          refine Keeps.trans ?_ (KeepsSnd.of State.judgeFits_keeps (by assumption))
          exact KeepsSnd.of State.creditQueue_keeps (by assumption)
        · extract_lets v21
          have h22 : Keeps s v21 := by
            unfold v21
            refine Keeps.trans ?_ State.delayReq_keeps
            refine Keeps.trans ?_ (KeepsSnd.of State.judgeFits_keeps (by assumption))
            exact KeepsSnd.of State.creditQueue_keeps (by assumption)
          clear_value v21
          split
          · refine KeepsSnd.mk ?_
            refine Keeps.trans ?_ State.raise_keeps
            exact h22
          · refine KeepsSnd.mk ?_
            exact h22
        · refine KeepsSnd.mk ?_
          refine Keeps.trans ?_ State.reqEvent_keeps
          refine Keeps.trans ?_ State.countRefusal_keeps
          refine Keeps.trans ?_ State.modReq_keeps
          refine Keeps.trans ?_ (KeepsSnd.of State.judgeFits_keeps (by assumption))
          exact KeepsSnd.of State.creditQueue_keeps (by assumption)
        · refine KeepsSnd.mk ?_
          refine Keeps.trans ?_ (KeepsSnd.of State.judgeFits_keeps (by assumption))
          exact KeepsSnd.of State.creditQueue_keeps (by assumption)

theorem State.evaluate_keeps {s : State} {b1 : Nat} : Keeps s (State.evaluate s b1) := by
  have key (l : List Nat) (acc : Eval × State) :
      Keeps acc.2 (l.foldl (fun (acc : Eval × State) r => acc.2.evalOne b1 r acc.1) acc).2 := by
    induction l generalizing acc with
    | nil => exact Keeps.refl _
    | cons x l ih =>
      rw [List.foldl_cons]
      exact Keeps.trans (show Keeps acc.2 (acc.2.evalOne b1 x acc.1).2 from State.evalOne_keeps) (ih (acc.2.evalOne b1 x acc.1))
  delta State.evaluate
  extract_lets v1 v2
  have h2 : Keeps s v2 := by
    unfold v2 v1
    refine Keeps.trans ?_ State.refill_keeps
    exact State.modSrvPart_keeps
  clear_value v2
  split
  · refine Keeps.trans h2 ?_
    refine Keeps.foldl (fun x a => ?_) _ _
    split
    · refine Keeps.trans ?_ State.reqEvent_keeps
      refine Keeps.trans ?_ State.countRefusal_keeps
      exact State.modReq_keeps
    · exact Keeps.refl _
  · exact h2.trans (key _ ({}, v2))

theorem State.evaluateAll_keeps {s : State} :
    Keeps s (State.evaluateAll s) := by
  delta State.evaluateAll
  refine Keeps.trans ?_ (Keeps.foldl (fun x0 a1 => ?_) _ _)
  · exact Keeps.refl _
  · split
    · exact State.evaluate_keeps
    · exact Keeps.refl _

theorem State.acctReset_keeps {s : State} {b1 b2 : Nat} :
    Keeps s (State.acctReset s b1 b2) := by
  delta State.acctReset
  extract_lets v0
  clear_value v0
  exact State.setAcct_keeps

theorem State.setCtrl_keeps {s : State} {b1 : Nat} {b2 : Ctrl} :
    Keeps s (State.setCtrl s b1 b2) := by
  delta State.setCtrl
  extract_lets v0
  clear_value v0
  exact Keeps.of rfl

theorem State.modJob_keeps {s : State} {b1 b2 : Nat} {b3 : IJob → IJob} :
    Keeps s (State.modJob s b1 b2 b3) := by
  delta State.modJob
  extract_lets v0
  clear_value v0
  exact Keeps.of rfl

theorem State.dropJob_keeps {s : State} {b1 b2 : Nat} :
    Keeps s (State.dropJob s b1 b2) := by
  delta State.dropJob
  extract_lets v0
  clear_value v0
  exact Keeps.of rfl

theorem State.beginEnumeration_keeps {s : State} :
    Keeps s (State.beginEnumeration s) := by
  delta State.beginEnumeration
  extract_lets v0
  clear_value v0
  exact Keeps.of rfl

theorem State.ctrlFailed_keeps {s : State} {b1 : Nat} :
    Keeps s (State.ctrlFailed s b1) := by
  delta State.ctrlFailed
  extract_lets v0
  clear_value v0
  refine Keeps.trans ?_ State.logAdd_keeps
  refine Keeps.trans ?_ State.issue_keeps
  refine Keeps.trans ?_ State.raise_keeps
  exact State.setCtrl_keeps

theorem State.enumeration_keeps {s : State} {b1 : List FoundCtrl} {b2 : Bool} {b3 : Nat} :
    Keeps s (State.enumeration s b1 b2 b3) := by
  delta State.enumeration
  extract_lets v0 v1 v2 v3 v4 v5 v6
  clear_value v0 v1 v2 v3
  have h7 : Keeps s v4 := by
    unfold v4
    exact Keeps.of rfl
  clear_value v4
  have h8 : Keeps s v5 := by
    unfold v5
    refine Keeps.trans ?_ (Keeps.foldl (fun x9 a10 => ?_) _ _)
    · exact h7
    · split
      · exact Keeps.refl _
      · exact State.ctrlFailed_keeps
  clear_value v5
  have h15 : Keeps s v6 := by
    unfold v6
    split
    · refine Keeps.trans ?_ State.raise_keeps
      exact h8
    · exact h8
  clear_value v6
  split
  · exact Keeps.refl _
  · split
    · refine Keeps.trans ?_ State.raise_keeps
      exact h15
    · exact h15

theorem State.addDone_keeps {s : State} {b1 b2 : Nat} :
    Keeps s (State.addDone s b1 b2) := by
  fun_induction State.addDone s b1 b2
  · exact Keeps.refl _
  · rename_i r3 r4 r5 r6 r7 r8
    clear_value r5
    have h9 : Keeps r3 r7 := by
      unfold r7
      extract_lets v10
      clear_value v10
      exact Keeps.of rfl
    clear_value r7
    refine Keeps.trans ?_ (by assumption)
    refine Keeps.trans ?_ State.hwAdd_keeps
    exact h9
  · rename_i r14 r15
    clear_value r14
    exact Keeps.refl _

theorem State.jobResult_keeps {s : State} {b1 b2 : Nat} {b3 : JobRec} {b4 : Nat} {b5 : List Byte} :
    Keeps s (State.jobResult s b1 b2 b3 b4 b5) := by
  delta State.jobResult
  extract_lets v0 v1 v2 v3 v4 v5
  clear_value v0 v1
  have h6 : Keeps s v2 := by
    unfold v2
    split
    · exact State.wr_keeps
    · exact Keeps.refl _
  clear_value v2 v3
  have h15 : Keeps s v4 := by
    unfold v4
    refine Keeps.upd (u := v2) rfl ?_
    exact h6
  clear_value v4
  have h16 : Keeps s v5 := by
    unfold v5
    refine Keeps.trans ?_ State.addDone_keeps
    exact h15
  clear_value v5
  split
  · split
    · refine Keeps.trans ?_ State.hwAdd_keeps
      exact h16
    · exact h16
  · refine Keeps.trans ?_ State.errCairn_keeps
    exact h16

theorem State.countJob_keeps {s : State} {b1 b2 b3 : Nat} :
    Keeps s (State.countJob s b1 b2 b3) := by
  delta State.countJob
  extract_lets v0
  have h1 : Keeps s v0 := by
    unfold v0
    split
    · exact Keeps.refl _
    · exact State.issue_keeps
  clear_value v0
  split
  · refine Keeps.trans ?_ State.count_keeps
    exact h1
  · split
    · refine Keeps.trans ?_ State.count_keeps
      exact h1
    · split
      · refine Keeps.trans ?_ State.count_keeps
        exact h1
      · exact h1

theorem State.observeReads_keeps {s : State} {b1 : IJob} :
    Keeps s (State.observeReads s b1) := by
  delta State.observeReads
  refine Keeps.trans ?_ (Keeps.foldl (fun x0 a1 => ?_) _ _)
  · exact Keeps.refl _
  · exact State.observe_keeps

theorem State.endJob_keeps {s : State} {b1 : IJob} {b2 : Nat} {b3 : Config.Decoded} {b4 : List Byte} {b5 b6 : Nat} :
    Keeps s (State.endJob s b1 b2 b3 b4 b5 b6) := by
  delta State.endJob
  extract_lets v0 v1 v2 v3
  clear_value v0
  have h4 : Keeps s v1 := by
    unfold v1
    refine Keeps.trans ?_ (Keeps.foldl (fun x5 a6 => ?_) _ _)
    · exact Keeps.refl _
    · exact State.wr_keeps
  clear_value v1
  have h7 : Keeps s v2 := by
    unfold v2
    refine Keeps.trans ?_ State.dropJob_keeps
    refine Keeps.trans ?_ State.observeReads_keeps
    exact h4
  clear_value v2
  have h8 : Keeps s v3 := by
    unfold v3
    refine Keeps.trans ?_ State.jobResult_keeps
    refine Keeps.trans ?_ State.countJob_keeps
    exact h7
  clear_value v3
  refine Keeps.trans ?_ State.holdEnd_keeps
  exact h8

theorem State.lateJob_keeps {s : State} {b1 : IJob} :
    Keeps s (State.lateJob s b1) := by
  delta State.lateJob
  extract_lets v0 v1 v2
  clear_value v0
  have h3 : Keeps s v1 := by
    unfold v1
    exact State.late_keeps
  clear_value v1 v2
  split
  · refine Keeps.trans ?_ State.modJob_keeps
    exact h3
  · refine Keeps.trans ?_ State.endJob_keeps
    exact h3

theorem State.intakeDeadline_keeps {s : State} {b1 b2 : Nat} :
    Keeps s (State.intakeDeadline s b1 b2) := by
  delta State.intakeDeadline
  split
  · split
    · exact State.lateJob_keeps
    · exact Keeps.refl _
  · exact Keeps.refl _

theorem State.failJob_keeps {s : State} {b1 b2 b3 b4 b5 : Nat} :
    Keeps s (State.failJob s b1 b2 b3 b4 b5) := by
  delta State.failJob
  split
  · exact Keeps.refl _
  · extract_lets v7 v8
    clear_value v7
    have h9 : Keeps s v8 := by
      unfold v8
      split
      · exact State.lateJob_keeps
      · exact Keeps.refl _
    clear_value v8
    split
    · refine Keeps.trans ?_ State.issue_keeps
      exact h9
    · extract_lets v17
      clear_value v17
      refine Keeps.trans ?_ State.endJob_keeps
      exact h9

theorem State.issueReads_keeps {s : State} {b1 b2 b3 : Nat} :
    Keeps s (State.issueReads s b1 b2 b3) := by
  fun_induction State.issueReads s b1 b2 b3
  · exact Keeps.refl _
  · exact Keeps.refl _
  · exact Keeps.refl _
  · exact Keeps.refl _
  · rename_i r27 r28 r29
    clear_value r27
    exact State.failJob_keeps
  · rename_i r37 r38 r39 r40
    clear_value r37
    exact Keeps.refl _
  · rename_i r48 r49 r50 r51 r52 r53
    clear_value r48 r52
    refine Keeps.trans ?_ (by assumption)
    exact State.modJob_keeps

theorem State.issueAll_keeps {s : State} :
    Keeps s (State.issueAll s) := by
  delta State.issueAll
  refine Keeps.trans ?_ (Keeps.foldl (fun x0 a1 => ?_) _ _)
  · exact Keeps.refl _
  · exact State.issueReads_keeps

theorem State.readFailed_keeps {s : State} {b1 b2 b3 b4 : Nat} {b5 : Bool} {b6 : Nat} :
    Keeps s (State.readFailed s b1 b2 b3 b4 b5 b6) := by
  delta State.readFailed
  split
  · exact Keeps.refl _
  · extract_lets v7
    clear_value v7
    split
    · exact State.modJob_keeps
    · exact State.failJob_keeps

theorem State.failOutstanding_keeps {s : State} {b1 b2 : Nat} :
    Keeps s (State.failOutstanding s b1 b2) := by
  delta State.failOutstanding
  extract_lets v0
  clear_value v0
  refine Keeps.trans ?_ (Keeps.foldl (fun x1 a2 => ?_) _ _)
  · exact Keeps.refl _
  · split
    · split
      · exact State.readFailed_keeps
      · exact Keeps.refl _
    · exact Keeps.refl _

theorem State.resetCtrl_keeps {s : State} {b1 b2 : Nat} :
    Keeps s (State.resetCtrl s b1 b2) := by
  delta State.resetCtrl
  extract_lets v0
  clear_value v0
  split
  · exact Keeps.refl _
  · refine Keeps.trans ?_ State.failOutstanding_keeps
    exact State.setCtrl_keeps

theorem State.ctrlFatal_keeps {s : State} {b1 : Nat} :
    Keeps s (State.ctrlFatal s b1) := by
  delta State.ctrlFatal
  exact State.resetCtrl_keeps

theorem State.intakeLinkDown_keeps {s : State} {b1 : Nat} :
    Keeps s (State.intakeLinkDown s b1) := by
  delta State.intakeLinkDown
  extract_lets v0 v1
  clear_value v0
  have h2 : Keeps s v1 := by
    unfold v1
    refine Keeps.trans ?_ State.raise_keeps
    exact Keeps.of rfl
  clear_value v1
  split
  · exact Keeps.refl _
  · refine Keeps.trans ?_ (Keeps.foldl (fun x7 a8 => ?_) _ _)
    · exact h2
    · split
      · exact State.resetCtrl_keeps
      · exact Keeps.refl _

theorem State.ctrlResetEnd_keeps {s : State} {b1 : Nat} {b2 : Bool} :
    Keeps s (State.ctrlResetEnd s b1 b2) := by
  delta State.ctrlResetEnd
  extract_lets v0 v1 v2 v3 v4
  clear_value v0
  have h5 : Keeps s v1 := by
    unfold v1
    exact State.setCtrl_keeps
  clear_value v1 v2 v3
  have h6 : Keeps s v4 := by
    unfold v4
    split
    · exact h5
    · refine Keeps.upd (u := v1) rfl ?_
      exact h5
  clear_value v4
  split
  · exact Keeps.refl _
  · split
    · refine Keeps.trans ?_ State.issueAll_keeps
      refine Keeps.trans ?_ State.raise_keeps
      exact h6
    · refine Keeps.trans ?_ State.issueAll_keeps
      exact State.ctrlFailed_keeps

theorem State.headerCheck_keeps {s : State} {b1 b2 : Nat} :
    Keeps s (State.headerCheck s b1 b2) := by
  delta State.headerCheck
  split
  · exact Keeps.refl _
  · extract_lets v7
    clear_value v7
    split
    · exact Keeps.refl _
    · split
      · exact State.failJob_keeps
      · split
        · exact Keeps.refl _
        · exact State.failJob_keeps

theorem State.nvmeCompletion_keeps {s : State} {b1 b2 b3 b4 b5 : Nat} {b6 : Bool} {b7 : List Byte} :
    Keeps s (State.nvmeCompletion s b1 b2 b3 b4 b5 b6 b7) := by
  delta State.nvmeCompletion
  split
  · exact Keeps.refl _
  · split
    · exact Keeps.refl _
    · extract_lets v12 v13 v14 v15 v16 v17 v18 v19
      clear_value v12
      have h20 : Keeps s v13 := by
        unfold v13
        exact State.setCtrl_keeps
      clear_value v13 v14
      have h21 : Keeps s v15 := by
        unfold v15
        refine Keeps.trans ?_ State.count_keeps
        exact h20
      clear_value v15
      have h22 : Keeps s v16 := by
        unfold v16
        split
        · exact h21
        · refine Keeps.trans ?_ State.observe_keeps
          exact h21
      clear_value v16
      have h25 : Keeps s v17 := by
        unfold v17
        refine Keeps.trans ?_ State.modJob_keeps
        exact h22
      clear_value v17 v18
      have h26 : Keeps s v19 := by
        unfold v19
        refine Keeps.trans ?_ State.logAdd_keeps
        exact h20
      clear_value v19
      split
      · exact Keeps.refl _
      · split
        · refine Keeps.trans ?_ State.issueReads_keeps
          refine Keeps.trans ?_ State.headerCheck_keeps
          exact h25
        · refine Keeps.trans ?_ State.issueReads_keeps
          refine Keeps.trans ?_ State.readFailed_keeps
          exact h26

theorem State.nvmeTimeout_keeps {s : State} {b1 b2 b3 : Nat} :
    Keeps s (State.nvmeTimeout s b1 b2 b3) := by
  delta State.nvmeTimeout
  split
  · exact Keeps.refl _
  · extract_lets v7 v8 v9
    clear_value v7
    have h10 : Keeps s v8 := by
      unfold v8
      exact State.setCtrl_keeps
    clear_value v8
    have h11 : Keeps s v9 := by
      unfold v9
      refine Keeps.trans ?_ State.readFailed_keeps
      exact h10
    clear_value v9
    split
    · exact Keeps.refl _
    · split
      · refine Keeps.trans ?_ State.resetCtrl_keeps
        exact h11
      · refine Keeps.trans ?_ State.issueReads_keeps
        exact h11

theorem State.intakeRetry_keeps {s : State} {b1 b2 b3 : Nat} :
    Keeps s (State.intakeRetry s b1 b2 b3) := by
  delta State.intakeRetry
  split
  · exact Keeps.refl _
  · extract_lets v7
    have h8 : Keeps s v7 := by
      unfold v7
      refine Keeps.trans ?_ State.tally1_keeps
      exact State.count_keeps
    clear_value v7
    split
    · exact Keeps.refl _
    · refine Keeps.trans ?_ State.issueReads_keeps
      refine Keeps.trans ?_ State.modJob_keeps
      exact h8

theorem State.runJob_keeps {s : State} {b1 b2 : Nat} :
    Keeps s (State.runJob s b1 b2) := by
  delta State.runJob
  refine Keeps.trans ?_ State.issueReads_keeps
  exact State.modJob_keeps

theorem State.intakeStart_keeps {s : State} {b1 b2 : Nat} :
    Keeps s (State.intakeStart s b1 b2) := by
  delta State.intakeStart
  split
  · split
    · exact Keeps.refl _
    · split
      · exact State.runJob_keeps
      · exact State.modJob_keeps
  · exact Keeps.refl _

theorem State.engineStart_keeps {s : State} {b1 : Nat} :
    Keeps s (State.engineStart s b1) := by
  delta State.engineStart
  extract_lets v0
  clear_value v0
  split
  · exact Keeps.refl _
  · split
    · exact State.runJob_keeps
    · exact Keeps.refl _

theorem State.badJob_keeps {s : State} {b1 b2 : Nat} {b3 : JobRec} {b4 : Nat} :
    Keeps s (State.badJob s b1 b2 b3 b4) := by
  delta State.badJob
  refine Keeps.trans ?_ State.jobResult_keeps
  exact State.countJob_keeps

theorem State.takeJob_keeps {s : State} {b1 : Nat} :
    Keeps s (State.takeJob s b1) := by
  delta State.takeJob
  extract_lets v0 v1 v2 v3 v4 v5 v6 v7 v8
  clear_value v0 v1
  have h9 : Keeps s v2 := by
    unfold v2
    exact Keeps.of rfl
  clear_value v2 v3 v4 v5 v6 v7 v8
  split
  · exact Keeps.refl _
  · split
    · refine Keeps.trans ?_ State.badJob_keeps
      exact h9
    · split
      · refine Keeps.trans ?_ State.badJob_keeps
        exact h9
      · extract_lets v26 v27
        clear_value v26
        have h28 : Keeps s v27 := by
          unfold v27
          refine Keeps.upd (u := v2) rfl ?_
          exact h9
        clear_value v27
        split
        · refine Keeps.trans ?_ State.badJob_keeps
          exact h9
        · split
          · refine Keeps.trans ?_ State.intakeStart_keeps
            exact h28
          · exact by assumption

theorem State.intakePhase_keeps {s : State} {b1 b2 : Nat} :
    Keeps s (State.intakePhase s b1 b2) := by
  delta State.intakePhase
  split
  · split
    · split
      · exact State.intakeStart_keeps
      · exact Keeps.refl _
    · exact Keeps.refl _
  · exact Keeps.refl _

theorem State.streamFault_keeps {s : State} {b1 b2 : Nat} :
    Keeps s (State.streamFault s b1 b2) := by
  delta State.streamFault
  split
  · exact Keeps.refl _
  · extract_lets v7
    clear_value v7
    split
    · exact Keeps.refl _
    · split
      · exact State.failJob_keeps
      · exact State.failJob_keeps
      · exact Keeps.refl _

theorem State.jobEnd_keeps {s : State} {b1 b2 : Nat} :
    Keeps s (State.jobEnd s b1 b2) := by
  delta State.jobEnd
  split
  · exact Keeps.refl _
  · extract_lets v7
    clear_value v7
    split
    · exact Keeps.refl _
    · split
      · exact State.endJob_keeps
      · split
        · exact State.failJob_keeps
        · split
          · exact State.failJob_keeps
          · split
            · exact State.failJob_keeps
            · split
              · exact State.failJob_keeps
              · exact State.endJob_keeps

theorem State.ringStopped_keeps {s : State} {b1 : Nat} :
    Keeps s (State.ringStopped s b1) := by
  delta State.ringStopped
  refine Keeps.trans ?_ (Keeps.foldl (fun x0 a1 => ?_) _ _)
  · exact Keeps.refl _
  · split
    · extract_lets v6
      clear_value v6
      exact State.endJob_keeps
    · exact Keeps.refl _

theorem State.asyncEvent_keeps {s : State} {b1 : Nat} :
    Keeps s (State.asyncEvent s b1) := by
  delta State.asyncEvent
  split
  · exact Keeps.refl _
  · refine Keeps.trans ?_ State.logAdd_keeps
    exact State.raise_keeps

theorem State.nsOwnerSet_keeps {s : State} {b1 b2 : Nat} :
    Keeps s (State.nsOwnerSet s b1 b2) := by
  delta State.nsOwnerSet
  extract_lets v0
  clear_value v0
  exact Keeps.of rfl

theorem State.setGroup_keeps {s : State} {b1 : Nat} {b2 : Group} :
    Keeps s (State.setGroup s b1 b2) := by
  delta State.setGroup
  extract_lets v0
  clear_value v0
  exact Keeps.of rfl

theorem State.alnStart_keeps {s : State} {b1 : Nat} {b2 : Bool} :
    Keeps s (State.alnStart s b1 b2) := by
  delta State.alnStart
  split
  · exact Keeps.refl _
  · split
    · exact State.issue_keeps
    · split
      · refine Keeps.trans ?_ State.issue_keeps
        exact State.raise_keeps
      · exact State.setGroup_keeps

theorem State.alnStop_keeps {s : State} {b1 : Nat} :
    Keeps s (State.alnStop s b1) := by
  delta State.alnStop
  extract_lets v0
  clear_value v0
  split
  · exact Keeps.refl _
  · split
    · exact State.setGroup_keeps
    · exact State.setGroup_keeps

theorem State.alnStopped_keeps {s : State} {b1 b2 : Nat} :
    Keeps s (State.alnStopped s b1 b2) := by
  delta State.alnStopped
  extract_lets v0 v1
  clear_value v0
  have h2 : Keeps s v1 := by
    unfold v1
    refine Keeps.trans ?_ State.raise_keeps
    exact State.setGroup_keeps
  clear_value v1
  refine Keeps.trans ?_ State.errCairn_keeps
  refine Keeps.trans ?_ State.issue_keeps
  exact h2

theorem State.tickStart_keeps {s : State} {b1 : Nat} :
    Keeps s (State.tickStart s b1) := by
  delta State.tickStart
  extract_lets v0
  clear_value v0
  split
  · exact Keeps.refl _
  · split
    · exact State.alnStopped_keeps
    · split
      · exact Keeps.refl _
      · split
        · exact State.alnStopped_keeps
        · exact State.setGroup_keeps

theorem State.stale_keeps {s : State} {b1 : Nat} {b2 : Bool} :
    Keeps s (State.stale s b1 b2) := by
  delta State.stale
  split
  · refine Keeps.trans ?_ State.raise_keeps
    refine Keeps.trans ?_ State.tally1_keeps
    exact State.count_keeps
  · exact Keeps.refl _

theorem State.writeSlot_keeps {s : State} {b1 b2 : Nat} :
    Keeps s (State.writeSlot s b1 b2) := by
  delta State.writeSlot
  extract_lets v0
  clear_value v0
  refine Keeps.trans ?_ (Keeps.foldl (fun x1 a2 => ?_) _ _)
  · exact Keeps.refl _
  · extract_lets v3
    clear_value v3
    refine Keeps.trans ?_ (Keeps.foldl (fun x4 a5 => ?_) _ _)
    · exact State.stale_keeps
    · exact State.wr_keeps

theorem State.accessFailed_keeps {s : State} {b1 b2 b3 : Nat} :
    Keeps s (State.accessFailed s b1 b2 b3) := by
  delta State.accessFailed
  extract_lets v0
  clear_value v0
  split
  · exact Keeps.refl _
  · refine Keeps.trans ?_ State.alnStopped_keeps
    exact State.writeSlot_keeps

theorem State.tickFailed_keeps {s : State} {b1 : Nat} {b2 : Fail} {b3 b4 : Nat} :
    Keeps s (State.tickFailed s b1 b2 b3 b4) := by
  delta State.tickFailed
  extract_lets v0
  clear_value v0
  split
  · exact Keeps.refl _
  · refine Keeps.trans ?_ State.accessFailed_keeps
    split
    · exact State.eccUncorrected_keeps
    · exact Keeps.refl _

theorem State.refine_keeps {s : State} {b1 : Nat} :
    Keeps s (State.refine s b1) := by
  delta State.refine
  extract_lets v0
  clear_value v0
  split
  · exact Keeps.refl _
  · split
    · exact Keeps.refl _
    · extract_lets v10 v11 v12 v13
      clear_value v10 v11 v12
      have h14 : Keeps s v13 := by
        unfold v13
        refine Keeps.trans ?_ State.count_keeps
        exact State.setGroup_keeps
      clear_value v13
      split
      · exact Keeps.refl _
      · refine Keeps.trans ?_ (Keeps.foldl (fun x17 a18 => ?_) _ _)
        · exact h14
        · split
          · refine Keeps.trans ?_ State.logAdd_keeps
            exact State.raise_keeps
          · exact Keeps.refl _

theorem State.tickEnd_keeps {s : State} {b1 : Nat} :
    Keeps s (State.tickEnd s b1) := by
  delta State.tickEnd
  extract_lets v0 v1 v2 v3 v4 v5
  clear_value v0
  have h6 : Keeps s v1 := by
    unfold v1
    refine Keeps.trans ?_ State.hwAdd_keeps
    exact State.writeSlot_keeps
  clear_value v1
  have h7 : Keeps s v2 := by
    unfold v2
    refine Keeps.trans ?_ State.refine_keeps
    exact h6
  clear_value v2 v3
  have h8 : Keeps s v4 := by
    unfold v4
    refine Keeps.trans ?_ State.setGroup_keeps
    exact h7
  clear_value v4 v5
  split
  · exact Keeps.refl _
  · split
    · exact State.accessFailed_keeps
    · refine Keeps.upd (u := v4) rfl ?_
      exact h8

theorem State.alnOff_keeps {s : State} :
    Keeps s (State.alnOff s) := by
  delta State.alnOff
  exact Keeps.of rfl

theorem State.logRefusedReg_keeps {s : State} {b1 b2 b3 : Nat} {b4 : RegName} {b5 b6 b7 b8 : Nat} :
    Keeps s (State.logRefusedReg s b1 b2 b3 b4 b5 b6 b7 b8) := by
  delta State.logRefusedReg
  exact State.logAdd_keeps

theorem State.dbRefused_keeps {s : State} {b1 b2 : Nat} :
    Keeps s (State.dbRefused s b1 b2) := by
  delta State.dbRefused
  refine Keeps.trans ?_ State.logAdd_keeps
  exact State.raise_keeps

theorem State.dbCmd_keeps {s : State} {b1 b2 : Nat} :
    Keeps s (State.dbCmd s b1 b2) := by
  delta State.dbCmd
  extract_lets v0 v1
  clear_value v0 v1
  split
  · exact State.setFn_keeps
  · exact State.dbRefused_keeps

theorem State.dbCpl_keeps {s : State} {b1 b2 : Nat} :
    Keeps s (State.dbCpl s b1 b2) := by
  delta State.dbCpl
  extract_lets v0 v1
  clear_value v0 v1
  split
  · exact State.setFn_keeps
  · exact State.dbRefused_keeps

theorem State.dbStr_keeps {s : State} {b1 b2 : Nat} :
    Keeps s (State.dbStr s b1 b2) := by
  delta State.dbStr
  extract_lets v0
  clear_value v0
  split
  · exact State.setFn_keeps
  · exact State.dbRefused_keeps

theorem State.ringCtrlWritten_keeps {s : State} {b1 b2 : Nat} :
    Keeps s (State.ringCtrlWritten s b1 b2) := by
  delta State.ringCtrlWritten
  extract_lets v0 v1 v2 v3 v4 v5
  clear_value v0 v1 v2 v3 v4 v5
  exact State.setFn_keeps

theorem State.commandTake_keeps {s : State} {b1 : Nat} {b2 : List Byte} :
    Keeps s (State.commandTake s b1 b2) := by
  delta State.commandTake
  extract_lets v0 v1 v2 v3 v4 v5
  clear_value v0 v1
  have h6 : Keeps s v2 := by
    unfold v2
    refine Keeps.trans ?_ State.count_keeps
    exact State.setFn_keeps
  clear_value v2 v3 v4 v5
  split
  · exact Keeps.refl _
  · split
    · refine Keeps.trans ?_ State.complete_keeps
      exact h6
    · split
      · refine Keeps.trans ?_ State.cplNotPermitted_keeps
        exact h6
      · refine Keeps.trans ?_ State.setFn_keeps
        exact h6

theorem State.writeCpls_keeps {s : State} {b1 b2 : Nat} :
    KeepsSnd s (State.writeCpls s b1 b2) := by
  fun_induction State.writeCpls s b1 b2
  · refine KeepsSnd.mk ?_
    exact Keeps.refl _
  · rename_i r5 r6
    clear_value r5
    refine KeepsSnd.mk ?_
    exact Keeps.refl _
  · rename_i r10 r11 r12 r13 r14
    clear_value r10
    refine KeepsSnd.mk ?_
    exact Keeps.refl _
  · rename_i r16 r17 r18 r19 r20 r21 r22 r23 r24 r25 r26 r27 r28
    clear_value r18 r23
    have h29 : Keeps r16 r24 := by
      unfold r24
      exact State.emit_keeps
    clear_value r24
    have h30 : Keeps r16 r25 := by
      unfold r25
      refine Keeps.trans ?_ State.setFn_keeps
      exact h29
    clear_value r25
    have h31 : Keeps r16 r26 := by
      unfold r26
      split
      · refine Keeps.trans ?_ State.freeRecord_keeps
        exact h30
      · exact h30
    clear_value r26
    have h34 : KeepsSnd r16 r27 := by
      unfold r27
      refine KeepsSnd.trans ?_ (by assumption)
      exact h31
    clear_value r27
    refine KeepsSnd.mk ?_
    show KeepsSnd _ _
    exact h34

theorem State.completionWrite_keeps {s : State} {b1 : Nat} :
    Keeps s (State.completionWrite s b1) := by
  delta State.completionWrite
  extract_lets v0 v1
  have h2 : KeepsSnd s v0 := by
    unfold v0
    refine KeepsSnd.trans ?_ State.writeCpls_keeps
    exact Keeps.refl _
  clear_value v0 v1
  split
  · exact Keeps.refl _
  · split
    · refine Keeps.trans ?_ State.sendVector_keeps
      show KeepsSnd _ _
      exact h2
    · show KeepsSnd _ _
      exact h2

theorem State.refuseScalerHold_keeps {s : State} {b1 b2 b3 b4 : Nat} :
    Keeps s (State.refuseScalerHold s b1 b2 b3 b4) := by
  delta State.refuseScalerHold
  refine Keeps.trans ?_ State.cplNotPermitted_keeps
  exact State.logAdd_keeps

theorem State.cmdNop_keeps {s : State} {b1 : Nat} :
    Keeps s (State.cmdNop s b1) := by
  delta State.cmdNop
  split
  · refine Keeps.trans ?_ State.cplDone_keeps
    exact State.takeCmd_keeps _ _ (by assumption)
  · exact Keeps.refl _

theorem State.cmdAlloc_keeps {s : State} {b1 : Nat} :
    Keeps s (State.cmdAlloc s b1) := by
  delta State.cmdAlloc
  split
  · exact Keeps.refl _
  · extract_lets v8 v9 v10
    clear_value v8 v9 v10
    split
    · refine Keeps.trans ?_ State.cplNotPermitted_keeps
      exact State.takeCmd_keeps _ _ (by assumption)
    · extract_lets v14
      clear_value v14
      split
      · refine Keeps.trans ?_ State.cplError_keeps
        refine Keeps.trans ?_ State.issue_keeps
        exact State.takeCmd_keeps _ _ (by assumption)
      · refine Keeps.trans ?_ State.hostAlloc_keeps
        exact State.takeCmd_keeps _ _ (by assumption)

theorem State.cmdRelease_keeps {s : State} {b1 : Nat} :
    Keeps s (State.cmdRelease s b1) := by
  delta State.cmdRelease
  split
  · exact Keeps.refl _
  · extract_lets v8 v9
    clear_value v8
    have h10 : Keeps s v9 := by
      unfold v9
      split
      · refine Keeps.trans ?_ State.dropEvict_keeps
        exact State.takeCmd_keeps _ _ (by assumption)
      · exact State.takeCmd_keeps _ _ (by assumption)
    clear_value v9
    split
    · refine Keeps.trans ?_ State.cplError_keeps
      refine Keeps.trans ?_ State.issue_keeps
      exact State.takeCmd_keeps _ _ (by assumption)
    · split
      · refine Keeps.trans ?_ State.refuseScalerHold_keeps
        exact State.takeCmd_keeps _ _ (by assumption)
      · split
        · refine Keeps.trans ?_ State.cplError_keeps
          refine Keeps.trans ?_ State.issue_keeps
          exact State.takeCmd_keeps _ _ (by assumption)
        · refine Keeps.trans ?_ State.cplDone_keeps
          refine Keeps.trans ?_ State.freeHold_keeps
          exact h10

theorem State.cmdTouch_keeps {s : State} {b1 : Nat} :
    Keeps s (State.cmdTouch s b1) := by
  delta State.cmdTouch
  split
  · exact Keeps.refl _
  · extract_lets v8
    clear_value v8
    split
    · refine Keeps.trans ?_ State.cplError_keeps
      refine Keeps.trans ?_ State.issue_keeps
      exact State.takeCmd_keeps _ _ (by assumption)
    · refine Keeps.trans ?_ State.cplDone_keeps
      refine Keeps.trans ?_ State.touchHold_keeps
      exact State.takeCmd_keeps _ _ (by assumption)

theorem State.cmdMove_keeps {s : State} {b1 : Nat} :
    Keeps s (State.cmdMove s b1) := by
  delta State.cmdMove
  split
  · exact Keeps.refl _
  · extract_lets v8 v9 v10 v11
    clear_value v8 v9 v10 v11
    split
    · refine Keeps.trans ?_ State.cplError_keeps
      refine Keeps.trans ?_ State.issue_keeps
      exact State.takeCmd_keeps _ _ (by assumption)
    · extract_lets v17 v18
      clear_value v17 v18
      split
      · refine Keeps.trans ?_ State.refuseScalerHold_keeps
        exact State.takeCmd_keeps _ _ (by assumption)
      · split
        · refine Keeps.trans ?_ State.cplError_keeps
          refine Keeps.trans ?_ State.issue_keeps
          exact State.takeCmd_keeps _ _ (by assumption)
        · refine Keeps.trans ?_ State.setChan_keeps
          refine Keeps.trans ?_ State.startOfWork_keeps
          exact State.takeCmd_keeps _ _ (by assumption)

theorem State.cmdDiscarded_keeps {s : State} {b1 b2 : Nat} {b3 : RegName} {b4 b5 b6 : Nat} :
    Keeps s (State.cmdDiscarded s b1 b2 b3 b4 b5 b6) := by
  delta State.cmdDiscarded
  refine Keeps.trans ?_ State.cplNotPermitted_keeps
  exact State.logRefusedReg_keeps

theorem State.cmdDmaGo_keeps {s : State} {b1 : Nat} :
    Keeps s (State.cmdDmaGo s b1) := by
  delta State.cmdDmaGo
  split
  · exact Keeps.refl _
  · extract_lets v8 v9 v10
    clear_value v8 v9 v10
    split
    · refine Keeps.trans ?_ State.cplError_keeps
      refine Keeps.trans ?_ State.issue_keeps
      exact State.takeCmd_keeps _ _ (by assumption)
    · refine Keeps.trans ?_ State.cplDone_keeps
      refine Keeps.trans ?_ State.startChain_keeps
      exact State.takeCmd_keeps _ _ (by assumption)

theorem State.chanCmd_keeps {s : State} {f op bitv : Nat} {act : State → Nat → Nat → Option State}
    (h : ∀ s d n, KeepsOpt s (act s d n)) : Keeps s (s.chanCmd f op bitv act) := by
  unfold State.chanCmd
  split
  · exact Keeps.refl _
  · next c u e =>
    refine (State.takeCmd_keeps _ _ e).trans ?_
    simp only
    split
    · exact State.issue_keeps.trans State.cplError_keeps
    · split
      · next v e2 =>
        split at e2
        · cases e2
        · exact (h _ _ _ _ e2).trans State.cplDone_keeps
      · exact State.cmdDiscarded_keeps

theorem State.cmdDmaAbort_keeps {s : State} {b1 : Nat} :
    Keeps s (State.cmdDmaAbort s b1) := by
  delta State.cmdDmaAbort
  refine Keeps.trans ?_ (State.chanCmd_keeps (fun x0 x1 x2 => ?_))
  · exact Keeps.refl _
  · refine KeepsOpt.trans ?_ State.abortChan_keeps
    exact Keeps.refl _

theorem State.cmdDmaClear_keeps {s : State} {b1 : Nat} :
    Keeps s (State.cmdDmaClear s b1) := by
  delta State.cmdDmaClear
  refine Keeps.trans ?_ (State.chanCmd_keeps (fun x0 x1 x2 => ?_))
  · exact Keeps.refl _
  · refine KeepsOpt.trans ?_ State.clearChan_keeps
    exact Keeps.refl _

theorem State.cmdCtxGo_keeps {s : State} {b1 : Nat} :
    Keeps s (State.cmdCtxGo s b1) := by
  delta State.cmdCtxGo
  split
  · exact Keeps.refl _
  · extract_lets v8 v9
    clear_value v8 v9
    split
    · refine Keeps.trans ?_ State.cplError_keeps
      refine Keeps.trans ?_ State.issue_keeps
      exact State.takeCmd_keeps _ _ (by assumption)
    · refine Keeps.trans ?_ State.cplDone_keeps
      refine Keeps.trans ?_ State.ctxGo_keeps
      exact State.takeCmd_keeps _ _ (by assumption)

theorem State.ctxCmd_keeps {s : State} {f op bitv : Nat} {act : State → Nat → Nat → Option State}
    (h : ∀ s d n, KeepsOpt s (act s d n)) : Keeps s (s.ctxCmd f op bitv act) := by
  unfold State.ctxCmd
  split
  · exact Keeps.refl _
  · next c u e =>
    refine (State.takeCmd_keeps _ _ e).trans ?_
    simp only
    split
    · exact State.issue_keeps.trans State.cplError_keeps
    · split
      · next v e2 => exact (h _ _ _ _ e2).trans State.cplDone_keeps
      · exact State.cmdDiscarded_keeps

theorem State.cmdCtxStop_keeps {s : State} {b1 : Nat} :
    Keeps s (State.cmdCtxStop s b1) := by
  delta State.cmdCtxStop
  refine Keeps.trans ?_ (State.ctxCmd_keeps (fun x0 x1 x2 => ?_))
  · exact Keeps.refl _
  · refine KeepsOpt.trans ?_ State.ctxStop_keeps
    exact Keeps.refl _

theorem State.cmdCtxClear_keeps {s : State} {b1 : Nat} :
    Keeps s (State.cmdCtxClear s b1) := by
  delta State.cmdCtxClear
  refine Keeps.trans ?_ (State.ctxCmd_keeps (fun x0 x1 x2 => ?_))
  · exact Keeps.refl _
  · refine KeepsOpt.trans ?_ State.ctxClear_keeps
    exact Keeps.refl _

theorem State.cmdGrant_keeps {s : State} {b1 : Nat} :
    Keeps s (State.cmdGrant s b1) := by
  delta State.cmdGrant
  split
  · exact Keeps.refl _
  · rename_i r6 r7
    extract_lets v8 v9 v10
    clear_value v8 v9
    split
    · refine Keeps.trans ?_ State.cplNotPermitted_keeps
      exact State.takeCmd_keeps _ _ (by assumption)
    · split
      · refine Keeps.trans ?_ State.cplNotPermitted_keeps
        exact State.takeCmd_keeps _ _ (by assumption)
      · refine Keeps.trans ?_ State.cplDone_keeps
        refine Keeps.upd (u := r6) rfl ?_
        exact State.takeCmd_keeps _ _ (by assumption)

theorem State.revokeWindow_keeps {s : State} {b1 : Nat} :
    Keeps s (State.revokeWindow s b1) := by
  delta State.revokeWindow
  split
  · exact Keeps.refl _
  · extract_lets v7 v8 v9 v10 v11 v12 v13 v14
    clear_value v7 v8 v9 v10
    have h15 : Keeps s v11 := by
      unfold v11
      refine Keeps.trans ?_ (Keeps.foldl (fun x16 a17 => ?_) _ _)
      · exact Keeps.refl _
      · exact State.failChan_keeps
    clear_value v11
    have h18 : Keeps s v12 := by
      unfold v12
      refine Keeps.trans ?_ State.loseRange_keeps
      exact h15
    clear_value v12
    have h19 : Keeps s v14 := by
      unfold v14
      refine Keeps.upd (u := v12) rfl ?_
      exact h18
    clear_value v14
    split
    · refine Keeps.trans ?_ State.raise_keeps
      exact h19
    · exact h19

theorem State.cmdRevoke_keeps {s : State} {b1 : Nat} :
    Keeps s (State.cmdRevoke s b1) := by
  delta State.cmdRevoke
  split
  · exact Keeps.refl _
  · extract_lets v8 v9 v10
    clear_value v8
    have h11 : Keeps s v9 := by
      unfold v9
      refine Keeps.trans ?_ State.revokeWindow_keeps
      exact State.takeCmd_keeps _ _ (by assumption)
    clear_value v9
    split
    · refine Keeps.trans ?_ State.cplNotPermitted_keeps
      exact State.takeCmd_keeps _ _ (by assumption)
    · split
      · refine Keeps.trans ?_ State.cplNotPermitted_keeps
        exact State.takeCmd_keeps _ _ (by assumption)
      · refine Keeps.upd (u := v9) rfl ?_
        exact h11

theorem State.revokeComplete_keeps {s : State} {b1 : Nat} :
    Keeps s (State.revokeComplete s b1) := by
  delta State.revokeComplete
  split
  · exact Keeps.refl _
  · extract_lets v9 v10
    have h11 : Keeps s v10 := by
      unfold v10
      exact Keeps.of rfl
    clear_value v10
    split
    · refine Keeps.trans ?_ State.cplDone_keeps
      exact h11
    · exact h11

theorem State.apertureFailed_keeps {s : State} {b1 b2 : Nat} :
    Keeps s (State.apertureFailed s b1 b2) := by
  delta State.apertureFailed
  refine Keeps.trans ?_ State.raise_keeps
  refine Keeps.trans ?_ State.count_keeps
  refine Keeps.trans ?_ State.rputN_keeps
  exact State.issue_keeps

theorem State.aperture_keeps {s : State} {b1 b2 b3 : Nat} {b4 : Option (List Byte)} {b5 : Ecc} :
    Keeps s (State.aperture s b1 b2 b3 b4 b5) := by
  delta State.aperture
  extract_lets v0 v1 v2
  clear_value v0 v1 v2
  split
  · exact Keeps.refl _
  · split
    · split
      · exact State.wr_keeps
      · exact State.apertureFailed_keeps
    · split
      · refine Keeps.trans ?_ State.emit_keeps
        exact State.apertureFailed_keeps
      · split
        · refine Keeps.trans ?_ State.emit_keeps
          refine Keeps.trans ?_ State.apertureFailed_keeps
          exact State.eccUncorrected_keeps
        · refine Keeps.trans ?_ State.emit_keeps
          refine Keeps.trans ?_ State.apertureFailed_keeps
          exact State.raise_keeps
        · refine Keeps.trans ?_ State.emit_keeps
          exact State.eccCorrected_keeps
        · exact State.emit_keeps

theorem State.dropWaiting_keeps {s : State} {b1 : Nat} {b2 : Option Nat} :
    Keeps s (State.dropWaiting s b1 b2) := by
  delta State.dropWaiting
  extract_lets v0 v1 v2 v3 v4 v5 v6 v7
  have h8 : ∀ c0 c1, Keeps c0 (v0 c0 c1) := by
    unfold v0
    intro c0 c1
    split
    · refine Keeps.trans ?_ State.cplError_keeps
      exact State.issue_keeps
    · exact Keeps.refl _
  clear_value v0 v1
  have h14 : Keeps s v2 := by
    unfold v2
    refine Keeps.trans ?_ (Keeps.foldl (fun x15 a16 => ?_) _ _)
    · exact Keeps.refl _
    · extract_lets v17
      clear_value v17
      refine Keeps.trans ?_ (h8 _ _)
      exact State.setChan_keeps
  clear_value v2 v3
  have h18 : Keeps s v4 := by
    unfold v4
    refine Keeps.trans ?_ (Keeps.foldl (fun x19 a20 => ?_) _ _)
    · exact h14
    · extract_lets v21
      clear_value v21
      refine Keeps.trans ?_ (h8 _ _)
      exact Keeps.of rfl
  clear_value v4 v5
  have h22 : Keeps s v7 := by
    unfold v7
    refine Keeps.upd (u := v4) rfl ?_
    exact h18
  clear_value v7
  refine Keeps.trans ?_ (Keeps.foldl (fun x23 a24 => ?_) _ _)
  · exact h22
  · exact h8 _ _

theorem State.endCommands_keeps {s : State} :
    Keeps s (State.endCommands s) := by
  delta State.endCommands
  refine Keeps.trans ?_ (Keeps.foldl (fun x0 a1 => ?_) _ _)
  · exact Keeps.refl _
  · extract_lets v2 v3 v4 v5
    clear_value v2 v3
    have h6 : Keeps x0 v4 := by
      unfold v4
      exact State.setFn_keeps
    clear_value v4
    have h7 : Keeps x0 v5 := by
      unfold v5
      refine Keeps.trans ?_ (Keeps.foldl (fun x8 a9 => ?_) _ _)
      · exact h6
      · extract_lets v10
        have h11 : Keeps x8 v10 := by
          unfold v10
          exact State.issue_keeps
        clear_value v10
        split
        · refine Keeps.trans ?_ State.ready_keeps
          exact h11
        · refine Keeps.trans ?_ State.cplError_keeps
          exact h11
    clear_value v5
    refine Keeps.trans ?_ State.dropWaiting_keeps
    exact h7

theorem State.discardCpls_keeps {s : State} {b1 : Nat} :
    Keeps s (State.discardCpls s b1) := by
  delta State.discardCpls
  extract_lets v0
  have h1 : Keeps s v0 := by
    unfold v0
    refine Keeps.trans ?_ (Keeps.foldl (fun x2 a3 => ?_) _ _)
    · exact Keeps.refl _
    · split
      · exact State.freeRecord_keeps
      · exact Keeps.refl _
  clear_value v0
  refine Keeps.trans ?_ State.dropCpls_keeps
  exact h1

theorem State.flrOne_keeps {s : State} {b1 : Nat} :
    Keeps s (State.flrOne s b1) := by
  delta State.flrOne
  extract_lets v0 v1 v2 v3 v4 v5 v6
  have h7 : Keeps s v0 := by
    unfold v0
    exact State.rputN_keeps
  clear_value v0
  have h8 : Keeps s v1 := by
    unfold v1
    refine Keeps.trans ?_ State.discardCpls_keeps
    refine Keeps.trans ?_ State.dropWaiting_keeps
    exact h7
  clear_value v1 v2 v3
  have h9 : Keeps s v4 := by
    unfold v4
    refine Keeps.upd (u := v1) rfl ?_
    exact h8
  clear_value v4 v5
  have h10 : Keeps s v6 := by
    unfold v6
    refine Keeps.trans ?_ (Keeps.foldl (fun x11 a12 => ?_) _ _)
    · exact h9
    · exact State.revokeWindow_keeps
  clear_value v6
  split
  · exact h10
  · extract_lets v20 v21 v22
    have h23 : Keeps s v20 := by
      unfold v20
      refine Keeps.trans ?_ (Keeps.foldl (fun x24 a25 => ?_) _ _)
      · exact h10
      · split
        · refine Keeps.trans ?_ State.rputN_keeps
          exact State.cancelWatch_keeps
        · exact Keeps.refl _
    clear_value v20
    have h28 : Keeps s v21 := by
      unfold v21
      refine Keeps.trans ?_ State.rputN_keeps
      exact h23
    clear_value v21
    have h29 : Keeps s v22 := by
      unfold v22
      refine Keeps.trans ?_ (Keeps.foldl (fun x30 a31 => ?_) _ _)
      · exact h28
      · exact State.reqEvent_keeps
    clear_value v22
    refine Keeps.trans ?_ State.discardCpls_keeps
    exact h29

theorem State.flr_keeps {s : State} {b1 : Nat} :
    Keeps s (State.flr s b1) := by
  delta State.flr
  extract_lets v0
  have h1 : Keeps s v0 := by
    unfold v0
    split
    · refine Keeps.trans ?_ (Keeps.foldl (fun x4 a5 => ?_) _ _)
      · exact Keeps.refl _
      · exact State.flrOne_keeps
    · exact State.flrOne_keeps
  clear_value v0
  refine Keeps.trans ?_ State.raise_keeps
  exact h1

theorem State.endItem_keeps {s : State} {b1 : Item} {b2 : Nat} :
    Keeps s (State.endItem s b1 b2) := by
  delta State.endItem
  split
  · split
    · exact State.ctxFault_keeps
    · exact Keeps.refl _
  · split
    · split
      · refine Keeps.trans ?_ State.stopChan_keeps
        exact State.moveFailed_keeps
      · exact State.stopChan_keeps
    · exact Keeps.refl _
  · exact State.endScaler_keeps
  · exact State.endUpdate_keeps
  · exact State.collFail_keeps
  · exact State.failJob_keeps

theorem State.endItems_keeps {s : State} {b1 : List Item} {b2 : Nat} :
    Keeps s (State.endItems s b1 b2) := by
  delta State.endItems
  refine Keeps.trans ?_ (Keeps.foldl (fun x0 a1 => ?_) _ _)
  · exact Keeps.refl _
  · exact State.endItem_keeps

theorem State.endAllScheduled_keeps {s : State} {b1 : Nat} :
    Keeps s (State.endAllScheduled s b1) := by
  delta State.endAllScheduled
  exact State.endItems_keeps

theorem State.dropPageMoves_keeps {s : State} {b1 : Nat} :
    Keeps s (State.dropPageMoves s b1) := by
  delta State.dropPageMoves
  extract_lets v0
  clear_value v0
  refine Keeps.trans ?_ (Keeps.foldl (fun x1 a2 => ?_) _ _)
  · exact Keeps.refl _
  · extract_lets v3
    have h4 : Keeps x1 v3 := by
      unfold v3
      split
      · exact State.moveFailed_keeps
      · exact Keeps.refl _
    clear_value v3
    refine Keeps.trans ?_ State.freeChan_keeps
    exact h4

theorem State.releaseLeft_keeps {s : State} {b1 : Nat} :
    Keeps s (State.releaseLeft s b1) := by
  delta State.releaseLeft
  extract_lets v0 v1
  have h2 : Keeps s v0 := by
    unfold v0
    exact State.modSrvPart_keeps
  clear_value v0 v1
  refine Keeps.trans ?_ State.settleLeftovers_keeps
  refine Keeps.upd (u := v0) rfl ?_
  exact h2

theorem State.freeEarly_keeps {s : State} {b1 b2 : Nat} :
    Keeps s (State.freeEarly s b1 b2) := by
  delta State.freeEarly
  extract_lets v0 v1 v2
  clear_value v0 v1
  have h3 : Keeps s v2 := by
    unfold v2
    exact State.setFn_keeps
  clear_value v2
  refine Keeps.trans ?_ State.freeRecord_keeps
  exact h3

theorem State.endRequests_keeps {s : State} {b1 b2 : Nat} :
    Keeps s (State.endRequests s b1 b2) := by
  delta State.endRequests
  extract_lets v0 v1 v2
  clear_value v0
  have h3 : Keeps s v1 := by
    unfold v1
    exact State.dropPageMoves_keeps
  clear_value v1
  have h4 : Keeps s v2 := by
    unfold v2
    refine Keeps.trans ?_ (Keeps.foldl (fun x5 a6 => ?_) _ _)
    · exact h3
    · refine Keeps.trans ?_ State.endReq_keeps
      exact State.parkRelease_keeps
  clear_value v2
  refine Keeps.trans ?_ (Keeps.foldl (fun x7 a8 => ?_) _ _)
  · refine Keeps.trans ?_ State.releaseLeft_keeps
    exact h4
  · exact State.freeEarly_keeps

theorem State.endPartWork_keeps {s : State} {b1 b2 : Nat} :
    Keeps s (State.endPartWork s b1 b2) := by
  delta State.endPartWork
  extract_lets v0 v1 v2
  have h3 : Keeps s v0 := by
    unfold v0
    exact State.endItems_keeps
  clear_value v0 v1
  have h4 : Keeps s v2 := by
    unfold v2
    refine Keeps.trans ?_ (Keeps.foldl (fun x5 a6 => ?_) _ _)
    · exact h3
    · refine Keeps.trans ?_ State.freeRest_keeps
      refine Keeps.trans ?_ State.closeRaw_keeps
      exact State.dropLegWait_keeps
  clear_value v2
  refine Keeps.trans ?_ State.endRequests_keeps
  exact h4

theorem State.freeMade_keeps {s : State} :
    Keeps s (State.freeMade s) := by
  delta State.freeMade
  extract_lets v0
  clear_value v0
  refine Keeps.trans ?_ (Keeps.foldl (fun x1 a2 => ?_) _ _)
  · exact Keeps.refl _
  · exact State.freeHold_keeps

theorem State.endTransfers_keeps {s : State} {b1 : Nat} :
    Keeps s (State.endTransfers s b1) := by
  delta State.endTransfers
  refine Keeps.trans ?_ (Keeps.foldl (fun x0 a1 => ?_) _ _)
  · exact Keeps.refl _
  · extract_lets v2 v3 v4 v5
    clear_value v2 v3 v4
    have h6 : Keeps x0 v5 := by
      unfold v5
      split
      · exact State.moveFailed_keeps
      · exact Keeps.refl _
    clear_value v5
    split
    · exact Keeps.refl _
    · split
      · refine Keeps.trans ?_ State.freeChan_keeps
        exact h6
      · refine Keeps.trans ?_ State.stopChan_keeps
        exact h6

theorem State.endAllWork_keeps {s : State} {b1 : Nat} :
    Keeps s (State.endAllWork s b1) := by
  delta State.endAllWork
  extract_lets v0 v1 v2 v3 v4 v5 v6 v7 v8 v9 v10 v11 v12 v13 v14
  have h15 : Keeps s v0 := by
    unfold v0
    refine Keeps.trans ?_ (Keeps.foldl (fun x16 a17 => ?_) _ _)
    · exact Keeps.refl _
    · exact State.failJob_keeps
  clear_value v0
  have h18 : Keeps s v1 := by
    unfold v1
    refine Keeps.trans ?_ (Keeps.foldl (fun x19 a20 => ?_) _ _)
    · exact h15
    · split
      · exact State.alnStopped_keeps
      · exact Keeps.refl _
  clear_value v1
  have h25 : Keeps s v2 := by
    unfold v2
    refine Keeps.trans ?_ (Keeps.foldl (fun x26 a27 => ?_) _ _)
    · exact h18
    · exact State.collFail_keeps
  clear_value v2
  have h28 : Keeps s v3 := by
    unfold v3
    refine Keeps.trans ?_ (Keeps.foldl (fun x29 a30 => ?_) _ _)
    · exact h25
    · split
      · extract_lets v35 v36
        have h37 : Keeps x29 v35 := by
          unfold v35
          split
          · exact State.unitError_keeps
          · exact Keeps.refl _
        clear_value v35 v36
        refine Keeps.trans ?_ State.setUnit_keeps
        exact h37
      · exact Keeps.refl _
  clear_value v3
  have h43 : Keeps s v4 := by
    unfold v4
    refine Keeps.trans ?_ (Keeps.foldl (fun x44 a45 => ?_) _ _)
    · exact h28
    · exact State.endItem_keeps
  clear_value v4
  have h46 : Keeps s v5 := by
    unfold v5
    refine Keeps.trans ?_ State.endTransfers_keeps
    exact h43
  clear_value v5
  have h47 : Keeps s v6 := by
    unfold v6
    refine Keeps.trans ?_ (Keeps.foldl (fun x48 a49 => ?_) _ _)
    · exact h46
    · split
      · split
        · exact Keeps.refl _
        · exact State.endReq_keeps
      · exact Keeps.refl _
  clear_value v6 v7 v8 v9 v10 v11
  have h59 : Keeps s v12 := by
    unfold v12
    refine Keeps.upd (u := v6) rfl ?_
    exact h47
  clear_value v12
  have h60 : Keeps s v14 := by
    unfold v14
    refine Keeps.trans ?_ State.updateHold_keeps
    refine Keeps.upd (u := v12) rfl ?_
    exact h59
  clear_value v14
  refine Keeps.trans ?_ State.endCommands_keeps
  refine Keeps.trans ?_ State.freeMade_keeps
  exact h60

theorem State.cadCtrlWritten_keeps {s : State} {b1 : Nat} :
    Keeps s (State.cadCtrlWritten s b1) := by
  delta State.cadCtrlWritten
  extract_lets v0 v1 v2 v3 v4
  clear_value v0
  have h5 : Keeps s v2 := by
    unfold v2
    split
    · exact Keeps.of rfl
    · split
      · exact Keeps.of rfl
      · exact Keeps.refl _
  clear_value v2
  have h12 : Keeps s v4 := by
    unfold v4
    split
    · refine Keeps.upd (u := v2) rfl ?_
      exact h5
    · split
      · refine Keeps.upd (u := v2) rfl ?_
        exact h5
      · exact h5
  clear_value v4
  refine Keeps.trans ?_ State.updateHold_keeps
  exact h12

theorem State.masterCmd_keeps {s : State} {b1 : Nat} :
    KeepsOpt s (State.masterCmd s b1) := by
  delta State.masterCmd
  extract_lets v0
  split
  · exact KeepsOpt.none
  · split
    · refine KeepsOpt.some ?_
      exact Keeps.of rfl
    · split
      · refine KeepsOpt.some ?_
        exact Keeps.of rfl
      · refine KeepsOpt.some ?_
        exact Keeps.refl _

theorem State.masterPeriodWritten_keeps {s : State} :
    Keeps s (State.masterPeriodWritten s) := by
  delta State.masterPeriodWritten
  extract_lets v0 v1 v2
  clear_value v0 v1
  split
  · exact Keeps.refl _
  · exact Keeps.of rfl

theorem State.pput_keeps {s : State} {b1 : Nat} {b2 : RegName} {b3 b4 b5 : Nat} :
    Keeps s (State.pput s b1 b2 b3 b4 b5) := by
  delta State.pput
  exact State.rputN_keeps

theorem State.logSelected_keeps {s : State} {b1 : Nat} :
    Keeps s (State.logSelected s b1) := by
  delta State.logSelected
  extract_lets v0 v1 v2
  clear_value v0 v1
  have h3 : Keeps s v2 := by
    unfold v2
    exact State.pput_keeps
  clear_value v2
  refine Keeps.trans ?_ (Keeps.foldl (fun x4 a5 => ?_) _ _)
  · exact h3
  · exact State.pput_keeps

theorem State.modAcct_keeps {s : State} {b1 b2 : Nat} {b3 : Acct → Acct} :
    Keeps s (State.modAcct s b1 b2 b3) := by
  delta State.modAcct
  extract_lets v0
  clear_value v0
  exact State.setAcct_keeps

theorem State.rwStore_keeps {s : State} {b1 : Nat} {b2 : RegName} {b3 b4 b5 : Nat} : Keeps s (State.rwStore s b1 b2 b3 b4 b5) := by
  unfold State.rwStore
  simp only
  split
  · exact ⟨⟨rfl, id, Nat.le_max_left _ _, fun _ h => h, Nat.le_refl _, Nat.le_refl _, rfl, Nat.le_refl _⟩, rfl⟩
  · exact State.modAcct_keeps
  · exact State.modAcct_keeps
  · exact State.modAcct_keeps
  · exact State.modAcct_keeps
  · exact State.nsOwnerSet_keeps
  · exact State.rputN_keeps.trans State.cadCtrlWritten_keeps
  · exact State.rputN_keeps.trans State.masterPeriodWritten_keeps
  · exact State.rputN_keeps.trans State.ringCtrlWritten_keeps
  · exact State.rputN_keeps.trans State.watchWritten_keeps
  · exact State.rputN_keeps.trans State.settlePort_keeps
  · exact State.rputN_keeps.trans State.failedWritten_keeps
  · split
    · exact State.rputN_keeps.trans State.ringStopped_keeps
    · exact State.rputN_keeps
  · exact State.rputN_keeps.trans State.modSrvPart_keeps
  · exact State.pput_keeps.trans State.logSelected_keeps
  · exact State.pput_keeps

theorem State.rwStoreAll_keeps {s : State} {b1 : RegName} {b2 b3 b4 : Nat} :
    Keeps s (State.rwStoreAll s b1 b2 b3 b4) := by
  delta State.rwStoreAll
  split
  · refine Keeps.trans ?_ (Keeps.foldl (fun x2 a3 => ?_) _ _)
    · exact Keeps.refl _
    · exact State.rwStore_keeps
  · exact State.rwStore_keeps

theorem State.resetRegs_keeps {s : State} {b1 : Nat} {b2 : Bool} :
    Keeps s (State.resetRegs s b1 b2) := by
  delta State.resetRegs
  extract_lets v0
  clear_value v0
  exact Keeps.of rfl

theorem State.loseBlock_keeps {s : State} {b1 : Nat} :
    Keeps s (State.loseBlock s b1) := by
  delta State.loseBlock
  extract_lets v0 v1 v2 v3 v4 v5
  clear_value v0 v1
  have h6 : Keeps s v2 := by
    unfold v2
    exact Keeps.of rfl
  clear_value v2 v3 v4 v5
  split
  · refine Keeps.trans ?_ State.clearDomainCairns_keeps
    exact Keeps.of rfl
  · split
    · exact Keeps.of rfl
    · split
      · split
        · exact by assumption
        · refine Keeps.upd (u := v2) rfl ?_
          exact h6
      · split
        · exact Keeps.of rfl
        · split
          · exact Keeps.of rfl
          · split
            · exact Keeps.of rfl
            · split
              · exact Keeps.of rfl
              · split
                · refine Keeps.trans ?_ State.clearDomainCairns_keeps
                  exact Keeps.of rfl
                · exact Keeps.refl _

theorem State.switchOff_keeps {s : State} {b1 : Nat} :
    Keeps s (State.switchOff s b1) := by
  delta State.switchOff
  extract_lets v0 v1 v2
  clear_value v0
  have h3 : Keeps s v1 := by
    unfold v1
    refine Keeps.trans ?_ State.resetRegs_keeps
    exact State.loseBlock_keeps
  clear_value v1 v2
  split
  · exact Keeps.refl _
  · refine Keeps.upd (u := v1) rfl ?_
    exact h3

theorem State.switchTo_keeps {s : State} {b1 : Nat} :
    Keeps s (State.switchTo s b1) := by
  delta State.switchTo
  extract_lets v0 v1 v2
  have h3 : Keeps s v0 := by
    unfold v0
    refine Keeps.trans ?_ (Keeps.foldl (fun x4 a5 => ?_) _ _)
    · exact Keeps.refl _
    · split
      · exact Keeps.refl _
      · exact State.switchOff_keeps
  clear_value v0 v1 v2
  refine Keeps.trans ?_ State.settlePorts_keeps
  refine Keeps.upd (u := v0) rfl ?_
  exact h3

theorem State.applyRecs_keeps {s : State} {b1 : List (Nat × RegRec)} :
    KeepsSnd s (State.applyRecs s b1) := by
  fun_induction State.applyRecs s b1
  · refine KeepsSnd.mk ?_
    exact Keeps.refl _
  · refine KeepsSnd.mk ?_
    exact Keeps.refl _
  · rename_i r16 r17
    clear_value r16 r17
    refine KeepsSnd.mk ?_
    exact State.rwStoreAll_keeps
  · rename_i r19 r20 r21 r22 r23 r24 r25 r26 r27 r28 r29 r30 r31 r32 r33 r34 r35 r36 r37 r38 r39 r40
    clear_value r35 r36 r38
    have h41 : KeepsSnd r19 r39 := by
      unfold r39
      refine KeepsSnd.trans ?_ (by assumption)
      exact State.rwStoreAll_keeps
    clear_value r39
    refine KeepsSnd.mk ?_
    show KeepsSnd _ _
    exact h41
  · rename_i r43 r44 r45 r46 r47 r48 r49 r50 r51 r52 r53 r54 r55 r56 r57 r58 r59 r60 r61 r62 r63
    clear_value r59 r60
    have h64 : KeepsSnd r43 r62 := by
      unfold r62
      refine KeepsSnd.trans ?_ (by assumption)
      exact State.rwStoreAll_keeps
    clear_value r62
    refine KeepsSnd.mk ?_
    show KeepsSnd _ _
    exact h64
  · rename_i r66 r67 r68 r69 r70 r71 r72 r73 r74 r75 r76 r77 r78 r79 r80 r81
    clear_value r78 r79
    have h82 : KeepsSnd r66 r80 := by
      unfold r80
      refine KeepsSnd.trans ?_ (by assumption)
      exact State.rwStoreAll_keeps
    clear_value r80
    refine KeepsSnd.mk ?_
    show KeepsSnd _ _
    exact h82
  · rename_i r91
    exact r91

theorem State.publishFoothill_keeps {s : State} {b1 : Nat} {b2 : Option Nat} :
    Keeps s (State.publishFoothill s b1 b2) := by
  delta State.publishFoothill
  split
  · extract_lets v3
    clear_value v3
    exact Keeps.of rfl
  · exact Keeps.refl _

theorem State.domainPowerOn_keeps {s : State} {b1 : Nat} {b2 : Option Nat} :
    Keeps s (State.domainPowerOn s b1 b2) := by
  delta State.domainPowerOn
  extract_lets v0 v1 v2 v3 v4 v5 v6 v7 v8
  clear_value v0
  have h9 : Keeps s v1 := by
    unfold v1
    refine Keeps.trans ?_ State.resetRegs_keeps
    exact State.loseBlock_keeps
  clear_value v1 v2
  have h10 : Keeps s v3 := by
    unfold v3
    refine Keeps.upd (u := v1) rfl ?_
    exact h9
  clear_value v3
  have h11 : KeepsSnd s v4 := by
    unfold v4
    refine KeepsSnd.trans ?_ State.applyRecs_keeps
    exact h10
  clear_value v4
  have h12 : Keeps s v5 := by
    unfold v5
    refine Keeps.trans ?_ State.logAdd_keeps
    show KeepsSnd _ _
    exact h11
  clear_value v5
  have h13 : Keeps s v6 := by
    unfold v6
    split
    · refine Keeps.trans ?_ State.publishFoothill_keeps
      exact h12
    · exact h12
  clear_value v6
  have h18 : Keeps s v7 := by
    unfold v7
    split
    · refine Keeps.trans ?_ State.beginEnumeration_keeps
      exact h13
    · exact h13
  clear_value v7
  have h23 : Keeps s v8 := by
    unfold v8
    refine Keeps.trans ?_ State.settlePorts_keeps
    exact h18
  clear_value v8
  split
  · exact Keeps.refl _
  · split
    · refine Keeps.trans ?_ State.setStage_keeps
      exact h23
    · exact h23

theorem State.loadEnd_keeps {s : State} {b1 : Nat} {b2 : Bool} :
    Keeps s (State.loadEnd s b1 b2) := by
  delta State.loadEnd
  exact State.logAdd_keeps

theorem State.romAccept_keeps {s : State} {b1 : Nat} :
    Keeps s (State.romAccept s b1) := by
  delta State.romAccept
  exact State.logAdd_keeps

theorem State.beginLoad_keeps {s : State} {b1 : LoadOp} {b2 : Bool} :
    Keeps s (State.beginLoad s b1 b2) := by
  delta State.beginLoad
  extract_lets v0 v1
  have h2 : Keeps s v1 := by
    unfold v1
    exact Keeps.of rfl
  clear_value v1
  split
  · refine Keeps.trans ?_ State.setStage_keeps
    exact h2
  · exact h2

theorem State.dropLoad_keeps {s : State} :
    Keeps s (State.dropLoad s) := by
  delta State.dropLoad
  extract_lets v0 v1
  have h2 : Keeps s v1 := by
    unfold v1
    exact Keeps.of rfl
  split
  · refine Keeps.trans ?_ State.setStage_keeps
    exact h2
  · exact h2

theorem State.unload_keeps {s : State} :
    Keeps s (State.unload s) := by
  delta State.unload
  extract_lets v0 v1 v2 v3
  have h4 : Keeps s v0 := by
    unfold v0
    refine Keeps.trans ?_ State.endAllWork_keeps
    exact State.issue_keeps
  clear_value v0 v2
  have h5 : Keeps s v3 := by
    unfold v3
    refine Keeps.upd (u := v0) rfl ?_
    exact h4
  clear_value v3
  refine Keeps.trans ?_ State.settlePorts_keeps
  exact h5

theorem State.imgCommand_keeps {s : State} {b1 : Nat} :
    KeepsTwo s (State.imgCommand s b1) := by
  delta State.imgCommand
  extract_lets v0 v1
  clear_value v0 v1
  split
  · split
    · refine KeepsTwo.ok ?_
      exact State.dropLoad_keeps
    · refine KeepsTwo.error ?_
      exact State.issue_keeps
  · split
    · refine KeepsTwo.ok ?_
      exact State.dropLoad_keeps
    · refine KeepsTwo.error ?_
      exact State.issue_keeps
  · split
    · refine KeepsTwo.ok ?_
      exact State.dropLoad_keeps
    · refine KeepsTwo.error ?_
      exact State.issue_keeps
  · split
    · refine KeepsTwo.ok ?_
      exact State.beginLoad_keeps
    · split
      · refine KeepsTwo.ok ?_
        exact State.beginLoad_keeps
      · split
        · refine KeepsTwo.ok ?_
          exact State.beginLoad_keeps
        · split
          · refine KeepsTwo.error ?_
            exact State.issue_keeps
          · refine KeepsTwo.error ?_
            exact Keeps.refl _
  · split
    · refine KeepsTwo.ok ?_
      exact State.beginLoad_keeps
    · split
      · refine KeepsTwo.ok ?_
        exact State.beginLoad_keeps
      · split
        · refine KeepsTwo.ok ?_
          exact State.unload_keeps
        · split
          · refine KeepsTwo.error ?_
            exact State.issue_keeps
          · refine KeepsTwo.error ?_
            exact Keeps.refl _

theorem State.romFlash_keeps {s : State} :
    Keeps s (State.romFlash s) := by
  delta State.romFlash
  refine Keeps.trans ?_ State.beginLoad_keeps
  exact State.romAccept_keeps

theorem State.rejectLoad_keeps {s : State} {b1 : Reject} :
    Keeps s (State.rejectLoad s b1) := by
  delta State.rejectLoad
  extract_lets v0 v1 v2 v3 v4 v5 v6
  have h7 : Keeps s v0 := by
    unfold v0
    refine Keeps.trans ?_ State.raise_keeps
    exact State.issue_keeps
  have h8 : Keeps s v2 := by
    unfold v2
    refine Keeps.upd (u := v0) rfl ?_
    exact h7
  have h9 : Keeps s v3 := by
    unfold v3
    refine Keeps.trans ?_ State.loadEnd_keeps
    exact h8
  clear_value v4
  have h10 : Keeps s v5 := by
    unfold v5
    split
    · refine Keeps.upd (u := v3) rfl ?_
      exact h9
    · exact h9
  clear_value v5
  split
  · refine Keeps.upd (u := v5) rfl ?_
    exact h10
  · refine Keeps.trans ?_ State.dropLoad_keeps
    exact h10

theorem State.imageRead_keeps {s : State} {b1 : List Byte} :
    Keeps s (State.imageRead s b1) := by
  delta State.imageRead
  split
  · exact Keeps.refl _
  · split
    · exact State.rejectLoad_keeps
    · extract_lets v9
      exact Keeps.of rfl

theorem State.imageTimeout_keeps {s : State} :
    Keeps s (State.imageTimeout s) := by
  delta State.imageTimeout
  split
  · exact State.rejectLoad_keeps
  · exact Keeps.refl _

theorem State.writeRank_keeps {s : State} :
    Keeps s (State.writeRank s) := by
  delta State.writeRank
  extract_lets v0 v1
  clear_value v0 v1
  refine Keeps.trans ?_ State.cadCtrlWritten_keeps
  exact State.rputN_keeps

theorem State.assume_keeps {s : State} :
    Keeps s (State.assume s) := by
  delta State.assume
  extract_lets v0 v1
  clear_value v0 v1
  split
  · refine Keeps.trans ?_ State.logAdd_keeps
    exact Keeps.of rfl
  · exact Keeps.of rfl

theorem State.makeCold_keeps {s : State} :
    Keeps s (State.makeCold s) := by
  delta State.makeCold
  extract_lets v0 v1 v2
  have h3 : Keeps s v0 := by
    unfold v0
    refine Keeps.trans ?_ State.zero_keeps
    refine Keeps.trans ?_ State.tally1_keeps
    exact State.issue_keeps
  clear_value v0 v1 v2
  refine Keeps.upd (u := v0) rfl ?_
  exact h3

theorem State.resumeCommit_keeps {s : State} {b1 : List Byte} {b2 : Nat} :
    Keeps s (State.resumeCommit s b1 b2) := by
  delta State.resumeCommit
  split
  · exact Keeps.refl _
  · extract_lets v7 v8 v9
    clear_value v7
    have h10 : Keeps s v8 := by
      unfold v8
      exact Keeps.of rfl
    clear_value v8 v9
    split
    · refine Keeps.trans ?_ State.makeCold_keeps
      exact h10
    · refine Keeps.trans ?_ (Keeps.foldl (fun x13 a14 => ?_) _ _)
      · exact h10
      · refine Keeps.trans ?_ State.logAdd_keeps
        exact State.freeHold_keeps

theorem State.commitFull_keeps {s : State} :
    Keeps s (State.commitFull s) := by
  delta State.commitFull
  extract_lets v0 v1 v2 v3 v4 v5 v6 v7 v8 v9 v10 v11 v12 v13 v14 v15
  clear_value v0 v1 v2 v3
  have h16 : Keeps s v4 := by
    unfold v4
    refine Keeps.trans ?_ State.clearCairns_keeps
    refine Keeps.trans ?_ State.endCommands_keeps
    exact State.resumeCommit_keeps
  clear_value v4 v5 v6 v8
  have h17 : Keeps s v9 := by
    unfold v9
    refine Keeps.upd (u := v4) rfl ?_
    exact h16
  clear_value v9
  have h18 : Keeps s v10 := by
    unfold v10
    refine Keeps.trans ?_ (Keeps.foldl (fun x19 a20 => ?_) _ _)
    · exact h17
    · exact State.logAdd_keeps
  clear_value v10
  have h21 : Keeps s v11 := by
    unfold v11
    refine Keeps.trans ?_ State.writeRank_keeps
    refine Keeps.trans ?_ State.switchTo_keeps
    exact h18
  clear_value v11
  have h22 : KeepsSnd s v12 := by
    unfold v12
    refine KeepsSnd.trans ?_ State.applyRecs_keeps
    exact h21
  clear_value v12
  have h23 : Keeps s v13 := by
    unfold v13
    refine Keeps.trans ?_ State.settlePorts_keeps
    refine Keeps.trans ?_ State.assume_keeps
    refine Keeps.trans ?_ State.logSeries_keeps
    show KeepsSnd _ _
    exact h22
  clear_value v13
  have h24 : Keeps s v14 := by
    unfold v14
    refine Keeps.trans ?_ State.loadEnd_keeps
    refine Keeps.trans ?_ State.raise_keeps
    refine Keeps.trans ?_ State.raise_keeps
    exact h23
  clear_value v14
  have h25 : Keeps s v15 := by
    unfold v15
    split
    · refine Keeps.trans ?_ State.setStage_keeps
      exact h24
    · exact h24
  clear_value v15
  split
  · refine Keeps.trans ?_ State.setStage_keeps
    exact h25
  · exact h25

theorem State.partialWrap_keeps {s : State} :
    Keeps s (State.partialWrap s) := by
  delta State.partialWrap
  extract_lets v0 v1 v2
  have h3 : Keeps s v0 := by
    unfold v0
    refine Keeps.trans ?_ State.endPartWork_keeps
    exact State.issue_keeps
  clear_value v0
  split
  · exact Keeps.refl _
  · split
    · refine Keeps.upd (u := v0) rfl ?_
      exact h3
    · split
      · exact Keeps.of rfl
      · exact Keeps.refl _

theorem State.partialCommit_keeps {s : State} :
    Keeps s (State.partialCommit s) := by
  delta State.partialCommit
  extract_lets v0 v1 v2 v3 v4 v5 v6 v7 v8
  clear_value v0 v1 v2 v3 v5
  have h9 : Keeps s v6 := by
    unfold v6
    exact Keeps.of rfl
  clear_value v6
  have h10 : Keeps s v7 := by
    unfold v7
    refine Keeps.trans ?_ (Keeps.foldl (fun x11 a12 => ?_) _ _)
    · exact h9
    · exact State.logAdd_keeps
  clear_value v7
  have h13 : KeepsSnd s v8 := by
    unfold v8
    refine KeepsSnd.trans ?_ State.applyRecs_keeps
    exact h10
  clear_value v8
  split
  · exact Keeps.refl _
  · refine Keeps.trans ?_ State.loadEnd_keeps
    refine Keeps.trans ?_ State.raise_keeps
    refine Keeps.trans ?_ State.logSeries_keeps
    show KeepsSnd _ _
    exact h13

theorem State.reloadTimeout_keeps {s : State} :
    Keeps s (State.reloadTimeout s) := by
  delta State.reloadTimeout
  extract_lets v0 v1
  have h2 : Keeps s v0 := by
    unfold v0
    refine Keeps.trans ?_ State.loadEnd_keeps
    refine Keeps.trans ?_ State.raise_keeps
    exact State.issue_keeps
  clear_value v0
  split
  · exact Keeps.refl _
  · refine Keeps.upd (u := v0) rfl ?_
    exact h2

theorem State.imageVerify_keeps {s : State} :
    Keeps s (State.imageVerify s) := by
  delta State.imageVerify
  split
  · exact Keeps.refl _
  · split
    · exact State.rejectLoad_keeps
    · split
      · refine Keeps.trans ?_ State.dropLoad_keeps
        refine Keeps.trans ?_ State.loadEnd_keeps
        exact State.raise_keeps
      · exact State.commitFull_keeps
      · exact State.commitFull_keeps
      · extract_lets v17 v18
        have h19 : Keeps s v18 := by
          unfold v18
          exact Keeps.of rfl
        clear_value v18
        refine Keeps.trans ?_ State.raise_keeps
        exact h19

end Sys2Proof.Machine
end

