-- ==== Sys2Proof/Laws/KeepsOps5.lean ====
section
/-! SUPPORT. `Keeps` of the shared operations, part 5 of 5, in the order they build on each other: one lemma per
operation. -/
namespace Sys2Proof.Machine
set_option Elab.async false

theorem State.keyProgram_keeps {s : State} {b1 : Nat} {b2 : List Byte} :
    KeepsOpt s (State.keyProgram s b1 b2) := by
  delta State.keyProgram
  extract_lets v0 v1
  clear_value v0
  split
  · exact KeepsOpt.none
  · refine KeepsOpt.map _ (fun a6 => ?_)
    refine Keeps.trans ?_ State.logAdd_keeps
    exact Keeps.of rfl

theorem State.keyRevoke_keeps {s : State} {b1 : Nat} : KeepsOpt s (State.keyRevoke s b1) := by
  unfold State.keyRevoke
  split
  · exact KeepsOpt.none
  · split
    · exact KeepsOpt.some (Keeps.refl _)
    · split
      · exact KeepsOpt.none
      · refine KeepsOpt.some (Keeps.trans ?_ State.logAdd_keeps)
        exact ⟨⟨rfl, id, Nat.le_refl _, fun _ h => List.mem_append_left _ h, Nat.le_refl _, Nat.le_refl _, rfl, Nat.le_refl _⟩, rfl⟩

theorem State.tallyFlush_keeps {s : State} :
    Keeps s (State.tallyFlush s) := by
  delta State.tallyFlush
  extract_lets v0
  clear_value v0
  exact Keeps.of rfl

theorem State.temperatureSample_keeps {s : State} :
    Keeps s (State.temperatureSample s) := by
  delta State.temperatureSample
  split
  · exact State.observe_keeps
  · exact Keeps.refl _

theorem State.setLogTime_keeps {s : State} {b1 : Nat} :
    Keeps s (State.setLogTime s b1) := by
  delta State.setLogTime
  extract_lets v0
  split
  · exact Keeps.of rfl
  · exact Keeps.of rfl

theorem State.resetSpine_goes {s : State} :
    Goes s (State.resetSpine s) := by
  delta State.resetSpine
  extract_lets v0 v1 v2
  clear_value v1
  have h3 : Goes s v2 := by
    unfold v2
    exact Goes.of rfl
  clear_value v2
  refine Goes.trans ?_ State.updateHold_keeps.goes
  exact h3

theorem State.enterKeep_goes {s : State} {b1 : Bool} :
    Goes s (State.enterKeep s b1) := by
  delta State.enterKeep
  extract_lets v0 v1 v2
  clear_value v0
  have h3 : Goes s v1 := by
    unfold v1
    refine Goes.trans ?_ State.resetSpine_goes
    refine Goes.trans ?_ State.tallyFlush_keeps.goes
    exact State.tally1_keeps.goes
  clear_value v1 v2
  refine Goes.upd (u := v1) rfl ?_
  exact h3

theorem State.loseSlope_keeps {s : State} :
    Keeps s (State.loseSlope s) := by
  delta State.loseSlope
  extract_lets v0 v1
  have h2 : Keeps s v0 := by
    unfold v0
    exact State.zero_keeps
  clear_value v0 v1
  refine Keeps.upd (u := v0) rfl ?_
  exact h2

theorem State.voidRetention_keeps {s : State} :
    Keeps s (State.voidRetention s) := by
  delta State.voidRetention
  extract_lets v0 v1
  have h2 : Keeps s v0 := by
    unfold v0
    exact State.issue_keeps
  clear_value v0 v1
  refine Keeps.upd (u := v0) rfl ?_
  exact h2

theorem State.loseStaged_keeps {s : State} :
    Keeps s (State.loseStaged s) := by
  delta State.loseStaged
  extract_lets v0 v1
  clear_value v1
  exact Keeps.of rfl

theorem State.powerLost_goes {s : State} {b1 : Nat} {b2 : Bool} :
    Goes s (State.powerLost s b1 b2) := by
  delta State.powerLost
  extract_lets v0 v1 v2 v3 v4 v5
  have h6 : Keeps s v0 := by
    unfold v0
    refine Keeps.trans ?_ State.issue_keeps
    exact State.flushBatch_keeps
  clear_value v0 v1
  have h7 : Keeps s v2 := by
    unfold v2
    refine Keeps.trans ?_ State.logDrain_keeps
    exact h6
  clear_value v2
  have h8 : Keeps s v4 := by
    unfold v4
    refine Keeps.upd (u := v2) rfl ?_
    exact h7
  clear_value v4
  have h9 : Keeps s v5 := by
    unfold v5
    refine Keeps.trans ?_ State.logDrain_keeps
    refine Keeps.trans ?_ State.flushBatch_keeps
    refine Keeps.trans ?_ State.logAdd_keeps
    exact h8
  clear_value v5
  split
  · refine Goes.trans ?_ State.voidRetention_keeps.goes
    refine Goes.trans ?_ State.loseSlope_keeps.goes
    refine Goes.trans ?_ State.enterKeep_goes
    refine Goes.trans ?_ State.loseStaged_keeps.goes
    exact h6.goes
  · refine Goes.trans ?_ State.loseSlope_keeps.goes
    refine Goes.trans ?_ State.enterKeep_goes
    exact h9.goes

theorem State.mainLost_goes {s : State} :
    Goes s (State.mainLost s) := by
  delta State.mainLost
  extract_lets v0 v1 v2 v3 v4
  clear_value v0
  have h5 : Keeps s v1 := by
    unfold v1
    exact Keeps.of rfl
  clear_value v1
  have h6 : Keeps s v2 := by
    unfold v2
    split
    · refine Keeps.trans ?_ State.issue_keeps
      exact h5
    · exact h5
  clear_value v2
  have h11 : Keeps s v3 := by
    unfold v3
    refine Keeps.trans ?_ State.loseSlope_keeps
    exact h6
  clear_value v3 v4
  split
  · exact Goes.refl _
  · split
    · refine Goes.trans ?_ State.powerLost_goes
      exact h5.goes
    · refine Goes.trans ?_ State.powerLost_goes
      exact h5.goes
    · refine Goes.trans ?_ State.powerLost_goes
      exact h5.goes
    · refine Goes.trans ?_ State.powerLost_goes
      exact h5.goes
    · refine Goes.upd (u := v3) rfl ?_
      exact h11.goes
    · exact h5.goes
    · exact h5.goes

theorem State.railFault_goes {s : State} :
    Goes s (State.railFault s) := by
  delta State.railFault
  split
  · refine Goes.trans ?_ State.powerLost_goes
    exact State.count_keeps.goes
  · exact Goes.refl _

theorem State.pwrChange_keeps {s : State} {b1 : PwrState} :
    Keeps s (State.pwrChange s b1) := by
  delta State.pwrChange
  extract_lets v0
  clear_value v0
  refine Keeps.trans ?_ State.raise_keeps
  exact Keeps.of rfl

theorem State.pwrBusy_keeps {s : State} :
    Keeps s (State.pwrBusy s) := by
  delta State.pwrBusy
  refine Keeps.trans ?_ State.raise_keeps
  exact State.issue_keeps

theorem State.doze_keeps {s : State} :
    Keeps s (State.doze s) := by
  delta State.doze
  refine Keeps.trans ?_ State.pwrChange_keeps
  exact State.switchTo_keeps

theorem State.pwrCommand_keeps {s : State} {b1 : Nat} :
    KeepsTwo s (State.pwrCommand s b1) := by
  delta State.pwrCommand
  split
  · refine KeepsTwo.ok ?_
    exact Keeps.refl _
  · refine KeepsTwo.ok ?_
    exact Keeps.refl _
  · refine KeepsTwo.ok ?_
    exact Keeps.refl _
  · refine KeepsTwo.ok ?_
    exact Keeps.refl _
  · refine KeepsTwo.ok ?_
    exact Keeps.refl _
  · split
    · refine KeepsTwo.ok ?_
      exact State.pwrChange_keeps
    · refine KeepsTwo.error ?_
      exact State.pwrBusy_keeps
  · refine KeepsTwo.ok ?_
    exact State.pwrChange_keeps
  · split
    · refine KeepsTwo.ok ?_
      exact State.doze_keeps
    · refine KeepsTwo.error ?_
      exact State.pwrBusy_keeps
  · split
    · refine KeepsTwo.ok ?_
      exact State.doze_keeps
    · refine KeepsTwo.error ?_
      exact State.pwrBusy_keeps
  · refine KeepsTwo.ok ?_
    refine Keeps.trans ?_ State.switchTo_keeps
    exact State.pwrChange_keeps
  · refine KeepsTwo.ok ?_
    refine Keeps.trans ?_ State.switchTo_keeps
    exact State.pwrChange_keeps
  · extract_lets v54
    clear_value v54
    refine KeepsTwo.ok ?_
    exact Keeps.of rfl
  · refine KeepsTwo.error ?_
    exact Keeps.refl _

theorem State.hostL2_goes {s : State} :
    Goes s (State.hostL2 s) := by
  delta State.hostL2
  split
  · refine Goes.trans ?_ State.enterKeep_goes
    exact State.flr_keeps.goes
  · exact Goes.refl _

theorem State.keepTimeout_keeps {s : State} :
    Keeps s (State.keepTimeout s) := by
  delta State.keepTimeout
  extract_lets v0 v1
  have h2 : Keeps s v0 := by
    unfold v0
    exact State.issue_keeps
  clear_value v0 v1
  split
  · refine Keeps.upd (u := v0) rfl ?_
    exact h2
  · exact Keeps.refl _

theorem State.trip_goes {s : State} :
    Goes s (State.trip s) := by
  delta State.trip
  extract_lets v0 v1 v2
  have h3 : Keeps s v0 := by
    unfold v0
    refine Keeps.trans ?_ State.logAdd_keeps
    exact State.issue_keeps
  clear_value v0
  have h4 : Goes s v1 := by
    unfold v1
    refine Goes.trans ?_ State.resetSpine_goes
    refine Goes.trans ?_ State.flushBatch_keeps.goes
    exact h3.goes
  clear_value v1 v2
  refine Goes.upd (u := v1) rfl ?_
  exact h4

theorem State.thermalSample_goes {s : State} {b1 : Nat} {b2 : Int} :
    Goes s (State.thermalSample s b1 b2) := by
  delta State.thermalSample
  extract_lets v0 v1 v2 v3 v4
  clear_value v0 v1 v2 v3
  have h5 : Keeps s v4 := by
    unfold v4
    exact Keeps.of rfl
  clear_value v4
  split
  · exact Goes.refl _
  · split
    · refine Goes.trans ?_ State.trip_goes
      exact h5.goes
    · split
      · refine Goes.trans ?_ State.raise_keeps.goes
        exact h5.goes
      · exact h5.goes

theorem State.comparator_keeps {s : State} {b1 : Bool} {b2 : Nat} :
    Keeps s (State.comparator s b1 b2) := by
  delta State.comparator
  extract_lets v0 v1 v2 v3 v4 v5 v6 v7 v8
  clear_value v0 v1 v2
  have h9 : Keeps s v3 := by
    unfold v3
    exact Keeps.of rfl
  clear_value v3
  have h10 : Keeps s v4 := by
    unfold v4
    refine Keeps.trans ?_ State.issue_keeps
    exact h9
  clear_value v4 v5 v6
  have h11 : Keeps s v7 := by
    unfold v7
    refine Keeps.upd (u := v3) rfl ?_
    exact h9
  clear_value v7 v8
  split
  · split
    · refine Keeps.trans ?_ State.raise_keeps
      exact h9
    · exact h9
  · split
    · refine Keeps.trans ?_ State.raise_keeps
      exact h9
    · exact h9
  · split
    · refine Keeps.trans ?_ State.raise_keeps
      exact h9
    · exact h9
  · split
    · refine Keeps.trans ?_ State.raise_keeps
      exact h9
    · exact h9
  · split
    · exact h9
    · split
      · split
        · refine Keeps.upd (u := v4) rfl ?_
          exact h10
        · refine Keeps.trans ?_ State.voidRetention_keeps
          exact h9
      · split
        · refine Keeps.upd (u := v3) rfl ?_
          exact h9
        · exact h9
  · refine Keeps.upd (u := v3) rfl ?_
    exact h9
  · split
    · refine Keeps.upd (u := v7) rfl ?_
      exact h11
    · exact h11

theorem State.beginStart_goes {s : State} {b1 : Nat} :
    Goes s (State.beginStart s b1) := by
  delta State.beginStart
  extract_lets v0 v1 v2 v3 v4 v5
  clear_value v0
  have h6 : Goes s v1 := by
    unfold v1
    split
    · exact Goes.refl _
    · exact State.resetSpine_goes
  clear_value v1
  have h15 : Goes s v2 := by
    unfold v2
    split
    · refine Goes.trans ?_ State.observe_keeps.goes
      exact h6
    · exact h6
  clear_value v2 v4
  have h24 : Goes s v5 := by
    unfold v5
    refine Goes.upd (u := v2) rfl ?_
    exact h15
  clear_value v5
  refine Goes.trans ?_ State.setStage_keeps.goes
  exact h24

theorem State.perstRelease_goes {s : State} {b1 : Nat} :
    Goes s (State.perstRelease s b1) := by
  delta State.perstRelease
  extract_lets v0 v1 v2 v3 v4 v5 v6 v7 v8 v9 v10 v11
  clear_value v0 v1 v2
  have h12 : Goes s v3 := by
    unfold v3
    exact State.beginStart_goes
  clear_value v3 v4
  have h13 : Goes s v5 := by
    unfold v5
    refine Goes.upd (u := v3) rfl ?_
    exact h12
  clear_value v5
  have h14 : Goes s v6 := by
    unfold v6
    split
    · refine Goes.trans ?_ State.logAdd_keeps.goes
      exact h13
    · refine Goes.trans ?_ State.logAdd_keeps.goes
      exact h13
    · exact h13
  clear_value v6
  have h25 : Goes s v7 := by
    unfold v7
    refine Goes.trans ?_ State.raise_keeps.goes
    refine Goes.trans ?_ State.tally1_keeps.goes
    exact h14
  clear_value v7 v8
  have h26 : Goes s v9 := by
    unfold v9
    refine Goes.upd (u := v7) rfl ?_
    exact h25
  clear_value v9 v10
  have h27 : Goes s v11 := by
    unfold v11
    split
    · refine Goes.upd (u := v9) rfl ?_
      exact h26
    · refine Goes.trans ?_ State.tally1_keeps.goes
      exact h14
  clear_value v11
  split
  · exact Goes.refl _
  · refine Goes.trans ?_ State.setStage_keeps.goes
    exact h27

theorem State.selfTest_keeps {s : State} {b1 b2 : Nat} :
    Keeps s (State.selfTest s b1 b2) := by
  delta State.selfTest
  extract_lets v0 v1 v2 v3 v4 v5 v6
  have h7 : Keeps s v0 := by
    unfold v0
    exact State.issue_keeps
  clear_value v0 v1
  have h8 : Keeps s v2 := by
    unfold v2
    exact State.zero_keeps
  clear_value v2 v3 v4
  have h9 : Keeps s v5 := by
    unfold v5
    split
    · exact Keeps.refl _
    · refine Keeps.upd (u := v2) rfl ?_
      exact h8
  clear_value v5
  have h14 : Keeps s v6 := by
    unfold v6
    refine Keeps.trans ?_ State.setStage_keeps
    exact h9
  clear_value v6
  split
  · exact Keeps.refl _
  · split
    · refine Keeps.trans ?_ State.setStage_keeps
      refine Keeps.upd (u := v0) rfl ?_
      exact h7
    · split
      · refine Keeps.trans ?_ State.romFlash_keeps
        exact h14
      · exact h14

theorem State.stackFailed_keeps {s : State} {b1 : Nat} :
    Keeps s (State.stackFailed s b1) := by
  delta State.stackFailed
  refine Keeps.trans ?_ State.loseRange_keeps
  exact State.issue_keeps

theorem State.stackTraining_keeps {s : State} {b1 : Nat} :
    Keeps s (State.stackTraining s b1) := by
  delta State.stackTraining
  extract_lets v0 v1 v2 v3 v4
  clear_value v0
  have h5 : Keeps s v1 := by
    unfold v1
    refine Keeps.trans ?_ (Keeps.foldl (fun x6 a7 => ?_) _ _)
    · exact Keeps.refl _
    · exact State.stackFailed_keeps
  clear_value v1 v2 v3
  have h8 : Keeps s v4 := by
    unfold v4
    refine Keeps.upd (u := v1) rfl ?_
    exact h5
  clear_value v4
  split
  · exact Keeps.refl _
  · split
    · refine Keeps.trans ?_ State.setStage_keeps
      exact h8
    · exact h8

theorem State.enableCadence_keeps {s : State} :
    Keeps s (State.enableCadence s) := by
  delta State.enableCadence
  extract_lets v0 v1
  clear_value v0
  have h2 : Keeps s v1 := by
    unfold v1
    exact State.rputN_keeps
  clear_value v1
  split
  · exact Keeps.refl _
  · refine Keeps.trans ?_ State.logAdd_keeps
    refine Keeps.trans ?_ State.cadCtrlWritten_keeps
    exact h2

theorem State.linksEnd_keeps {s : State} :
    Keeps s (State.linksEnd s) := by
  delta State.linksEnd
  extract_lets v0 v1 v2
  clear_value v0
  have h3 : Keeps s v1 := by
    unfold v1
    exact Keeps.of rfl
  clear_value v1
  have h4 : Keeps s v2 := by
    unfold v2
    refine Keeps.trans ?_ State.setStage_keeps
    refine Keeps.trans ?_ State.enableCadence_keeps
    exact h3
  clear_value v2
  split
  · exact Keeps.refl _
  · split
    · refine Keeps.trans ?_ State.setStage_keeps
      exact h4
    · exact h4

theorem State.hostLinkUp_keeps {s : State} {b1 b2 : Nat} :
    Keeps s (State.hostLinkUp s b1 b2) := by
  delta State.hostLinkUp
  extract_lets v0
  split
  · exact Keeps.refl _
  · exact Keeps.of rfl

theorem State.hostLinkDown_keeps {s : State} :
    Keeps s (State.hostLinkDown s) := by
  delta State.hostLinkDown
  extract_lets v0
  split
  · exact Keeps.refl _
  · refine Keeps.trans ?_ State.raise_keeps
    refine Keeps.trans ?_ State.raise_keeps
    exact Keeps.of rfl

theorem State.foothillDown_keeps {s : State} {b1 : Nat} :
    Keeps s (State.foothillDown s b1) := by
  delta State.foothillDown
  extract_lets v0
  clear_value v0
  split
  · exact Keeps.refl _
  · refine Keeps.trans ?_ State.raise_keeps
    exact Keeps.of rfl

theorem State.foothillUp_keeps {s : State} {b1 : Nat} :
    Keeps s (State.foothillUp s b1) := by
  delta State.foothillUp
  split
  · extract_lets v4
    clear_value v4
    exact Keeps.of rfl
  · exact Keeps.refl _

theorem State.rcClear_keeps {s : State} {b1 : RegName} {b2 b3 : Nat} :
    Keeps s (State.rcClear s b1 b2 b3) := by
  delta State.rcClear
  extract_lets v0
  clear_value v0
  split
  · exact Keeps.of rfl
  · exact State.rput_keeps

theorem State.readWhole_keeps {s : State} {b1 : Path} {b2 : RegName} {b3 b4 : Nat} :
    KeepsSnd s (State.readWhole s b1 b2 b3 b4) := by
  delta State.readWhole
  refine KeepsSnd.mk ?_
  split
  · exact State.rcClear_keeps
  · exact Keeps.refl _

theorem State.readHalf_keeps {s : State} {b1 : Path} {b2 : RegName} {b3 b4 : Nat} {b5 : Bool} :
    KeepsSnd s (State.readHalf s b1 b2 b3 b4 b5) := by
  delta State.readHalf
  extract_lets v0 v1
  have h2 : KeepsSnd s v0 := by
    unfold v0
    refine KeepsSnd.trans ?_ State.readWhole_keeps
    exact Keeps.refl _
  clear_value v0
  have h3 : Keeps s v1 := by
    unfold v1
    show KeepsSnd _ _
    exact h2
  clear_value v1
  split
  · split
    · split
      · refine KeepsSnd.mk ?_
        exact Keeps.of rfl
      · refine KeepsSnd.mk ?_
        exact Keeps.refl _
    · refine KeepsSnd.mk ?_
      exact Keeps.refl _
  · refine KeepsSnd.mk ?_
    refine Keeps.upd (u := v1) rfl ?_
    exact h3

theorem State.busRead_keeps {s : State} {b1 : Path} {b2 b3 : Nat} :
    KeepsSnd s (State.busRead s b1 b2 b3) := by
  delta State.busRead
  split
  · refine KeepsSnd.mk ?_
    exact Keeps.refl _
  · split
    · refine KeepsSnd.mk ?_
      exact Keeps.refl _
    · split
      · refine KeepsSnd.trans ?_ State.readHalf_keeps
        exact Keeps.refl _
      · refine KeepsSnd.trans ?_ State.readWhole_keeps
        exact Keeps.refl _

theorem State.readOut_keeps {s : State} {b1 : Path} {b2 b3 : Nat} :
    Keeps s (State.readOut s b1 b2 b3) := by
  delta State.readOut
  extract_lets v0 v1
  have h2 : KeepsSnd s v0 := by
    unfold v0
    refine KeepsSnd.trans ?_ State.busRead_keeps
    exact Keeps.refl _
  clear_value v0
  have h3 : Keeps s v1 := by
    unfold v1
    show KeepsSnd _ _
    exact h2
  clear_value v1
  refine Keeps.upd (u := v1) rfl ?_
  exact h3

theorem State.logReg_keeps {s : State} {b1 : Path} {b2 : Nat} {b3 : RegName} {b4 b5 b6 b7 : Nat} :
    Keeps s (State.logReg s b1 b2 b3 b4 b5 b6 b7) := by
  delta State.logReg
  exact State.logAdd_keeps

theorem State.refuse_keeps {s : State} {b1 : Path} {b2 b3 : Nat} :
    Keeps s (State.refuse s b1 b2 b3) := by
  delta State.refuse
  split
  · exact State.logReg_keeps
  · exact State.logAdd_keeps

theorem orRefuse_keeps {s : State} {o : Option State} (h : KeepsOpt s o) : KeepsTwo s (orRefuse s o) := by
  unfold orRefuse
  cases o with
  | none => exact KeepsTwo.error (Keeps.refl _)
  | some t => exact KeepsTwo.ok (h t rfl)

theorem State.ctxCtrl_keeps {s : State} {b1 : Path} {b2 b3 b4 : Nat} : KeepsTwo s (State.ctxCtrl s b1 b2 b3 b4) := by
  unfold State.ctxCtrl
  simp only
  split
  · exact KeepsTwo.ok (Keeps.refl _)
  · split
    · exact KeepsTwo.error State.issue_keeps
    · split
      · split
        · exact KeepsTwo.error State.issue_keeps
        · exact KeepsTwo.ok State.ctxGo_keeps
      · split
        · exact orRefuse_keeps State.ctxStop_keeps
        · exact orRefuse_keeps State.ctxClear_keeps

theorem State.chCtrl_keeps {s : State} {b1 : Path} {b2 b3 b4 : Nat} : KeepsTwo s (State.chCtrl s b1 b2 b3 b4) := by
  unfold State.chCtrl
  split
  · split
    · exact KeepsTwo.error State.issue_keeps
    · exact KeepsTwo.ok State.startChain_keeps
  · split
    · split
      · exact KeepsTwo.error (Keeps.refl _)
      · exact orRefuse_keeps State.abortChan_keeps
    · split
      · exact orRefuse_keeps State.clearChan_keeps
      · exact KeepsTwo.ok (Keeps.refl _)

theorem State.unitCtrl_keeps {s : State} {b1 b2 : Nat} :
    KeepsTwo s (State.unitCtrl s b1 b2) := by
  delta State.unitCtrl
  split
  · split
    · refine KeepsTwo.error ?_
      exact State.issue_keeps
    · split
      · refine KeepsTwo.ok ?_
        exact State.armUnit_keeps
      · refine KeepsTwo.error ?_
        exact Keeps.refl _
  · split
    · refine KeepsTwo.ok ?_
      exact State.disarmUnit_keeps
    · refine KeepsTwo.ok ?_
      exact Keeps.refl _

theorem State.collCtrl_keeps {s : State} {b1 : Nat} :
    KeepsTwo s (State.collCtrl s b1) := by
  delta State.collCtrl
  split
  · split
    · refine KeepsTwo.ok ?_
      exact State.collArm_keeps
    · refine KeepsTwo.error ?_
      exact Keeps.refl _
  · split
    · refine KeepsTwo.ok ?_
      exact State.collDisarm_keeps
    · refine KeepsTwo.ok ?_
      exact Keeps.refl _

theorem State.ledgerCtrl_keeps {s : State} {b1 : Path} {b2 : Nat} {b3 : List Byte} :
    KeepsTwo s (State.ledgerCtrl s b1 b2 b3) := by
  delta State.ledgerCtrl
  extract_lets v0 v1
  clear_value v0 v1
  split
  · refine KeepsTwo.error ?_
    exact State.issue_keeps
  · split
    · refine KeepsTwo.ok ?_
      exact State.ledgerWithdraw_keeps
    · refine KeepsTwo.ok ?_
      refine Keeps.trans ?_ State.startOfWork_keeps
      exact State.ledgerSubmit_keeps

theorem State.modelCtrl_keeps {s : State} {b1 b2 : Nat} {b3 b4 : List Byte} :
    KeepsTwo s (State.modelCtrl s b1 b2 b3 b4) := by
  delta State.modelCtrl
  extract_lets v0
  clear_value v0
  split
  · refine KeepsTwo.ok ?_
    exact State.modelDefine_keeps
  · split
    · refine KeepsTwo.ok ?_
      exact State.modelUndefine_keeps
    · refine KeepsTwo.error ?_
      exact Keeps.refl _
  · refine KeepsTwo.ok ?_
    exact State.modelSwap_keeps
  · refine KeepsTwo.ok ?_
    exact State.modelSwap_keeps

theorem State.debugSet_keeps {s : State} {b1 : Path} {b2 : Nat} :
    KeepsTwo s (State.debugSet s b1 b2) := by
  delta State.debugSet
  extract_lets v0
  clear_value v0
  split
  · refine KeepsTwo.error ?_
    exact Keeps.refl _
  · refine KeepsTwo.ok ?_
    refine Keeps.trans ?_ State.cairnSet_keeps
    refine Keeps.trans ?_ State.raise_keeps
    exact State.tally1_keeps

theorem State.groupCtrl_keeps {s : State} {b1 b2 : Nat} :
    Keeps s (State.groupCtrl s b1 b2) := by
  delta State.groupCtrl
  extract_lets v0
  have h1 : Keeps s v0 := by
    unfold v0
    exact State.alnStart_keeps
  clear_value v0
  split
  · split
    · refine Keeps.trans ?_ State.startOfWork_keeps
      exact h1
    · exact h1
  · split
    · exact State.alnStop_keeps
    · exact Keeps.refl _

theorem State.regCommand_keeps {s : State} {b1 : Path} {b2 : RegName} {b3 b4 b5 : Nat} {b6 b7 : List Byte} :
    KeepsTwo s (State.regCommand s b1 b2 b3 b4 b5 b6 b7) := by
  unfold State.regCommand
  split
  · exact State.imgCommand_keeps
  · refine orRefuse_keeps ?_
    split
    · exact State.keyProgram_keeps
    · exact State.keyRevoke_keeps
  · exact orRefuse_keeps State.masterCmd_keeps
  · exact State.pwrCommand_keeps
  · exact KeepsTwo.ok State.setLogTime_keeps
  · exact State.ledgerCtrl_keeps
  · exact State.debugSet_keeps
  · exact KeepsTwo.ok State.cairnAdd_keeps
  · exact KeepsTwo.ok State.cairnSet_keeps
  · exact State.modelCtrl_keeps
  · refine KeepsTwo.ok ?_
    split
    · exact State.treeInit_keeps
    · exact State.treeFlush_keeps
  · refine KeepsTwo.ok ?_
    split
    · exact State.acctReset_keeps
    · exact Keeps.refl _
  · exact State.ctxCtrl_keeps
  · exact State.chCtrl_keeps
  · exact State.unitCtrl_keeps
  · refine KeepsTwo.ok ?_
    split
    · exact State.retrain_keeps
    · exact Keeps.refl _
  · exact State.collCtrl_keeps
  · split
    · split
      · exact KeepsTwo.error (Keeps.refl _)
      · exact KeepsTwo.ok State.beginEnumeration_keeps
    · exact KeepsTwo.ok (Keeps.refl _)
  · exact KeepsTwo.ok State.groupCtrl_keeps
  · exact KeepsTwo.ok (Keeps.refl _)

theorem State.writeWo_keeps {s : State} {b1 : Path} {b2 : RegName} {b3 b4 b5 b6 b7 : Nat} {b8 b9 : List Byte} :
    Keeps s (State.writeWo s b1 b2 b3 b4 b5 b6 b7 b8 b9) := by
  delta State.writeWo
  extract_lets v0
  clear_value v0
  split
  · exact State.refuse_keeps
  · split
    · exact State.logAdd_keeps
    · split
      · refine Keeps.trans ?_ State.refuse_keeps
        exact State.regCommand_keeps.2 _ (by assumption)
      · split
        · exact State.regCommand_keeps.1 _ (by assumption)
        · split
          · refine Keeps.trans ?_ State.setLogTime_keeps
            exact State.logReg_keeps
          · refine Keeps.trans ?_ State.logReg_keeps
            exact State.regCommand_keeps.1 _ (by assumption)

theorem State.writeW1c_keeps {s : State} {b1 : Path} {b2 : RegName} {b3 b4 b5 b6 : Nat} :
    Keeps s (State.writeW1c s b1 b2 b3 b4 b5 b6) := by
  delta State.writeW1c
  extract_lets v0 v1
  clear_value v0 v1
  refine Keeps.trans ?_ State.logReg_keeps
  exact State.rputN_keeps

theorem State.writeRw_keeps {s : State} {b1 : Path} {b2 : RegName} {b3 b4 b5 b6 b7 : Nat} :
    Keeps s (State.writeRw s b1 b2 b3 b4 b5 b6 b7) := by
  delta State.writeRw
  extract_lets v0 v1 v2 v3 v4
  clear_value v0 v1 v2
  have h5 : Keeps s v3 := by
    unfold v3
    exact State.rwStore_keeps
  clear_value v3
  have h6 : Keeps s v4 := by
    unfold v4
    split
    · refine Keeps.trans ?_ State.startOfWork_keeps
      exact h5
    · exact h5
  clear_value v4
  split
  · exact State.refuse_keeps
  · split
    · exact h6
    · split
      · refine Keeps.trans ?_ State.logReg_keeps
        exact h6
      · refine Keeps.trans ?_ State.logReg_keeps
        exact h6

theorem State.writeWhole_keeps {s : State} {b1 : Path} {b2 : RegName} {b3 b4 b5 b6 b7 : Nat} {b8 b9 : List Byte} :
    Keeps s (State.writeWhole s b1 b2 b3 b4 b5 b6 b7 b8 b9) := by
  delta State.writeWhole
  split
  · exact State.refuse_keeps
  · exact State.refuse_keeps
  · exact State.writeW1c_keeps
  · exact State.writeWo_keeps
  · exact State.writeRw_keeps

theorem State.busWrite_keeps {s : State} {b1 : Path} {b2 b3 b4 b5 : Nat} {b6 b7 : List Byte} :
    Keeps s (State.busWrite s b1 b2 b3 b4 b5 b6 b7) := by
  delta State.busWrite
  split
  · exact Keeps.refl _
  · split
    · exact State.refuse_keeps
    · split
      · refine Keeps.trans ?_ State.refuse_keeps
        exact State.issue_keeps
      · split
        · exact State.refuse_keeps
        · split
          · split
            · split
              · split
                · refine Keeps.trans ?_ State.writeWhole_keeps
                  exact Keeps.of rfl
                · exact State.refuse_keeps
              · exact State.refuse_keeps
            · exact Keeps.of rfl
          · exact State.writeWhole_keeps

theorem State.regWrite_keeps {s : State} {b1 : Path} {b2 : RegName} {b3 b4 b5 b6 : Nat} {b7 b8 : List Byte} :
    Keeps s (State.regWrite s b1 b2 b3 b4 b5 b6 b7 b8) := by
  delta State.regWrite
  exact State.busWrite_keeps

theorem State.retrainBy_keeps {s : State} {b1 : Option Path} {b2 : Nat} :
    Keeps s (State.retrainBy s b1 b2) := by
  delta State.retrainBy
  split
  · exact State.regWrite_keeps
  · exact State.retrain_keeps

theorem State.expireAll_keeps {s : State} :
    Keeps s (State.expireAll s) := by
  delta State.expireAll
  extract_lets v0
  have h1 : KeepsSnd s v0 := by
    unfold v0
    refine KeepsSnd.trans ?_ State.parkExpire_keeps
    exact Keeps.refl _
  clear_value v0
  refine Keeps.trans ?_ (Keeps.foldl (fun x2 a3 => ?_) _ _)
  · show KeepsSnd _ _
    exact h1
  · exact State.expireReq_keeps

theorem State.wrapActions_keeps {s : State} :
    Keeps s (State.wrapActions s) := by
  delta State.wrapActions
  extract_lets v0 v1
  have h2 : Keeps s v0 := by
    unfold v0
    refine Keeps.trans ?_ State.scalerWrap_keeps
    exact State.partialWrap_keeps
  clear_value v0
  have h3 : Keeps s v1 := by
    unfold v1
    refine Keeps.trans ?_ State.parkWrap_keeps
    refine Keeps.trans ?_ State.expireAll_keeps
    exact h2
  clear_value v1
  refine Keeps.trans ?_ State.servingWrap_keeps
  refine Keeps.trans ?_ State.collWrap_keeps
  refine Keeps.trans ?_ State.trainWrap_keeps
  exact h3

theorem State.wrapAt_goes {s : State} {b1 : Nat} :
    Goes s (State.wrapAt s b1) := by
  delta State.wrapAt
  extract_lets v0 v1 v2 v3 v4 v5 v6
  clear_value v1
  have h7 : Goes s v5 := by
    unfold v5
    refine Goes.trans ?_ State.tally1_keeps.goes
    exact Goes.of rfl
  clear_value v5
  have h8 : Goes s v6 := by
    unfold v6
    split
    · refine Goes.trans ?_ State.logAdd_keeps.goes
      exact h7
    · exact by assumption
  clear_value v6
  refine Goes.trans ?_ State.wrapActions_keeps.goes
  exact h8

theorem State.forward_goes {b0 b1 : Nat} {s : State} :
    Goes s (State.forward b0 b1 s) := by
  fun_induction State.forward b0 b1 s
  · exact Goes.refl _
  · rename_i r10 r11 r12
    clear_value r11
    extract_lets v13
    exact Goes.of rfl
  · rename_i r20 r21 r22
    clear_value r20
    refine Goes.trans ?_ (by assumption)
    exact State.wrapAt_goes

theorem State.runPeriods_goes {b0 b1 : Nat} {s : State} :
    Goes s (State.runPeriods b0 b1 s) := by
  fun_induction State.runPeriods b0 b1 s
  · exact Goes.refl _
  · rename_i r11 r12
    clear_value r11
    exact Goes.refl _
  · rename_i r18 r19 r20 r21 r22 r23 r24 r25
    clear_value r19 r21
    have h26 : Keeps r18 r22 := by
      unfold r22
      extract_lets v27
      exact Keeps.of rfl
    clear_value r22 r23 r24
    extract_lets v28
    refine Goes.upd (u := r22) rfl ?_
    exact h26.goes
  · rename_i r34 r35 r36 r37 r38 r39 r40 r41 r42
    clear_value r35 r37
    have h43 : Keeps r34 r38 := by
      unfold r38
      extract_lets v44
      exact Keeps.of rfl
    clear_value r38 r39 r40
    refine Goes.trans ?_ (by assumption)
    refine Goes.trans ?_ State.wrapAt_goes
    exact h43.goes

theorem State.sscAdvance_keeps {s : State} {b1 : Nat} :
    Keeps s (State.sscAdvance s b1) := by
  delta State.sscAdvance
  refine Keeps.trans ?_ (Keeps.foldl (fun x0 a1 => ?_) _ _)
  · exact Keeps.refl _
  · extract_lets v2 v3
    clear_value v2 v3
    split
    · exact Keeps.refl _
    · exact Keeps.of rfl

theorem State.correct_goes {s : State} {b1 : Int} :
    Goes s (State.correct s b1) := by
  delta State.correct
  extract_lets v0 v1
  clear_value v0
  split
  · refine Goes.trans ?_ State.forward_goes
    exact Goes.of rfl
  · exact Goes.of rfl

theorem State.slip_keeps {s : State} {b1 : Int} {b2 : Nat} :
    Keeps s (State.slip s b1 b2) := by
  delta State.slip
  extract_lets v0
  have h1 : Keeps s v0 := by
    unfold v0
    refine Keeps.trans ?_ State.observe_keeps
    refine Keeps.trans ?_ State.tally1_keeps
    exact State.count_keeps
  clear_value v0
  refine Keeps.trans ?_ State.raise_keeps
  refine Keeps.trans ?_ State.logAdd_keeps
  exact h1

theorem State.loadPhase_goes {s : State} {b1 b2 : Nat} :
    Goes s (State.loadPhase s b1 b2) := by
  delta State.loadPhase
  extract_lets v0
  exact Goes.of rfl

theorem State.keepAges_keeps {s : State} {b1 : Nat} :
    Keeps s (State.keepAges s b1) := by
  delta State.keepAges
  exact State.shiftAges_keeps

theorem State.takeHeld_keeps {s : State} {b1 : Bool} :
    Keeps s (State.takeHeld s b1) := by
  delta State.takeHeld
  extract_lets v0 v1 v2
  clear_value v1
  have h3 : Keeps s v2 := by
    unfold v2
    exact Keeps.of rfl
  clear_value v2
  split
  · exact Keeps.of rfl
  · split
    · split
      · refine Keeps.trans ?_ State.issue_keeps
        refine Keeps.trans ?_ State.raise_keeps
        exact h3
      · exact h3
    · exact Keeps.of rfl

theorem State.takePnext_goes {s : State} {b1 : Frame} :
    Goes s (State.takePnext s b1) := by
  delta State.takePnext
  extract_lets v0
  split
  · exact Goes.refl _
  · split
    · exact Goes.of rfl
    · exact Goes.of rfl

theorem State.reachLocked_keeps {s : State} :
    Keeps s (State.reachLocked s) := by
  delta State.reachLocked
  extract_lets v0 v1
  have h2 : Keeps s v1 := by
    unfold v1
    exact Keeps.of rfl
  clear_value v1
  refine Keeps.trans ?_ State.firstLock_keeps
  refine Keeps.trans ?_ State.updateHold_keeps
  exact h2

theorem State.discontinuity_goes {s : State} {b1 : Frame} : Goes s (State.discontinuity s b1) := by
  have h (u : State) (n : Nat) (hu : Goes s u) : Goes s (if u.stepPhase < n then u.keepAges n else u) := by
    split
    · exact hu.trans State.keepAges_keeps.goes
    · exact hu
  have k (u : State) (hu : Goes s u) : Goes s { u with cad := { u.cad with suspect := none } } := hu.trans (Goes.of rfl)
  unfold State.discontinuity
  refine k _ (h _ _ ?_)
  refine Goes.trans ?_ State.loadPhase_goes
  refine Keeps.goes ?_
  refine Keeps.trans ?_ State.raise_keeps
  refine Keeps.trans ?_ State.issue_keeps
  exact State.endAllScheduled_keeps

theorem State.judge_goes {s : State} {b1 : Frame} :
    Goes s (State.judge s b1) := by
  delta State.judge
  extract_lets v0 v1 v2 v3 v4
  clear_value v0 v1 v2 v3
  split
  · refine Goes.trans ?_ State.correct_goes
    exact Goes.of rfl
  · split
    · refine Goes.trans ?_ State.slip_keeps.goes
      refine Goes.trans ?_ State.correct_goes
      exact Goes.of rfl
    · split
      · split
        · exact State.discontinuity_goes
        · exact Goes.of rfl
      · exact Goes.of rfl

theorem State.frameLocked_goes {s : State} {b1 : Frame} :
    Goes s (State.frameLocked s b1) := by
  delta State.frameLocked
  extract_lets v0 v1 v2 v3
  have h4 : Keeps s v1 := by
    unfold v1
    exact Keeps.of rfl
  clear_value v1
  have h5 : Goes s v2 := by
    unfold v2
    refine Goes.trans ?_ State.takePnext_goes
    exact h4.goes
  clear_value v2
  have h6 : Goes s v3 := by
    unfold v3
    refine Goes.trans ?_ State.takeHeld_keeps.goes
    exact h5
  clear_value v3
  split
  · refine Goes.trans ?_ State.takeHeld_keeps.goes
    refine Goes.trans ?_ State.discontinuity_goes
    exact h4.goes
  · split
    · exact by assumption
    · refine Goes.trans ?_ State.judge_goes
      exact h6

theorem State.startLocking_goes {s : State} {b1 : Frame} :
    Goes s (State.startLocking s b1) := by
  delta State.startLocking
  extract_lets v0 v1 v2 v3 v4 v5 v6 v7 v8
  clear_value v0 v1 v2
  have h9 : Keeps s v4 := by
    unfold v4
    exact Keeps.of rfl
  clear_value v4
  have h10 : Goes s v6 := by
    unfold v6
    split
    · refine Goes.upd (u := v4) rfl ?_
      exact h9.goes
    · refine Goes.trans ?_ State.keepAges_keeps.goes
      refine Goes.trans ?_ State.loadPhase_goes
      exact h9.goes
  clear_value v6
  have h19 : Goes s v7 := by
    unfold v7
    refine Goes.trans ?_ State.takePnext_goes
    exact h10
  clear_value v7
  refine Goes.upd (u := v7) rfl ?_
  exact h19

theorem State.leaveLost_goes {s : State} {b1 : Frame} {b2 b3 b4 : Nat} :
    Goes s (State.leaveLost s b1 b2 b3 b4) := by
  delta State.leaveLost
  extract_lets v0 v1 v2 v3
  have h4 : Goes s v1 := by
    unfold v1
    exact Goes.of rfl
  clear_value v1 v2 v3
  split
  · split
    · refine Goes.trans ?_ State.correct_goes
      exact h4
    · refine Goes.trans ?_ State.discontinuity_goes
      exact h4
  · split
    · refine Goes.trans ?_ State.slip_keeps.goes
      refine Goes.trans ?_ State.correct_goes
      exact h4
    · refine Goes.trans ?_ State.correct_goes
      exact h4

theorem State.frameLocking_goes {s : State} {b1 : Frame} :
    Goes s (State.frameLocking s b1) := by
  delta State.frameLocking
  extract_lets v0 v1 v2 v3
  clear_value v0
  have h4 : Goes s v1 := by
    unfold v1
    refine Goes.trans ?_ State.takeHeld_keeps.goes
    exact State.takePnext_goes
  clear_value v1
  have h5 : Goes s v3 := by
    unfold v3
    refine Goes.upd (u := v1) rfl ?_
    exact h4
  clear_value v3
  split
  · extract_lets v12
    clear_value v12
    split
    · exact State.startLocking_goes
    · split
      · exact h5
      · split
        · refine Goes.trans ?_ State.reachLocked_keeps.goes
          refine Goes.trans ?_ State.leaveLost_goes
          exact h5
        · refine Goes.trans ?_ State.reachLocked_keeps.goes
          exact h5

theorem State.conflict_keeps {s : State} :
    Keeps s (State.conflict s) := by
  delta State.conflict
  extract_lets v0 v1
  have h2 : Keeps s v0 := by
    unfold v0
    refine Keeps.trans ?_ State.issue_keeps
    exact State.raise_keeps
  clear_value v0
  refine Keeps.upd (u := v0) rfl ?_
  exact h2

theorem State.frameBad_keeps {s : State} {b1 : Frame} :
    Keeps s (State.frameBad s b1) := by
  delta State.frameBad
  extract_lets v0 v1 v2 v3 v4
  have h5 : Keeps s v0 := by
    unfold v0
    exact State.count_keeps
  clear_value v0
  have h6 : Keeps s v2 := by
    unfold v2
    refine Keeps.upd (u := v0) rfl ?_
    exact h5
  clear_value v2
  have h7 : Keeps s v4 := by
    unfold v4
    refine Keeps.upd (u := v2) rfl ?_
    exact h6
  clear_value v4
  split
  · split
    · refine Keeps.trans ?_ State.conflict_keeps
      exact h7
    · exact by assumption
  · exact by assumption

theorem State.frameGood_goes {s : State} {b1 : Frame} : Goes s (State.frameGood s b1) := by
  have key (u : State) (hu : Goes s u) : Goes s (if u.cad.master then if b1.rank ≠ u.rankOf then u.conflict else u
      else match u.cad.state with
        | .acquire => if b1.pnext then u else u.startLocking b1
        | .lost => u.startLocking b1
        | .locking => u.frameLocking b1
        | .locked => u.frameLocked b1
        | .flywheel => u.frameLocked b1) := by
    split
    · split
      · exact hu.trans State.conflict_keeps.goes
      · exact hu
    · split
      · split
        · exact hu
        · exact hu.trans State.startLocking_goes
      · exact hu.trans State.startLocking_goes
      · exact hu.trans State.frameLocking_goes
      · exact hu.trans State.frameLocked_goes
      · exact hu.trans State.frameLocked_goes
  exact key _ (Goes.of rfl)

theorem State.receiveFrame_goes {s : State} {b1 : List Byte} {b2 : Bool} :
    Goes s (State.receiveFrame s b1 b2) := by
  delta State.receiveFrame
  extract_lets v0
  clear_value v0
  split
  · exact Goes.refl _
  · split
    · exact State.frameBad_keeps.goes
    · split
      · refine Goes.trans ?_ State.frameBad_keeps.goes
        refine Goes.trans ?_ State.issue_keeps.goes
        exact State.raise_keeps.goes
      · exact State.frameGood_goes

theorem State.driveFrame_keeps {s : State} {b1 : Frame} {b2 : Bool} :
    Keeps s (State.driveFrame s b1 b2) := by
  delta State.driveFrame
  extract_lets v0
  clear_value v0
  refine Keeps.trans ?_ State.emit_keeps
  exact Keeps.of rfl

theorem State.repeatFrame_keeps {s : State} :
    Keeps s (State.repeatFrame s) := by
  delta State.repeatFrame
  split
  · exact Keeps.refl _
  · extract_lets v8 v9
    have h10 : Keeps s v9 := by
      unfold v9
      exact Keeps.of rfl
    clear_value v9
    split
    · refine Keeps.trans ?_ State.driveFrame_keeps
      exact h10
    · exact h10

theorem State.masterInstant_goes {s : State} :
    Goes s (State.masterInstant s) := by
  delta State.masterInstant
  extract_lets v0 v1 v2 v3 v4 v5
  clear_value v1
  have h6 : Goes s v5 := by
    unfold v5
    exact Goes.of rfl
  clear_value v5
  split
  · refine Goes.trans ?_ State.wrapActions_keeps.goes
    exact h6
  · exact h6

theorem State.sendFrame_goes {s : State} :
    Goes s (State.sendFrame s) := by
  delta State.sendFrame
  extract_lets v0 v1
  have h2 : Goes s v0 := by
    unfold v0
    exact State.masterInstant_goes
  clear_value v0 v1
  split
  · refine Goes.trans ?_ State.driveFrame_keeps.goes
    exact h2
  · exact Goes.refl _

theorem State.frameLoss_keeps {s : State} :
    Keeps s (State.frameLoss s) := by
  delta State.frameLoss
  split
  · exact Keeps.refl _
  · split
    · extract_lets v6
      split
      · exact Keeps.of rfl
      · exact Keeps.of rfl
    · extract_lets v11
      exact Keeps.of rfl
    · exact Keeps.refl _

theorem State.backoffEnd_goes {s : State} :
    Goes s (State.backoffEnd s) := by
  delta State.backoffEnd
  extract_lets v0 v1 v2
  split
  · exact Goes.refl _
  · refine Goes.trans ?_ State.firstLock_keeps.goes
    refine Goes.trans ?_ State.keepAges_keeps.goes
    refine Goes.trans ?_ State.updateHold_keeps.goes
    exact Goes.of rfl

theorem State.cadenceLost_keeps {s : State} :
    Keeps s (State.cadenceLost s) := by
  delta State.cadenceLost
  extract_lets v0 v1
  have h2 : Keeps s v1 := by
    unfold v1
    exact Keeps.of rfl
  clear_value v1
  split
  · refine Keeps.trans ?_ State.updateHold_keeps
    refine Keeps.trans ?_ State.issue_keeps
    refine Keeps.trans ?_ State.raise_keeps
    exact h2
  · exact Keeps.refl _

theorem State.holdFall_keeps {s : State} :
    Keeps s (State.holdFall s) := by
  delta State.holdFall
  extract_lets v0
  exact Keeps.of rfl

theorem State.holdRise_keeps {s : State} :
    Keeps s (State.holdRise s) := by
  delta State.holdRise
  extract_lets v0
  exact Keeps.of rfl

theorem State.holdTimeout_keeps {s : State} {b1 : Item} :
    Keeps s (State.holdTimeout s b1) := by
  delta State.holdTimeout
  split
  · split
    · refine Keeps.trans ?_ State.raise_keeps
      exact State.replaceExpiry_keeps
    · exact Keeps.refl _
  · split
    · refine Keeps.trans ?_ State.raise_keeps
      refine Keeps.trans ?_ State.endItem_keeps
      refine Keeps.trans ?_ State.issue_keeps
      exact State.holdEnd_keeps
    · exact Keeps.refl _

theorem State.takePacket_keeps {s : State} {b1 b2 b3 : Nat} :
    Keeps s (State.takePacket s b1 b2 b3) := by
  delta State.takePacket
  extract_lets v0 v1
  clear_value v0 v1
  exact State.setPort_keeps

theorem State.forwardPacket_keeps {s : State} {b1 : Packet} :
    Keeps s (State.forwardPacket s b1) := by
  delta State.forwardPacket
  split
  · split
    · exact State.enqueue_keeps
    · exact State.bounce_keeps
  · exact State.bounce_keeps

theorem State.reserveWritten_keeps {s : State} {b1 b2 : Nat} :
    Keeps s (State.reserveWritten s b1 b2) := by
  delta State.reserveWritten
  split
  · exact Keeps.refl _
  · extract_lets v7 v8
    clear_value v7 v8
    split
    · show KeepsSnd _ _
      refine KeepsSnd.trans ?_ State.makeHold_keeps
      exact Keeps.of rfl
    · exact Keeps.of rfl

theorem State.applyRequest_keeps {s : State} {b1 : Packet} :
    KeepsSnd s (State.applyRequest s b1) := by
  delta State.applyRequest
  extract_lets v0 v1 v2 v3 v4 v5 v6
  clear_value v0 v1 v2 v3 v4 v5 v6
  split
  · split
    · refine KeepsSnd.mk ?_
      exact Keeps.refl _
    · refine KeepsSnd.mk ?_
      exact Keeps.refl _
  · split
    · refine KeepsSnd.mk ?_
      refine Keeps.trans ?_ State.reserveWritten_keeps
      exact State.wr_keeps
    · refine KeepsSnd.mk ?_
      exact Keeps.refl _
  · split
    · refine KeepsSnd.mk ?_
      exact State.cairnPut_keeps
    · refine KeepsSnd.mk ?_
      exact Keeps.refl _
  · split
    · refine KeepsSnd.mk ?_
      exact KeepsSnd.of State.collData_keeps (by assumption)
    · refine KeepsSnd.mk ?_
      exact KeepsSnd.of State.collData_keeps (by assumption)
    · refine KeepsSnd.mk ?_
      exact KeepsSnd.of State.collData_keeps (by assumption)
  · split
    · refine KeepsSnd.mk ?_
      exact Keeps.refl _
    · refine KeepsSnd.mk ?_
      exact Keeps.refl _
    · split
      · refine KeepsSnd.mk ?_
        exact Keeps.refl _
      · split
        · refine KeepsSnd.mk ?_
          exact Keeps.refl _
        · split
          · refine KeepsSnd.mk ?_
            exact Keeps.refl _
          · refine KeepsSnd.mk ?_
            exact Keeps.of rfl

theorem State.takeRequest_keeps {s : State} {b1 : Packet} :
    Keeps s (State.takeRequest s b1) := by
  delta State.takeRequest
  split
  · rename_i r3 r4
    extract_lets v5 v6
    clear_value v5
    have h7 : Keeps s v6 := by
      unfold v6
      refine Keeps.upd (u := r3) rfl ?_
      exact KeepsSnd.of State.applyRequest_keeps (by assumption)
    clear_value v6
    refine Keeps.trans ?_ State.sendPacket_keeps
    exact h7

theorem State.drainReorder_keeps {s : State} {b1 b2 : Nat} :
    Keeps s (State.drainReorder s b1 b2) := by
  fun_induction State.drainReorder s b1 b2
  · exact Keeps.refl _
  · exact Keeps.refl _
  · rename_i r7 r8 r9 r10 r11 r12
    have h13 : Keeps r7 r11 := by
      unfold r11
      extract_lets v14
      clear_value v14
      exact Keeps.of rfl
    clear_value r11
    refine Keeps.trans ?_ (by assumption)
    refine Keeps.trans ?_ State.takeRequest_keeps
    exact h13

theorem State.requestIn_keeps {s : State} {b1 : Packet} :
    Keeps s (State.requestIn s b1) := by
  delta State.requestIn
  extract_lets v0 v1 v2
  clear_value v0 v1 v2
  split
  · refine Keeps.trans ?_ State.drainReorder_keeps
    exact State.takeRequest_keeps
  · split
    · split
      · exact Keeps.refl _
      · exact Keeps.of rfl
    · split
      · exact State.sendPacket_keeps
      · split
        · exact State.sendPacket_keeps
        · exact Keeps.refl _

theorem State.requestPacket_keeps {s : State} {b1 b2 : Nat} :
    Keeps s (State.requestPacket s b1 b2) := by
  delta State.requestPacket
  split
  · exact Keeps.refl _
  · extract_lets v8
    have h9 : Keeps s v8 := by
      unfold v8
      exact State.takePacket_keeps
    clear_value v8
    split
    · refine Keeps.trans ?_ State.requestIn_keeps
      exact h9
    · refine Keeps.trans ?_ State.forwardPacket_keeps
      exact h9

theorem State.signalFailed_keeps {s : State} {b1 : AddSrc} {b2 : Nat} :
    Keeps s (State.signalFailed s b1 b2) := by
  delta State.signalFailed
  extract_lets v0
  have h1 : Keeps s v0 := by
    unfold v0
    exact State.raise_keeps
  clear_value v0
  split
  · split
    · refine Keeps.trans ?_ State.stopChan_keeps
      exact h1
    · exact h1
  · refine Keeps.trans ?_ State.issue_keeps
    refine Keeps.trans ?_ State.raise_keeps
    refine Keeps.trans ?_ State.count_keeps
    exact h1

theorem State.signalDone_keeps {s : State} {b1 : AddSrc} :
    Keeps s (State.signalDone s b1) := by
  delta State.signalDone
  extract_lets v0
  have h1 : Keeps s v0 := by
    unfold v0
    exact State.count_keeps
  clear_value v0
  split
  · extract_lets v6
    clear_value v6
    split
    · refine Keeps.trans ?_ State.nextDesc_keeps
      refine Keeps.trans ?_ State.setChan_keeps
      exact h1
    · exact h1
  · exact h1

theorem State.requestFailed_keeps {s : State} {b1 : FabReq} {b2 : Nat} :
    Keeps s (State.requestFailed s b1 b2) := by
  delta State.requestFailed
  extract_lets v0
  have h1 : Keeps s v0 := by
    unfold v0
    exact State.dropReq_keeps
  clear_value v0
  split
  · refine Keeps.trans ?_ State.signalFailed_keeps
    exact h1
  · split
    · refine Keeps.trans ?_ State.stopChan_keeps
      refine Keeps.trans ?_ State.faultAt_keeps
      exact h1
    · refine Keeps.trans ?_ State.failChan_keeps
      exact h1
  · refine Keeps.trans ?_ State.failChan_keeps
    exact h1
  · refine Keeps.trans ?_ State.failChan_keeps
    exact h1
  · split
    · refine Keeps.trans ?_ State.collFail_keeps
      exact h1
    · exact h1

theorem State.answerIn_keeps {s : State} {b1 : Packet} :
    Keeps s (State.answerIn s b1) := by
  delta State.answerIn
  split
  · exact Keeps.refl _
  · extract_lets v7
    have h8 : Keeps s v7 := by
      unfold v7
      exact State.dropReq_keeps
    clear_value v7
    split
    · exact Keeps.refl _
    · split
      · split
        · refine Keeps.trans ?_ State.signalDone_keeps
          exact h8
        · refine Keeps.trans ?_ State.signalFailed_keeps
          exact h8
      · refine Keeps.trans ?_ State.chanData_keeps
        exact h8
      · refine Keeps.trans ?_ State.chanAck_keeps
        exact h8
      · extract_lets v31
        clear_value v31
        split
        · refine Keeps.trans ?_ State.runOp_keeps
          refine Keeps.trans ?_ State.setChan_keeps
          exact h8
        · exact h8
      · split
        · refine Keeps.trans ?_ State.collSkipped_keeps
          exact h8
        · exact h8

theorem State.responsePacket_keeps {s : State} {b1 b2 : Nat} :
    Keeps s (State.responsePacket s b1 b2) := by
  delta State.responsePacket
  split
  · exact Keeps.refl _
  · extract_lets v8
    have h9 : Keeps s v8 := by
      unfold v8
      exact State.takePacket_keeps
    clear_value v8
    split
    · refine Keeps.trans ?_ State.answerIn_keeps
      exact h9
    · refine Keeps.trans ?_ State.forwardPacket_keeps
      exact h9

theorem State.failPacket_keeps {s : State} {b1 : Nat} :
    Keeps s (State.failPacket s b1) := by
  delta State.failPacket
  split
  · exact Keeps.refl _
  · extract_lets v8
    have h9 : Keeps s v8 := by
      unfold v8
      exact State.takePacket_keeps
    clear_value v8
    split
    · refine Keeps.trans ?_ State.forwardPacket_keeps
      exact h9
    · split
      · refine Keeps.trans ?_ State.collFailIn_keeps
        exact h9
      · split
        · split
          · refine Keeps.trans ?_ State.requestFailed_keeps
            exact h9
          · exact h9
        · exact h9

theorem State.bouncePacket_keeps {s : State} {b1 : Nat} :
    Keeps s (State.bouncePacket s b1) := by
  delta State.bouncePacket
  split
  · exact Keeps.refl _
  · extract_lets v8
    have h9 : Keeps s v8 := by
      unfold v8
      exact State.takePacket_keeps
    clear_value v8
    split
    · refine Keeps.trans ?_ State.forwardPacket_keeps
      exact h9
    · split
      · split
        · exact h9
        · split
          · exact h9
          · refine Keeps.trans ?_ State.resendReq_keeps
            exact h9
      · exact h9

theorem State.e2eResend_keeps {s : State} {b1 : Nat} :
    Keeps s (State.e2eResend s b1) := by
  delta State.e2eResend
  split
  · split
    · exact State.resendReq_keeps
    · exact Keeps.refl _
  · exact Keeps.refl _

theorem State.signalTimeout_keeps {s : State} {b1 : Nat} :
    Keeps s (State.signalTimeout s b1) := by
  delta State.signalTimeout
  split
  · split
    · refine Keeps.trans ?_ State.signalFailed_keeps
      exact State.dropReq_keeps
    · exact Keeps.refl _
  · exact Keeps.refl _

theorem State.chanWaitEnd_keeps {s : State} {b1 b2 : Nat} :
    Keeps s (State.chanWaitEnd s b1 b2) := by
  delta State.chanWaitEnd
  extract_lets v0
  clear_value v0
  split
  · refine Keeps.trans ?_ State.setChan_keeps
    exact State.cancelWait_keeps
  · exact Keeps.refl _

theorem State.phasePoint_keeps {s : State} {b1 : Item} :
    Keeps s (State.phasePoint s b1) := by
  delta State.phasePoint
  split
  · extract_lets v4
    clear_value v4
    split
    · exact State.ctxResume_keeps
    · exact Keeps.refl _
  · extract_lets v11
    clear_value v11
    split
    · refine Keeps.trans ?_ State.grant_keeps
      exact State.setChan_keeps
    · exact Keeps.refl _
  · split
    · exact Keeps.refl _
    · exact State.entryPoints_keeps
  · extract_lets v23
    clear_value v23
    split
    · refine Keeps.trans ?_ State.jobEligible_keeps
      exact State.setUnit_keeps
    · exact Keeps.refl _
  · split
    · split
      · refine Keeps.trans ?_ State.collStart_keeps
        exact State.setInst_keeps
      · exact Keeps.refl _
    · exact Keeps.refl _
  · exact State.intakePhase_keeps

theorem State.itemStart_keeps {s : State} {b1 : Item} :
    Keeps s (State.itemStart s b1) := by
  delta State.itemStart
  split
  · split
    · refine Keeps.trans ?_ State.ctxResume_keeps
      exact State.cancelWait_keeps
    · exact Keeps.refl _
  · refine Keeps.trans ?_ State.grant_keeps
    exact State.chanWaitEnd_keeps
  · split
    · exact Keeps.refl _
    · refine Keeps.trans ?_ State.regrowStart_keeps
      exact State.backStart_keeps
  · exact State.jobEligible_keeps
  · exact State.collStart_keeps
  · exact State.intakePhase_keeps

theorem State.ctxDeadline_keeps {s : State} {b1 b2 : Nat} :
    Keeps s (State.ctxDeadline s b1 b2) := by
  delta State.ctxDeadline
  extract_lets v0 v1 v2 v3
  clear_value v0 v1
  have h4 : Keeps s v2 := by
    unfold v2
    exact State.late_keeps
  clear_value v2 v3
  split
  · exact Keeps.refl _
  · split
    · exact Keeps.refl _
    · split
      · refine Keeps.trans ?_ State.setCtx_keeps
        exact h4
      · refine Keeps.trans ?_ State.ctxFault_keeps
        exact h4

theorem State.chanDeadline_keeps {s : State} {b1 b2 b3 : Nat} {b4 : Ext} :
    Keeps s (State.chanDeadline s b1 b2 b3 b4) := by
  delta State.chanDeadline
  extract_lets v0 v1 v2 v3 v4 v5
  clear_value v0 v1
  have h6 : Keeps s v2 := by
    unfold v2
    exact State.late_keeps
  clear_value v2 v3
  have h7 : Keeps s v4 := by
    unfold v4
    split
    · refine Keeps.trans ?_ State.partialOp_keeps
      exact h6
    · exact h6
  clear_value v4
  have h12 : Keeps s v5 := by
    unfold v5
    split
    · refine Keeps.trans ?_ State.moveFailed_keeps
      exact h7
    · exact h7
  clear_value v5
  split
  · exact Keeps.refl _
  · split
    · exact Keeps.refl _
    · split
      · refine Keeps.trans ?_ State.setChan_keeps
        exact h6
      · refine Keeps.trans ?_ State.stopChan_keeps
        exact h12

theorem State.deadline_keeps {s : State} {b1 : Item} {b2 : Nat} {b3 : Ext} :
    Keeps s (State.deadline s b1 b2 b3) := by
  delta State.deadline
  split
  · exact State.ctxDeadline_keeps
  · exact State.chanDeadline_keeps
  · exact State.scalerDeadline_keeps
  · exact State.updDeadline_keeps
  · exact State.collDeadline_keeps
  · exact State.intakeDeadline_keeps

theorem State.waitComplete_keeps {s : State} {b1 : Waiter} :
    Keeps s (State.waitComplete s b1) := by
  delta State.waitComplete
  split
  · split
    · refine Keeps.trans ?_ State.ctxResume_keeps
      exact State.cancelWait_keeps
    · exact Keeps.refl _
  · refine Keeps.trans ?_ State.grant_keeps
    exact State.chanWaitEnd_keeps
  · exact State.jobEligible_keeps
  · exact State.collStart_keeps
  · exact Keeps.refl _

theorem State.waitTimeout_keeps {s : State} {b1 : Waiter} :
    Keeps s (State.waitTimeout s b1) := by
  delta State.waitTimeout
  extract_lets v0
  have h1 : Keeps s v0 := by
    unfold v0
    split
    · exact State.ctxDeadline_keeps
    · exact State.chanDeadline_keeps
    · exact State.updDeadline_keeps
    · exact Keeps.refl _
  clear_value v0
  split
  · exact Keeps.refl _
  · split
    · exact by assumption
    · split
      · exact by assumption
      · split
        · refine Keeps.trans ?_ State.watchTimeout_keeps
          exact h1
        · refine Keeps.trans ?_ State.ctxFault_keeps
          refine Keeps.trans ?_ State.recordTimeout_keeps
          exact h1
        · refine Keeps.trans ?_ State.stopChan_keeps
          refine Keeps.trans ?_ State.recordTimeout_keeps
          exact h1
        · refine Keeps.trans ?_ State.endUpdate_keeps
          refine Keeps.trans ?_ State.recordTimeout_keeps
          exact h1
        · refine Keeps.trans ?_ State.collFail_keeps
          refine Keeps.trans ?_ State.recordTimeout_keeps
          exact h1

theorem State.startReady_keeps {s : State} {b1 : Nat} :
    Keeps s (State.startReady s b1) := by
  delta State.startReady
  refine Keeps.trans ?_ State.grant_keeps
  refine Keeps.trans ?_ (Keeps.foldl (fun x0 a1 => ?_) _ _)
  · exact Keeps.refl _
  · exact State.chanWaitEnd_keeps

theorem State.transferFailed_keeps {s : State} {b1 b2 : Nat} {b3 : Fail} {b4 b5 : Nat} {b6 : Ext} :
    Keeps s (State.transferFailed s b1 b2 b3 b4 b5 b6) := by
  delta State.transferFailed
  split
  · exact Keeps.refl _
  · split
    · exact State.chanTimeout_keeps
    · exact State.chainFailure_keeps

theorem State.tierRetry_keeps {s : State} {b1 b2 : Nat} {b3 : Option Fail} :
    Keeps s (State.tierRetry s b1 b2 b3) := by
  delta State.tierRetry
  split
  · extract_lets v6
    have h7 : Keeps s v6 := by
      unfold v6
      exact State.retryAccess_keeps
    clear_value v6
    split
    · refine Keeps.trans ?_ State.foothillUp_keeps
      exact h7
    · exact h7
  · refine Keeps.trans ?_ (Keeps.foldl (fun x19 a20 => ?_) _ _)
    · exact Keeps.refl _
    · exact State.reissue_keeps

theorem State.moveDone_keeps {s : State} {b1 b2 : Nat} {b3 : List Byte} :
    Keeps s (State.moveDone s b1 b2 b3) := by
  delta State.moveDone
  extract_lets v0
  clear_value v0
  split
  · exact Keeps.refl _
  · split
    · extract_lets v11
      have h12 : Keeps s v11 := by
        unfold v11
        exact State.pageMoved_keeps
      clear_value v11
      split
      · refine Keeps.trans ?_ State.pageNote_keeps
        exact h12
      · exact h12
    · exact State.moveComplete_keeps

theorem State.evictFailed_keeps {s : State} {b1 : Nat} {b2 : Evict} {b3 : Holding} {b4 : Nat} :
    Keeps s (State.evictFailed s b1 b2 b3 b4) := by
  delta State.evictFailed
  extract_lets v0 v1
  have h2 : Keeps s v0 := by
    unfold v0
    exact State.moveFailed_keeps
  clear_value v0
  have h3 : Keeps s v1 := by
    unfold v1
    refine Keeps.trans ?_ State.freeChan_keeps
    refine Keeps.trans ?_ State.stopChan_keeps
    exact h2
  clear_value v1
  refine Keeps.trans ?_ State.retryLegs_keeps
  refine Keeps.trans ?_ State.runVictims_keeps
  refine Keeps.trans ?_ State.evictEventOn_keeps
  exact h3

theorem State.evictEntry_keeps {s : State} {b1 b2 : Nat} {b3 : Evict} :
    Keeps s (State.evictEntry s b1 b2 b3) := by
  delta State.evictEntry
  split
  · extract_lets v10 v11 v12 v13 v14 v15
    clear_value v10 v11 v12
    have h16 : Keeps s v13 := by
      unfold v13
      split
      · exact State.useRegrow_keeps
      · exact Keeps.refl _
    clear_value v13
    have h19 : Keeps s v14 := by
      unfold v14
      refine Keeps.trans ?_ State.modRun_keeps
      exact h16
    clear_value v14
    have h20 : Keeps s v15 := by
      unfold v15
      split
      · exact h19
      · refine Keeps.trans ?_ State.outDone_keeps
        exact h19
    clear_value v15
    refine Keeps.trans ?_ State.entryPoints_keeps
    exact h20
  · exact Keeps.refl _

theorem State.evictMoved_keeps {s : State} {b1 : Nat} {b2 : Evict} {b3 : Holding} {b4 : List Byte} :
    KeepsExc s (State.evictMoved s b1 b2 b3 b4) := by
  delta State.evictMoved
  extract_lets v0
  have h1 : ∀ c0, Keeps c0 (v0 c0) := by
    unfold v0
    intro c0
    split
    · exact State.evictEntry_keeps
    · exact Keeps.refl _
  clear_value v0
  split
  · split
    · refine KeepsExc.ok ?_
      exact State.discardPage_keeps
    · refine KeepsExc.ok ?_
      refine Keeps.trans ?_ (h1 _)
      exact State.freeHold_keeps
  · split
    · exact KeepsExc.error
    · extract_lets v25 v26
      have h27 : Keeps s v25 := by
        unfold v25
        refine Keeps.trans ?_ State.arrived_keeps
        exact State.carryData_keeps _ _ (by assumption)
      clear_value v25
      have h28 : Keeps s v26 := by
        unfold v26
        split
        · split
          · exact by assumption
          · refine Keeps.trans ?_ State.setHold_keeps
            exact h27
        · split
          · refine Keeps.trans ?_ State.setNode_keeps
            exact h27
          · exact by assumption
        · exact by assumption
      clear_value v26
      refine KeepsExc.ok ?_
      refine Keeps.trans ?_ (h1 _)
      refine Keeps.trans ?_ State.pageNote_keeps
      exact h28

theorem State.evictRouteDone_keeps {s : State} {b1 : Nat} {b2 : Option Fail} {b3 : List Byte} :
    Keeps s (State.evictRouteDone s b1 b2 b3) := by
  delta State.evictRouteDone
  split
  · exact Keeps.refl _
  · extract_lets v7
    have h8 : ∀ c0, Keeps c0 (v7 c0) := by
      unfold v7
      intro c0
      extract_lets v9
      clear_value v9
      exact Keeps.of rfl
    clear_value v7
    split
    · split
      · refine Keeps.trans ?_ (h8 _)
        exact State.evictFailed_keeps
      · split
        · refine Keeps.trans ?_ (h8 _)
          exact State.evictFailed_keeps
        · refine Keeps.trans ?_ State.retryLegs_keeps
          refine Keeps.trans ?_ State.runVictims_keeps
          refine Keeps.trans ?_ State.evictEventOn_keeps
          refine Keeps.trans ?_ (h8 _)
          exact State.evictMoved_keeps _ (by assumption)
    · exact h8 _

theorem State.nextClk_keeps {s : State} :
    Keeps s (State.nextClk s) := by
  delta State.nextClk
  refine Keeps.trans ?_ State.evictPending_keeps
  refine Keeps.trans ?_ (Keeps.foldl (fun x0 a1 => ?_) _ _)
  · exact Keeps.refl _
  · exact State.mirrorScale_keeps

theorem State.elapse_goes {s : State} {b1 : Nat} : Goes s (State.elapse s b1) := by
  have step (u : State) : Goes u { u with now := u.now + b1, cad := { u.cad with shadow := u.cad.shadow.map (shadowAdvance b1) } } :=
    ⟨rfl, id, Nat.le_refl _, fun _ h => h, Nat.le_refl _, Nat.le_add_right _ _, rfl, Nat.le_refl _⟩
  unfold State.elapse
  simp only
  split
  · exact (State.sscAdvance_keeps.goes.trans (step _)).trans State.runPeriods_goes
  · exact State.sscAdvance_keeps.goes.trans (step _)

theorem State.phaseAdvance_goes {s : State} {b1 : Nat} :
    Goes s (State.phaseAdvance s b1) := by
  delta State.phaseAdvance
  split
  · exact Goes.refl _
  · refine Goes.trans ?_ State.nextClk_keeps.goes
    refine Goes.trans ?_ State.elapse_goes
    refine Goes.trans ?_ State.nextClk_keeps.goes
    exact State.drainAll_keeps.goes

theorem State.stepWrap_goes {s : State} :
    Goes s (State.stepWrap s) := by
  delta State.stepWrap
  split
  · exact Goes.refl _
  · exact State.phaseAdvance_goes

theorem State.patrolScrub_keeps {s : State} {b1 : Nat} {b2 : Ecc} :
    Keeps s (State.patrolScrub s b1 b2) := by
  delta State.patrolScrub
  split
  · exact Keeps.refl _
  · split
    · exact State.eccCorrected_keeps
    · split
      · exact State.eccUncorrected_keeps
      · exact Keeps.refl _
    · exact Keeps.refl _

theorem State.sweepChan_keeps {s : State} {b1 b2 : Nat} :
    Keeps s (State.sweepChan s b1 b2) := by
  delta State.sweepChan
  extract_lets v0
  clear_value v0
  split
  · exact Keeps.refl _
  · split
    · exact State.legFailed_keeps
    · exact State.pageFailed_keeps
    · exact State.pieceFailed_keeps
    · exact State.handoverFailed_keeps
    · exact Keeps.refl _

theorem State.sweep_keeps {s : State} :
    Keeps s (State.sweep s) := by
  delta State.sweep
  refine Keeps.trans ?_ (Keeps.foldl (fun x0 a1 => ?_) _ _)
  · exact Keeps.refl _
  · exact State.sweepChan_keeps

theorem State.spread_keeps {s : State} {b1 : State} :
    Keeps s (State.spread s b1) := by
  delta State.spread
  split
  · exact Keeps.refl _
  · refine Keeps.trans ?_ State.sweep_keeps
    refine Keeps.trans ?_ (Keeps.foldl (fun x4 a5 => ?_) _ _)
    · exact Keeps.refl _
    · exact State.servingError_keeps

theorem State.finish_keeps {s : State} {b1 : State} :
    Keeps s (State.finish s b1) := by
  delta State.finish
  refine Keeps.trans ?_ State.settle_keeps
  exact State.spread_keeps

theorem done_keeps {s t : State} (h : Keeps s t) : KeepsOut s (done s t) := by
  intro u e
  cases e
  exact h.trans State.finish_keeps

theorem done_goes {s t : State} (h : Goes s t) : GoesOut s (done s t) := by
  intro u e
  cases e
  exact h.trans State.finish_keeps.goes

theorem State.runWord_keeps {s : State} {t c : Nat} {pick : Nat → Bool} {f : State → Nat → Nat → Except Nat State}
    (h : ∀ s w p, KeepsExc s (f s w p)) : Keeps s (s.runWord t c pick f) := by
  unfold State.runWord
  simp only
  split
  · exact Keeps.refl _
  · split
    · exact Keeps.refl _
    · split
      · exact State.ctxFault_keeps
      · split
        · exact State.ctxFault_keeps
        · split
          · exact State.ctxFault_keeps
          · split
            · exact Keeps.refl _
            · split
              · next e => exact Keeps.trans State.setCtx_keeps (h _ _ _ _ e)
              · exact State.ctxFault_keeps

theorem State.readWord_keeps {s : State} {t c op : Nat} {ecc : Ecc} {f : State → Nat → Nat → Except Nat State}
    (h : ∀ s w p, KeepsExc s (f s w p)) : Keeps s (s.readWord t c op ecc f) := by
  unfold State.readWord
  split
  · simp only
    split
    · exact (State.runWord_keeps (fun _ _ _ => KeepsExc.error)).trans State.eccUncorrected_keeps
    · exact State.runWord_keeps (fun _ _ _ => KeepsExc.error)
  · refine State.runWord_keeps (fun s w p t e => ?_)
    cases hf : f s w p with
    | error c => rw [hf] at e; cases e
    | ok u => rw [hf] at e; cases e; exact (h s w p u hf).trans State.eccCorrected_keeps
  · exact State.runWord_keeps h

theorem State.vopWord_keeps {s : State} {t c fn : Nat} {f : State → Nat → State}
    (h : ∀ s w, Keeps s (f s w)) : Keeps s (s.vopWord t c fn f) :=
  State.runWord_keeps (fun s w _ => KeepsExc.ok (h s w))

theorem State.perstAssert_goes {s : State} : Goes s (State.perstAssert s) := by
  have h (x : State) (hx : Goes s x) : Goes s { x with pwr := { x.pwr with st := .run, resume := none, warm := none, selfRefresh := 0 } } :=
    hx.trans (Goes.of rfl)
  unfold State.perstAssert
  simp only
  split
  · refine h _ ?_
    refine Goes.trans ?_ State.resetSpine_goes
    refine Goes.trans ?_ State.flushBatch_keeps.goes
    exact Goes.of rfl
  · exact Goes.of rfl

theorem State.i2cNacked_keeps {s : State} :
    Keeps s (State.i2cNacked s) := by
  delta State.i2cNacked
  extract_lets v0
  clear_value v0
  exact Keeps.of rfl

theorem State.i2cRead_keeps {s : State} {b1 : Nat} {b2 : Bool} :
    Keeps s (State.i2cRead s b1 b2) := by
  delta State.i2cRead
  extract_lets v0 v1 v2
  have h3 : KeepsSnd s v0 := by
    unfold v0
    refine KeepsSnd.trans ?_ State.busRead_keeps
    exact Keeps.refl _
  clear_value v0
  have h4 : Keeps s v1 := by
    unfold v1
    show KeepsSnd _ _
    exact h3
  clear_value v1 v2
  split
  · exact State.i2cNacked_keeps
  · refine Keeps.upd (u := v1) rfl ?_
    exact h4

theorem State.i2cWrite_keeps {s : State} {b1 b2 : Nat} {b3 : Bool} :
    Keeps s (State.i2cWrite s b1 b2 b3) := by
  delta State.i2cWrite
  extract_lets v0 v1
  have h2 : Keeps s v0 := by
    unfold v0
    exact State.busWrite_keeps
  clear_value v0 v1
  split
  · exact State.i2cNacked_keeps
  · refine Keeps.upd (u := v0) rfl ?_
    exact h2

theorem State.jtag_keeps {s : State} {b1 : Side → Side} :
    Keeps s (State.jtag s b1) := by
  delta State.jtag
  split
  · exact Keeps.of rfl
  · exact Keeps.refl _

theorem State.jtagBypass_keeps {s : State} {b1 : Bool} :
    Keeps s (State.jtagBypass s b1) := by
  delta State.jtagBypass
  exact State.jtag_keeps

theorem State.jtagIdcode_keeps {s : State} :
    Keeps s (State.jtagIdcode s) := by
  delta State.jtagIdcode
  exact State.jtag_keeps

theorem State.jtagSample_keeps {s : State} {b1 b2 : BitVec 26} :
    Keeps s (State.jtagSample s b1 b2) := by
  delta State.jtagSample
  exact State.jtag_keeps

theorem State.jtagExtest_keeps {s : State} {b1 b2 : BitVec 26} :
    Keeps s (State.jtagExtest s b1 b2) := by
  delta State.jtagExtest
  exact State.jtag_keeps

theorem State.jtagHighz_keeps {s : State} {b1 : Bool} :
    Keeps s (State.jtagHighz s b1) := by
  delta State.jtagHighz
  exact State.jtag_keeps

theorem State.jtagClamp_keeps {s : State} {b1 : Bool} :
    Keeps s (State.jtagClamp s b1) := by
  delta State.jtagClamp
  exact State.jtag_keeps

theorem State.jtagDebug_keeps {s : State} {b1 b2 : Nat} {b3 : Bool} :
    Keeps s (State.jtagDebug s b1 b2 b3) := by
  delta State.jtagDebug
  extract_lets v0 v1 v2 v3
  have h4 : Keeps s v0 := by
    unfold v0
    exact Keeps.of rfl
  clear_value v0
  have h5 : KeepsSnd s v1 := by
    unfold v1
    split
    · refine KeepsSnd.trans ?_ State.busRead_keeps
      exact h4
    · refine KeepsSnd.mk ?_
      exact h4
  clear_value v1
  have h10 : Keeps s v2 := by
    unfold v2
    show KeepsSnd _ _
    exact h5
  clear_value v2 v3
  split
  · exact Keeps.refl _
  · split
    · split
      · refine Keeps.trans ?_ State.busWrite_keeps
        exact h4
      · refine Keeps.trans ?_ State.logAdd_keeps
        exact h4
    · refine Keeps.upd (u := v2) rfl ?_
      exact h10

end Sys2Proof.Machine
end

