-- ==== Sys2Proof/Laws/KeepsCmds.lean ====
section
/-! SUPPORT. `Keeps` of every command: one lemma per meaning. -/
namespace Sys2Proof.Machine
set_option Elab.async false

theorem execRegisterWrite_keeps {b0 : Path} {b1 b2 : Nat} {b3 b4 : W64} {s : State} :
    KeepsOut s (execRegisterWrite b0 b1 b2 b3 b4 s) := by
  delta execRegisterWrite
  refine done_keeps ?_
  · exact State.busWrite_keeps

theorem execRcRead_keeps {b0 : Path} {b1 b2 : Nat} {s : State} :
    KeepsOut s (execRcRead b0 b1 b2 s) := by
  delta execRcRead
  refine done_keeps ?_
  · exact State.readOut_keeps

theorem execLowerHalfRead_keeps {b0 : Path} {b1 : Nat} {s : State} :
    KeepsOut s (execLowerHalfRead b0 b1 s) := by
  delta execLowerHalfRead
  refine done_keeps ?_
  · exact State.readOut_keeps

theorem execUpperHalfRead_keeps {b0 : Path} {b1 : Nat} {s : State} :
    KeepsOut s (execUpperHalfRead b0 b1 s) := by
  delta execUpperHalfRead
  refine done_keeps ?_
  · exact State.readOut_keeps

theorem execLowerHalfWrite_keeps {b0 : Path} {b1 : Nat} {b2 : W32} {s : State} :
    KeepsOut s (execLowerHalfWrite b0 b1 b2 s) := by
  delta execLowerHalfWrite
  refine done_keeps ?_
  · exact State.busWrite_keeps

theorem execUpperHalfWrite_keeps {b0 : Path} {b1 : Nat} {b2 : W32} {b3 : W64} {s : State} :
    KeepsOut s (execUpperHalfWrite b0 b1 b2 b3 s) := by
  delta execUpperHalfWrite
  refine done_keeps ?_
  · exact State.busWrite_keeps

theorem execPhaseAdvance_goes {b0 : Nat} {s : State} :
    GoesOut s (execPhaseAdvance b0 s) := by
  delta execPhaseAdvance
  refine done_goes ?_
  · exact State.phaseAdvance_goes

theorem execStepWrap_goes {s : State} :
    GoesOut s (execStepWrap s) := by
  delta execStepWrap
  refine done_goes ?_
  · exact State.stepWrap_goes

theorem execPhasePointReached_keeps {b0 : Item} {s : State} :
    KeepsOut s (execPhasePointReached b0 s) := by
  delta execPhasePointReached
  refine done_keeps ?_
  · exact State.phasePoint_keeps

theorem execItemStart_keeps {b0 : Item} {s : State} :
    KeepsOut s (execItemStart b0 s) := by
  delta execItemStart
  refine done_keeps ?_
  · exact State.itemStart_keeps

theorem execDeadlineReached_keeps {b0 : Item} {b1 : Nat} {b2 : Ext} {s : State} :
    KeepsOut s (execDeadlineReached b0 b1 b2 s) := by
  delta execDeadlineReached
  refine done_keeps ?_
  · exact State.deadline_keeps

theorem execPhaseFrameReceive_goes {b0 : List Byte} {b1 : Bool} {s : State} :
    GoesOut s (execPhaseFrameReceive b0 b1 s) := by
  delta execPhaseFrameReceive
  refine done_goes ?_
  · exact State.receiveFrame_goes

theorem execFrameRepeat_keeps {s : State} :
    KeepsOut s (execFrameRepeat s) := by
  delta execFrameRepeat
  refine done_keeps ?_
  · exact State.repeatFrame_keeps

theorem execPhaseFrameSend_goes {s : State} :
    GoesOut s (execPhaseFrameSend s) := by
  delta execPhaseFrameSend
  refine done_goes ?_
  · exact State.sendFrame_goes

theorem execFrameLossTimeout_keeps {s : State} :
    KeepsOut s (execFrameLossTimeout s) := by
  delta execFrameLossTimeout
  refine done_keeps ?_
  · exact State.frameLoss_keeps

theorem execBackoffExpiry_goes {s : State} :
    GoesOut s (execBackoffExpiry s) := by
  delta execBackoffExpiry
  refine done_goes ?_
  · exact State.backoffEnd_goes

theorem execCadenceLost_keeps {s : State} :
    KeepsOut s (execCadenceLost s) := by
  delta execCadenceLost
  refine done_keeps ?_
  · exact State.cadenceLost_keeps

theorem execCadEnable_keeps {b0 : Path} {s : State} :
    KeepsOut s (execCadEnable b0 s) := by
  delta execCadEnable
  refine done_keeps ?_
  · exact State.regWrite_keeps

theorem execCadDisable_keeps {b0 : Path} {s : State} :
    KeepsOut s (execCadDisable b0 s) := by
  delta execCadDisable
  refine done_keeps ?_
  · exact State.regWrite_keeps

theorem execSwHold_keeps {b0 : Path} {b1 : Bool} {s : State} :
    KeepsOut s (execSwHold b0 b1 s) := by
  delta execSwHold
  refine done_keeps ?_
  · exact State.regWrite_keeps

theorem execRankWrite_keeps {b0 : Path} {b1 : Fin 8} {s : State} :
    KeepsOut s (execRankWrite b0 b1 s) := by
  delta execRankWrite
  refine done_keeps ?_
  · exact State.regWrite_keeps

theorem execMasterRun_keeps {b0 : Path} {s : State} :
    KeepsOut s (execMasterRun b0 s) := by
  delta execMasterRun
  refine done_keeps ?_
  · exact State.regWrite_keeps

theorem execMasterStop_keeps {b0 : Path} {s : State} :
    KeepsOut s (execMasterStop b0 s) := by
  delta execMasterStop
  refine done_keeps ?_
  · exact State.regWrite_keeps

theorem execMasterPeriodWrite_keeps {b0 : Path} {b1 : W32} {s : State} :
    KeepsOut s (execMasterPeriodWrite b0 b1 s) := by
  delta execMasterPeriodWrite
  refine done_keeps ?_
  · exact State.regWrite_keeps

theorem execHoldNFall_keeps {s : State} :
    KeepsOut s (execHoldNFall s) := by
  delta execHoldNFall
  refine done_keeps ?_
  · exact State.holdFall_keeps

theorem execHoldNRise_keeps {s : State} :
    KeepsOut s (execHoldNRise s) := by
  delta execHoldNRise
  refine done_keeps ?_
  · exact State.holdRise_keeps

theorem execHoldTimeout_keeps {b0 : Item} {s : State} :
    KeepsOut s (execHoldTimeout b0 s) := by
  delta execHoldTimeout
  refine done_keeps ?_
  · exact State.holdTimeout_keeps

theorem execLoadFull_keeps {b0 : Path} {s : State} :
    KeepsOut s (execLoadFull b0 s) := by
  delta execLoadFull
  refine done_keeps ?_
  · exact State.regWrite_keeps

theorem execLoadPartial_keeps {b0 : Path} {b1 : Bool} {s : State} :
    KeepsOut s (execLoadPartial b0 b1 s) := by
  delta execLoadPartial
  refine done_keeps ?_
  · exact State.regWrite_keeps

theorem execVerifyOnly_keeps {b0 : Path} {s : State} :
    KeepsOut s (execVerifyOnly b0 s) := by
  delta execVerifyOnly
  refine done_keeps ?_
  · exact State.regWrite_keeps

theorem execUnload_keeps {b0 : Path} {s : State} :
    KeepsOut s (execUnload b0 s) := by
  delta execUnload
  refine done_keeps ?_
  · exact State.regWrite_keeps

theorem execAbort_keeps {b0 : Path} {s : State} :
    KeepsOut s (execAbort b0 s) := by
  delta execAbort
  refine done_keeps ?_
  · exact State.regWrite_keeps

theorem execLoadFlash_keeps {b0 : Path} {s : State} :
    KeepsOut s (execLoadFlash b0 s) := by
  delta execLoadFlash
  refine done_keeps ?_
  · exact State.regWrite_keeps

theorem execImageReadComplete_keeps {b0 : List Byte} {s : State} :
    KeepsOut s (execImageReadComplete b0 s) := by
  delta execImageReadComplete
  refine done_keeps ?_
  · exact State.imageRead_keeps

theorem execImageSourceTimeout_keeps {s : State} :
    KeepsOut s (execImageSourceTimeout s) := by
  delta execImageSourceTimeout
  refine done_keeps ?_
  · exact State.imageTimeout_keeps

theorem execImageVerifyComplete_keeps {s : State} :
    KeepsOut s (execImageVerifyComplete s) := by
  delta execImageVerifyComplete
  refine done_keeps ?_
  · exact State.imageVerify_keeps

theorem execPartialCommit_keeps {s : State} :
    KeepsOut s (execPartialCommit s) := by
  delta execPartialCommit
  refine done_keeps ?_
  · exact State.partialCommit_keeps

theorem execReloadTimeout_keeps {s : State} :
    KeepsOut s (execReloadTimeout s) := by
  delta execReloadTimeout
  refine done_keeps ?_
  · exact State.reloadTimeout_keeps

theorem execKeyProgram_keeps {b0 : Path} {b1 : Fin 4} {b2 : List Byte} {s : State} :
    KeepsOut s (execKeyProgram b0 b1 b2 s) := by
  delta execKeyProgram
  refine done_keeps ?_
  · exact State.regWrite_keeps

theorem execKeyRevoke_keeps {b0 : Path} {b1 : Fin 4} {s : State} :
    KeepsOut s (execKeyRevoke b0 b1 s) := by
  delta execKeyRevoke
  refine done_keeps ?_
  · exact State.regWrite_keeps

theorem execSvFloorWrite_keeps {b0 : Path} {b1 : W32} {s : State} :
    KeepsOut s (execSvFloorWrite b0 b1 s) := by
  delta execSvFloorWrite
  refine done_keeps ?_
  · exact State.regWrite_keeps

theorem execPatrolScrub_keeps {b0 : Fin 8} {b1 : Ecc} {s : State} :
    KeepsOut s (execPatrolScrub b0 b1 s) := by
  delta execPatrolScrub
  refine done_keeps ?_
  · exact State.patrolScrub_keeps

theorem execGranuleZero_keeps {b0 : Nat} {s : State} :
    KeepsOut s (execGranuleZero b0 s) := by
  delta execGranuleZero
  refine done_keeps ?_
  · exact State.zeroGranule_keeps

theorem execAllocRetry_keeps {s : State} :
    KeepsOut s (execAllocRetry s) := by
  delta execAllocRetry
  refine done_keeps ?_
  · refine Keeps.trans ?_ State.retryLegs_keeps
    exact State.retryAllocs_keeps

theorem execMoveComplete_keeps {b0 : Fin 4} {b1 : Fin 64} {b2 : List Byte} {s : State} :
    KeepsOut s (execMoveComplete b0 b1 b2 s) := by
  delta execMoveComplete
  refine done_keeps ?_
  · exact State.moveDone_keeps

theorem execTierRetry_keeps {b0 : Fin 4} {b1 : Fin 64} {b2 : Option Fail} {s : State} :
    KeepsOut s (execTierRetry b0 b1 b2 s) := by
  delta execTierRetry
  refine done_keeps ?_
  · exact State.tierRetry_keeps

theorem execSubmit_keeps {b0 : Path} {b1 : Fin 8} {b2 : List Byte} {s : State} :
    KeepsOut s (execSubmit b0 b1 b2 s) := by
  delta execSubmit
  refine done_keeps ?_
  · exact State.regWrite_keeps

theorem execWithdraw_keeps {b0 : Path} {b1 : Fin 8} {s : State} :
    KeepsOut s (execWithdraw b0 b1 s) := by
  delta execWithdraw
  refine done_keeps ?_
  · exact State.regWrite_keeps

theorem execDryRun_keeps {b0 : Path} {b1 : Fin 8} {b2 : List Byte} {s : State} :
    KeepsOut s (execDryRun b0 b1 b2 s) := by
  delta execDryRun
  refine done_keeps ?_
  · exact State.regWrite_keeps

theorem execPlanningPassEnd_keeps {b0 : Fin 8} {s : State} :
    KeepsOut s (execPlanningPassEnd b0 s) := by
  delta execPlanningPassEnd
  refine done_keeps ?_
  · exact State.passEnd_keeps

theorem execEvictionRouteDone_keeps {b0 : Fin 4} {b1 : Option Fail} {b2 : List Byte} {s : State} :
    KeepsOut s (execEvictionRouteDone b0 b1 b2 s) := by
  delta execEvictionRouteDone
  refine done_keeps ?_
  · exact State.evictRouteDone_keeps

theorem execStreamCfgWrite_keeps {b0 : Path} {b1 : Fin 64} {b2 : W64} {s : State} :
    KeepsOut s (execStreamCfgWrite b0 b1 b2 s) := by
  delta execStreamCfgWrite
  refine done_keeps ?_
  · exact State.regWrite_keeps

theorem execOutboundLegComplete_keeps {b0 : Fin 8} {b1 : Nat} {b2 : Ext} {b3 : Ecc} {s : State} :
    KeepsOut s (execOutboundLegComplete b0 b1 b2 b3 s) := by
  delta execOutboundLegComplete
  refine done_keeps ?_
  · exact State.legComplete_keeps

theorem execFetchBackStart_keeps {b0 : Fin 8} {b1 : Nat} {s : State} :
    KeepsOut s (execFetchBackStart b0 b1 s) := by
  delta execFetchBackStart
  refine done_keeps ?_
  · exact State.backStart_keeps

theorem execFetchBackComplete_keeps {b0 : Fin 8} {b1 : Nat} {b2 : Ext} {b3 : Ecc} {s : State} :
    KeepsOut s (execFetchBackComplete b0 b1 b2 b3 s) := by
  delta execFetchBackComplete
  refine done_keeps ?_
  · exact State.legComplete_keeps

theorem execRegrowStart_keeps {b0 : Fin 8} {b1 : Nat} {s : State} :
    KeepsOut s (execRegrowStart b0 b1 s) := by
  delta execRegrowStart
  refine done_keeps ?_
  · exact State.regrowStart_keeps

theorem execRegrowComplete_keeps {b0 : Fin 8} {b1 : Nat} {s : State} :
    KeepsOut s (execRegrowComplete b0 b1 s) := by
  delta execRegrowComplete
  refine done_keeps ?_
  · exact State.regrowComplete_keeps

theorem execParkMoveStart_keeps {b0 : Fin 8} {b1 : Nat} {s : State} :
    KeepsOut s (execParkMoveStart b0 b1 s) := by
  delta execParkMoveStart
  refine done_keeps ?_
  · exact State.parkMove_keeps

theorem execResumeComplete_keeps {b0 : Fin 8} {b1 : Nat} {s : State} :
    KeepsOut s (execResumeComplete b0 b1 s) := by
  delta execResumeComplete
  refine done_keeps ?_
  · exact State.resumeComplete_keeps

theorem execSlotGrant_keeps {b0 : Fin 4} {s : State} :
    KeepsOut s (execSlotGrant b0 s) := by
  delta execSlotGrant
  refine done_keeps ?_
  · exact State.grantSlots_keeps

theorem execDmaChGo_keeps {b0 : Path} {b1 : Fin 4} {b2 : Fin 64} {s : State} :
    KeepsOut s (execDmaChGo b0 b1 b2 s) := by
  delta execDmaChGo
  refine done_keeps ?_
  · exact State.regWrite_keeps

theorem execDmaChAbort_keeps {b0 : Path} {b1 : Fin 4} {b2 : Fin 64} {s : State} :
    KeepsOut s (execDmaChAbort b0 b1 b2 s) := by
  delta execDmaChAbort
  refine done_keeps ?_
  · exact State.regWrite_keeps

theorem execDmaChClear_keeps {b0 : Path} {b1 : Fin 4} {b2 : Fin 64} {s : State} :
    KeepsOut s (execDmaChClear b0 b1 b2 s) := by
  delta execDmaChClear
  refine done_keeps ?_
  · exact State.regWrite_keeps

theorem execDescriptorFetch_keeps {b0 : Fin 4} {b1 : Fin 64} {b2 : List Byte} {b3 : Ecc} {s : State} :
    KeepsOut s (execDescriptorFetch b0 b1 b2 b3 s) := by
  delta execDescriptorFetch
  refine done_keeps ?_
  · exact State.fetchDesc_keeps

theorem execDescriptorStart_keeps {b0 : Fin 4} {s : State} :
    KeepsOut s (execDescriptorStart b0 s) := by
  delta execDescriptorStart
  refine done_keeps ?_
  · exact State.startReady_keeps

theorem execCopy_keeps {b0 : Fin 4} {b1 : Fin 64} {b2 : Ext} {b3 : Ecc} {s : State} :
    KeepsOut s (execCopy b0 b1 b2 b3 s) := by
  delta execCopy
  refine done_keeps ?_
  · exact State.opCommand_keeps

theorem execFill_keeps {b0 : Fin 4} {b1 : Fin 64} {s : State} :
    KeepsOut s (execFill b0 b1 s) := by
  delta execFill
  refine done_keeps ?_
  · exact State.opCommand_keeps

theorem execCompare_keeps {b0 : Fin 4} {b1 : Fin 64} {b2 : Ext} {b3 : Ecc} {s : State} :
    KeepsOut s (execCompare b0 b1 b2 b3 s) := by
  delta execCompare
  refine done_keeps ?_
  · exact State.opCommand_keeps

theorem execMove_keeps {b0 : Fin 4} {b1 : Fin 64} {b2 : Ext} {b3 : Ecc} {s : State} :
    KeepsOut s (execMove b0 b1 b2 b3 s) := by
  delta execMove
  refine done_keeps ?_
  · exact State.opCommand_keeps

theorem execPack_keeps {b0 : Fin 4} {b1 : Fin 64} {b2 : Ext} {b3 : Ecc} {s : State} :
    KeepsOut s (execPack b0 b1 b2 b3 s) := by
  delta execPack
  refine done_keeps ?_
  · exact State.opCommand_keeps

theorem execUnpack_keeps {b0 : Fin 4} {b1 : Fin 64} {b2 : Ext} {b3 : Ecc} {s : State} :
    KeepsOut s (execUnpack b0 b1 b2 b3 s) := by
  delta execUnpack
  refine done_keeps ?_
  · exact State.opCommand_keeps

theorem execTranspose_keeps {b0 : Fin 4} {b1 : Fin 64} {b2 : Ext} {b3 : Ecc} {s : State} :
    KeepsOut s (execTranspose b0 b1 b2 b3 s) := by
  delta execTranspose
  refine done_keeps ?_
  · exact State.opCommand_keeps

theorem execGather_keeps {b0 : Fin 4} {b1 : Fin 64} {b2 : Ext} {b3 : Ecc} {s : State} :
    KeepsOut s (execGather b0 b1 b2 b3 s) := by
  delta execGather
  refine done_keeps ?_
  · exact State.opCommand_keeps

theorem execScatter_keeps {b0 : Fin 4} {b1 : Fin 64} {b2 : Ext} {b3 : Ecc} {s : State} :
    KeepsOut s (execScatter b0 b1 b2 b3 s) := by
  delta execScatter
  refine done_keeps ?_
  · exact State.opCommand_keeps

theorem execDescriptorComplete_keeps {b0 : Fin 4} {b1 : Fin 64} {s : State} :
    KeepsOut s (execDescriptorComplete b0 b1 s) := by
  delta execDescriptorComplete
  refine done_keeps ?_
  · exact State.descComplete_keeps

theorem execDmaReadTimeout_keeps {b0 : Fin 4} {b1 : Fin 64} {b2 b3 : Nat} {b4 : Ext} {s : State} :
    KeepsOut s (execDmaReadTimeout b0 b1 b2 b3 b4 s) := by
  delta execDmaReadTimeout
  refine done_keeps ?_
  · exact State.chanTimeout_keeps

theorem execTransferFailure_keeps {b0 : Fin 4} {b1 : Fin 64} {b2 : Fail} {b3 b4 : Nat} {b5 : Ext} {s : State} :
    KeepsOut s (execTransferFailure b0 b1 b2 b3 b4 b5 s) := by
  delta execTransferFailure
  refine done_keeps ?_
  · exact State.transferFailed_keeps

theorem execWload_keeps {b0 : Fin 24} {b1 : Fin 4} {b2 : Ecc} {s : State} :
    KeepsOut s (execWload b0 b1 b2 s) := by
  delta execWload
  refine done_keeps ?_
  · refine Keeps.trans ?_ (State.readWord_keeps (fun x0 x1 x2 => ?_))
    · exact Keeps.refl _
    · refine KeepsExc.trans ?_ State.wload_keeps
      exact Keeps.refl _

theorem execMmpass_keeps {b0 : Fin 24} {b1 : Fin 4} {b2 : Ecc} {s : State} :
    KeepsOut s (execMmpass b0 b1 b2 s) := by
  delta execMmpass
  refine done_keeps ?_
  · refine Keeps.trans ?_ (State.readWord_keeps (fun x0 x1 x2 => ?_))
    · exact Keeps.refl _
    · refine KeepsExc.trans ?_ State.mmpass_keeps
      exact Keeps.refl _

theorem execAccout_keeps {b0 : Fin 24} {b1 : Fin 4} {s : State} :
    KeepsOut s (execAccout b0 b1 s) := by
  delta execAccout
  refine done_keeps ?_
  · refine Keeps.trans ?_ (State.runWord_keeps (fun x0 x1 x2 => ?_))
    · exact Keeps.refl _
    · refine KeepsExc.trans ?_ State.accout_keeps
      exact Keeps.refl _

theorem execAccdump_keeps {b0 : Fin 24} {b1 : Fin 4} {s : State} :
    KeepsOut s (execAccdump b0 b1 s) := by
  delta execAccdump
  refine done_keeps ?_
  · refine Keeps.trans ?_ (State.runWord_keeps (fun x0 x1 x2 => ?_))
    · exact Keeps.refl _
    · refine KeepsExc.trans ?_ State.accdump_keeps
      exact Keeps.refl _

theorem execAccin_keeps {b0 : Fin 24} {b1 : Fin 4} {b2 : Ecc} {s : State} :
    KeepsOut s (execAccin b0 b1 b2 s) := by
  delta execAccin
  refine done_keeps ?_
  · refine Keeps.trans ?_ (State.readWord_keeps (fun x0 x1 x2 => ?_))
    · exact Keeps.refl _
    · refine KeepsExc.trans ?_ State.accin_keeps
      exact Keeps.refl _

theorem execAdd_keeps {b0 : Fin 24} {b1 : Fin 4} {s : State} :
    KeepsOut s (execAdd b0 b1 s) := by
  delta execAdd
  refine done_keeps ?_
  · refine Keeps.trans ?_ (State.vopWord_keeps (fun x0 x1 => ?_))
    · exact Keeps.refl _
    · exact State.vlane_keeps

theorem execSub_keeps {b0 : Fin 24} {b1 : Fin 4} {s : State} :
    KeepsOut s (execSub b0 b1 s) := by
  delta execSub
  refine done_keeps ?_
  · refine Keeps.trans ?_ (State.vopWord_keeps (fun x0 x1 => ?_))
    · exact Keeps.refl _
    · exact State.vlane_keeps

theorem execMul_keeps {b0 : Fin 24} {b1 : Fin 4} {s : State} :
    KeepsOut s (execMul b0 b1 s) := by
  delta execMul
  refine done_keeps ?_
  · refine Keeps.trans ?_ (State.vopWord_keeps (fun x0 x1 => ?_))
    · exact Keeps.refl _
    · exact State.vlane_keeps

theorem execFma_keeps {b0 : Fin 24} {b1 : Fin 4} {s : State} :
    KeepsOut s (execFma b0 b1 s) := by
  delta execFma
  refine done_keeps ?_
  · refine Keeps.trans ?_ (State.vopWord_keeps (fun x0 x1 => ?_))
    · exact Keeps.refl _
    · exact State.vlane_keeps

theorem execMin_keeps {b0 : Fin 24} {b1 : Fin 4} {s : State} :
    KeepsOut s (execMin b0 b1 s) := by
  delta execMin
  refine done_keeps ?_
  · refine Keeps.trans ?_ (State.vopWord_keeps (fun x0 x1 => ?_))
    · exact Keeps.refl _
    · exact State.vplain_keeps

theorem execMax_keeps {b0 : Fin 24} {b1 : Fin 4} {s : State} :
    KeepsOut s (execMax b0 b1 s) := by
  delta execMax
  refine done_keeps ?_
  · refine Keeps.trans ?_ (State.vopWord_keeps (fun x0 x1 => ?_))
    · exact Keeps.refl _
    · exact State.vplain_keeps

theorem execRcp_keeps {b0 : Fin 24} {b1 : Fin 4} {s : State} :
    KeepsOut s (execRcp b0 b1 s) := by
  delta execRcp
  refine done_keeps ?_
  · refine Keeps.trans ?_ (State.vopWord_keeps (fun x0 x1 => ?_))
    · exact Keeps.refl _
    · exact State.vlane_keeps

theorem execRsqrt_keeps {b0 : Fin 24} {b1 : Fin 4} {s : State} :
    KeepsOut s (execRsqrt b0 b1 s) := by
  delta execRsqrt
  refine done_keeps ?_
  · refine Keeps.trans ?_ (State.vopWord_keeps (fun x0 x1 => ?_))
    · exact Keeps.refl _
    · exact State.vlane_keeps

theorem execSqrt_keeps {b0 : Fin 24} {b1 : Fin 4} {s : State} :
    KeepsOut s (execSqrt b0 b1 s) := by
  delta execSqrt
  refine done_keeps ?_
  · refine Keeps.trans ?_ (State.vopWord_keeps (fun x0 x1 => ?_))
    · exact Keeps.refl _
    · exact State.vlane_keeps

theorem execExp2_keeps {b0 : Fin 24} {b1 : Fin 4} {s : State} :
    KeepsOut s (execExp2 b0 b1 s) := by
  delta execExp2
  refine done_keeps ?_
  · refine Keeps.trans ?_ (State.vopWord_keeps (fun x0 x1 => ?_))
    · exact Keeps.refl _
    · exact State.vlane_keeps

theorem execLog2_keeps {b0 : Fin 24} {b1 : Fin 4} {s : State} :
    KeepsOut s (execLog2 b0 b1 s) := by
  delta execLog2
  refine done_keeps ?_
  · refine Keeps.trans ?_ (State.vopWord_keeps (fun x0 x1 => ?_))
    · exact Keeps.refl _
    · exact State.vlane_keeps

theorem execCvt_keeps {b0 : Fin 24} {b1 : Fin 4} {s : State} :
    KeepsOut s (execCvt b0 b1 s) := by
  delta execCvt
  refine done_keeps ?_
  · refine Keeps.trans ?_ (State.vopWord_keeps (fun x0 x1 => ?_))
    · exact Keeps.refl _
    · exact State.vlane_keeps

theorem execRand_keeps {b0 : Fin 24} {b1 : Fin 4} {s : State} :
    KeepsOut s (execRand b0 b1 s) := by
  delta execRand
  refine done_keeps ?_
  · refine Keeps.trans ?_ (State.vopWord_keeps (fun x0 x1 => ?_))
    · exact Keeps.refl _
    · exact State.randLanes_keeps

theorem execDrop_keeps {b0 : Fin 24} {b1 : Fin 4} {s : State} :
    KeepsOut s (execDrop b0 b1 s) := by
  delta execDrop
  refine done_keeps ?_
  · refine Keeps.trans ?_ (State.vopWord_keeps (fun x0 x1 => ?_))
    · exact Keeps.refl _
    · exact State.dropLanes_keeps

theorem execRsum_keeps {b0 : Fin 24} {b1 : Fin 4} {s : State} :
    KeepsOut s (execRsum b0 b1 s) := by
  delta execRsum
  refine done_keeps ?_
  · refine Keeps.trans ?_ (State.vopWord_keeps (fun x0 x1 => ?_))
    · exact Keeps.refl _
    · exact State.sumLanes_keeps

theorem execSel_keeps {b0 : Fin 24} {b1 : Fin 4} {s : State} :
    KeepsOut s (execSel b0 b1 s) := by
  delta execSel
  refine done_keeps ?_
  · refine Keeps.trans ?_ (State.vopWord_keeps (fun x0 x1 => ?_))
    · exact Keeps.refl _
    · exact State.vplain_keeps

theorem execVld_keeps {b0 : Fin 24} {b1 : Fin 4} {b2 : Ecc} {s : State} :
    KeepsOut s (execVld b0 b1 b2 s) := by
  delta execVld
  refine done_keeps ?_
  · refine Keeps.trans ?_ (State.readWord_keeps (fun x0 x1 x2 => ?_))
    · exact Keeps.refl _
    · refine KeepsExc.trans ?_ State.vld_keeps
      exact Keeps.refl _

theorem execVst_keeps {b0 : Fin 24} {b1 : Fin 4} {s : State} :
    KeepsOut s (execVst b0 b1 s) := by
  delta execVst
  refine done_keeps ?_
  · refine Keeps.trans ?_ (State.runWord_keeps (fun x0 x1 x2 => ?_))
    · exact Keeps.refl _
    · refine KeepsExc.trans ?_ State.vst_keeps
      exact Keeps.refl _

theorem execKeyset_keeps {b0 : Fin 24} {b1 : Fin 4} {s : State} :
    KeepsOut s (execKeyset b0 b1 s) := by
  delta execKeyset
  refine done_keeps ?_
  · refine Keeps.trans ?_ (State.runWord_keeps (fun x0 x1 x2 => ?_))
    · exact Keeps.refl _
    · refine KeepsExc.ok ?_
      exact State.keysetWord_keeps

theorem execSrset_keeps {b0 : Fin 24} {b1 : Fin 4} {s : State} :
    KeepsOut s (execSrset b0 b1 s) := by
  delta execSrset
  refine done_keeps ?_
  · refine Keeps.trans ?_ (State.runWord_keeps (fun x0 x1 x2 => ?_))
    · exact Keeps.refl _
    · refine KeepsExc.ok ?_
      exact State.srsetWord_keeps

theorem execDmago_keeps {b0 : Fin 24} {b1 : Fin 4} {s : State} :
    KeepsOut s (execDmago b0 b1 s) := by
  delta execDmago
  refine done_keeps ?_
  · refine Keeps.trans ?_ (State.runWord_keeps (fun x0 x1 x2 => ?_))
    · exact Keeps.refl _
    · refine KeepsExc.trans ?_ State.dmago_keeps
      exact Keeps.refl _

theorem execEndOp_keeps {b0 : Fin 24} {b1 : Fin 4} {s : State} :
    KeepsOut s (execEndOp b0 b1 s) := by
  delta execEndOp
  refine done_keeps ?_
  · refine Keeps.trans ?_ (State.runWord_keeps (fun x0 x1 x2 => ?_))
    · exact Keeps.refl _
    · refine KeepsExc.ok ?_
      exact State.endWord_keeps

theorem execTilCtxGo_keeps {b0 : Path} {b1 : Fin 24} {b2 : Fin 4} {s : State} :
    KeepsOut s (execTilCtxGo b0 b1 b2 s) := by
  delta execTilCtxGo
  refine done_keeps ?_
  · exact State.regWrite_keeps

theorem execTilCtxStop_keeps {b0 : Path} {b1 : Fin 24} {b2 : Fin 4} {s : State} :
    KeepsOut s (execTilCtxStop b0 b1 b2 s) := by
  delta execTilCtxStop
  refine done_keeps ?_
  · exact State.regWrite_keeps

theorem execTilCtxClear_keeps {b0 : Path} {b1 : Fin 24} {b2 : Fin 4} {s : State} :
    KeepsOut s (execTilCtxClear b0 b1 b2 s) := by
  delta execTilCtxClear
  refine done_keeps ?_
  · exact State.regWrite_keeps

theorem execCsig_keeps {b0 : Fin 24} {b1 : Fin 4} {s : State} :
    KeepsOut s (execCsig b0 b1 s) := by
  delta execCsig
  refine done_keeps ?_
  · refine Keeps.trans ?_ (State.runWord_keeps (fun x0 x1 x2 => ?_))
    · exact Keeps.refl _
    · refine KeepsExc.trans ?_ State.csig_keeps
      exact Keeps.refl _

theorem execCwait_keeps {b0 : Fin 24} {b1 : Fin 4} {s : State} :
    KeepsOut s (execCwait b0 b1 s) := by
  delta execCwait
  refine done_keeps ?_
  · refine Keeps.trans ?_ (State.runWord_keeps (fun x0 x1 x2 => ?_))
    · exact Keeps.refl _
    · refine KeepsExc.trans ?_ State.cwait_keeps
      exact Keeps.refl _

theorem execFence_keeps {b0 : Fin 24} {b1 : Fin 4} {s : State} :
    KeepsOut s (execFence b0 b1 s) := by
  delta execFence
  refine done_keeps ?_
  · refine Keeps.trans ?_ (State.runWord_keeps (fun x0 x1 x2 => ?_))
    · exact Keeps.refl _
    · refine KeepsExc.ok ?_
      exact State.drainCtx_keeps

theorem execPhase_keeps {b0 : Fin 24} {b1 : Fin 4} {s : State} :
    KeepsOut s (execPhase b0 b1 s) := by
  delta execPhase
  refine done_keeps ?_
  · refine Keeps.trans ?_ (State.runWord_keeps (fun x0 x1 x2 => ?_))
    · exact Keeps.refl _
    · refine KeepsExc.ok ?_
      exact State.phaseWord_keeps

theorem execOwn_keeps {b0 : Fin 24} {b1 : Fin 4} {s : State} :
    KeepsOut s (execOwn b0 b1 s) := by
  delta execOwn
  refine done_keeps ?_
  · refine Keeps.trans ?_ (State.runWord_keeps (fun x0 x1 x2 => ?_))
    · exact Keeps.refl _
    · refine KeepsExc.trans ?_ State.ownWord_keeps
      exact Keeps.refl _

theorem execCairnWaitComplete_keeps {b0 : Waiter} {s : State} :
    KeepsOut s (execCairnWaitComplete b0 s) := by
  delta execCairnWaitComplete
  refine done_keeps ?_
  · exact State.waitComplete_keeps

theorem execWaitTimeout_keeps {b0 : Waiter} {s : State} :
    KeepsOut s (execWaitTimeout b0 s) := by
  delta execWaitTimeout
  refine done_keeps ?_
  · exact State.waitTimeout_keeps

theorem execCrnHcAdd_keeps {b0 : Path} {b1 : Fin 64} {b2 : W32} {s : State} :
    KeepsOut s (execCrnHcAdd b0 b1 b2 s) := by
  delta execCrnHcAdd
  refine done_keeps ?_
  · exact State.regWrite_keeps

theorem execCrnHcSet_keeps {b0 : Path} {b1 : Fin 64} {b2 : W32} {b3 : Bool} {s : State} :
    KeepsOut s (execCrnHcSet b0 b1 b2 b3 s) := by
  delta execCrnHcSet
  refine done_keeps ?_
  · exact State.regWrite_keeps

theorem execHostWatchArm_keeps {b0 : Path} {b1 : Fin 64} {b2 : W32} {s : State} :
    KeepsOut s (execHostWatchArm b0 b1 b2 s) := by
  delta execHostWatchArm
  refine done_keeps ?_
  · exact State.regWrite_keeps

theorem execHostWatchFire_keeps {b0 : Fin 64} {s : State} :
    KeepsOut s (execHostWatchFire b0 s) := by
  delta execHostWatchFire
  refine done_keeps ?_
  · exact State.fireWatch_keeps

theorem execCrnDebugSet_keeps {b0 : Path} {b1 : W32} {s : State} :
    KeepsOut s (execCrnDebugSet b0 b1 s) := by
  delta execCrnDebugSet
  refine done_keeps ?_
  · exact State.regWrite_keeps

theorem execRemoteSignalTimeout_keeps {b0 : Nat} {s : State} :
    KeepsOut s (execRemoteSignalTimeout b0 s) := by
  delta execRemoteSignalTimeout
  refine done_keeps ?_
  · exact State.signalTimeout_keeps

theorem execArm_keeps {b0 : Path} {b1 : Fin 8} {s : State} :
    KeepsOut s (execArm b0 b1 s) := by
  delta execArm
  refine done_keeps ?_
  · exact State.regWrite_keeps

theorem execDisarm_keeps {b0 : Path} {b1 : Fin 8} {s : State} :
    KeepsOut s (execDisarm b0 b1 s) := by
  delta execDisarm
  refine done_keeps ?_
  · exact State.regWrite_keeps

theorem execJobEligible_keeps {b0 : Fin 8} {s : State} :
    KeepsOut s (execJobEligible b0 s) := by
  delta execJobEligible
  refine done_keeps ?_
  · exact State.jobEligible_keeps

theorem execCheckPassEnd_keeps {b0 : Fin 8} {b1 : Option Nat} {s : State} :
    KeepsOut s (execCheckPassEnd b0 b1 s) := by
  delta execCheckPassEnd
  refine done_keeps ?_
  · exact State.checkEnd_keeps

theorem execApplyPassEnd_keeps {b0 : Fin 8} {b1 : Option Nat} {s : State} :
    KeepsOut s (execApplyPassEnd b0 b1 s) := by
  delta execApplyPassEnd
  refine done_keeps ?_
  · exact State.applyEnd_keeps

theorem execLsExpWrite_keeps {b0 : Path} {b1 : Fin 8} {b2 b3 : W32} {s : State} :
    KeepsOut s (execLsExpWrite b0 b1 b2 b3 s) := by
  delta execLsExpWrite
  refine done_keeps ?_
  · exact State.regWrite_keeps

theorem execLinkFrameReceive_keeps {b0 : Fin 14} {b1 : List Byte} {s : State} :
    KeepsOut s (execLinkFrameReceive b0 b1 s) := by
  delta execLinkFrameReceive
  refine done_keeps ?_
  · exact State.linkReceive_keeps

theorem execLinkFrameSend_keeps {b0 : Fin 14} {s : State} :
    KeepsOut s (execLinkFrameSend b0 s) := by
  delta execLinkFrameSend
  refine done_keeps ?_
  · exact State.sendLinkFrame_keeps

theorem execLinkResend_keeps {b0 : Fin 14} {s : State} :
    KeepsOut s (execLinkResend b0 s) := by
  delta execLinkResend
  refine done_keeps ?_
  · exact State.linkResend_keeps

theorem execRetrain_keeps {b0 : Option Path} {b1 : Fin 14} {s : State} :
    KeepsOut s (execRetrain b0 b1 s) := by
  delta execRetrain
  refine done_keeps ?_
  · exact State.retrainBy_keeps

theorem execTrainingResult_keeps {b0 : Fin 14} {b1 : Nat} {b2 : Fin 64} {b3 : Fin 14} {s : State} :
    KeepsOut s (execTrainingResult b0 b1 b2 b3 s) := by
  delta execTrainingResult
  refine done_keeps ?_
  · exact State.trainingResult_keeps

theorem execTrainingTimeout_keeps {b0 : Fin 14} {s : State} :
    KeepsOut s (execTrainingTimeout b0 s) := by
  delta execTrainingTimeout
  refine done_keeps ?_
  · exact State.trainingTimeout_keeps

theorem execLossOfLock_keeps {b0 : Fin 14} {s : State} :
    KeepsOut s (execLossOfLock b0 s) := by
  delta execLossOfLock
  refine done_keeps ?_
  · exact State.lossOfLock_keeps

theorem execPortEnable_keeps {b0 : Path} {b1 : Fin 14} {b2 : Bool} {s : State} :
    KeepsOut s (execPortEnable b0 b1 b2 s) := by
  delta execPortEnable
  refine done_keeps ?_
  · exact State.regWrite_keeps

theorem execNynFailedWrite_keeps {b0 : Path} {b1 : W64} {s : State} :
    KeepsOut s (execNynFailedWrite b0 b1 s) := by
  delta execNynFailedWrite
  refine done_keeps ?_
  · exact State.regWrite_keeps

theorem execNotice_keeps {b0 : Fin 14} {b1 : Fin 64} {b2 : Fin 14} {b3 : Bool} {s : State} :
    KeepsOut s (execNotice b0 b1 b2 b3 s) := by
  delta execNotice
  refine done_keeps ?_
  · exact State.noticeIn_keeps

theorem execReadReq_keeps {b0 : Fin 14} {s : State} :
    KeepsOut s (execReadReq b0 s) := by
  delta execReadReq
  refine done_keeps ?_
  · exact State.requestPacket_keeps

theorem execReadData_keeps {b0 : Fin 14} {s : State} :
    KeepsOut s (execReadData b0 s) := by
  delta execReadData
  refine done_keeps ?_
  · exact State.responsePacket_keeps

theorem execWrite_keeps {b0 : Fin 14} {s : State} :
    KeepsOut s (execWrite b0 s) := by
  delta execWrite
  refine done_keeps ?_
  · exact State.requestPacket_keeps

theorem execWriteAck_keeps {b0 : Fin 14} {s : State} :
    KeepsOut s (execWriteAck b0 s) := by
  delta execWriteAck
  refine done_keeps ?_
  · exact State.responsePacket_keeps

theorem execSignal_keeps {b0 : Fin 14} {s : State} :
    KeepsOut s (execSignal b0 s) := by
  delta execSignal
  refine done_keeps ?_
  · exact State.requestPacket_keeps

theorem execSignalAck_keeps {b0 : Fin 14} {s : State} :
    KeepsOut s (execSignalAck b0 s) := by
  delta execSignalAck
  refine done_keeps ?_
  · exact State.responsePacket_keeps

theorem execCollData_keeps {b0 : Fin 14} {s : State} :
    KeepsOut s (execCollData b0 s) := by
  delta execCollData
  refine done_keeps ?_
  · exact State.requestPacket_keeps

theorem execCollAck_keeps {b0 : Fin 14} {s : State} :
    KeepsOut s (execCollAck b0 s) := by
  delta execCollAck
  refine done_keeps ?_
  · exact State.responsePacket_keeps

theorem execReserve_keeps {b0 : Fin 14} {s : State} :
    KeepsOut s (execReserve b0 s) := by
  delta execReserve
  refine done_keeps ?_
  · exact State.requestPacket_keeps

theorem execReserveAck_keeps {b0 : Fin 14} {s : State} :
    KeepsOut s (execReserveAck b0 s) := by
  delta execReserveAck
  refine done_keeps ?_
  · exact State.responsePacket_keeps

theorem execFail_keeps {b0 : Fin 14} {s : State} :
    KeepsOut s (execFail b0 s) := by
  delta execFail
  refine done_keeps ?_
  · exact State.failPacket_keeps

theorem execBounce_keeps {b0 : Fin 14} {s : State} :
    KeepsOut s (execBounce b0 s) := by
  delta execBounce
  refine done_keeps ?_
  · exact State.bouncePacket_keeps

theorem execE2eResend_keeps {b0 : Nat} {s : State} :
    KeepsOut s (execE2eResend b0 s) := by
  delta execE2eResend
  refine done_keeps ?_
  · exact State.e2eResend_keeps

theorem execNynCollArm_keeps {b0 : Path} {s : State} :
    KeepsOut s (execNynCollArm b0 s) := by
  delta execNynCollArm
  refine done_keeps ?_
  · exact State.regWrite_keeps

theorem execNynCollDisarm_keeps {b0 : Path} {s : State} :
    KeepsOut s (execNynCollDisarm b0 s) := by
  delta execNynCollDisarm
  refine done_keeps ?_
  · exact State.regWrite_keeps

theorem execCollEntryStart_keeps {b0 : Nat} {s : State} :
    KeepsOut s (execCollEntryStart b0 s) := by
  delta execCollEntryStart
  refine done_keeps ?_
  · exact State.collStart_keeps

theorem execCollDeadline_keeps {b0 : Nat} {s : State} :
    KeepsOut s (execCollDeadline b0 s) := by
  delta execCollDeadline
  refine done_keeps ?_
  · exact State.collDeadline_keeps

theorem execReplaceWaitExpiry_keeps {b0 : Nat} {s : State} :
    KeepsOut s (execReplaceWaitExpiry b0 s) := by
  delta execReplaceWaitExpiry
  refine done_keeps ?_
  · exact State.replaceExpiry_keeps

theorem execCollGraceExpiry_keeps {b0 : Nat} {s : State} :
    KeepsOut s (execCollGraceExpiry b0 s) := by
  delta execCollGraceExpiry
  refine done_keeps ?_
  · exact State.graceExpiry_keeps

theorem execDefine_keeps {b0 : Path} {b1 : Fin 8} {b2 : Fin 16} {b3 b4 : List Byte} {s : State} :
    KeepsOut s (execDefine b0 b1 b2 b3 b4 s) := by
  delta execDefine
  refine done_keeps ?_
  · exact State.regWrite_keeps

theorem execUndefine_keeps {b0 : Path} {b1 : Fin 8} {b2 : Fin 16} {s : State} :
    KeepsOut s (execUndefine b0 b1 b2 s) := by
  delta execUndefine
  refine done_keeps ?_
  · exact State.regWrite_keeps

theorem execSwapIn_keeps {b0 : Path} {b1 : Fin 8} {b2 : Fin 16} {s : State} :
    KeepsOut s (execSwapIn b0 b1 b2 s) := by
  delta execSwapIn
  refine done_keeps ?_
  · exact State.regWrite_keeps

theorem execSwapOut_keeps {b0 : Path} {b1 : Fin 8} {b2 : Fin 16} {s : State} :
    KeepsOut s (execSwapOut b0 b1 b2 s) := by
  delta execSwapOut
  refine done_keeps ?_
  · exact State.regWrite_keeps

theorem execSwapStart_keeps {b0 : Fin 8} {s : State} :
    KeepsOut s (execSwapStart b0 s) := by
  delta execSwapStart
  refine done_keeps ?_
  · exact State.swapStart_keeps

theorem execSwapPieceDone_keeps {b0 : Fin 4} {b1 : Fin 64} {b2 : List Byte} {b3 : Ecc} {s : State} :
    KeepsOut s (execSwapPieceDone b0 b1 b2 b3 s) := by
  delta execSwapPieceDone
  refine done_keeps ?_
  · exact State.swapPieceDone_keeps

theorem execPartOnlineWrite_keeps {b0 : Path} {b1 : Fin 8} {b2 : Bool} {s : State} :
    KeepsOut s (execPartOnlineWrite b0 b1 b2 s) := by
  delta execPartOnlineWrite
  refine done_keeps ?_
  · exact State.regWrite_keeps

theorem execSrvSlotsWrite_keeps {b0 : Path} {b1 : Fin 8} {b2 : W32} {s : State} :
    KeepsOut s (execSrvSlotsWrite b0 b1 b2 s) := by
  delta execSrvSlotsWrite
  refine done_keeps ?_
  · exact State.regWrite_keeps

theorem execPrefillChunkDone_keeps {b0 : Fin 8} {s : State} :
    KeepsOut s (execPrefillChunkDone b0 s) := by
  delta execPrefillChunkDone
  refine done_keeps ?_
  · exact State.prefillChunkDone_keeps

theorem execHandoverMoveDone_keeps {b0 : Fin 4} {b1 : Fin 64} {b2 : Ecc} {s : State} :
    KeepsOut s (execHandoverMoveDone b0 b1 b2 s) := by
  delta execHandoverMoveDone
  refine done_keeps ?_
  · exact State.handoverDone_keeps

theorem execSamplerServe_keeps {b0 : Fin 8} {s : State} :
    KeepsOut s (execSamplerServe b0 s) := by
  delta execSamplerServe
  refine done_keeps ?_
  · exact State.samplerServe_keeps

theorem execWalkComplete_keeps {b0 : List Byte} {s : State} :
    KeepsOut s (execWalkComplete b0 s) := by
  delta execWalkComplete
  refine done_keeps ?_
  · exact State.walkComplete_keeps

theorem execInsertion_keeps {b0 : Fin 8} {b1 : List Byte} {s : State} :
    KeepsOut s (execInsertion b0 b1 s) := by
  delta execInsertion
  refine done_keeps ?_
  · exact State.insertion_keeps

theorem execInit_keeps {b0 : Path} {b1 : Fin 8} {b2 : Fin 16} {s : State} :
    KeepsOut s (execInit b0 b1 b2 s) := by
  delta execInit
  refine done_keeps ?_
  · exact State.regWrite_keeps

theorem execFlush_keeps {b0 : Path} {b1 : Fin 8} {b2 : Fin 16} {s : State} :
    KeepsOut s (execFlush b0 b1 b2 s) := by
  delta execFlush
  refine done_keeps ?_
  · exact State.regWrite_keeps

theorem execNop_keeps {b0 : Fin 9} {s : State} :
    KeepsOut s (execNop b0 s) := by
  delta execNop
  refine done_keeps ?_
  · exact State.cmdNop_keeps

theorem execAlloc_keeps {b0 : Fin 9} {s : State} :
    KeepsOut s (execAlloc b0 s) := by
  delta execAlloc
  refine done_keeps ?_
  · exact State.cmdAlloc_keeps

theorem execRelease_keeps {b0 : Fin 9} {s : State} :
    KeepsOut s (execRelease b0 s) := by
  delta execRelease
  refine done_keeps ?_
  · exact State.cmdRelease_keeps

theorem execCmdMove_keeps {b0 : Fin 9} {s : State} :
    KeepsOut s (execCmdMove b0 s) := by
  delta execCmdMove
  refine done_keeps ?_
  · exact State.cmdMove_keeps

theorem execTouch_keeps {b0 : Fin 9} {s : State} :
    KeepsOut s (execTouch b0 s) := by
  delta execTouch
  refine done_keeps ?_
  · exact State.cmdTouch_keeps

theorem execDmaGo_keeps {b0 : Fin 9} {s : State} :
    KeepsOut s (execDmaGo b0 s) := by
  delta execDmaGo
  refine done_keeps ?_
  · exact State.cmdDmaGo_keeps

theorem execDmaAbort_keeps {b0 : Fin 9} {s : State} :
    KeepsOut s (execDmaAbort b0 s) := by
  delta execDmaAbort
  refine done_keeps ?_
  · exact State.cmdDmaAbort_keeps

theorem execDmaClear_keeps {b0 : Fin 9} {s : State} :
    KeepsOut s (execDmaClear b0 s) := by
  delta execDmaClear
  refine done_keeps ?_
  · exact State.cmdDmaClear_keeps

theorem execCtxGo_keeps {b0 : Fin 9} {s : State} :
    KeepsOut s (execCtxGo b0 s) := by
  delta execCtxGo
  refine done_keeps ?_
  · exact State.cmdCtxGo_keeps

theorem execCtxStop_keeps {b0 : Fin 9} {s : State} :
    KeepsOut s (execCtxStop b0 s) := by
  delta execCtxStop
  refine done_keeps ?_
  · exact State.cmdCtxStop_keeps

theorem execCtxClear_keeps {b0 : Fin 9} {s : State} :
    KeepsOut s (execCtxClear b0 s) := by
  delta execCtxClear
  refine done_keeps ?_
  · exact State.cmdCtxClear_keeps

theorem execCmdSubmit_keeps {b0 : Fin 9} {b1 : List Byte} {s : State} :
    KeepsOut s (execCmdSubmit b0 b1 s) := by
  delta execCmdSubmit
  refine done_keeps ?_
  · exact State.cmdSubmit_keeps

theorem execCancel_keeps {b0 : Fin 9} {s : State} :
    KeepsOut s (execCancel b0 s) := by
  delta execCancel
  refine done_keeps ?_
  · exact State.cmdCancel_keeps

theorem execPause_keeps {b0 : Fin 9} {s : State} :
    KeepsOut s (execPause b0 s) := by
  delta execPause
  refine done_keeps ?_
  · exact State.cmdPause_keeps

theorem execResume_keeps {b0 : Fin 9} {s : State} :
    KeepsOut s (execResume b0 s) := by
  delta execResume
  refine done_keeps ?_
  · exact State.cmdResume_keeps

theorem execGrant_keeps {b0 : Fin 9} {s : State} :
    KeepsOut s (execGrant b0 s) := by
  delta execGrant
  refine done_keeps ?_
  · exact State.cmdGrant_keeps

theorem execRevoke_keeps {b0 : Fin 9} {s : State} :
    KeepsOut s (execRevoke b0 s) := by
  delta execRevoke
  refine done_keeps ?_
  · exact State.cmdRevoke_keeps

theorem execRevokeComplete_keeps {b0 : Nat} {s : State} :
    KeepsOut s (execRevokeComplete b0 s) := by
  delta execRevokeComplete
  refine done_keeps ?_
  · exact State.revokeComplete_keeps

theorem execAdmissionEvaluation_keeps {s : State} :
    KeepsOut s (execAdmissionEvaluation s) := by
  delta execAdmissionEvaluation
  refine done_keeps ?_
  · exact State.evaluateAll_keeps

theorem execKvLimitWrite_keeps {b0 : Path} {b1 : Fin 8} {b2 : W32} {s : State} :
    KeepsOut s (execKvLimitWrite b0 b1 b2 s) := by
  delta execKvLimitWrite
  refine done_keeps ?_
  · exact State.regWrite_keeps

theorem execAcctReset_keeps {b0 : Path} {b1 : Fin 8} {s : State} :
    KeepsOut s (execAcctReset b0 b1 s) := by
  delta execAcctReset
  refine done_keeps ?_
  · exact State.regWrite_keeps

theorem execRescan_keeps {b0 : Path} {s : State} :
    KeepsOut s (execRescan b0 s) := by
  delta execRescan
  refine done_keeps ?_
  · exact State.regWrite_keeps

theorem execEnumeration_keeps {b0 : List FoundCtrl} {b1 : Bool} {b2 : Nat} {s : State} :
    KeepsOut s (execEnumeration b0 b1 b2 s) := by
  delta execEnumeration
  refine done_keeps ?_
  · exact State.enumeration_keeps

theorem execNsOwnerWrite_keeps {b0 : Path} {b1 : W32} {s : State} :
    KeepsOut s (execNsOwnerWrite b0 b1 s) := by
  delta execNsOwnerWrite
  refine done_keeps ?_
  · exact State.regWrite_keeps

theorem execPortBifurcateWrite_keeps {b0 : Path} {b1 : W32} {s : State} :
    KeepsOut s (execPortBifurcateWrite b0 b1 s) := by
  delta execPortBifurcateWrite
  refine done_keeps ?_
  · exact State.regWrite_keeps

theorem execControllerFatal_keeps {b0 : Fin 16} {s : State} :
    KeepsOut s (execControllerFatal b0 s) := by
  delta execControllerFatal
  refine done_keeps ?_
  · exact State.ctrlFatal_keeps

theorem execIntakeLinkDown_keeps {b0 : Fin 4} {s : State} :
    KeepsOut s (execIntakeLinkDown b0 s) := by
  delta execIntakeLinkDown
  refine done_keeps ?_
  · exact State.intakeLinkDown_keeps

theorem execControllerResetEnd_keeps {b0 : Fin 16} {b1 : Bool} {s : State} :
    KeepsOut s (execControllerResetEnd b0 b1 s) := by
  delta execControllerResetEnd
  refine done_keeps ?_
  · exact State.ctrlResetEnd_keeps

theorem execAsyncEvent_keeps {b0 : Fin 16} {s : State} :
    KeepsOut s (execAsyncEvent b0 s) := by
  delta execAsyncEvent
  refine done_keeps ?_
  · exact State.asyncEvent_keeps

theorem execJobTake_keeps {b0 : Fin 8} {s : State} :
    KeepsOut s (execJobTake b0 s) := by
  delta execJobTake
  refine done_keeps ?_
  · exact State.takeJob_keeps

theorem execDecodeEngineStart_keeps {b0 : Fin 4} {s : State} :
    KeepsOut s (execDecodeEngineStart b0 s) := by
  delta execDecodeEngineStart
  refine done_keeps ?_
  · exact State.engineStart_keeps

theorem execNvmeCompletion_keeps {b0 : Fin 8} {b1 b2 b3 b4 : Nat} {b5 : Bool} {b6 : List Byte} {s : State} :
    KeepsOut s (execNvmeCompletion b0 b1 b2 b3 b4 b5 b6 s) := by
  delta execNvmeCompletion
  refine done_keeps ?_
  · exact State.nvmeCompletion_keeps

theorem execNvmeCmdTimeout_keeps {b0 : Fin 8} {b1 b2 : Nat} {s : State} :
    KeepsOut s (execNvmeCmdTimeout b0 b1 b2 s) := by
  delta execNvmeCmdTimeout
  refine done_keeps ?_
  · exact State.nvmeTimeout_keeps

theorem execIntakeRetry_keeps {b0 : Fin 8} {b1 b2 : Nat} {s : State} :
    KeepsOut s (execIntakeRetry b0 b1 b2 s) := by
  delta execIntakeRetry
  refine done_keeps ?_
  · exact State.intakeRetry_keeps

theorem execStreamFault_keeps {b0 : Fin 8} {b1 : Nat} {s : State} :
    KeepsOut s (execStreamFault b0 b1 s) := by
  delta execStreamFault
  refine done_keeps ?_
  · exact State.streamFault_keeps

theorem execIntakeJobEnd_keeps {b0 : Fin 8} {b1 : Nat} {s : State} :
    KeepsOut s (execIntakeJobEnd b0 b1 s) := by
  delta execIntakeJobEnd
  refine done_keeps ?_
  · exact State.jobEnd_keeps

theorem execRingEnableWrite_keeps {b0 : Path} {b1 : Fin 8} {b2 : W32} {s : State} :
    KeepsOut s (execRingEnableWrite b0 b1 b2 s) := by
  delta execRingEnableWrite
  refine done_keeps ?_
  · exact State.regWrite_keeps

theorem execStart_keeps {b0 : Path} {b1 : Fin 4} {s : State} :
    KeepsOut s (execStart b0 b1 s) := by
  delta execStart
  refine done_keeps ?_
  · exact State.regWrite_keeps

theorem execStop_keeps {b0 : Path} {b1 : Fin 4} {s : State} :
    KeepsOut s (execStop b0 b1 s) := by
  delta execStop
  refine done_keeps ?_
  · exact State.regWrite_keeps

theorem execTickStart_keeps {b0 : Fin 4} {s : State} :
    KeepsOut s (execTickStart b0 s) := by
  delta execTickStart
  refine done_keeps ?_
  · exact State.tickStart_keeps

theorem execTickEnd_keeps {b0 : Fin 4} {s : State} :
    KeepsOut s (execTickEnd b0 s) := by
  delta execTickEnd
  refine done_keeps ?_
  · exact State.tickEnd_keeps

theorem execAccessFailed_keeps {b0 : Fin 4} {b1 : Fail} {b2 b3 : Nat} {s : State} :
    KeepsOut s (execAccessFailed b0 b1 b2 b3 s) := by
  delta execAccessFailed
  refine done_keeps ?_
  · exact State.tickFailed_keeps

theorem execHifDbCmd_keeps {b0 : Fin 9} {b1 : W32} {s : State} :
    KeepsOut s (execHifDbCmd b0 b1 s) := by
  delta execHifDbCmd
  refine done_keeps ?_
  · exact State.dbCmd_keeps

theorem execHifDbCpl_keeps {b0 : Fin 9} {b1 : W32} {s : State} :
    KeepsOut s (execHifDbCpl b0 b1 s) := by
  delta execHifDbCpl
  refine done_keeps ?_
  · exact State.dbCpl_keeps

theorem execHifDbStr_keeps {b0 : Fin 9} {b1 : W32} {s : State} :
    KeepsOut s (execHifDbStr b0 b1 s) := by
  delta execHifDbStr
  refine done_keeps ?_
  · exact State.dbStr_keeps

theorem execCommandTake_keeps {b0 : Fin 9} {b1 : List Byte} {s : State} :
    KeepsOut s (execCommandTake b0 b1 s) := by
  delta execCommandTake
  refine done_keeps ?_
  · exact State.commandTake_keeps

theorem execCompletionWrite_keeps {b0 : Fin 9} {s : State} :
    KeepsOut s (execCompletionWrite b0 s) := by
  delta execCompletionWrite
  refine done_keeps ?_
  · exact State.completionWrite_keeps

theorem execRingCtrlWrite_keeps {b0 : Path} {b1 : Fin 9} {b2 : W32} {s : State} :
    KeepsOut s (execRingCtrlWrite b0 b1 b2 s) := by
  delta execRingCtrlWrite
  refine done_keeps ?_
  · exact State.regWrite_keeps

theorem execApertureAccess_keeps {b0 : Fin 9} {b1 b2 : Nat} {b3 : Option (List Byte)} {b4 : Ecc} {s : State} :
    KeepsOut s (execApertureAccess b0 b1 b2 b3 b4 s) := by
  delta execApertureAccess
  refine done_keeps ?_
  · exact State.aperture_keeps

theorem execFunctionLevelReset_keeps {b0 : Fin 9} {s : State} :
    KeepsOut s (execFunctionLevelReset b0 s) := by
  delta execFunctionLevelReset
  refine done_keeps ?_
  · exact State.flr_keeps

theorem execHostLinkUp_keeps {b0 b1 : Nat} {s : State} :
    KeepsOut s (execHostLinkUp b0 b1 s) := by
  delta execHostLinkUp
  refine done_keeps ?_
  · exact State.hostLinkUp_keeps

theorem execHostLinkDown_keeps {s : State} :
    KeepsOut s (execHostLinkDown s) := by
  delta execHostLinkDown
  refine done_keeps ?_
  · exact State.hostLinkDown_keeps

theorem execPwrCmdRun_keeps {b0 : Path} {s : State} :
    KeepsOut s (execPwrCmdRun b0 s) := by
  delta execPwrCmdRun
  refine done_keeps ?_
  · exact State.regWrite_keeps

theorem execPwrCmdIdle_keeps {b0 : Path} {s : State} :
    KeepsOut s (execPwrCmdIdle b0 s) := by
  delta execPwrCmdIdle
  refine done_keeps ?_
  · exact State.regWrite_keeps

theorem execPwrCmdDoze_keeps {b0 : Path} {s : State} :
    KeepsOut s (execPwrCmdDoze b0 s) := by
  delta execPwrCmdDoze
  refine done_keeps ?_
  · exact State.regWrite_keeps

theorem execPwrCmdKeep_keeps {b0 : Path} {s : State} :
    KeepsOut s (execPwrCmdKeep b0 s) := by
  delta execPwrCmdKeep
  refine done_keeps ?_
  · exact State.regWrite_keeps

theorem execHostL2Entry_goes {s : State} :
    GoesOut s (execHostL2Entry s) := by
  delta execHostL2Entry
  refine done_goes ?_
  · exact State.hostL2_goes

theorem execKeepL2Timeout_keeps {s : State} :
    KeepsOut s (execKeepL2Timeout s) := by
  delta execKeepL2Timeout
  refine done_keeps ?_
  · exact State.keepTimeout_keeps

theorem execDomainPowerOn_keeps {b0 : Fin 56} {b1 : Option Nat} {s : State} :
    KeepsOut s (execDomainPowerOn b0 b1 s) := by
  delta execDomainPowerOn
  refine done_keeps ?_
  · exact State.domainPowerOn_keeps

theorem execMainLost_goes {s : State} :
    GoesOut s (execMainLost s) := by
  delta execMainLost
  refine done_goes ?_
  · exact State.mainLost_goes

theorem execRailFault_goes {s : State} :
    GoesOut s (execRailFault s) := by
  delta execRailFault
  refine done_goes ?_
  · exact State.railFault_goes

theorem execThermalSample_goes {b0 : Fin 40} {b1 : Int} {s : State} :
    GoesOut s (execThermalSample b0 b1 s) := by
  delta execThermalSample
  refine done_goes ?_
  · exact State.thermalSample_goes

theorem execComparatorWindow_keeps {b0 : Bool} {b1 : Nat} {s : State} :
    KeepsOut s (execComparatorWindow b0 b1 s) := by
  delta execComparatorWindow
  refine done_keeps ?_
  · exact State.comparator_keeps

theorem execSscWrite_keeps {b0 : Path} {b1 : Fin 3} {b2 : W32} {s : State} :
    KeepsOut s (execSscWrite b0 b1 b2 s) := by
  delta execSscWrite
  refine done_keeps ?_
  · exact State.regWrite_keeps

theorem execPerstAssert_goes {s : State} :
    GoesOut s (execPerstAssert s) := by
  delta execPerstAssert
  refine done_goes ?_
  · exact State.perstAssert_goes

theorem execPerstRelease_goes {b0 : Nat} {s : State} :
    GoesOut s (execPerstRelease b0 s) := by
  delta execPerstRelease
  refine done_goes ?_
  · exact State.perstRelease_goes

theorem execSelfTestComplete_keeps {b0 b1 : Nat} {s : State} :
    KeepsOut s (execSelfTestComplete b0 b1 s) := by
  delta execSelfTestComplete
  refine done_keeps ?_
  · exact State.selfTest_keeps

theorem execStackTrainingEnd_keeps {b0 : Nat} {s : State} :
    KeepsOut s (execStackTrainingEnd b0 s) := by
  delta execStackTrainingEnd
  refine done_keeps ?_
  · exact State.stackTraining_keeps

theorem execLinksStageEnd_keeps {s : State} :
    KeepsOut s (execLinksStageEnd s) := by
  delta execLinksStageEnd
  refine done_keeps ?_
  · exact State.linksEnd_keeps

theorem execLogWriterDrain_keeps {s : State} :
    KeepsOut s (execLogWriterDrain s) := by
  delta execLogWriterDrain
  refine done_keeps ?_
  · exact State.logDrain_keeps

theorem execTallyFlush_keeps {s : State} :
    KeepsOut s (execTallyFlush s) := by
  delta execTallyFlush
  refine done_keeps ?_
  · exact State.tallyFlush_keeps

theorem execTemperatureSample_keeps {s : State} :
    KeepsOut s (execTemperatureSample s) := by
  delta execTemperatureSample
  refine done_keeps ?_
  · exact State.temperatureSample_keeps

theorem execLogReadSeq_keeps {b0 : Path} {b1 : W64} {s : State} :
    KeepsOut s (execLogReadSeq b0 b1 s) := by
  delta execLogReadSeq
  refine done_keeps ?_
  · exact State.regWrite_keeps

theorem execLogTimeSet_keeps {b0 : Path} {b1 : W64} {s : State} :
    KeepsOut s (execLogTimeSet b0 b1 s) := by
  delta execLogTimeSet
  refine done_keeps ?_
  · exact State.regWrite_keeps

theorem execFoothillLinkDown_keeps {b0 : Fin 2} {s : State} :
    KeepsOut s (execFoothillLinkDown b0 s) := by
  delta execFoothillLinkDown
  refine done_keeps ?_
  · exact State.foothillDown_keeps

theorem execI2cRead_keeps {b0 : Nat} {b1 : Bool} {s : State} :
    KeepsOut s (execI2cRead b0 b1 s) := by
  delta execI2cRead
  refine done_keeps ?_
  · exact State.i2cRead_keeps

theorem execI2cWrite_keeps {b0 : Nat} {b1 : W32} {b2 : Bool} {s : State} :
    KeepsOut s (execI2cWrite b0 b1 b2 s) := by
  delta execI2cWrite
  refine done_keeps ?_
  · exact State.i2cWrite_keeps

theorem execBypass_keeps {b0 : Bool} {s : State} :
    KeepsOut s (execBypass b0 s) := by
  delta execBypass
  refine done_keeps ?_
  · exact State.jtagBypass_keeps

theorem execIdcode_keeps {s : State} :
    KeepsOut s (execIdcode s) := by
  delta execIdcode
  refine done_keeps ?_
  · exact State.jtagIdcode_keeps

theorem execSamplePreload_keeps {b0 b1 : BitVec 26} {s : State} :
    KeepsOut s (execSamplePreload b0 b1 s) := by
  delta execSamplePreload
  refine done_keeps ?_
  · exact State.jtagSample_keeps

theorem execExtest_keeps {b0 b1 : BitVec 26} {s : State} :
    KeepsOut s (execExtest b0 b1 s) := by
  delta execExtest
  refine done_keeps ?_
  · exact State.jtagExtest_keeps

theorem execHighz_keeps {b0 : Bool} {s : State} :
    KeepsOut s (execHighz b0 s) := by
  delta execHighz
  refine done_keeps ?_
  · exact State.jtagHighz_keeps

theorem execClamp_keeps {b0 : Bool} {s : State} :
    KeepsOut s (execClamp b0 s) := by
  delta execClamp
  refine done_keeps ?_
  · exact State.jtagClamp_keeps

theorem execDebug_keeps {b0 : Nat} {b1 : W32} {b2 : Bool} {s : State} :
    KeepsOut s (execDebug b0 b1 b2 s) := by
  delta execDebug
  refine done_keeps ?_
  · exact State.jtagDebug_keeps

end Sys2Proof.Machine
end

