-- ==== Sys2Proof/WellFormed.lean ====
section
/-! DEFINITION. Which commands are well formed: operands whose range their type does not give. A command that is not has
no place in the table; `exec` is total on it all the same. -/
namespace Sys2Proof

open Machine

/-- A register access of 4 bytes, or of 8 at a multiple of 8 (R7). -/
def accessFormOk (off size : Nat) : Bool := (size == 4 && off % 4 == 0) || (size == 8 && off % 8 == 0)

/-- A scheduled item that exists: a Scaler entry below 131,072, a collective entry below 256. -/
def itemOk : Item → Bool
  | .scaler _ k => decide (k < 131072)
  | .coll e => decide (e < 256)
  | .tileCtx _ _ => true
  | .dmaCh _ _ => true
  | .update _ => true
  | .intake _ _ => true

/-- A waiter that exists (Table 10.8). -/
def waiterOk : Waiter → Bool
  | .tileCtx t c => decide (t < 24) && decide (c < 4)
  | .dmaCh d n => decide (d < 4) && decide (n < 64)
  | .update u => decide (u < 8)
  | .hostWatch h => decide (h < 64)
  | .coll e => decide (e < 256)

/-- An uncorrectable error lies within the range read. -/
def eccIn (base len : Nat) : Ecc → Bool
  | .uncorrectable a => decide (base ≤ a) && decide (a < base + len)
  | .clean => true
  | .corrected => true
  | .poison => false

/-- The command is well formed. -/
def Instr.wf : Instr → Bool
  | .registerWrite _ off size _ _ => accessFormOk off size
  | .rcRead _ off size => accessFormOk off size
  | .lowerHalfRead _ off => off % 8 == 0
  | .upperHalfRead _ off => off % 8 == 0
  | .lowerHalfWrite _ off _ => off % 8 == 0
  | .upperHalfWrite _ off _ _ => off % 8 == 0
  | .phaseAdvance n => n != 0
  | .stepWrap => true
  | .phasePointReached item => itemOk item
  | .itemStart item => itemOk item
  | .deadlineReached item _ _ => itemOk item
  | .phaseFrameReceive frame _ => frame.length == 17
  | .frameRepeat => true
  | .phaseFrameSend => true
  | .frameLossTimeout => true
  | .backoffExpiry => true
  | .cadenceLost => true
  | .cadEnable _ => true
  | .cadDisable _ => true
  | .swHold _ _ => true
  | .rankWrite _ _ => true
  | .masterRun _ => true
  | .masterStop _ => true
  | .masterPeriodWrite _ _ => true
  | .holdNFall => true
  | .holdNRise => true
  | .holdTimeout item => itemOk item
  | .loadFull _ => true
  | .loadPartial _ _ => true
  | .verifyOnly _ => true
  | .unload _ => true
  | .abort _ => true
  | .loadFlash _ => true
  | .imageReadComplete _ => true
  | .imageSourceTimeout => true
  | .imageVerifyComplete => true
  | .partialCommit => true
  | .reloadTimeout => true
  | .keyProgram _ _ ext => ext.length == 48
  | .keyRevoke _ _ => true
  | .svFloorWrite _ _ => true
  | .patrolScrub stack ecc => eccIn (0x001000000000 + stack.val * 0x000C00000000) 0x000C00000000 ecc
  | .granuleZero base => base % 65536 == 0
  | .allocRetry => true
  | .moveComplete _ _ _ => true
  | .tierRetry _ _ _ => true
  | .submit _ _ _ => true
  | .withdraw _ _ => true
  | .dryRun _ _ _ => true
  | .planningPassEnd _ => true
  | .evictionRouteDone _ _ _ => true
  | .streamCfgWrite _ _ _ => true
  | .outboundLegComplete _ entry _ _ => decide (entry < 131072)
  | .fetchBackStart _ entry => decide (entry < 131072)
  | .fetchBackComplete _ entry _ _ => decide (entry < 131072)
  | .regrowStart _ entry => decide (entry < 131072)
  | .regrowComplete _ entry => decide (entry < 131072)
  | .parkMoveStart _ _ => true
  | .resumeComplete _ _ => true
  | .slotGrant _ => true
  | .dmaChGo _ _ _ => true
  | .dmaChAbort _ _ _ => true
  | .dmaChClear _ _ _ => true
  | .descriptorFetch _ _ _ _ => true
  | .descriptorStart _ => true
  | .copy _ _ _ _ => true
  | .fill _ _ => true
  | .compare _ _ _ _ => true
  | .move _ _ _ _ => true
  | .pack _ _ _ _ => true
  | .unpack _ _ _ _ => true
  | .transpose _ _ _ _ => true
  | .gather _ _ _ _ => true
  | .scatter _ _ _ _ => true
  | .descriptorComplete _ _ => true
  | .dmaReadTimeout _ _ _ _ _ => true
  | .transferFailure _ _ _ _ _ _ => true
  | .wload _ _ _ => true
  | .mmpass _ _ _ => true
  | .accout _ _ => true
  | .accdump _ _ => true
  | .accin _ _ _ => true
  | .add _ _ => true
  | .sub _ _ => true
  | .mul _ _ => true
  | .fma _ _ => true
  | .min _ _ => true
  | .max _ _ => true
  | .rcp _ _ => true
  | .rsqrt _ _ => true
  | .sqrt _ _ => true
  | .exp2 _ _ => true
  | .log2 _ _ => true
  | .cvt _ _ => true
  | .rand _ _ => true
  | .drop _ _ => true
  | .rsum _ _ => true
  | .sel _ _ => true
  | .vld _ _ _ => true
  | .vst _ _ => true
  | .keyset _ _ => true
  | .srset _ _ => true
  | .dmago _ _ => true
  | .endOp _ _ => true
  | .tilCtxGo _ _ _ => true
  | .tilCtxStop _ _ _ => true
  | .tilCtxClear _ _ _ => true
  | .csig _ _ => true
  | .cwait _ _ => true
  | .fence _ _ => true
  | .phase _ _ => true
  | .own _ _ => true
  | .cairnWaitComplete w => waiterOk w
  | .waitTimeout w => waiterOk w
  | .crnHcAdd _ _ _ => true
  | .crnHcSet _ _ _ _ => true
  | .hostWatchArm _ _ _ => true
  | .hostWatchFire _ => true
  | .crnDebugSet _ _ => true
  | .remoteSignalTimeout _ => true
  | .arm _ _ => true
  | .disarm _ _ => true
  | .jobEligible _ => true
  | .checkPassEnd _ _ => true
  | .applyPassEnd _ _ => true
  | .lsExpWrite _ _ _ _ => true
  | .linkFrameReceive _ frame => frame.length == 272
  | .linkFrameSend _ => true
  | .linkResend _ => true
  | .retrain _ _ => true
  | .trainingResult _ _ _ _ => true
  | .trainingTimeout _ => true
  | .lossOfLock _ => true
  | .portEnable _ _ _ => true
  | .nynFailedWrite _ _ => true
  | .notice _ _ _ _ => true
  | .readReq _ => true
  | .readData _ => true
  | .write _ => true
  | .writeAck _ => true
  | .signal _ => true
  | .signalAck _ => true
  | .collData _ => true
  | .collAck _ => true
  | .reserve _ => true
  | .reserveAck _ => true
  | .fail _ => true
  | .bounce _ => true
  | .e2eResend _ => true
  | .nynCollArm _ => true
  | .nynCollDisarm _ => true
  | .collEntryStart entry => decide (entry < 256)
  | .collDeadline entry => decide (entry < 256)
  | .replaceWaitExpiry entry => decide (entry < 256)
  | .collGraceExpiry entry => decide (entry < 256)
  | .define _ _ _ _ _ => true
  | .undefine _ _ _ => true
  | .swapIn _ _ _ => true
  | .swapOut _ _ _ => true
  | .swapStart _ => true
  | .swapPieceDone _ _ _ _ => true
  | .partOnlineWrite _ _ _ => true
  | .srvSlotsWrite _ _ _ => true
  | .prefillChunkDone _ => true
  | .handoverMoveDone _ _ _ => true
  | .samplerServe _ => true
  | .walkComplete _ => true
  | .insertion _ _ => true
  | .init _ _ _ => true
  | .flush _ _ _ => true
  | .nop _ => true
  | .alloc _ => true
  | .release _ => true
  | .cmdMove _ => true
  | .touch _ => true
  | .dmaGo _ => true
  | .dmaAbort _ => true
  | .dmaClear _ => true
  | .ctxGo _ => true
  | .ctxStop _ => true
  | .ctxClear _ => true
  | .cmdSubmit _ _ => true
  | .cancel _ => true
  | .pause _ => true
  | .resume _ => true
  | .grant _ => true
  | .revoke _ => true
  | .revokeComplete window => decide (window < 64)
  | .admissionEvaluation => true
  | .kvLimitWrite _ _ _ => true
  | .acctReset _ _ => true
  | .rescan _ => true
  | .enumeration found _ links => decide (found.length ≤ 16) && decide (links < 16)
  | .nsOwnerWrite _ _ => true
  | .portBifurcateWrite _ _ => true
  | .controllerFatal _ => true
  | .intakeLinkDown _ => true
  | .controllerResetEnd _ _ => true
  | .asyncEvent _ => true
  | .jobTake _ => true
  | .decodeEngineStart _ => true
  | .nvmeCompletion _ _ _ sct sc _ _ => decide (sct < 8) && decide (sc < 256)
  | .nvmeCmdTimeout _ _ _ => true
  | .intakeRetry _ _ _ => true
  | .streamFault _ _ => true
  | .intakeJobEnd _ _ => true
  | .ringEnableWrite _ _ _ => true
  | .start _ _ => true
  | .stop _ _ => true
  | .tickStart _ => true
  | .tickEnd _ => true
  | .accessFailed _ _ _ _ => true
  | .hifDbCmd _ _ => true
  | .hifDbCpl _ _ => true
  | .hifDbStr _ _ => true
  | .commandTake _ entry => entry.length == 64
  | .completionWrite _ => true
  | .ringCtrlWrite _ _ _ => true
  | .apertureAccess _ _ size data _ => decide (0 < size) && (match data with | some bs => bs.length == size | none => true)
  | .functionLevelReset _ => true
  | .pwrCmdRun _ => true
  | .pwrCmdIdle _ => true
  | .pwrCmdDoze _ => true
  | .pwrCmdKeep _ => true
  | .hostL2Entry => true
  | .keepL2Timeout => true
  | .domainPowerOn _ found => match found with | some g => decide (g ≤ 2048) | none => true
  | .mainLost => true
  | .railFault => true
  | .thermalSample _ _ => true
  | .comparatorWindow _ _ => true
  | .sscWrite _ _ _ => true
  | .perstAssert => true
  | .perstRelease straps => decide (straps < 4096)
  | .selfTestComplete bad fault => decide (bad < 2 ^ 24) && decide (fault < 256)
  | .stackTrainingEnd bad => decide (bad < 256)
  | .linksStageEnd => true
  | .logWriterDrain => true
  | .tallyFlush => true
  | .temperatureSample => true
  | .logReadSeq _ _ => true
  | .logTimeSet _ _ => true
  | .i2cRead off _ => off % 4 == 0
  | .i2cWrite off _ _ => off % 4 == 0
  | .bypass _ => true
  | .idcode => true
  | .samplePreload _ _ => true
  | .extest _ _ => true
  | .highz _ => true
  | .clamp _ => true
  | .debug addr _ _ => addr % 4 == 0
  | .hostLinkUp rate width => decide (rate < 16) && decide (width < 32)
  | .hostLinkDown => true
  | .foothillLinkDown _ => true

end Sys2Proof
end

