-- ==== Sys2Proof/Tests/Slice0.lean ====
section
/-! SUPPORT. The model's own tests. First the states and commands that the witnesses and tests are about; then, for every
statement that has premises, one theorem that states and operands meet the premises of each of its clauses; then the
ill-formed commands that Instr.wf refuses, and a few values and steps worked out by hand from the spec. -/
namespace Sys2Proof.Tests
set_option Elab.async false
open Sys2Proof Sys2Proof.Machine

/-! ### States for the witnesses -/

def le (n v : Nat) : List Byte := (List.range n).map (fun i => BitVec.ofNat 8 (v / 256 ^ i))

/-- A record of PARTITIONS. -/
def partRec (id flags vf tiles ch0 ch2 hc msix : Nat) : List Byte :=
  le 1 id ++ le 1 flags ++ le 1 vf ++ le 1 0 ++ le 4 tiles ++ le 8 ch0 ++ le 8 ch0 ++ le 8 ch2 ++ le 8 ch2 ++ le 4 100
    ++ le 8 hc ++ le 2 msix ++ le 2 4 ++ List.replicate 8 0

/-- Partition 0 is served by VF 1 and has tiles 0 to 19; partition 1 serves requests for VF 2. -/
def partBody : List Byte :=
  le 1 2 ++ List.replicate 15 0
    ++ partRec 0 4 1 0x0FFFFF 0x7FFFFFFFFFFFFFFF 0 0xFFFFFFFF 0
    ++ partRec 1 2 2 0xF00000 0 0x7FFFFFFFFFFFFFFF 0xFFFFFFFF00000000 4

/-- Logical ID 0 of eight members, two ports. -/
def identBody : List Byte := le 1 0 ++ le 3 0 ++ le 4 3 ++ le 8 0xFF ++ List.replicate 16 0

/-- Windows over Crest, Slope and Foothill, and quotas of the lower tiers. -/
def winBody : List Byte :=
  le 4 3 ++ le 4 1000 ++ le 4 1000 ++ le 4 0
    ++ le 8 0 ++ le 4 0x1000 ++ le 1 7 ++ le 1 0 ++ le 2 0
    ++ le 8 (slopeBase 0) ++ le 4 0x600000 ++ le 1 7 ++ le 1 1 ++ le 2 0
    ++ le 8 (foothillBase 0) ++ le 4 0x8000000 ++ le 1 7 ++ le 1 2 ++ le 2 0

def image : List Section :=
  [{ type := 1, scope := 0xFF, inst := 0, body := identBody }, { type := 2, scope := 0xFF, inst := 0, body := partBody },
   { type := 4, scope := 0, inst := 0, body := winBody }, { type := 4, scope := 1, inst := 0, body := winBody }]

/-- READY, everything on, an image in force. -/
def W : State :=
  { hif := { linkUp := true }, pwr := { perst := false, stage := 9, domains := 2 ^ 56 - 1 },
    img := { state := .active, sections := image } }

/-- A 64-bit register with a value, and with halves read and written. -/
def WA : State := W.rputN .cadMasterStart 0x123456789AB
def WAl : State :=
  { WA with latch := [(0, (RegName.cadMasterStart.key 0 0, 5))], held := [(0, (RegName.cadMasterStart.key 0 0, 6))] }

/-! Cadence. -/

def Wcad : State := W.rputN .cadCtrl 1
def Wlock : State := { Wcad with cad := { state := .locked, phaseValid := true, step := 7, phase := 1000, period := 0x10000 } }
def Wfrozen : State := { Wlock with cad := { Wlock.cad with frozenHold := true } }
def Wfly : State := { Wlock with cad := { Wlock.cad with state := .flywheel } }
def Wrep : State := { W.rputN .cadCtrl 3 with cad := { lastRx := some ({ rank := 1, delay := 7 }, true) } }
def Wmaster : State := { W.rputN .cadCtrl 0x11 with cad := { Wlock.cad with master := true, holdIn := true } }
def Wback : State := { W.rputN .cadCtrl 0x11 with cad := { backoff := true } }
def goodFrame : List Byte := Frame.bytes { rank := 1, step := 5, phase := 77, period := 0x10000, delay := 20 }
def shortFrame : List Byte := Frame.bytes { rank := 1, period := 0x1FF }

/-- Context 2 of tile 3. -/
def withCtx (s : State) (x : Ctx) : State := s.setCtx 3 2 x
def Wphase : State := withCtx Wlock { st := .wait, wait := .phase, pc := 0x40, startAt := some 9 }
def Wcairn : State :=
  { withCtx Wlock { st := .wait, wait := .cairn, pc := 0x40 } with
    crn := { waits := [{ who := .tileCtx 3 2, ref := 5, target := 1, part := 0, fired := true }] } }
def Wdead (stall : Bool) : State :=
  (withCtx Wlock { st := .run, pc := 0x40, deadline := some 9 }).rputN .tilCtxCfg (if stall then 2 else 0) 3 2
def Wheld : State :=
  { withCtx Wlock { st := .run, pc := 0x40, late := true } with cad := { Wlock.cad with holdItems := [.tileCtx 3 2] } }

/-! The image loader. -/

def Wno : State := { W with img := {} }
/-- A full load from address 0, in a given state. -/
def Wstaging (st : LoadState) : State :=
  State.rputN { W with img := { state := st, before := .empty, op := .full } } .imgSrcLen 128
def Wkeys : State := { W with img := { W.img with keys := [(2, List.replicate 48 1)] } }
def rejection : Reject :=
  match (Wstaging .verifying).checkImage .full [] 0 with
  | some r => r
  | none => { code := 0 }

/-! Memory and the Scaler. -/

def withHold (s : State) (id : Nat) (h : Holding) : State := { s with tier := { s.tier with holdings := [(id, h)] } }
def withChan (s : State) (d n : Nat) (c : Chan) : State := s.setChan d n c
def Wscrub : State := withHold (W.rputN .sclScrubCtrl 1) 7 { owner := 0, base := slopeBase 3, size := 1 }
def Wtag : State := { W with mem := [(0x20005, 9), (0x30000, 8)], tier := { tags := [(0x10000, 2, 0)] } }

/-- A ledger of one entry, for partition 0: one granule of Slope, produced at phase 10, used at 20 to 30. -/
def entryHead : List Byte :=
  le 2 1 ++ [1, 0, 0, 1, 2, 0, 0, 2, 0, 0] ++ le 4 65536 ++ le 2 10 ++ le 2 20 ++ le 2 30 ++ le 2 0 ++ le 4 0 ++ le 4 0
    ++ le 8 (slopeBase 2) ++ le 8 0 ++ le 2 0 ++ [0, 3] ++ List.replicate 8 0
def ledgerHead : List Byte := [0x4C, 0x44, 0x47, 0x52, 1, 0, 1, 0] ++ le 4 1 ++ le 4 77 ++ le 6 9 ++ List.replicate 38 0
def oneLedger : List Byte := ledgerHead ++ le 4 (crc32c ledgerHead) ++ entryHead ++ le 4 (crc32c entryHead)
def oneEntry : LEntry := parseEntry entryHead
def placed (a : Nat) (bs : List Byte) : List Host.Cell :=
  ((List.range bs.length).zip bs).filterMap (fun e => if e.2 = 0 then none else some (a + e.1, e.2))
/-- Stream 3 is channel 6 of complex 0. -/
def Wstream : State :=
  (Wlock.rputN .sclStreamCfg 0x0106000000000000 3)
def Wledger : State := { Wstream with mem := placed 0 oneLedger }
def Wpass : State := { Wstream with scl := { ledgers := [(0, { st := .planning, bytes := oneLedger, period := 0x10000 })] } }
def planned : List PEntry :=
  match Wpass.planPass 0 0x10000 oneLedger with
  | .ok es => es
  | .fail _ _ _ _ => []

def heldMoving : Holding := { owner := 0, state := 2, base := slopeBase 0, size := 1, dest := some (slopeBase 2) }
def Wmove : State := withHold (withChan W 0 5 { st := .run, xfer := .done, moving := some 7 }) 7 heldMoving
def Wretry (a : Nat) : State := withChan W 0 5 { st := .run, retry := some (0x0305, a, 0) }
def waiting : AllocWait :=
  { id := 3, by_ := .host 1 9, part := 0, tier := 1, addr := slopeBase 0, stack := 0xFF, size := 1, hint := 0 }
def Wwait : State := { W with tier := { waits := [waiting] } }
/-- FSM 0x01 with one live state, whose event 4 ends the route. -/
def evictTable : List Byte :=
  le 1 1 ++ le 1 2 ++ le 1 6 ++ le 1 0 ++ le 8 2 ++ le 4 0 ++ List.replicate 16 0 ++ le 4 0x06030000
    ++ List.replicate 28 0
def Wfsm : State :=
  { W with img := { W.img with sections := image ++ [{ type := 8, scope := 0xFF, inst := 1, body := evictTable }] } }
def routing : Evict := { hold := 7, st := 0, route := 3, dest := some (foothillBase 0), alloc := 0 }
def Wroute : State :=
  { withHold Wfsm 7 { heldMoving with dest := some (foothillBase 0) } with
    tier := { holdings := [(7, { heldMoving with dest := some (foothillBase 0) })], evict := [routing], fhCap := [(0, 2)] },
    dma := { routeQ := [(0, 7)] } }

/-! Legs and parking. -/

def onePlan : Plan := { id := 77, mode := 2, sendTier := 2, start := 0, period := 0x10000, entries := [oneEntry], words := [{ disp := 3, tier := 2 }] }
def run3 : Run := { step := 7, disp := 3, tier := 2, out := .running, raw := some 7 }
def withRun (s : State) (pl : Plan) (r : Run) : State :=
  { s with scl := { ledgers := [(0, { inForce := some pl })], runs := [(runKey 0 0, r)] } }
def Wleg (disp : Nat) (back : Bool) : State :=
  withHold (withRun (withChan Wstream 0 6 { st := .run, work := .leg 0 0 back, xfer := .done, moving := if back then some 7 else none })
    onePlan (if back then { run3 with disp := disp, out := .done, raw := none, rest := some 7, back := .running } else { run3 with disp := disp }))
    7 (if back then heldMoving else { heldMoving with dest := some (foothillBase 0) })
def Wback3 : State :=
  withHold (withRun Wstream onePlan { run3 with out := .done, raw := none, rest := some 7, lead := 20 }) 7
    { heldMoving with state := 1, dest := none, base := foothillBase 0 }

/-- An entry with a segment of two blocks at 0x1000 for context 1 of tile 2, and the segment. -/
def segEntry : LEntry := { oneEntry with flags := 1, seg := 0x1000, segLen := 2 }
def segHead : List Byte :=
  [0x53, 0x47, 0x4D, 0x54, 1, 1, 0, 0] ++ le 4 64 ++ le 4 0 ++ le 8 0 ++ le 8 (slopeBase 2) ++ List.replicate 28 0
def segBytes : List Byte := segHead ++ le 4 (crc32c (segHead ++ List.replicate 64 0)) ++ List.replicate 64 0
def segPlan : Plan := { onePlan with entries := [segEntry], words := [{ disp := 5 }] }
def Wseg : State :=
  { withRun Wstream segPlan { run3 with disp := 5, lead := 20, out := .done } with mem := placed 0x1000 segBytes }
def Wsegdone : State := (withRun Wstream segPlan { run3 with disp := 5, back := .running }).setCtx 2 1 { seg := some (0, 0, 0x1080) }

/-- The body of a state machine with `st` states and `ev` events; `cells` are (index, cell). -/
def fsmBytes (m st ev term : Nat) (cells : List (Nat × Nat)) : List Byte :=
  le 1 m ++ le 1 st ++ le 1 ev ++ le 1 0 ++ le 8 term ++ le 4 0
    ++ (List.range (st * ev)).flatMap (fun i => le 4 (NMap.getD cells i 0))
def withFsm (s : State) (m : Nat) (body : List Byte) : State :=
  { s with img := { s.img with sections := s.img.sections ++ [{ type := 8, scope := 0xFF, inst := m, body := body }] } }

def parked1 : Parked := { part := 1, req := 4, expiry := 9, pages := [{ hold := 7 }] }
def Wpark : State :=
  { withHold (((Wlock.rputN .sclStreamCfg 0x0186000000000000 3).rputN .sclKvCfg 0xC 1).rputN .sclKvWin 0xFFFF0000 1) 7
      { owner := 1, base := slopeBase 1, size := 1 } with
    scl := { park := [parked1] },
    tier := { holdings := [(7, { owner := 1, base := slopeBase 1, size := 1 })], fhCap := [(0, 2)] } }
def resuming : Req :=
  { part := 1, tag := 3, model := 0, account := 0, plen := 1, paddr := 0, samp := {}, serial := 0, stage := .resuming,
    resumeCmd := some (2, 9) }
def Wresume : State :=
  { withFsm Wlock 3 (fsmBytes 3 2 12 2 [(11, 0x06040000)]) with
    scl := { park := [{ parked1 with resuming := true, pages := [] }] }, srv := { reqs := [(4, resuming)] } }

/-! DMA. -/

structure DescSpec where
  op : Nat
  length : Nat
  src : Nat := 0x1000
  dst : Nat := 0x2000
  dtype : Nat := 0
  aux : Nat := 0
  p0 : Nat := 0
  p1 : Nat := 0
  p2 : Nat := 0
  p3 : Nat := 0

def DescSpec.desc (x : DescSpec) : Desc :=
  { (default : Desc) with
    op := x.op, length := x.length, src := x.src, dst := x.dst, dtype := x.dtype, aux := x.aux, p0 := x.p0, p1 := x.p1,
    p2 := x.p2, p3 := x.p3 }

/-- Channel 5 of complex 0 runs a descriptor from 0x1000 to 0x2000, with some bytes at 0x1000 and indices at 0x3000. -/
def Wdma (x : DescSpec) : State :=
  { withChan W 0 5 { st := .run, desc := x.desc, xpcSlots := 1 } with
    mem := placed 0x1000 [1, 2, 3, 4, 5, 6, 7, 8, 9, 10, 11, 12, 13, 14, 15, 16] ++ placed 0x3000 (le 4 1 ++ le 4 0) }
def Wfetch : State :=
  { withChan W 0 5 { st := .fetch, fetchAddr := 0x40 } with
    mem := placed 0x40 ([1, 0, 0, 0] ++ le 4 0 ++ le 8 0x1000 ++ le 8 0x2000 ++ le 8 3 ++ List.replicate 32 0) }
def Wready : State :=
  withChan W 0 5 { st := .wait, startReached := true, waitDone := true, desc := { (default : Desc) with op := 1, src := 0x1000, dst := 0x2000, length := 3 } }
def Wstall : State :=
  { (withChan W 0 5 { st := .run, desc := { (default : Desc) with op := 3 } }).rputN .dmaChCfg 2 0 5 with tier := { fhCap := [(0, 2)] } }

/-- The object that a PACK of 64 bytes gives, at 0x1000, to be unpacked. -/
def packedMem : List Host.Cell :=
  let s := Wdma { op := 5, length := 64, dtype := 1, p0 := 65536 }
  ((s.withWrites (s.transferOut 0 5).writes).mem.filter (fun e => decide (0x2000 ≤ e.1) && decide (e.1 < 0x3000))).map
    (fun e => (e.1 - 0x1000, e.2))
def Wpacked : State := { Wdma { op := 6, length := 64, p1 := 1 } with mem := packedMem }

/-! Tiles: context 2 of tile 3, its PC at 0x40. -/

def Wword (w : Nat) : State :=
  { withCtx Wlock { st := .run, pc := 0x40 } with mem := placed 0x40 (le 16 w) ++ placed 0x2000 [0, 0, 0x80, 0x3F, 5] }
/-- Registers 1, 2 and 3 hold 1.0, 2.0 and -1.5 in every lane. -/
def Wvop (w : Nat) : State :=
  { withCtx (Wlock.rputN .tilKey 9 4) {
      st := .run, pc := 0x40, vregs := [(1, List.replicate 512 0x3F800000), (2, List.replicate 512 0x40000000),
        (3, List.replicate 512 0xBFC00000)] } with
    mem := placed 0x40 (le 16 w) ++ placed 0x2000 [0, 0, 0x80, 0x3F, 5] }
def Warr (w : Nat) : State := (Wword w).rputN .tilArrayOwner 6 3
def bank1 : Bank := { fmt := 1, w := List.replicate 65536 0x38 }
def withTile (s : State) (banks : NMap Bank) (acc : NMap AccRow) : State :=
  s.setTile 3 { s.tile 3 with banks := banks, acc := acc }
def Wbank (w : Nat) : State := withTile (Warr w) [(0, bank1)] []
def Wacc (w : Nat) : State := withTile (Warr w) [] [(7, .exact (List.replicate 512 (3, 0)))]

/-! Cairns, waits and update units. -/

def Wwaits (w : Waiter) (fired : Bool) : State :=
  { withChan (withCtx Wlock { st := .wait, wait := .cairn, pc := 0x40 }) 0 5 { st := .wait, desc := default } with
    crn := {
      vals := [(5, 3)], waits := [{ who := w, ref := 5, target := 1, part := 0, fired := fired }],
      watches := [(7, { vector := 2, mirror := none, fn := 1 })] } }
def Wsig (src : AddSrc) : State :=
  { withChan W 0 5 { st := .run, xfer := .signalling, cur := 0x80 } with
    fab := { W.fab with reqs := [{ pkt := { rtag := 3 }, purpose := .signal 0 src }] } }
/-- Update unit 0 of partition 0, with one gradient, 1.0, at 0x1000. -/
def Wunit (u : UpdUnit) : State :=
  { Wlock with upd := { units := [(0, u)] }, mem := placed 0x1000 [0, 0, 0x80, 0x3F] }
def job1 : Job := { (default : Job) with op := 1, gfmt := 5, wfmt := 0, count := 1, g := 0x1000, p := 0x2000, m := 0x3000, v := 0x4000 }
def mirrorWin : Window := { fn := 1, bus := 0x100000, size := 1 }
def Wmirror : State :=
  { W with
    hif := { W.hif with windows := [(1, mirrorWin)] },
    crn := {
      waits := [{ who := .hostWatch 7, ref := 1415, target := 0, part := 0, fired := true }],
      watches := [(7, { vector := 2000, mirror := some (valleyBase 1 + 8), fn := 1 })] } }

/-! Fabric. -/

def portUp : Port := { st := 3, peerId := 1, peerPort := 6 }
def frame1 : TxFrame := { kind := 1, vc := 0, payload := [1, 2] }
def routeBody : List Byte := List.replicate 64 0xFF ++ [0, 0xFF, 1, 2] ++ List.replicate 60 0
/-- Port 0, which faces device 1, with routes to device 1 over ports 0 and 1. -/
def Wport (q : Port) : State :=
  { W with
    fab := { W.fab with ports := [(0, q)] },
    img := { W.img with sections := image ++ [{ type := 5, scope := 0xFF, inst := 0, body := routeBody }] } }

def packet (op dst : Nat) : Packet := { dst := dst, src := 1, op := op }
/-- A packet for device `dst` has come in at port 0; `q` is port 1. -/
def Wtransit (op dst : Nat) (q : Port) : State :=
  { Wport portUp with
    fab := { W.fab with ports := [(0, { portUp with store := [(vcOf op, [(packet op dst, 1)])] }), (1, q)] } }

/-- Windows as before, open to other devices. -/
def remoteBody : List Byte :=
  le 4 3 ++ le 4 1000 ++ le 4 1000 ++ le 4 0
    ++ le 8 0 ++ le 4 0x1000 ++ le 1 15 ++ le 1 0 ++ le 2 0
    ++ le 8 (slopeBase 0) ++ le 4 0x600000 ++ le 1 15 ++ le 1 1 ++ le 2 0
    ++ le 8 (foothillBase 0) ++ le 4 0x8000000 ++ le 1 15 ++ le 1 2 ++ le 2 0
def request (op a : Nat) : Packet :=
  { dst := 0, src := 1, op := op, addr := a, rtag := 9, want := if op = 1 then 3 else if op = 9 then 70000 else 0,
    data := if op = 3 then [1, 2, 3] else [] }
def Wrequest (op a : Nat) : State :=
  { W with
    fab := { W.fab with ports := [(0, { portUp with store := [(vcOf op, [(request op a, 1)])] })] },
    img := { W.img with sections :=
      [{ type := 1, scope := 0xFF, inst := 0, body := identBody }, { type := 2, scope := 0xFF, inst := 0, body := partBody },
       { type := 4, scope := 0, inst := 0, body := remoteBody }, { type := 4, scope := 1, inst := 0, body := winBody },
       { type := 5, scope := 0xFF, inst := 0, body := routeBody }] } }

def response (op status : Nat) : Packet :=
  { dst := 0, src := 1, op := op, rtag := 9, status := status, data := if op = 2 then [7, 8, 9] else [] }
def asked (op : Nat) (why : Purpose) : FabReq :=
  { pkt := { dst := 1, src := 0, op := op, rtag := 9, addr := 0x5000 }, purpose := why }
/-- A response of device 1 to the one request that is out, which is channel 5's of complex 0 where it is a channel's. -/
def Wanswer2 (op : Nat) (why : Purpose) (c : Chan) (status : Nat) : State :=
  { withChan (Wport portUp) 0 5 c with
    fab := { W.fab with
      ports := [(0, { portUp with store := [(vcOf op, [(response op status, 1)])] })], reqs := [asked (op - 1) why] } }
def Wanswer (op : Nat) (why : Purpose) (c : Chan) : State := Wanswer2 op why c 0
def Wbounced : State :=
  { Wport portUp with
    fab := { W.fab with
      ports := [(0, { portUp with store := [(1, [({ response 12 0 with alt := true }, 1)])] })],
      reqs := [{ asked 11 (.coll 2) with pkt := { (asked 11 (.coll 2)).pkt with alt := true } }] } }
/-- An ALLGATHER of devices 0 and 1. -/
def inst2 : Inst :=
  { entry := 2, st := .running, e := { (default : CEntry) with op := 3, count := 4, members := 3, tag := 7, src := 0x1000, dst := 0x2000 } }

/-- A collective run of one entry, past its deadline. -/
def Wcoll (x : Inst) : State :=
  { Wport portUp with cad := Wlock.cad, coll := { st := 2, insts := [x] }, mem := placed 0x1000 [1, 2, 3, 4] }

/-! Serving, by partition 1. -/

def defined : Model := { state := 3, kvBytes := 1024, maxContext := 64, vocab := 2 }
/-- Partition 1 with model 2. -/
def Wserve (x : Model) (v : SrvPart) : State :=
  { Wlock with srv := { parts := [(1, { v with models := [(2, x)] })] } }
def piece7 : PieceSt := { slope := slopeBase 0, rest := slopeBase 2, size := 1, hold := 7, inSlope := true }
/-- A model record whose pieces are listed at `a`, and a list of one piece. -/
def recordOf (a : Nat) : List Byte :=
  let b : List Byte := [1, 1, 0, 0] ++ le 4 1024 ++ le 4 64 ++ le 4 2 ++ le 8 a ++ List.replicate 36 0
  b ++ le 4 (crc32c b)
def pieceOf : List Byte := le 8 (slopeBase 0) ++ le 8 (foothillBase 0) ++ le 4 1 ++ List.replicate 12 0
def Wmodel : State :=
  { withHold (W.rputN .srvModelAddr 0x2000 1) 7 { owner := 1, base := slopeBase 0, size := 1 } with
    mem := placed 0x2080 (recordOf 0x3000) ++ placed 0x3000 pieceOf,
    tier := { holdings := [(7, { owner := 1, base := slopeBase 0, size := 1 })], fhCap := [(0, 2)] } }
def definedModel : Model := (Wmodel.defineCheck 1 2 [] []).getD {}
def heldMoving1 : Holding :=
  { owner := 1, state := 2, base := slopeBase 0, size := 1, dest := some (slopeBase 2), by_ := .piece 2 }
def Wpiece : State :=
  { withChan (Wserve { defined with state := 4, pieces := [piece7] } { swap := some ⟨2, true, [2], [], [(2, 0)], false⟩ }) 2 6
      { st := .run, work := .piece 1 2 0, moving := some 7 } with
    tier := { holdings := [(7, heldMoving1)] }, mem := placed (slopeBase 0) [1, 2, 3] }

def asking (st : Stage) (pages : NMap KvPage) : Req :=
  { part := 1, tag := 3, model := 2, account := 0, plen := 130, paddr := 0x9000, samp := { maxNew := 5, rep := 0x3F800000 }, serial := 0, stage := st,
    pages := pages }
def prefilling : Req := asking .prefill []
def prefilling0 : Req := asking .prefill [(0, { hold := 7 })]
def prefilling1 : Req := asking .prefill [(1, { hold := 7, pend := true })]
def chunk1 : Chunk := { req := 4, serial := 0, first := 0, tokens := 64, last := false }
def Wreq (x : Req) (v : SrvPart) : State :=
  { Wlock with srv := { parts := [(1, { v with models := [(2, defined)] })], reqs := [(4, x)] } }
def Wchunk : State :=
  { (Wreq prefilling { out := [chunk1], promptStop := true }).rputN .srvListCairns (1440 * 2 ^ 32) 1 with
    crn := { vals := [(1440, 1)] } }
def heldPage : Holding := { owner := 1, state := 2, base := slopeBase 0, size := 1, dest := some (slopeBase 2), by_ := .page 4 }
def Whand : State :=
  { withChan (Wreq prefilling0 {}) 2 6 { st := .run, work := .handover 4 0, moving := some 7 } with
    tier := { holdings := [(7, heldPage)] }, mem := placed (slopeBase 0) [1, 2, 3] }
def Wwalk : State := Wreq prefilling { walks := [(4, 0)], promptStop := true }
def Winsert : State := Wreq prefilling1 { inserts := [(4, 0, 1)] }
def generating : Req := asking .generating []
/-- The stream ring of function 2 under RING_CTRL `c`, and the generation list with request 4, where asked, at a slot. -/
def Wsample (c : Nat) (slot : Option Nat) : State :=
  let w := Wreq generating { toSample := true, list := slot.toList.map (fun n => { slot := n, req := 4, serial := 0 }) }
  let w := ((w.rputN .hifRingCtrl c 2).rputN .hifStrLen 1 2).rputN .hifStrBase 0x10000 2
  let w := (w.rputN .srvLogitsAddr 0x8000 1).rputN .srvListCairns 1441 1
  { w.rputN .srvSampleCairns (1440 + 1442 * 65536) 1 with mem := placed 0x8000 [0, 0, 0x80, 0x3F, 0, 0, 0, 0x40] }
def leafNode : Node := { parent := 2, depth := 1, flags := 3, model := 2, page := slopeBase 0, key := List.replicate 64 1 }
def heldLeaf : Holding := { owner := 1, base := slopeBase 0, size := 1, by_ := .tree 2 }
def Wtree : State :=
  { Wreq prefilling {} with
    srv := { parts := [(1, { models := [(2, defined)], nodes := [(2, 2), (20, 2)] })] },
    tier := { holdings := [(7, heldLeaf)] },
    mem := placed 256 (Node.bytes { parent := 2, child := 20, model := 2 }) ++ placed (128 * 20) leafNode.bytes }

/-! Host commands. -/

def cmd (op : Nat) (rest : List Byte) : Taken :=
  { tag := 9, op := op, bytes := slice ([BitVec.ofNat 8 op, 0, 0, 0] ++ le 4 9 ++ rest) 0 64 }
def Wcmd (s : State) (f op : Nat) (rest : List Byte) : State :=
  { s with hif := { s.hif with fns := [(f, { taken := [cmd op rest], reserved := 1 })] } }
def Wheld7 : State := withHold Wlock 7 { owner := 0, base := slopeBase 0, size := 1 }
/-- A sampling block at 0x6000, for partition 1. -/
def samplingBlock : List Byte :=
  let b : List Byte := le 4 0 ++ le 4 0x3F800000 ++ le 4 0x3F800000 ++ le 4 0 ++ le 4 0 ++ le 2 0 ++ [0, 0xFF] ++ [0, 0, 0, 0]
    ++ le 4 5 ++ le 8 1 ++ (List.replicate 16 0xFF)
  let b := slice b 0 60
  b ++ le 4 (crc32c b)
/-- FSM 0x03 with one live state, in which each event goes to itself and has the action given. -/
def requestFsm (ev act : Nat) : List Byte := fsmBytes 3 2 12 2 [(ev, 0x02000000 + act * 65536)]

def parked2 : Parked := { part := 1, req := 4, expiry := 99, pages := [{ hold := 7, parked := true }] }
def Wresuming : State :=
  let s := withFsm (Wreq { asking .paused [] with tag := 9 } {}) 3 (requestFsm 1 6)
  let s := s.rputN .srvSlots 4 1
  let s : State := { s with
    scl := { park := [parked2] }, tier := { holdings := [(7, { owner := 1, base := foothillBase 0, size := 1 })], fhCap := [(0, 2)] } }
  Wcmd s 2 0x23 (le 4 6)

/-- A SUBMIT to partition 1, online under PART_CTRL `on`. -/
def Wsubmit (on : Nat) (b : List Byte) : State :=
  { Wcmd ((((Wserve defined {}).rputN .srvPartCtrl on 1).rputN .srvSlots 4 1).rputN .srvReqMax 8 1) 2 0x20 b with
    mem := placed 0x6000 samplingBlock }

/-- A request of partition 1 that its admission machine admits. -/
def waiting20 : Req := { asking .queued [] with plen := 20 }
def Wadmit : State :=
  let s := (Wreq waiting20 { evalDue := true }).rputN .admKvLimit 100000 1
  let s := withFsm s 3 (requestFsm 6 2)
  let s := withFsm s 2 (fsmBytes 2 3 8 4 [(7, 0x06010000)])
  { (s.rputN .srvSlots 4 1).rputN .srvPartCtrl 1 1 with
    srv := { s.srv with accts := [(4096, { balance := 50, burst := 100, rate := 50 })] } }

/-! Intake. -/

def readJob : IJob :=
  { part := 0, num := 0, ctrl := 0, order := 0, stage := .run, rec_ := { (default : JobRec) with op := 1, length := 3, dst := 0x100, dstLen := 1 },
    reads := [{ lba := 0, count := 1, st := .outstanding }] }
def Wintake (js : List IJob) : State :=
  { Wlock with intake := { ctrls := [(0, { st := 2, queues := 2 })], ns := [{ ctrl := 0, nsid := 1, lba := 512, cap := 100, owner := 1 }], links := 1, jobs := js } }

/-- A read job of 3 bytes from namespace `ns` into Slope, with start phase 2000 and deadline 3000. -/
def phasedRead (ns : Nat) (out : Nat := 0) : List Byte :=
  [1, 2, 0, BitVec.ofNat 8 out, BitVec.ofNat 8 ns, 0] ++ le 2 0 ++ le 8 0 ++ le 4 3 ++ le 4 0 ++ le 4 0 ++ le 4 0
    ++ le 8 (slopeBase 0) ++ le 8 0 ++ le 4 1 ++ le 4 0 ++ le 2 2000 ++ le 2 3000 ++ le 4 0
def Wring0 (js : List IJob) : State :=
  let w := Wintake js
  let w := ((w.rputN .intRingCfg 1 0).rputN .intRingBase 0x6000 0).rputN .intResultBase 0x7000 0
  let w := (w.rputN .intRingLen 4 0).rputN .intRingCairns (1408 + 1409 * 65536) 0
  { w with tier := { holdings := [(7, { owner := 0, base := slopeBase 0, size := 1 })] } }
def Wring (b : List Byte) : State := { Wring0 [] with mem := placed 0x6000 b, crn := { vals := [(1408, 1)] } }
def readDone : IJob := { readJob with reads := [{ lba := 0, count := 1, st := .done, data := [5, 6, 7, 8] }] }
/-- LPCM, 16 bits, two channels. -/
def pcmRec : JobRec := { readJob.rec_ with op := 2, codec := 0x30, pcm := 0x11, outfmt := 0x10, length := 6, param := 48000 }
def pcmJob : IJob := { readJob with rec_ := pcmRec, reads := [{ lba := 0, count := 1 }] }
def pcmCut : IJob := { pcmJob with reads := [{ lba := 0, count := 1, st := .done, data := [1, 2, 3, 4, 5, 6] }] }
def pcmDone : IJob := { pcmCut with rec_ := { pcmRec with length := 4 } }

/-! Alignment. -/

/-- A mono stream whose ring of 16 samples lies at the base of a holding of partition 0, READY cairn 1409. -/
def audioStream : AlnStream :=
  { kind := 3, channels := 1, width := 0, height := 0, firstPts := 0, period := 0, ready := 1409, src := slopeBase 0,
    retain := 16, offsets := [(0, 0)], geom := [] }
def audioGroup : Group :=
  { st := 1, part := 0, cw := 16, ch := 16, period := 1000, rate := 8000, audioN := 2, out := slopeBase 0 + 0x10000, slots := 1,
    streams := [audioStream], shifts := [(0, 0)] }
def inTick : Group := { audioGroup with ready := some [8] }
def Wgroup (x : Group) : State :=
  { (Wlock.rputN .alnGCairns (1408 + 1410 * 65536) 1) with
    aln := { groups := [(1, x)] }, crn := { vals := [(1408, 1), (1409, 8)] },
    tier := { holdings := [(7, { owner := 0, base := slopeBase 0, size := 4 })] }, mem := placed (slopeBase 0) [1, 2, 3, 4, 5, 6, 7, 8] }
/-- The record of such a group, with its table of one offset, for group 1. -/
def groupRecord : List Byte :=
  let h : List Byte := [1, 0, 0, 0] ++ le 2 16 ++ le 2 16 ++ le 8 0 ++ le 4 1000 ++ le 4 8000 ++ le 4 2 ++ le 2 0 ++ le 2 1
    ++ le 8 (slopeBase 0 + 0x10000) ++ le 4 1 ++ List.replicate 16 0
  let t : List Byte := [3, 1, 0, 0] ++ le 4 0 ++ le 8 0 ++ le 4 0 ++ le 2 1409 ++ le 2 0 ++ le 8 (slopeBase 0) ++ le 4 16 ++ le 4 0
    ++ le 8 0 ++ le 8 (slopeBase 0 + 0x8000) ++ le 2 1 ++ List.replicate 6 0
  h ++ le 4 (crc32c (h ++ t)) ++ t
def Waln : State :=
  let w := Wgroup {}
  { (w.rputN .alnGAddr (slopeBase 0 + 0x4000) 1) with mem := placed (slopeBase 0 + 0x4000) groupRecord }

/-! Rings. -/

/-- Function 2 with its three rings on, of 16 entries and one granule of stream. -/
def Wrings : State := (Wlock.rputN .hifRingCtrl 7 2).rputN .hifStrLen 1 2
def Wtail : State := { Wrings with hif := { Wrings.hif with fns := [(2, { cmdTail := 1 })] } }
def Wtail0 : State :=
  let w := Wlock.rputN .hifRingCtrl 3 0
  { w with hif := { w.hif with fns := [(0, { cmdTail := 1 })] } }
/-- A ready completion entry, with the ring's tail at `n`. -/
def Wcpl (s : State) (n : Nat) : State :=
  { s with
    hif := { s.hif with fns := [(2, { cplHead := 2, cplTail := n, reserved := 1, ready := [{ tag := 9, kind := 1 }] })], windows := [(3, { fn := 2, bus := 0, size := 1 })] } }

/-! A frame as it is received: idle, with sequence and acknowledgement 0. Its bytes were worked out from Table 12.2. -/

def idleFrame : List Byte :=
  List.replicate 260 0 ++ [0x09, 0x9E, 0xF3, 0xEC, 0x74, 0x4C, 0x45, 0x44, 0x51, 0xD4, 0x9A, 0xAE]

theorem rsEval_zeros (x : Nat) (hx : gfMul 0 x = 0) (w : List Nat) : ∀ n, rsEval (List.replicate n 0 ++ w) x = rsEval w x := by
  intro n
  induction n with
  | zero => rfl
  | succ n ih => simpa [rsEval, List.replicate_succ, hx] using ih

theorem rsCorrect_zeros (w : List Nat) (n : Nat) (h : rsSyndromes w = [0, 0, 0, 0]) :
    rsCorrect (List.replicate n 0 ++ w) = some (List.replicate n 0 ++ w, 0) := by
  have hs : rsSyndromes (List.replicate n 0 ++ w) = [0, 0, 0, 0] := by
    rw [← h]; simp only [rsSyndromes]
    rw [rsEval_zeros 1 (by decide), rsEval_zeros 2 (by decide), rsEval_zeros 4 (by decide), rsEval_zeros 8 (by decide)]
  simp [rsCorrect, hs]

theorem idleFrame_ok : correctFrame idleFrame = some (idleFrame, 0) := by
  have h1 : everyOther (idleFrame.map (·.toNat)) = List.replicate 130 0 ++ [0x09, 0xF3, 0x74, 0x45, 0x51, 0x9A] := by decide +kernel
  have h2 : everyOther ((idleFrame.map (·.toNat)).drop 1) = List.replicate 130 0 ++ [0x9E, 0xEC, 0x4C, 0x44, 0xD4, 0xAE] := by
    decide +kernel
  have h3 : (weave (List.replicate 130 0 ++ [0x09, 0xF3, 0x74, 0x45, 0x51, 0x9A])
      (List.replicate 130 0 ++ [0x9E, 0xEC, 0x4C, 0x44, 0xD4, 0xAE])).map (BitVec.ofNat 8) = idleFrame := by decide +kernel
  have h4 : idleFrame.length = 272 := by decide +kernel
  have h6 : idleFrame.take 260 = List.replicate 52 0 ++ (List.replicate 52 0 ++ (List.replicate 52 0 ++
      (List.replicate 52 0 ++ List.replicate 52 0))) := by decide +kernel
  have c0 : (List.replicate 52 (0 : Byte)).foldl crc32cByte 4294967295 = 2493084981 := by decide +kernel
  have c1 : (List.replicate 52 (0 : Byte)).foldl crc32cByte 2493084981 = 2052322934 := by decide +kernel
  have c2 : (List.replicate 52 (0 : Byte)).foldl crc32cByte 2052322934 = 2493348528 := by decide +kernel
  have c3 : (List.replicate 52 (0 : Byte)).foldl crc32cByte 2493348528 = 2994234801 := by decide +kernel
  have c4 : (List.replicate 52 (0 : Byte)).foldl crc32cByte 2994234801 = 319578614 := by decide +kernel
  have h5 : fieldAt idleFrame 260 4 = crc32c (idleFrame.take 260) := by
    rw [h6, crc32c]; simp only [List.foldl_append, c0, c1, c2, c3, c4]; decide +kernel
  simp only [correctFrame, h4, h1, h2, rsCorrect_zeros [0x09, 0xF3, 0x74, 0x45, 0x51, 0x9A] 130 (by decide +kernel),
    rsCorrect_zeros [0x9E, 0xEC, 0x4C, 0x44, 0xD4, 0xAE] 130 (by decide +kernel), h3, h5]
  rfl

/-! ### The premises of every clause are met -/

theorem witness_StepRunsTheFrontCommand : ∃ (s : State) (c : Instr) (rest : List Instr), s.pending = c :: rest :=
  ⟨{ pending := [.stepWrap] }, .stepWrap, [], rfl⟩

theorem witness_EmptyQueueIdles : ∃ s : State, s.pending = [] := ⟨State.reset, rfl⟩

theorem witness_StepKeepsMemoryCanonical : ∃ s t : State, s.canonical ∧ step s = .next t :=
  ⟨State.reset, State.reset, by decide, rfl⟩

theorem witness_NothingIsTakenBack : ∃ s t : State, step s = .next t := ⟨State.reset, State.reset, rfl⟩

theorem witness_OnlyElevenCommandsMoveTheClock : ∃ (c : Instr) (s t : State), exec c s = .next t ∧
    (∀ n, c ≠ .phaseAdvance n) ∧ c ≠ .stepWrap ∧ (∀ bs ok, c ≠ .phaseFrameReceive bs ok) ∧ c ≠ .phaseFrameSend ∧
    c ≠ .backoffExpiry ∧ c ≠ .hostL2Entry ∧ c ≠ .mainLost ∧ c ≠ .railFault ∧ (∀ k x, c ≠ .thermalSample k x) ∧
    c ≠ .perstAssert ∧ (∀ v, c ≠ .perstRelease v) :=
  ⟨.holdNFall, State.reset, _, rfl, by simp, by simp, by simp, by simp, by simp, by simp, by simp, by simp, by simp, by simp,
    by simp⟩

theorem witness_EveryStepSettlesTheLog : ∃ s t : State, s.pending ≠ [] ∧ step s = .next t :=
  ⟨{ pending := [.holdNFall] }, _, by simp, rfl⟩

theorem witness_RegisterWriteStoresTheWritableBits :
    (∃ (s : State) (p : Path) (n : RegName) (i : Nat) (j : Nat) (off : Nat) (size : Nat) (v : W64),
      accessAt off size = some (n, i, j, false) ∧ (size = 8 ∨ n.row.w64 = false) ∧ s.writes p n i j v.toNat ∧
      n.row.acc = .rw ∧ n.plain = true ∧ n.fieldOk i (v.toNat &&& n.row.mask) = true ∧
      s.rwAccept p.idx n i j (v.toNat &&& n.row.mask) = true) ∧
    (∃ (s : State) (p : Path) (n : RegName) (i : Nat) (j : Nat) (off : Nat) (size : Nat) (v : W64),
      accessAt off size = some (n, i, j, false) ∧ (size = 8 ∨ n.row.w64 = false) ∧ s.writes p n i j v.toNat ∧
      n.row.acc = .rw ∧ n.plain = true ∧ n.fieldOk i (v.toNat &&& n.row.mask) = true ∧
      s.rwAccept p.idx n i j (v.toNat &&& n.row.mask) = true ∧ n.unlogged = false ∧ s.logOpen) :=
  ⟨⟨W, .jtag, .cadHoldMax, 0, 0, 0x200028, 4, 0x1234, by decide +kernel⟩,
   ⟨W, .jtag, .cadHoldMax, 0, 0, 0x200028, 4, 0x1234, by decide +kernel⟩⟩

theorem witness_RegisterReadsGiveTheValue :
    (∃ (s : State) (p : Path) (n : RegName) (i : Nat) (j : Nat) (off : Nat) (size : Nat),
      accessAt off size = some (n, i, j, false) ∧ (size = 8 ∨ n.row.w64 = false) ∧ s.reaches p n i ∧
      s.mayRead p n i j = true) ∧
    (∃ (s : State) (p : Path) (n : RegName) (i : Nat) (j : Nat) (off : Nat) (size : Nat),
      accessAt off size = some (n, i, j, false) ∧ (size = 8 ∨ n.row.w64 = false) ∧ s.reaches p n i ∧
      s.mayRead p n i j = true) ∧
    (∃ (s : State) (p : Path) (n : RegName) (i : Nat) (j : Nat) (off : Nat) (size : Nat),
      accessAt off size = some (n, i, j, false) ∧ (size = 8 ∨ n.row.w64 = false) ∧ ¬ s.reaches p n i) :=
  ⟨⟨W, .jtag, .cadHoldMax, 0, 0, 0x200028, 4, by decide +kernel⟩,
   ⟨W, (.fn 0), .cadSlipCount, 0, 0, 0x200044, 4, by decide +kernel⟩,
   ⟨State.reset, .jtag, .cadHoldMax, 0, 0, 0x200028, 4, by decide +kernel⟩⟩

theorem witness_HalvesOfASixtyFourBitRegister :
    (∃ (s : State) (p : Path) (n : RegName) (i : Nat) (j : Nat) (off : Nat), n.row.w64 = true ∧ off % 8 = 0 ∧
      accessAt off 4 = some (n, i, j, false) ∧ accessAt (off + 4) 4 = some (n, i, j, true) ∧ s.reaches p n i ∧
      s.mayRead p n i j = true) ∧
    (∃ (s : State) (p : Path) (n : RegName) (i : Nat) (j : Nat) (off : Nat) (v : W32), n.row.w64 = true ∧
      off % 8 = 0 ∧ accessAt off 4 = some (n, i, j, false) ∧ accessAt (off + 4) 4 = some (n, i, j, true) ∧
      s.reaches p n i ∧ s.mayRead p n i j = true ∧ NMap.get? s.latch p.idx = some (n.key i j, v)) ∧
    (∃ (s : State) (p : Path) (n : RegName) (i : Nat) (j : Nat) (off : Nat), n.row.w64 = true ∧ off % 8 = 0 ∧
      accessAt off 4 = some (n, i, j, false) ∧ accessAt (off + 4) 4 = some (n, i, j, true) ∧ s.reaches p n i ∧
      s.mayRead p n i j = true ∧ NMap.get? s.latch p.idx = none) ∧
    (∃ (s : State) (p : Path) (n : RegName) (i : Nat) (j : Nat) (off : Nat) (v : W32), n.row.w64 = true ∧
      off % 8 = 0 ∧ accessAt off 4 = some (n, i, j, false) ∧ accessAt (off + 4) 4 = some (n, i, j, true) ∧
      s.reaches p n i ∧ s.mayWrite p n i j v.toNat = true) ∧
    (∃ (s : State) (p : Path) (n : RegName) (i : Nat) (j : Nat) (off : Nat) (v : W32) (lo : W32), n.row.w64 = true ∧
      off % 8 = 0 ∧ accessAt off 4 = some (n, i, j, false) ∧ accessAt (off + 4) 4 = some (n, i, j, true) ∧
      s.reaches p n i ∧ s.mayWrite p n i j v.toNat = true ∧ NMap.get? s.held p.idx = some (n.key i j, lo) ∧
      n.row.acc = .rw ∧ n.plain = true ∧ n.fieldOk i ((v.toNat * 2 ^ 32 + lo.toNat) &&& n.row.mask) = true ∧
      s.rwAccept p.idx n i j ((v.toNat * 2 ^ 32 + lo.toNat) &&& n.row.mask) = true) ∧
    (∃ (s : State) (p : Path) (n : RegName) (i : Nat) (j : Nat) (off : Nat) (v : W32), n.row.w64 = true ∧
      off % 8 = 0 ∧ accessAt off 4 = some (n, i, j, false) ∧ accessAt (off + 4) 4 = some (n, i, j, true) ∧
      s.reaches p n i ∧ s.mayWrite p n i j v.toNat = true ∧ NMap.get? s.held p.idx = none) :=
  ⟨⟨WA, (.fn 0), .cadMasterStart, 0, 0, 0x200030, by decide +kernel⟩,
   ⟨WAl, (.fn 0), .cadMasterStart, 0, 0, 0x200030, 5, by decide +kernel⟩,
   ⟨WA, (.fn 0), .cadMasterStart, 0, 0, 0x200030, by decide +kernel⟩,
   ⟨WA, (.fn 0), .cadMasterStart, 0, 0, 0x200030, 7, by decide +kernel⟩,
   ⟨WAl, (.fn 0), .cadMasterStart, 0, 0, 0x200030, 9, 6, by decide +kernel⟩,
   ⟨WA, (.fn 0), .cadMasterStart, 0, 0, 0x200030, 7, by decide +kernel⟩⟩

theorem witness_WriteOneToClear :
    (∃ (s : State) (p : Path) (n : RegName) (i : Nat) (j : Nat) (off : Nat) (size : Nat) (v : W64),
      accessAt off size = some (n, i, j, false) ∧ (size = 8 ∨ n.row.w64 = false) ∧ s.writes p n i j v.toNat ∧
      n.row.acc = .w1c) ∧
    (∃ (s : State) (p : Path) (n : RegName) (i : Nat) (j : Nat) (off : Nat) (size : Nat) (v : W64) (raced : W64),
      accessAt off size = some (n, i, j, false) ∧ (size = 8 ∨ n.row.w64 = false) ∧ s.writes p n i j v.toNat ∧
      n.row.acc = .w1c ∧ raced &&& ~~~ s.rget n i j = 0) :=
  ⟨⟨(W.rputN .cadEvent 7), .jtag, .cadEvent, 0, 0, 0x200008, 4, 3, by decide +kernel⟩,
   ⟨(W.rputN .cadEvent 7), .jtag, .cadEvent, 0, 0, 0x200008, 4, 3, 1, by decide +kernel⟩⟩

theorem witness_RefusedWritesChangeNothing :
    (∃ (s : State) (p : Path) (off : Nat) (size : Nat), s.pathExists p = true ∧ accessAt off size = none) ∧
    (∃ (s : State) (p : Path) (off : Nat) (size : Nat) (v : W64) (n : RegName) (i : Nat) (j : Nat),
      s.pathExists p = true ∧ accessAt off size = some (n, i, j, false) ∧ (size = 8 ∨ n.row.w64 = false) ∧
      s.mayWrite p n i j v.toNat = true ∧ (s.reach p n = false ∨ s.regOn n i = false)) ∧
    (∃ (s : State) (p : Path) (off : Nat) (size : Nat) (v : W64) (n : RegName) (i : Nat) (j : Nat),
      s.pathExists p = true ∧ accessAt off size = some (n, i, j, false) ∧ (size = 8 ∨ n.row.w64 = false) ∧
      s.writes p n i j v.toNat ∧ (n.row.acc = .ro ∨ n.row.acc = .rc)) ∧
    (∃ (s : State) (p : Path) (off : Nat) (size : Nat) (v : W64) (n : RegName) (i : Nat) (j : Nat),
      s.pathExists p = true ∧ accessAt off size = some (n, i, j, false) ∧ (size = 8 ∨ n.row.w64 = false) ∧
      s.writes p n i j v.toNat ∧ (n.row.acc = .rw ∨ n.row.acc = .wo) ∧
      n.fieldOk i (v.toNat &&& n.row.mask) = false) :=
  ⟨⟨W, .jtag, 0x200002, 4, by decide +kernel⟩,
   ⟨State.reset, .jtag, 0x200028, 4, 3, .cadHoldMax, 0, 0, by decide +kernel⟩,
   ⟨W, .jtag, 0x200004, 4, 3, .cadStatus, 0, 0, by decide +kernel⟩,
   ⟨W, .jtag, 0x200038, 4, 3, .cadMasterPeriod, 0, 0, by decide +kernel⟩⟩

theorem witness_AccessesThatTheTableForbids :
    (∃ (s : State) (p : Path) (n : RegName) (i : Nat) (j : Nat) (off : Nat) (size : Nat),
      accessAt off size = some (n, i, j, false) ∧ (size = 8 ∨ n.row.w64 = false) ∧ s.pathExists p = true ∧
      s.mayRead p n i j = false) ∧
    (∃ (s : State) (p : Path) (n : RegName) (i : Nat) (j : Nat) (off : Nat) (size : Nat) (v : W64),
      accessAt off size = some (n, i, j, false) ∧ (size = 8 ∨ n.row.w64 = false) ∧ s.pathExists p = true ∧
      s.mayWrite p n i j v.toNat = false) :=
  ⟨⟨W, (.fn 3), .cadHoldMax, 0, 0, 0x200028, 4, by decide +kernel⟩,
   ⟨W, (.fn 1), .cadHoldMax, 0, 0, 0x200028, 4, 5, by decide +kernel⟩⟩

theorem witness_IdentityRegisterReads :
    (∃ (s : State) (p : Path), s.reaches p .hifIdent 0 ∧ s.mayRead p .hifIdent 0 0 = true) :=
  ⟨W, (.fn 0), by decide +kernel⟩

theorem witness_PhaseTimebaseAdvances :
    (∃ (s : State) (n : Nat), s.nothingDue ∧ n ≠ 0 ∧ (s.cad.phaseValid = false ∨ s.cad.frozen = true)) ∧
    (∃ (s : State) (n : Nat), s.nothingDue ∧ n ≠ 0 ∧ (s.cad.phaseValid = false ∨ s.cad.frozen = true)) ∧
    (∃ (s : State) (n : Nat), s.nothingDue ∧ n ≠ 0 ∧ s.cad.phaseValid = true ∧ s.cad.frozen = false ∧
      s.cad.holdBack = 0 ∧ phaseIncr s.cad.period ≠ 0 ∧ s.cad.phase + n * phaseIncr s.cad.period < fullStep) ∧
    (∃ (s : State) (n : Nat), s.nothingDue ∧ n ≠ 0 ∧ s.cad.phaseValid = true ∧ s.cad.frozen = false ∧
      s.cad.holdBack = 0 ∧ phaseIncr s.cad.period ≠ 0 ∧ s.cad.phase + n * phaseIncr s.cad.period < fullStep) ∧
    (∃ (s : State), s.nothingDue ∧ s.cad.phaseValid = true ∧ s.cad.frozen = false ∧ s.cad.holdBack = 0 ∧
      phaseIncr s.cad.period ≠ 0 ∧ s.cad.phase < fullStep) :=
  ⟨⟨W, 5, by decide +kernel⟩,
   ⟨Wfrozen, 1, by decide +kernel⟩,
   ⟨Wlock, 1, by decide +kernel⟩,
   ⟨Wlock, 1000, by decide +kernel⟩,
   ⟨Wlock, by decide +kernel⟩⟩

theorem witness_CadenceFrames :
    (∃ (s : State) (bs : List Byte), s.noLeftFailures ∧ s.rbit .cadCtrl 0 = true ∧ frameWhole bs true = true ∧
      0x200 ≤ (frameFields bs).period ∧ (frameFields bs).pnext = false ∧ (frameFields bs).held = false ∧
      s.cad.master = false ∧ s.cad.state = .acquire ∧ s.cad.frozenLost = false) ∧
    (∃ (s : State) (bs : List Byte) (ok : Bool), s.noLeftFailures ∧ s.rbit .cadCtrl 0 = true ∧
      frameWhole bs ok = false ∧ s.cad.master = false) ∧
    (∃ (s : State) (bs : List Byte), s.noLeftFailures ∧ s.rbit .cadCtrl 0 = true ∧ frameWhole bs true = true ∧
      (frameFields bs).period < 0x200 ∧ s.cad.master = false) ∧
    (∃ (s : State) (f : Frame) (ok : Bool), s.noLeftFailures ∧ s.cad.lastRx = some (f, ok) ∧
      s.rbit .cadCtrl 0 = true ∧ s.rbit .cadCtrl 1 = true ∧ s.rankOf = 0) ∧
    (∃ (s : State), s.noLeftFailures ∧ s.cad.master = true ∧ s.rbit .cadCtrl 0 = true ∧ s.cad.stopPending = false ∧
      s.cad.runPending = false ∧ s.cad.newPeriod = none ∧ s.cad.holdIn = true) ∧
    (∃ (s : State), s.noLeftFailures ∧ s.cad.master = false ∧ s.cad.state = .locked) ∧
    (∃ (s : State), s.noLeftFailures ∧ s.cad.backoff = true ∧ s.rbit .cadCtrl 0 = true ∧ s.rankOf ≠ 0 ∧
      s.cad.phaseValid = false) ∧
    (∃ (s : State), s.noLeftFailures ∧ s.cad.state = .flywheel ∧ s.cad.master = false) :=
  ⟨⟨Wcad, goodFrame, by decide +kernel⟩,
   ⟨Wcad, [1, 2], true, by decide +kernel⟩,
   ⟨Wcad, shortFrame, by decide +kernel⟩,
   ⟨Wrep, { rank := 1, delay := 7 }, true, by decide +kernel⟩,
   ⟨Wmaster, by decide +kernel⟩,
   ⟨Wlock, by decide +kernel⟩,
   ⟨Wback, by decide +kernel⟩,
   ⟨Wfly, by decide +kernel⟩⟩

theorem witness_CadenceControl :
    (∃ (s : State) (p : Path), s.writes p .cadCtrl 0 0 (s.rnat .cadCtrl ||| 1) ∧ s.rbit .cadCtrl 0 = false ∧
      s.cad.state = .acquire ∧ s.rankOf ≠ 0) ∧
    (∃ (s : State) (p : Path), s.writes p .cadCtrl 0 0 (s.rnat .cadCtrl &&& 0x7E) ∧ s.rbit .cadCtrl 0 = true) ∧
    (∃ (s : State) (p : Path) (on : Bool), s.writes p .cadCtrl 0 0 ((s.rnat .cadCtrl &&& 0x77) + b2n on * 8)) ∧
    (∃ (s : State) (p : Path) (on : Bool), s.writes p .cadCtrl 0 0 ((s.rnat .cadCtrl &&& 0x77) + b2n on * 8)) ∧
    (∃ (s : State) (p : Path) (rank : Fin 8), s.writes p .cadCtrl 0 0 ((s.rnat .cadCtrl &&& 0x0F) + rank.val * 16)) ∧
    (∃ (s : State) (p : Path) (rank : Fin 8), s.writes p .cadCtrl 0 0 ((s.rnat .cadCtrl &&& 0x0F) + rank.val * 16)) ∧
    (∃ (s : State) (p : Path), s.writes p .cadMasterCmd 0 0 1 ∧ s.cad.master = true) ∧
    (∃ (s : State) (p : Path), s.writes p .cadMasterCmd 0 0 2 ∧ s.cad.master = true) ∧
    (∃ (s : State) (p : Path), s.writes p .cadMasterCmd 0 0 1 ∧ s.cad.master = false) ∧
    (∃ (s : State) (p : Path), s.writes p .cadMasterCmd 0 0 2 ∧ s.cad.master = false) ∧
    (∃ (s : State) (p : Path) (v : W32), s.writes p .cadMasterPeriod 0 0 v.toNat ∧ 0x200 ≤ v.toNat % 2 ^ 24 ∧
      s.cad.master = true) ∧
    (∃ (s : State), s.cad.phaseValid = true) :=
  ⟨⟨(W.rputN .cadCtrl 0x10), .jtag, by decide +kernel⟩,
   ⟨Wlock, .fn 0, by decide +kernel⟩,
   ⟨W, .jtag, true, by decide +kernel⟩,
   ⟨W, .jtag, false, by decide +kernel⟩,
   ⟨Wmaster, .jtag, 0, by decide +kernel⟩,
   ⟨W, .jtag, 7, by decide +kernel⟩,
   ⟨Wmaster, .jtag, by decide +kernel⟩,
   ⟨Wmaster, .jtag, by decide +kernel⟩,
   ⟨W, .jtag, by decide +kernel⟩,
   ⟨W, .jtag, by decide +kernel⟩,
   ⟨Wmaster, .jtag, 0x200, by decide +kernel⟩,
   ⟨Wlock, by decide +kernel⟩⟩

theorem witness_ScheduledItems :
    (∃ (s : State) (x : Fin 24) (c : Fin 4) (part : Nat), s.noLeftFailures ∧ s.ownerTile x = some part ∧
      s.notServing part ∧ (s.ctx x c).st = .wait ∧ (s.ctx x c).wait = .phase ∧
      s.reached (s.ctx x c).startAt = true ∧ s.img.due = false) ∧
    (∃ (s : State) (x : Fin 24) (c : Fin 4) (part : Nat), s.noLeftFailures ∧ s.ownerTile x = some part ∧
      s.notServing part ∧ (s.ctx x c).st = .wait ∧ (s.ctx x c).wait = .cairn ∧
      s.waitFired (.tileCtx x c) = true) ∧
    (∃ (s : State) (x : Fin 24) (c : Fin 4) (part : Nat) (d : Nat), s.noLeftFailures ∧ s.ownerTile x = some part ∧
      s.notServing part ∧ (s.ctx x c).busy = true ∧ (s.ctx x c).late = false ∧ (s.ctx x c).deadline = some d ∧
      d ≤ s.stepPhase ∧ s.ctxStall x c = true) ∧
    (∃ (s : State) (x : Fin 24) (c : Fin 4) (part : Nat) (d : Nat), s.noLeftFailures ∧ s.ownerTile x = some part ∧
      s.notServing part ∧ (s.ctx x c).busy = true ∧ (s.ctx x c).late = false ∧ (s.ctx x c).deadline = some d ∧
      d ≤ s.stepPhase ∧ s.ctxStall x c = false ∧ (s.ctx x c).posted = []) ∧
    (∃ (s : State) (x : Fin 24) (c : Fin 4) (part : Nat), s.noLeftFailures ∧ s.ownerTile x = some part ∧
      s.notServing part ∧ (s.ctx x c).busy = true ∧ (s.ctx x c).posted = [] ∧ (.tileCtx x c) ∈ s.cad.holdItems) :=
  ⟨⟨Wphase, 3, 2, 0, by decide +kernel⟩,
   ⟨Wcairn, 3, 2, 0, by decide +kernel⟩,
   ⟨Wdead true, 3, 2, 0, 9, by decide +kernel⟩,
   ⟨Wdead false, 3, 2, 0, 9, by decide +kernel⟩,
   ⟨Wheld, 3, 2, 0, by decide +kernel⟩⟩

theorem witness_ImageCommands :
    (∃ (s : State) (p : Path), s.writes p .imgCmd 0 0 1 ∧ s.img.state = .empty) ∧
    (∃ (s : State) (p : Path), s.writes p .imgCmd 0 0 1 ∧ s.img.state = .empty) ∧
    (∃ (s : State) (p : Path), s.writes p .imgCmd 0 0 6 ∧ s.img.state = .empty) ∧
    (∃ (s : State) (p : Path) (force : Bool), s.writes p .imgCmd 0 0 (2 + b2n force * 16) ∧ s.img.state = .active) ∧
    (∃ (s : State) (p : Path) (force : Bool), s.writes p .imgCmd 0 0 (2 + b2n force * 16) ∧ s.img.state = .active) ∧
    (∃ (s : State) (p : Path), s.writes p .imgCmd 0 0 3 ∧ (s.img.state = .active ∨ s.img.state = .empty)) ∧
    (∃ (s : State) (p : Path), s.writes p .imgCmd 0 0 3 ∧ (s.img.state = .active ∨ s.img.state = .empty)) ∧
    (∃ (s : State) (p : Path), s.writes p .imgCmd 0 0 5 ∧ (s.img.state = .staging ∨ s.img.state = .verifying ∨
      s.img.state = .pending) ∧ s.img.due = false) ∧
    (∃ (s : State) (p : Path), s.writes p .imgCmd 0 0 4 ∧ s.img.state = .active) ∧
    (∃ (s : State) (p : Path), s.writes p .imgCmd 0 0 1 ∧ s.img.state = .active) ∧
    (∃ (s : State) (p : Path) (force : Bool), s.writes p .imgCmd 0 0 (2 + b2n force * 16) ∧
      (s.img.state = .staging ∨ s.img.state = .verifying ∨ s.img.state = .pending)) :=
  ⟨⟨Wno, .jtag, by decide +kernel⟩,
   ⟨{ Wno with pwr := { Wno.pwr with stage := 3 } }, .fn 0, by decide +kernel⟩,
   ⟨Wno, .jtag, by decide +kernel⟩,
   ⟨W, .jtag, true, by decide +kernel⟩,
   ⟨W, .jtag, false, by decide +kernel⟩,
   ⟨W, .jtag, by decide +kernel⟩,
   ⟨Wno, .jtag, by decide +kernel⟩,
   ⟨Wstaging .staging, .jtag, by decide +kernel⟩,
   ⟨W, .jtag, by decide +kernel⟩,
   ⟨W, .jtag, by decide +kernel⟩,
   ⟨Wstaging .pending, .jtag, true, by decide +kernel⟩⟩

theorem witness_ImageLoading :
    (∃ (s : State) (ext : List Byte) (b : List Byte), s.noLeftFailures ∧ s.img.state = .staging ∧
      s.readImage ext = some b) ∧
    (∃ (s : State) (ext : List Byte), s.noLeftFailures ∧ s.img.state = .staging ∧ s.img.op = .full ∧
      s.readImage ext = none) ∧
    (∃ (s : State), s.noLeftFailures ∧ (s.img.state = .staging ∨ s.img.state = .verifying) ∧ s.img.op = .full) ∧
    (∃ (s : State) (r : Reject), s.noLeftFailures ∧ s.img.state = .verifying ∧ s.img.op ≠ .flash ∧
      s.checkImage s.img.op s.img.staged s.img.staged.length = some r) ∧
    (∃ (s : State), s.noLeftFailures ∧ s.img.state = .verifying ∧ s.img.op = .verify) ∧
    (∃ (s : State), s.noLeftFailures ∧ s.img.state = .verifying ∧ s.img.op = .part) ∧
    (∃ (s : State), s.noLeftFailures ∧ s.img.state = .verifying ∧ s.img.op = .full) ∧
    (∃ (s : State), s.noLeftFailures ∧ s.img.state = .pending ∧ s.img.due = true) ∧
    (∃ (s : State), s.noLeftFailures ∧ s.img.state = .pending ∧ s.img.due = false) :=
  ⟨⟨Wstaging .staging, [], (List.replicate 128 0), by decide +kernel⟩,
   ⟨(Wstaging .staging).rputN .imgSrcAddr 0xFFFFFFFF, [], by decide +kernel⟩,
   ⟨Wstaging .verifying, by decide +kernel⟩,
   ⟨Wstaging .verifying, rejection, by decide +kernel⟩,
   ⟨{ Wstaging .verifying with img := { (Wstaging .verifying).img with op := .verify } }, by decide +kernel⟩,
   ⟨{ Wstaging .verifying with img := { (Wstaging .verifying).img with op := .part } }, by decide +kernel⟩,
   ⟨Wstaging .verifying, by decide +kernel⟩,
   ⟨{ Wstaging .pending with img := { (Wstaging .pending).img with due := true, before := .active, part := 1 } },
     by decide +kernel⟩,
   ⟨Wstaging .pending, by decide +kernel⟩⟩

theorem witness_KeysAndSecurityFloor :
    (∃ (s : State) (p : Path) (slot : Fin 4) (ext : List Byte) (b : List Byte) (a : Nat),
      s.writes p .imgKeyCmd 0 0 (4 + slot.val) ∧ slot.val ≠ 0 ∧ NMap.get? s.img.keys slot = none ∧
      (s.target (s.rnat .imgSrcAddr)).toOption = some (.here a) ∧ s.sourceBytes a 48 ext = some b) ∧
    (∃ (s : State) (p : Path) (slot : Fin 4), s.writes p .imgKeyCmd 0 0 (4 + slot.val) ∧ (slot.val = 0 ∨
      (NMap.get? s.img.keys slot).isSome = true)) ∧
    (∃ (s : State) (p : Path) (slot : Fin 4) (k : Fin 4), s.writes p .imgKeyCmd 0 0 (8 + slot.val) ∧ (slot.val = 0 ∨
      (NMap.get? s.img.keys slot).isSome = true) ∧ slot.val ∉ s.img.revoked ∧ k ≠ slot ∧
      s.img.keyUsable k = true) ∧
    (∃ (s : State) (p : Path) (slot : Fin 4), s.writes p .imgKeyCmd 0 0 (8 + slot.val) ∧ slot.val ∉ s.img.revoked ∧
      (∀ k : Fin 4, k ≠ slot → s.img.keyUsable k = false)) ∧
    (∃ (s : State) (p : Path) (v : W32), s.writes p .imgSvFloor 0 0 v.toNat ∧ s.img.svFloor ≤ v.toNat) ∧
    (∃ (s : State) (p : Path) (v : W32), s.writes p .imgSvFloor 0 0 v.toNat ∧ s.img.svFloor ≤ v.toNat) ∧
    (∃ (s : State) (p : Path) (v : W32), s.writes p .imgSvFloor 0 0 v.toNat ∧ v.toNat < s.img.svFloor) :=
  ⟨⟨W, .jtag, 2, [], (List.replicate 48 0), 0, by decide +kernel⟩,
   ⟨W, .jtag, 0, by decide +kernel⟩,
   ⟨Wkeys, .jtag, 0, 2, by decide +kernel⟩,
   ⟨W, .jtag, 0, by decide +kernel⟩,
   ⟨W, .jtag, 0, by decide +kernel⟩,
   ⟨W, .jtag, 0xFFFFFFFF, by decide +kernel⟩,
   ⟨{ W with img := { W.img with svFloor := 5 } }, .jtag, 4, by decide +kernel⟩⟩

theorem witness_PatrolAndZeroing :
    (∃ (s : State) (k : Fin 8), s.rbit .sclScrubCtrl 0 = true ∧ s.stackOn k = true) ∧
    (∃ (s : State) (k : Fin 8) (a : Nat) (id : Nat) (h : Holding), s.rbit .sclScrubCtrl 0 = true ∧
      s.stackOn k = true ∧ slopeBase k ≤ a ∧ a < slopeBase (k + 1) ∧ s.holdAt a 1 = some (id, h)) ∧
    (∃ (s : State) (base : Nat),
      s.tier.tags.any (fun g => overlaps g.1 (g.2.1 * granule) (base / granule * granule) granule) = true) :=
  ⟨⟨Wscrub, 3, by decide +kernel⟩,
   ⟨Wscrub, 3, slopeBase 3 + 5, 7, { owner := 0, base := slopeBase 3, size := 1 }, by decide +kernel⟩,
   ⟨Wtag, 0x20000, by decide +kernel⟩⟩

theorem witness_LedgerCommands :
    (∃ (s : State) (p : Path) (q : Fin 8) (ext : List Byte) (bs : List Byte),
      s.writes p .sclLedgerCmd 0 0 (1 + q.val * 16) ∧ s.ledgerRefused q 1 = false ∧
      (s.readLedger q (s.pget p.idx .sclLedgerAddr) ext).toOption = some bs ∧ s.ledgerCheck q bs = none) ∧
    (∃ (s : State) (p : Path) (q : Fin 8) (ext : List Byte) (bs : List Byte),
      s.writes p .sclLedgerCmd 0 0 (3 + q.val * 16) ∧ s.ledgerRefused q 3 = false ∧
      (s.readLedger q (s.pget p.idx .sclLedgerAddr) ext).toOption = some bs ∧ s.ledgerCheck q bs = none) ∧
    (∃ (s : State) (p : Path) (q : Fin 8) (ext : List Byte) (bs : List Byte) (code : Nat) (at_ : Option Nat),
      s.writes p .sclLedgerCmd 0 0 (1 + q.val * 16) ∧ s.ledgerRefused q 1 = false ∧
      (s.readLedger q (s.pget p.idx .sclLedgerAddr) ext).toOption = some bs ∧ s.ledgerCheck q bs = some (code,
      at_)) ∧
    (∃ (s : State) (p : Path) (q : Fin 8), s.writes p .sclLedgerCmd 0 0 (2 + q.val * 16) ∧
      s.ledgerRefused q 2 = false) ∧
    (∃ (s : State) (q : Fin 8) (es : List PEntry), (s.ledger q).st = .planning ∧
      s.planPass q (s.ledger q).period (s.ledger q).bytes = .ok es) ∧
    (∃ (s : State) (p : Path) (st : Fin 64) (v : W64), s.writes p .sclStreamCfg st 0 v.toNat ∧
      RegName.sclStreamCfg.fieldOk st (v.toNat &&& RegName.sclStreamCfg.row.mask) = true ∧
      s.rwAccept p.idx .sclStreamCfg st 0 (v.toNat &&& RegName.sclStreamCfg.row.mask) = true) :=
  ⟨⟨Wledger, .fn 0, 0, [], oneLedger, by decide +kernel⟩,
   ⟨Wledger, .fn 1, 0, [], oneLedger, by decide +kernel⟩,
   ⟨{ Wledger with mem := [] }, .fn 0, 0, [], (List.replicate 64 0), 0x0401, none, by decide +kernel⟩,
   ⟨Wledger, .fn 0, 0, by decide +kernel⟩,
   ⟨Wpass, 0, planned, by decide +kernel⟩,
   ⟨W, .fn 0, 5, 0x0100000000000003, by decide +kernel⟩⟩

theorem witness_MovesRetriesAndRoutes :
    (∃ (s : State) (d : Fin 4) (n : Fin 64) (id : Nat) (h : Holding) (b : Nat), s.noLeftFailures ∧
      (s.chan d n).st = .run ∧ (s.chan d n).work = .chain ∧ (s.chan d n).xfer = .done ∧
      (s.chan d n).moving = some id ∧ s.hold? id = some h ∧ h.dest = some b) ∧
    (∃ (s : State) (d : Fin 4) (n : Fin 64) (code : Nat) (a : Nat) (k : Nat), s.noLeftFailures ∧
      (s.chan d n).retry = some (code, a, k)) ∧
    (∃ (s : State) (d : Fin 4) (n : Fin 64) (code : Nat) (a : Nat) (k : Nat) (f : Fail), s.noLeftFailures ∧
      (s.chan d n).retry = some (code, a, k) ∧ retryable f.code = true ∧
      k + 1 < bits (s.rnat .sclTierRetry) 23 16) ∧
    (∃ (s : State) (w : AllocWait) (fn : Nat) (tag : Nat) (id : Nat), s.noLeftFailures ∧ s.tier.waits = [w] ∧
      w.part < 8 ∧ w.by_ = .host fn tag ∧ (s.allocTry ⟨w.part, w.tier, w.addr, w.stack, w.size, w.hint, .host,
      0, 0, 0⟩).1 = .got id ∧ s.scl.runs = []) ∧
    (∃ (s : State) (d : Fin 4) (x : Evict) (h : Holding) (b : Nat) (c : Cell), s.noLeftFailures ∧
      s.dma.routeQ = [(d.val, x.hold)] ∧ s.tier.evict = [x] ∧ s.hold? x.hold = some h ∧ h.by_ = .host ∧
      h.state = 2 ∧ h.dest = some b ∧ x.route = 3 ∧ s.fsmDead h.owner 1 x.st = false ∧
      s.fsmTake h.owner 1 x.st 4 = some c ∧ c.action = 3 ∧ s.fsmDead h.owner 1 c.next = true ∧
      s.tier.evictQueue = [] ∧ s.tier.waits = [] ∧ s.scl.runs = [] ∧ s.scl.dying = [] ∧ s.scl.park = []) :=
  ⟨⟨Wmove, 0, 5, 7, heldMoving, slopeBase 2, by decide +kernel⟩,
   ⟨{ Wretry (foothillBase 0) with tier := { fhCap := [(0, 2)], fhDown := [0] } }, 0, 5, 0x0305, foothillBase 0, 0,
     by decide +kernel⟩,
   ⟨(Wretry 64).rputN .sclTierRetry 0x30000, 0, 5, 0x0305, 64, 0, .timeout, by decide +kernel⟩,
   ⟨Wwait, waiting, 1, 9, 0, by decide +kernel⟩,
   ⟨Wroute, 0, routing, { heldMoving with dest := some (foothillBase 0) }, foothillBase 0,
     { next := 1, valid := true, log := false, action := 3, param := 0 }, by decide +kernel⟩⟩

theorem witness_LegsOfEntries :
    (∃ (s : State) (q : Fin 8) (k : Nat) (e : LEntry) (r : Run) (d : Nat) (n : Nat) (id : Nat) (h : Holding) (b : Nat),
      s.noLeftFailures ∧ k < 131072 ∧ s.entry? q k = some e ∧ s.run? q k = some r ∧ s.wanting e.stream = [] ∧
      s.streamChan e.stream = (d, n) ∧ (s.chan d n).work = .leg q k false ∧ (s.chan d n).st = .run ∧
      (s.chan d n).xfer = .done ∧ r.disp = 3 ∧ r.raw = some id ∧ r.back = .none ∧ s.hold? id = some h ∧
      h.dest = some b) ∧
    (∃ (s : State) (q : Fin 8) (k : Nat) (e : LEntry) (r : Run) (d : Nat) (n : Nat) (id : Nat) (h : Holding),
      s.noLeftFailures ∧ k < 131072 ∧ s.entry? q k = some e ∧ s.run? q k = some r ∧ s.wanting e.stream = [] ∧
      s.streamChan e.stream = (d, n) ∧ s.streamValid e.stream = true ∧ (s.chan d n).st = .idle ∧ r.disp = 3 ∧
      r.back = .none ∧ r.out = .done ∧ r.failed = false ∧ r.closed = false ∧ r.pressure = false ∧
      r.gap = false ∧ r.broken = 0 ∧ r.rest = some id ∧ s.hold? id = some h ∧ h.state = 1 ∧ h.objLen = 0 ∧
      e.firstAt r.step ≤ s.stepPhase + r.lead) ∧
    (∃ (s : State) (q : Fin 8) (k : Nat) (e : LEntry) (r : Run) (d : Nat) (n : Nat) (id : Nat) (h : Holding) (b : Nat),
      s.noLeftFailures ∧ k < 131072 ∧ s.entry? q k = some e ∧ s.run? q k = some r ∧ s.wanting e.stream = [] ∧
      s.streamChan e.stream = (d, n) ∧ (s.chan d n).work = .leg q k true ∧ (s.chan d n).st = .run ∧
      (s.chan d n).xfer = .done ∧ (s.chan d n).moving = some id ∧ r.out = .done ∧ s.hold? id = some h ∧
      h.dest = some b) :=
  ⟨⟨Wleg 3 false, 0, 0, oneEntry, run3, 0, 6, 7, { heldMoving with dest := some (foothillBase 0) }, foothillBase 0,
     by decide +kernel⟩,
   ⟨Wback3, 0, 0, oneEntry, { run3 with out := .done, raw := none, rest := some 7, lead := 20 }, 0, 6, 7,
     { heldMoving with state := 1, dest := none, base := foothillBase 0 }, by decide +kernel⟩,
   ⟨Wleg 3 true, 0, 0, oneEntry, { run3 with out := .done, raw := none, rest := some 7, back := .running }, 0, 6,
     7, heldMoving, slopeBase 2, by decide +kernel⟩⟩

theorem witness_SegmentsAndParking :
    (∃ (s : State) (q : Fin 8) (k : Nat) (e : LEntry) (r : Run) (id : Nat), s.noLeftFailures ∧ k < 131072 ∧
      s.entry? q k = some e ∧ s.run? q k = some r ∧ r.disp = 5 ∧ r.back = .none ∧ r.failed = false ∧
      r.closed = false ∧ r.raw = some id ∧ e.firstAt r.step ≤ s.stepPhase + r.lead ∧ e.hasInput = false ∧
      s.segmentBad q k e = false ∧ (s.ctx e.owner (fieldAt (s.rd e.seg 64) 5 1)).st = .idle) ∧
    (∃ (s : State) (q : Fin 8) (k : Nat) (e : LEntry) (r : Run) (x : Nat) (c : Nat), s.noLeftFailures ∧ k < 131072 ∧
      s.entry? q k = some e ∧ s.run? q k = some r ∧ r.back = .running ∧ s.regrowCtx q k e = some (x, c) ∧
      (s.ctx x c).st = .idle) ∧
    (∃ (s : State) (q : Fin 8) (req : Nat) (x : Parked) (g : ParkPage) (rest : List ParkPage) (h : Holding) (d : Nat) (n : Nat) (b : Nat),
      s.noLeftFailures ∧ s.parkOf q req = some x ∧ x.resuming = false ∧ s.inParkWindow q = true ∧
      s.streamFree (s.kvStream q) = true ∧ s.streamChan (s.kvStream q) = (d, n) ∧ x.pages = g :: rest ∧
      g.parked = false ∧ g.moving = false ∧ g.failedWindow = false ∧ s.hold? g.hold = some h ∧ h.state = 1 ∧
      s.rbit .sclKvCfg 0 q = false ∧ s.evictDest q h.size (s.rbit .sclKvCfg 1 q) = some b) ∧
    (∃ (s : State) (q : Fin 8) (req : Nat) (x : Parked) (y : Req) (fn : Nat) (tag : Nat) (c : Cell),
      s.noLeftFailures ∧ s.parkOf q req = some x ∧ x.resuming = true ∧ s.parkLost x = false ∧ x.home = true ∧
      s.req? req = some y ∧ y.resumeCmd = some (fn, tag) ∧ s.fsmDead y.part 3 y.st = false ∧
      s.fsmTake y.part 3 y.st 11 = some c ∧ c.action = 4) :=
  ⟨⟨Wseg, 0, 0, segEntry, { run3 with disp := 5, lead := 20, out := .done }, 7, by decide +kernel⟩,
   ⟨Wsegdone, 0, 0, segEntry, { run3 with disp := 5, back := .running }, 2, 1, by decide +kernel⟩,
   ⟨Wpark, 1, 4, parked1, { hold := 7 }, [], { owner := 1, base := slopeBase 1, size := 1 }, 2, 6, foothillBase 0,
     by decide +kernel⟩,
   ⟨Wresume, 1, 4, { parked1 with resuming := true, pages := [] }, resuming, 2, 9,
     { next := 1, valid := true, log := false, action := 4, param := 0 }, by decide +kernel⟩⟩

theorem witness_TransfersOfWholeRanges :
    (∃ (s : State) (d : Fin 4) (n : Fin 64), s.noLeftFailures ∧ s.canonical ∧ s.transfers d n 1 ∧
      s.isHere (s.chan d n).desc.src = true ∧ s.isHere (s.chan d n).desc.dst = true) ∧
    (∃ (s : State) (d : Fin 4) (n : Fin 64), s.noLeftFailures ∧ s.canonical ∧ s.transfers d n 4 ∧
      s.isHere (s.chan d n).desc.src = true ∧ s.isHere (s.chan d n).desc.dst = true) ∧
    (∃ (s : State) (d : Fin 4) (n : Fin 64), s.noLeftFailures ∧ s.canonical ∧ s.transfers d n 2 ∧
      s.isHere (s.chan d n).desc.dst = true ∧ (s.chan d n).desc.length % (s.chan d n).desc.elem = 0) ∧
    (∃ (s : State) (d : Fin 4) (n : Fin 64), s.noLeftFailures ∧ s.canonical ∧ s.transfers d n 3 ∧
      (s.chan d n).desc.stopOnMismatch = false ∧ s.isHere (s.chan d n).desc.src = true ∧
      s.isHere (s.chan d n).desc.dst = true) ∧
    (∃ (s : State) (d : Fin 4) (n : Fin 64), s.noLeftFailures ∧ s.canonical ∧ s.transfers d n 7 ∧
      s.isHere (s.chan d n).desc.src = true ∧ s.isHere (s.chan d n).desc.dst = true ∧
      (s.chan d n).desc.p0 * (s.chan d n).desc.elem ≤ (s.chan d n).desc.p3 ∧
      localOf (s.chan d n).desc.dst + (s.chan d n).desc.p1 * (s.chan d n).desc.p3 ≤ foothillBase 0) :=
  ⟨⟨Wdma { op := 1, length := 3 }, 0, 5, by decide +kernel⟩,
   ⟨Wdma { op := 4, length := 3 }, 0, 5, by decide +kernel⟩,
   ⟨Wdma { op := 2, length := 6, aux := 1, src := 0x0102 }, 0, 5, by decide +kernel⟩,
   ⟨Wdma { op := 3, length := 3 }, 0, 5, by decide +kernel⟩,
   ⟨Wdma { op := 7, length := 6, p0 := 3, p1 := 2, p2 := 2, p3 := 4 }, 0, 5, by decide +kernel⟩⟩

theorem witness_TransfersByIndexAndCode :
    (∃ (s : State) (d : Fin 4) (n : Fin 64), s.noLeftFailures ∧ s.canonical ∧ s.transferOk d n = true ∧
      s.transfers d n 5) ∧
    (∃ (s : State) (d : Fin 4) (n : Fin 64), s.noLeftFailures ∧ s.canonical ∧ s.transferOk d n = true ∧
      s.transfers d n 6) ∧
    (∃ (s : State) (d : Fin 4) (n : Fin 64), s.noLeftFailures ∧ s.canonical ∧ s.transferOk d n = true ∧
      s.transfers d n 8) ∧
    (∃ (s : State) (d : Fin 4) (n : Fin 64), s.noLeftFailures ∧ s.canonical ∧ s.transferOk d n = true ∧
      s.transfers d n 9) :=
  ⟨⟨Wdma { op := 5, length := 64, dtype := 1, p0 := 65536 }, 0, 5, by decide +kernel⟩,
   ⟨Wpacked, 0, 5, by decide +kernel⟩,
   ⟨Wdma { op := 8, length := 16, p0 := 0x3000, p2 := 4, p3 := 2 }, 0, 5, by decide +kernel⟩,
   ⟨Wdma { op := 9, length := 16, p0 := 0x3000, p2 := 4, p3 := 2 }, 0, 5, by decide +kernel⟩⟩

theorem witness_ChannelCommands :
    (∃ (s : State) (d : Fin 4) (n : Fin 64) (p : Path), s.noLeftFailures ∧ s.writes p .dmaChCtrl d n 1 ∧
      s.startRefusal (s.pathPart p) d n (s.rnat .dmaChHead d n) = none) ∧
    (∃ (s : State) (d : Fin 4) (n : Fin 64) (p : Path) (q : Nat), s.noLeftFailures ∧ s.writes p .dmaChCtrl d n 2 ∧
      n.val ≠ 63 ∧ s.scalerOwned d n = false ∧ ((s.chan d n).st = .fetch ∨ (s.chan d n).st = .wait) ∧
      (s.chan d n).moving = none ∧ (s.chan d n).work = .chain ∧ s.chanPart d n = some q ∧ s.notServing q) ∧
    (∃ (s : State) (d : Fin 4) (n : Fin 64) (p : Path), s.noLeftFailures ∧ s.writes p .dmaChCtrl d n 4 ∧
      (s.chan d n).st = .stopped ∧ s.scalerOwned d n = false ∧ n.val ≠ 63) ∧
    (∃ (s : State) (d : Fin 4) (n : Fin 64) (p : Nat), s.noLeftFailures ∧ (s.chan d n).xpcWait = true ∧
      (∀ m : Fin 64, m < n → (s.chan d m).xpcWait = false) ∧ s.chanPart d n = some p) ∧
    (∃ (s : State) (d : Fin 4) (n : Fin 64) (p : Nat) (a : Nat) (r : Region), s.noLeftFailures ∧
      (s.chan d n).st = .fetch ∧ (s.chan d n).pieces = [] ∧
      (s.target (s.chan d n).fetchAddr).toOption = some (.here a) ∧ s.chanPart d n = some p ∧
      (s.rangeCheck p a 64 1).toOption = some r ∧ (∀ w : Fin 64, r ≠ .valley w) ∧
      (parseDesc (s.rd a 64)).check = none ∧ (parseDesc (s.rd a 64)).waits = false) ∧
    (∃ (s : State) (d : Fin 4) (n : Fin 64) (p : Nat) (k : Nat), s.noLeftFailures ∧ (s.chan d n).wantsGrant = true ∧
      n.val ≠ 63 ∧ (∀ m : Fin 63, m.val ≠ n.val → (s.chan d m).st ≠ .wait) ∧ (∀ m : Fin 64,
      s.waitFired (.dmaCh d m) = false) ∧ s.img.due = false ∧ s.chanPart d n = some p ∧ s.freeSlot d = some k ∧
      s.baysOf p (s.chan d n).desc ≤ 128 - s.usedBays d ∧ (s.chan d n).desc.op ≠ 4 ∧
      s.startCheck p (s.chan d n).desc = none) :=
  ⟨⟨W.rputN .dmaChHead 0x40 0 5, 0, 5, .fn 1, by decide +kernel⟩,
   ⟨withChan W 0 5 { st := .wait, cur := 0x80, xpcSlots := 1 }, 0, 5, .fn 1, 0, by decide +kernel⟩,
   ⟨withChan W 0 5 { st := .stopped, err := 0x0104 }, 0, 5, .fn 1, by decide +kernel⟩,
   ⟨withChan W 0 5 { st := .run, desc := { (default : Desc) with op := 6, p1 := 2 }, xpcWait := true }, 0, 5, 0,
     by decide +kernel⟩,
   ⟨Wfetch, 0, 5, 0, 0x40, .crestTile 0, by decide +kernel⟩,
   ⟨Wready, 0, 5, 0, 0, by decide +kernel⟩⟩

theorem witness_TransferEnds :
    (∃ (s : State) (d : Fin 4) (n : Fin 64) (q : Nat), s.noLeftFailures ∧ s.chanPart d n = some q ∧ s.notServing q ∧
      (s.chan d n).work = .chain ∧ (s.chan d n).st = .run ∧ (s.chan d n).xfer = .done ∧
      (s.chan d n).moving = none ∧ (s.chan d n).desc.signals = false ∧ (s.chan d n).desc.chain = false) ∧
    (∃ (s : State) (d : Fin 4) (n : Fin 64) (q : Nat), s.noLeftFailures ∧ s.chanPart d n = some q ∧ s.notServing q ∧
      (s.chan d n).work = .chain ∧ (s.chan d n).st = .fetch) ∧
    (∃ (s : State) (d : Fin 4) (n : Fin 64) (q : Nat) (a : Nat), s.noLeftFailures ∧ s.chanPart d n = some q ∧
      s.notServing q ∧ (s.chan d n).work = .chain ∧ (s.chan d n).st = .run ∧ (s.chan d n).desc.op = 3 ∧
      (s.chan d n).retry = none ∧ (s.chan d n).moving = none ∧ a < 2 ^ 64) ∧
    (∃ (s : State) (d : Fin 4) (n : Fin 64) (q : Nat) (a : Nat), s.noLeftFailures ∧ s.chanPart d n = some q ∧
      s.notServing q ∧ (s.chan d n).work = .chain ∧ (s.chan d n).st = .run ∧ (s.chan d n).desc.op = 3 ∧
      (s.chan d n).retry = none ∧ s.lowerTier a = true ∧ s.chanStall d n = true) :=
  ⟨⟨withChan W 0 5 { st := .run, xfer := .done, slot := some 3, bays := 4 }, 0, 5, 0, by decide +kernel⟩,
   ⟨withChan W 0 5 { st := .fetch, fetchAddr := 0x40 }, 0, 5, 0, by decide +kernel⟩,
   ⟨withChan W 0 5 { st := .run, desc := { (default : Desc) with op := 3 } }, 0, 5, 0, 0x40, by decide +kernel⟩,
   ⟨Wstall, 0, 5, 0, foothillBase 0, by decide +kernel⟩⟩

theorem witness_VectorArithmetic :
    (∃ (s : State) (x : Fin 24) (c : Fin 4) (p : Nat) (w : Nat), s.noLeftFailures ∧ s.atWord x c p w ∧
      isVop 0x01 w = true) ∧
    (∃ (s : State) (x : Fin 24) (c : Fin 4) (p : Nat) (w : Nat), s.noLeftFailures ∧ s.atWord x c p w ∧
      isVop 0x02 w = true) ∧
    (∃ (s : State) (x : Fin 24) (c : Fin 4) (p : Nat) (w : Nat), s.noLeftFailures ∧ s.atWord x c p w ∧
      isVop 0x03 w = true) ∧
    (∃ (s : State) (x : Fin 24) (c : Fin 4) (p : Nat) (w : Nat), s.noLeftFailures ∧ s.atWord x c p w ∧
      isVop 0x04 w = true) ∧
    (∃ (s : State) (x : Fin 24) (c : Fin 4) (p : Nat) (w : Nat), s.noLeftFailures ∧ s.atWord x c p w ∧
      isVop 0x05 w = true) ∧
    (∃ (s : State) (x : Fin 24) (c : Fin 4) (p : Nat) (w : Nat), s.noLeftFailures ∧ s.atWord x c p w ∧
      isVop 0x06 w = true) ∧
    (∃ (s : State) (x : Fin 24) (c : Fin 4) (p : Nat) (w : Nat), s.noLeftFailures ∧ s.atWord x c p w ∧
      isVop 0x07 w = true) ∧
    (∃ (s : State) (x : Fin 24) (c : Fin 4) (p : Nat) (w : Nat), s.noLeftFailures ∧ s.atWord x c p w ∧
      isVop 0x08 w = true) ∧
    (∃ (s : State) (x : Fin 24) (c : Fin 4) (p : Nat) (w : Nat), s.noLeftFailures ∧ s.atWord x c p w ∧
      isVop 0x09 w = true) ∧
    (∃ (s : State) (x : Fin 24) (c : Fin 4) (p : Nat) (w : Nat), s.noLeftFailures ∧ s.atWord x c p w ∧
      isVop 0x0a w = true) ∧
    (∃ (s : State) (x : Fin 24) (c : Fin 4) (p : Nat) (w : Nat), s.noLeftFailures ∧ s.atWord x c p w ∧
      isVop 0x0b w = true) ∧
    (∃ (s : State) (x : Fin 24) (c : Fin 4) (p : Nat) (w : Nat), s.noLeftFailures ∧ s.atWord x c p w ∧
      isVop 0x0c w = true) ∧
    (∃ (s : State) (x : Fin 24) (c : Fin 4) (p : Nat) (w : Nat), s.noLeftFailures ∧ s.atWord x c p w ∧
      isVop 0x10 w = true) :=
  ⟨⟨Wvop 0x10012844340000000000000000000000, 3, 2, 0, 0x10012844340000000000000000000000, by decide +kernel⟩,
   ⟨Wvop 0x10022844300000000000000000000000, 3, 2, 0, 0x10022844300000000000000000000000, by decide +kernel⟩,
   ⟨Wvop 0x10032844380000000000000000000000, 3, 2, 0, 0x10032844380000000000000000000000, by decide +kernel⟩,
   ⟨Wvop 0x10042844300000000000000000000000, 3, 2, 0, 0x10042844300000000000000000000000, by decide +kernel⟩,
   ⟨Wvop 0x10052844300000000000000000000000, 3, 2, 0, 0x10052844300000000000000000000000, by decide +kernel⟩,
   ⟨Wvop 0x10062844300000000000000000000000, 3, 2, 0, 0x10062844300000000000000000000000, by decide +kernel⟩,
   ⟨Wvop 0x10072844300000000000000000000000, 3, 2, 0, 0x10072844300000000000000000000000, by decide +kernel⟩,
   ⟨Wvop 0x10082844300000000000000000000000, 3, 2, 0, 0x10082844300000000000000000000000, by decide +kernel⟩,
   ⟨Wvop 0x10092844300000000000000000000000, 3, 2, 0, 0x10092844300000000000000000000000, by decide +kernel⟩,
   ⟨Wvop 0x100a2844300000000000000000000000, 3, 2, 0, 0x100a2844300000000000000000000000, by decide +kernel⟩,
   ⟨Wvop 0x100b2844300000000000000000000000, 3, 2, 0, 0x100b2844300000000000000000000000, by decide +kernel⟩,
   ⟨Wvop 0x100c284430c000000000000000000000, 3, 2, 0, 0x100c284430c000000000000000000000, by decide +kernel⟩,
   ⟨Wvop 0x10102844300000000000000000000000, 3, 2, 0, 0x10102844300000000000000000000000, by decide +kernel⟩⟩

theorem witness_VectorStreams :
    (∃ (s : State) (x : Fin 24) (c : Fin 4) (p : Nat) (w : Nat), s.noLeftFailures ∧ s.atWord x c p w ∧
      isVop 0x0D w = true) ∧
    (∃ (s : State) (x : Fin 24) (c : Fin 4) (p : Nat) (w : Nat), s.noLeftFailures ∧ s.atWord x c p w ∧
      isVop 0x0E w = true) ∧
    (∃ (s : State) (x : Fin 24) (c : Fin 4) (p : Nat) (w : Nat), s.noLeftFailures ∧ s.atWord x c p w ∧
      isVop 0x0F w = true) ∧
    (∃ (s : State) (x : Fin 24) (c : Fin 4) (p : Nat) (w : Nat), s.noLeftFailures ∧ s.atWord x c p w ∧
      isOp 0x13 w = true) ∧
    (∃ (s : State) (x : Fin 24) (c : Fin 4) (p : Nat) (w : Nat), s.noLeftFailures ∧ s.atWord x c p w ∧
      isOp 0x14 w = true) :=
  ⟨⟨Wvop 0x100d2844300000000000000000000000, 3, 2, 0, 0x100d2844300000000000000000000000, by decide +kernel⟩,
   ⟨Wvop 0x100e2844300000008000000000000000, 3, 2, 0, 0x100e2844300000008000000000000000, by decide +kernel⟩,
   ⟨Wvop 0x100f2844300000000000000000000000, 3, 2, 0, 0x100f2844300000000000000000000000, by decide +kernel⟩,
   ⟨Wvop 0x1304000000000000000000000000004d, 3, 2, 0, 0x1304000000000000000000000000004d, by decide +kernel⟩,
   ⟨Wvop 0x1400000000000000000000000000004d, 3, 2, 0, 0x1400000000000000000000000000004d, by decide +kernel⟩⟩

theorem witness_ArrayWords :
    (∃ (s : State) (x : Fin 24) (c : Fin 4) (p : Nat) (w : Nat), s.noLeftFailures ∧ s.atWord x c p w ∧
      s.ownsArray x c = true ∧ isOp 0x01 w = true ∧ bit (bits w 119 112) 3 = false ∧
      s.rowsAccess x c p 1 ((List.range 128).map (fun m => ((wAddr w + m * wPitch w),
      512 * fmtSize (bits w 119 116)))) = none) ∧
    (∃ (s : State) (x : Fin 24) (c : Fin 4) (p : Nat) (w : Nat), s.noLeftFailures ∧ s.atWord x c p w ∧
      s.ownsArray x c = true ∧ isOp 0x01 w = true ∧ bit (bits w 119 112) 3 = true ∧
      s.rowsAccess x c p 1 ((List.range 512).map (fun m => ((wAddr w + m * wPitch w),
      128 * fmtSize (bits w 119 116)))) = none) ∧
    (∃ (s : State) (x : Fin 24) (c : Fin 4) (p : Nat) (w : Nat) (bank : Bank), s.noLeftFailures ∧ s.atWord x c p w ∧
      s.ownsArray x c = true ∧ isOp 0x02 w = true ∧ s.bank x (bits w 115 115) = bank ∧
      pairOk (bits w 119 116) bank.fmt = true ∧
      s.rowsAccess x c p 1 ((List.range (wRows w)).map (fun m => ((wAddr w + m * wPitch w),
      128 * fmtSize (bits w 119 116)))) = none ∧ (bit (bits w 119 112) 2 = true ∨ ∀ m < wRows w,
      classOk (isExactFmt (bits w 119 116)) (s.accRow x (wRow0 w + m)) = true)) ∧
    (∃ (s : State) (x : Fin 24) (c : Fin 4) (p : Nat) (w : Nat), s.noLeftFailures ∧ s.atWord x c p w ∧
      s.ownsArray x c = true ∧ isOp 0x03 w = true ∧ (∀ m < wRows w, (s.accRow x (wRow0 w + m)).isSome = true) ∧
      ((bits w 119 116 ≠ 6 ∧ bits w 119 116 ≠ 8) ∨ (bits w 115 114 ≠ 1 ∧ ∀ m < wRows w,
      classOk true (s.accRow x (wRow0 w + m)) = true)) ∧
      s.rowsAccess x c p 2 ((List.range (wRows w)).map (fun m => ((wAddr w + m * wPitch w),
      512 * fmtSize (bits w 119 116)))) = none) ∧
    (∃ (s : State) (x : Fin 24) (c : Fin 4) (p : Nat) (w : Nat), s.noLeftFailures ∧ s.atWord x c p w ∧
      s.ownsArray x c = true ∧ isOp 0x04 w = true ∧
      s.rowsAccess x c p 2 (((List.range (wRows w)).map (fun m => (wAddr w + m * wPitch w))).zip ((s.rowForms x ((List.range (wRows w)).map (fun m => wRow0 w + m))).1.map formBytes)) = none) ∧
    (∃ (s : State) (x : Fin 24) (c : Fin 4) (p : Nat) (w : Nat), s.noLeftFailures ∧ s.atWord x c p w ∧
      s.ownsArray x c = true ∧ isOp 0x05 w = true ∧
      s.rowsAccess x c p 1 (((List.range (wRows w)).map (fun m => (wAddr w + m * wPitch w))).zip ((s.rowForms x ((List.range (wRows w)).map (fun m => wRow0 w + m))).1.map formBytes)) = none ∧
      (∀ m < wRows w, (s.accRow x (wRow0 w + m)).isSome = true)) :=
  ⟨⟨Warr 0x1100000000000400000000200000000, 3, 2, 0, 0x1100000000000400000000200000000, by decide +kernel⟩,
   ⟨Warr 0x1180000000000400000000200000000, 3, 2, 0, 0x1180000000000400000000200000000, by decide +kernel⟩,
   ⟨Wbank 0x2100000000000200000000080070100, 3, 2, 0, 0x2100000000000200000000080070100, bank1, ⟨by decide +kernel,
     by decide +kernel, by decide +kernel, by decide +kernel, rfl, by decide +kernel, by decide +kernel,
     by decide +kernel⟩⟩,
   ⟨Wacc 0x3500000000000600000000800070000, 3, 2, 0, 0x3500000000000600000000800070000, by decide +kernel⟩,
   ⟨Wacc 0x4000000000000600000002000070000, 3, 2, 0, 0x4000000000000600000002000070000, by decide +kernel⟩,
   ⟨Wacc 0x5010000000000200000002000070000, 3, 2, 0, 0x5010000000000200000002000070000, by decide +kernel⟩⟩

theorem witness_VectorLoadsAndStores :
    (∃ (s : State) (x : Fin 24) (c : Fin 4) (p : Nat) (w : Nat), s.noLeftFailures ∧ s.atWord x c p w ∧
      isOp 0x11 w = true ∧ s.rowsAccess x c p 1 [(wAddr w, 512 * fmtSize (bits w 119 116))] = none) ∧
    (∃ (s : State) (x : Fin 24) (c : Fin 4) (p : Nat) (w : Nat), s.noLeftFailures ∧ s.atWord x c p w ∧
      isOp 0x12 w = true ∧ s.rowsAccess x c p 2 [(wAddr w, 512 * fmtSize (bits w 119 116))] = none) :=
  ⟨⟨Wvop 0x11500000000000200028000000000000, 3, 2, 0, 0x11500000000000200028000000000000, by decide +kernel⟩,
   ⟨Wvop 0x12500000000000600008000000000000, 3, 2, 0, 0x12500000000000600008000000000000, by decide +kernel⟩⟩

theorem witness_ControlWords :
    (∃ (s : State) (x : Fin 24) (c : Fin 4) (p : Nat) (w : Nat), s.noLeftFailures ∧ s.atWord x c p w ∧
      isOp 0x20 w = true ∧ s.startRefusal (some p) (bits w 119 118) (bits w 117 112) (wAddr w) = none) ∧
    (∃ (s : State) (x : Fin 24) (c : Fin 4) (p : Nat) (w : Nat) (code : Nat), s.noLeftFailures ∧ s.atWord x c p w ∧
      isOp 0x20 w = true ∧ s.startRefusal (some p) (bits w 119 118) (bits w 117 112) (wAddr w) = some code) ∧
    (∃ (s : State) (x : Fin 24) (c : Fin 4) (p : Nat) (w : Nat), s.noLeftFailures ∧ s.atWord x c p w ∧
      isOp 0x32 w = true) ∧
    (∃ (s : State) (x : Fin 24) (c : Fin 4) (p : Nat) (w : Nat), s.noLeftFailures ∧ s.atWord x c p w ∧
      isOp 0xFF w = true) ∧
    (∃ (s : State) (x : Fin 24) (c : Fin 4) (p : Nat) (w : Nat), s.noLeftFailures ∧ s.atWord x c p w ∧
      isOp 0x34 w = true ∧ s.ownsArray x c = true) ∧
    (∃ (s : State) (x : Fin 24) (c : Fin 4) (p : Nat) (w : Nat) (i : Nat), s.noLeftFailures ∧ s.atWord x c p w ∧
      isOp 0x30 w = true ∧ bit w 117 = true ∧ (s.localRef p (bits w 111 96)).toOption = some i) ∧
    (∃ (s : State) (x : Fin 24) (c : Fin 4) (p : Nat) (w : Nat) (i : Nat), s.noLeftFailures ∧ s.atWord x c p w ∧
      isOp 0x30 w = true ∧ bit w 117 = false ∧ bit w 111 = false ∧
      (s.localRef p (bits w 111 96)).toOption = some i) ∧
    (∃ (s : State) (x : Fin 24) (c : Fin 4) (p : Nat) (w : Nat) (i : Nat), s.noLeftFailures ∧ s.atWord x c p w ∧
      isOp 0x31 w = true ∧ (s.waitRef p (bits w 111 96)).toOption = some i) :=
  ⟨⟨Wword 0x20470000000000008000000000000000, 3, 2, 0, 0x20470000000000008000000000000000, by decide +kernel⟩,
   ⟨Wword 0x20470000000000008100000000000000, 3, 2, 0, 0x20470000000000008100000000000000, 0x0103,
     by decide +kernel⟩,
   ⟨Wword 0x32400000000000000000000000000000, 3, 2, 0, 0x32400000000000000000000000000000, by decide +kernel⟩,
   ⟨Wword 0xff000000000000000000000000000000, 3, 2, 0, 0xff000000000000000000000000000000, by decide +kernel⟩,
   ⟨Warr 0x34030000000000000000000000000000, 3, 2, 0, 0x34030000000000000000000000000000, by decide +kernel⟩,
   ⟨Wword 0x30200009000000000000004d00000000, 3, 2, 0, 0x30200009000000000000004d00000000, 9, by decide +kernel⟩,
   ⟨Wword 0x3000000900000000ffffffff00000000, 3, 2, 0, 0x3000000900000000ffffffff00000000, 9, by decide +kernel⟩,
   ⟨Warr 0x31800009000000000000000300000000, 3, 2, 0, 0x31800009000000000000000300000000, 9, by decide +kernel⟩⟩

theorem witness_ContextCommands :
    (∃ (s : State) (x : Fin 24) (c : Fin 4) (p : Path), s.noLeftFailures ∧ s.writes p .tilCtxCtrl x c 1 ∧
      s.ctxGoRefusal (s.pathPart p) x c = none) ∧
    (∃ (s : State) (x : Fin 24) (c : Fin 4) (p : Path) (q : Nat), s.noLeftFailures ∧ s.writes p .tilCtxCtrl x c 2 ∧
      ((s.ctx x c).st = .run ∨ (s.ctx x c).st = .wait) ∧ s.ownerTile x = some q ∧ s.pathPart p = some q ∧
      s.notServing q ∧ (s.ledger q).inForce = none ∧ s.rbit .tilCtxErrCairn 16 x c = false) ∧
    (∃ (s : State) (x : Fin 24) (c : Fin 4) (p : Path), s.noLeftFailures ∧ s.writes p .tilCtxCtrl x c 4 ∧
      (s.ctx x c).st = .fault ∧ (s.pathPart p).isSome = true ∧ s.ownerTile x = s.pathPart p) :=
  ⟨⟨W.rputN .tilCtxPc 0x40 3 2, 3, 2, .fn 1, by decide +kernel⟩,
   ⟨withCtx W { st := .run, pc := 0x40, posted := [(0x5000, [1, 2])] }, 3, 2, .fn 1, 0, by decide +kernel⟩,
   ⟨withCtx W { st := .fault, err := 0x0A24 }, 3, 2, .fn 1, by decide +kernel⟩⟩

theorem witness_WaitsEnd :
    (∃ (s : State) (x : Fin 24) (c : Fin 4), s.noLeftFailures ∧ (s.ctx x c).st = .wait ∧ (s.ctx x c).wait = .cairn ∧
      s.waitFired (.tileCtx x c) = true) ∧
    (∃ (s : State) (d : Fin 4) (n : Fin 64), s.noLeftFailures ∧ s.waitFired (.dmaCh d n) = true ∧
      (s.chan d n).st = .wait ∧ (s.chan d n).startReached = false ∧ (∀ m : Fin 64, m ≠ n →
      (s.chan d m).st ≠ .wait)) ∧
    (∃ (s : State), s.noLeftFailures) ∧
    (∃ (s : State), s.noLeftFailures) ∧
    (∃ (s : State) (y : Wait), s.noLeftFailures ∧ s.cad.frozen = false ∧ s.waitOf y.who = some y ∧ y.fired = false ∧
      s.beforeDeadline y.who = true) ∧
    (∃ (s : State) (y : Wait), s.noLeftFailures ∧ s.cad.frozen = false ∧ s.waitOf y.who = some y ∧ y.fired = false ∧
      s.beforeDeadline y.who = true) ∧
    (∃ (s : State) (y : Wait), s.noLeftFailures ∧ s.cad.frozen = false ∧ s.waitOf y.who = some y ∧ y.fired = false ∧
      s.beforeDeadline y.who = true) ∧
    (∃ (s : State) (x : Fin 24) (c : Fin 4) (y : Wait) (q : Nat), s.noLeftFailures ∧ s.cad.frozen = false ∧
      s.waitOf (.tileCtx x c) = some y ∧ y.fired = false ∧ s.beforeDeadline (.tileCtx x c) = true ∧
      s.ownerTile x = some q ∧ s.notServing q ∧ (s.ledger q).inForce = none ∧
      s.rbit .tilCtxErrCairn 16 x c = false) ∧
    (∃ (s : State) (d : Fin 4) (n : Fin 64) (y : Wait) (q : Nat), s.noLeftFailures ∧ s.cad.frozen = false ∧
      s.waitOf (.dmaCh d n) = some y ∧ y.fired = false ∧ s.beforeDeadline (.dmaCh d n) = true ∧
      s.chanPart d n = some q ∧ s.notServing q ∧ (s.chan d n).work = .chain ∧
      s.rbit .dmaChErrCairn 16 d n = false) ∧
    (∃ (s : State) (h : Fin 64) (y : Wait) (w : HostWatch), s.noLeftFailures ∧ s.cad.frozen = false ∧
      s.waitOf (.hostWatch h) = some y ∧ y.fired = false ∧ NMap.get? s.crn.watches h = some w ∧
      s.vectorOf w.fn w.vector = true) :=
  ⟨⟨Wwaits (.tileCtx 3 2) true, 3, 2, by decide +kernel⟩,
   ⟨Wwaits (.dmaCh 0 5) true, 0, 5, by decide +kernel⟩,
   ⟨Wwaits (.update 3) true, by decide +kernel⟩,
   ⟨Wwaits (.coll 3) true, by decide +kernel⟩,
   ⟨Wwaits (.tileCtx 3 2) false, .mk (.tileCtx 3 2) 5 1 0 false, by decide +kernel⟩,
   ⟨Wwaits (.update 1) false, .mk (.update 1) 5 1 0 false, by decide +kernel⟩,
   ⟨Wwaits (.coll 1) false, .mk (.coll 1) 5 1 0 false, by decide +kernel⟩,
   ⟨Wwaits (.tileCtx 3 2) false, 3, 2, .mk (.tileCtx 3 2) 5 1 0 false, 0, by decide +kernel⟩,
   ⟨Wwaits (.dmaCh 0 5) false, 0, 5, .mk (.dmaCh 0 5) 5 1 0 false, 0, by decide +kernel⟩,
   ⟨Wwaits (.hostWatch 7) false, 7, .mk (.hostWatch 7) 5 1 0 false, { vector := 2, mirror := none, fn := 1 },
     by decide +kernel⟩⟩

theorem witness_CairnsFromOutside :
    (∃ (s : State) (p : Path) (v : W32) (h : Fin 64), s.noLeftFailures ∧ s.writes p .crnHcAdd h 0 v.toNat) ∧
    (∃ (s : State) (p : Path) (v : W32) (h : Fin 64), s.noLeftFailures ∧ s.writes p .crnHcSet h 0 v.toNat ∧
      s.logOpen) ∧
    (∃ (s : State) (p : Path) (v : W32) (h : Fin 64), s.noLeftFailures ∧ s.writes p .crnHcSet h 0 v.toNat ∧
      s.logOpen) ∧
    (∃ (s : State) (p : Path) (v : W32), s.noLeftFailures ∧ s.writes p .crnDebugSet 0 0 v.toNat ∧
      s.pget p.idx .crnDebugRef < 1472 ∧ s.cairnOn (s.pget p.idx .crnDebugRef) = true) ∧
    (∃ (s : State) (p : Path) (h : Fin 64) (v : W32) (q : Nat), s.noLeftFailures ∧
      s.writes p .crnHcWcfg h 0 v.toNat ∧
      RegName.crnHcWcfg.fieldOk h (v.toNat &&& RegName.crnHcWcfg.row.mask) = true ∧
      s.rwAccept p.idx .crnHcWcfg h 0 (v.toNat &&& RegName.crnHcWcfg.row.mask) = true ∧ bit v.toNat 16 = true ∧
      s.ownerHostCairn h = some q) ∧
    (∃ (s : State) (p : Path) (h : Fin 64) (v : W32), s.noLeftFailures ∧ s.writes p .crnHcWcfg h 0 v.toNat ∧
      RegName.crnHcWcfg.fieldOk h (v.toNat &&& RegName.crnHcWcfg.row.mask) = true ∧ bit v.toNat 16 = false) ∧
    (∃ (s : State) (h : Fin 64) (w : HostWatch), s.noLeftFailures ∧ NMap.get? s.crn.watches h = some w ∧
      s.waitFired (.hostWatch h) = true ∧ w.mirror = none ∧ s.vectorOf w.fn w.vector = true) ∧
    (∃ (s : State) (h : Fin 64) (w : HostWatch) (a : Nat) (l : Nat) (m : Nat) (g : Window), s.noLeftFailures ∧
      NMap.get? s.crn.watches h = some w ∧ s.waitFired (.hostWatch h) = true ∧ w.mirror = some a ∧
      (s.target a).toOption = some (.here l) ∧ s.region? l = some (.valley m) ∧
      NMap.get? s.hif.windows m = some g ∧ s.vectorOf w.fn w.vector = false) ∧
    (∃ (s : State) (rtag : Nat) (q : Nat) (src : AddSrc) (r : FabReq), s.noLeftFailures ∧ s.findReq rtag = some r ∧
      r.purpose = .signal q src ∧ (src = .host ∨ src = .scaler ∨ src = .hardware)) ∧
    (∃ (s : State) (rtag : Nat) (q : Nat) (d : Fin 4) (n : Fin 64) (r : FabReq), s.noLeftFailures ∧
      s.findReq rtag = some r ∧ r.purpose = .signal q (.dma d n) ∧ (s.chan d n).xfer = .signalling ∧
      s.chanPart d n = some q ∧ s.notServing q ∧ (s.chan d n).work = .chain) :=
  ⟨⟨{ W with crn := { vals := [(1415, 0xFFFFFFFF), (3, 1)] } }, .fn 1, 5#32, 7, by decide +kernel⟩,
   ⟨{ W with crn := { vals := [(1415, 9), (3, 1)] } }, .fn 1, 5#32, 7, by decide +kernel⟩,
   ⟨W, .fn 1, 5#32, 7, by decide +kernel⟩,
   ⟨W, .fn 0, 5#32, by decide +kernel⟩,
   ⟨W, .fn 1, 7, 0x10002#32, 0, by decide +kernel⟩,
   ⟨Wwaits (.hostWatch 7) false, .fn 1, 7, 2#32, by decide +kernel⟩,
   ⟨(Wwaits (.hostWatch 7) true).rputN .crnHcWcfg 0x10002 7, 7, { vector := 2, mirror := none, fn := 1 },
     by decide +kernel⟩,
   ⟨Wmirror, 7, { vector := 2000, mirror := some (valleyBase 1 + 8), fn := 1 }, valleyBase 1 + 8, valleyBase 1 + 8,
     1, mirrorWin, by decide +kernel⟩,
   ⟨Wsig .hardware, 3, 0, .hardware, { pkt := { rtag := 3 }, purpose := .signal 0 .hardware }, by decide +kernel⟩,
   ⟨Wsig (.dma 0 5), 3, 0, 0, 5, { pkt := { rtag := 3 }, purpose := .signal 0 (.dma 0 5) }, by decide +kernel⟩⟩

theorem witness_UpdateUnits :
    (∃ (s : State) (u : Fin 8) (q : Nat) (p : Path), s.noLeftFailures ∧ s.unitPart u = some q ∧
      s.writes p .updCtrl u 0 1 ∧ ((s.unit u).st = .idle ∨ (s.unit u).st = .halted)) ∧
    (∃ (s : State) (u : Fin 8) (q : Nat) (p : Path), s.noLeftFailures ∧ s.unitPart u = some q ∧
      s.writes p .updCtrl u 0 2 ∧ (s.unit u).st = .armed) ∧
    (∃ (s : State) (u : Fin 8) (q : Nat) (p : Path), s.noLeftFailures ∧ s.unitPart u = some q ∧
      s.writes p .updCtrl u 0 2 ∧ (s.unit u).st = .running) ∧
    (∃ (s : State) (u : Fin 8) (q : Nat), s.noLeftFailures ∧ s.unitPart u = some q ∧ (s.unit u).st = .running ∧
      (s.unit u).pass = .waiting ∧ (s.unit u).startReached = true ∧ ((s.unit u).waitDone = true ∨
      s.waitFired (.update u) = true) ∧ s.heldByCommit (some q) (s.unit u).startAt = false ∧
      (∀ r ∈ (s.unit u).cur.ranges, (s.rangeCheck q r.1 r.2.1 r.2.2).toOption.isSome = true) ∧
      ((s.unit u).cur.isGacc = false ∨ (s.train q).faulted = false ∧ ((s.unit u).cur.gated = false ∨
      (s.train q).nf = false))) ∧
    (∃ (s : State) (u : Fin 8) (q : Nat), s.noLeftFailures ∧ s.unitPart u = some q ∧ (s.unit u).st = .running ∧
      (s.unit u).pass = .waiting ∧ (s.unit u).startReached = true ∧ ((s.unit u).waitDone = true ∨
      s.waitFired (.update u) = true) ∧ s.heldByCommit (some q) (s.unit u).startAt = false ∧
      (∀ r ∈ (s.unit u).cur.ranges, (s.rangeCheck q r.1 r.2.1 r.2.2).toOption.isSome = true) ∧
      ((s.unit u).cur.isGacc = false ∨ (s.train q).faulted = false ∧ ((s.unit u).cur.gated = false ∨
      (s.train q).nf = false))) ∧
    (∃ (s : State) (u : Fin 8) (q : Nat), s.noLeftFailures ∧ s.unitPart u = some q ∧ (s.unit u).st = .running ∧
      (s.unit u).pass = .check ∧ (s.train q).faulted = false ∧ ((s.unit u).cur.gated = false ∨
      (s.train q).nf = false) ∧
      (s.grads (s.unit u).cur (signed 8 (s.unit u).hyper.exp)).all (fun g => f32Finite g) = true ∧
      f32Finite (normOf (s.grads (s.unit u).cur (signed 8 (s.unit u).hyper.exp))) = true) ∧
    (∃ (s : State) (u : Fin 8) (q : Nat), s.noLeftFailures ∧ s.unitPart u = some q ∧ (s.unit u).st = .running ∧
      (s.unit u).pass = .check ∧
      (s.grads (s.unit u).cur (signed 8 (s.unit u).hyper.exp)).any (fun g => !f32Finite g) = true) ∧
    (∃ (s : State) (u : Fin 8) (q : Nat), s.noLeftFailures ∧ s.unitPart u = some q ∧ (s.unit u).st = .running ∧
      (s.unit u).pass = .apply) ∧
    (∃ (s : State) (u : Fin 8) (q : Nat) (p : Path) (part : Fin 8) (v : W32), s.noLeftFailures ∧
      s.unitPart u = some q ∧ s.writes p .updLsExp part 0 v.toNat ∧
      RegName.updLsExp.fieldOk part (v.toNat &&& RegName.updLsExp.row.mask) = true ∧
      s.rwAccept p.idx .updLsExp part 0 (v.toNat &&& RegName.updLsExp.row.mask) = true) :=
  ⟨⟨Wunit { st := .halted }, 0, 0, .fn 1, by decide +kernel⟩,
   ⟨Wunit { st := .armed }, 0, 0, .fn 1, by decide +kernel⟩,
   ⟨Wunit { st := .running }, 0, 0, .fn 1, by decide +kernel⟩,
   ⟨Wunit { st := .running, pass := .waiting, startReached := true, waitDone := true, cur := job1 }, 0, 0,
     by decide +kernel⟩,
   ⟨Wunit { st := .running, pass := .waiting, startReached := true, waitDone := true, cur := { job1 with op := 3 } },
     0, 0, by decide +kernel⟩,
   ⟨Wunit { st := .running, pass := .check, cur := job1 }, 0, 0, by decide +kernel⟩,
   ⟨{ Wunit { st := .running, pass := .check, cur := job1 } with mem := placed 0x1000 [0, 0, 0x80, 0x7F] }, 0, 0,
     by decide +kernel⟩,
   ⟨Wunit { st := .running, pass := .apply, cur := job1 }, 0, 0, by decide +kernel⟩,
   ⟨W.rputN .updLsRange 0x1000, 0, 0, .fn 1, 0, 5#32, by decide +kernel⟩⟩

theorem witness_LinkFrames :
    (∃ (s : State) (k : Fin 14) (seq : Nat) (f : TxFrame) (r : List (Nat × TxFrame)), s.noLeftFailures ∧
      (s.port k).st = 3 ∧ (s.port k).resendQ = (seq, f) :: r) ∧
    (∃ (s : State) (k : Fin 14) (vc : Nat) (f : TxFrame) (r : List TxFrame), s.noLeftFailures ∧ (s.port k).st = 3 ∧
      (s.port k).resendQ = [] ∧ (s.port k).pick = some vc ∧ (s.port k).queue vc = f :: r) ∧
    (∃ (s : State) (k : Fin 14), s.noLeftFailures ∧ (s.port k).st = 3 ∧ (s.port k).resendQ = [] ∧
      (s.port k).pick = none ∧ ((s.port k).owes 0 > 0 ∨ (s.port k).owes 1 > 0 ∨ (s.port k).owes 2 > 0 ∨
      (s.port k).owes 3 > 0)) ∧
    (∃ (s : State) (k : Fin 14), s.noLeftFailures ∧ (s.port k).st = 3 ∧ (s.port k).resendQ = [] ∧
      (s.port k).pick = none ∧ (∀ vc : Fin 4, (s.port k).owes vc = 0)) ∧
    (∃ (s : State) (k : Fin 14) (b : List Byte), s.noLeftFailures ∧ (s.port k).st = 3 ∧ correctFrame b = none) ∧
    (∃ (s : State) (k : Fin 14) (b : List Byte) (f : List Byte) (n : Nat), s.noLeftFailures ∧ (s.port k).st = 3 ∧
      correctFrame b = some (f, n)) :=
  ⟨⟨Wport { portUp with retry := [(5, frame1)], resendQ := [(5, frame1)] }, 0, 5, frame1, [], by decide +kernel⟩,
   ⟨Wport { portUp with txq := [(0, [frame1])] }, 0, 0, frame1, [], by decide +kernel⟩,
   ⟨Wport { portUp with owed := [(1, 4)] }, 0, by decide +kernel⟩,
   ⟨Wport portUp, 0, by decide +kernel⟩,
   ⟨Wport portUp, 0, [1, 2, 3], by decide +kernel⟩,
   ⟨Wport { portUp with retry := [(5, frame1), (6, frame1)] }, 0, idleFrame, idleFrame, 0, ⟨by decide +kernel,
     by decide +kernel, idleFrame_ok⟩⟩⟩

theorem witness_PortStates :
    (∃ (s : State) (k : Fin 14), s.noLeftFailures ∧ (s.port k).st = 3 ∧ (s.port k).retry ≠ [] ∧
      (s.port k).resends < 8) ∧
    (∃ (s : State) (k : Fin 14), s.noLeftFailures ∧ (s.port k).st = 3 ∧ (s.port k).retry ≠ [] ∧
      (s.port k).resends ≥ 8) ∧
    (∃ (s : State) (k : Fin 14), s.noLeftFailures ∧ (s.port k).st = 3) ∧
    (∃ (s : State) (k : Fin 14) (p : Option Path), s.noLeftFailures ∧ (∀ w ∈ p, s.writes w .nynPortCmd k 0 1) ∧
      (s.port k).st = 1 ∧ s.portAllowed k = true) ∧
    (∃ (s : State) (k : Fin 14) (p : Option Path), s.noLeftFailures ∧ (∀ w ∈ p, s.writes w .nynPortCmd k 0 1) ∧
      (s.port k).st = 1 ∧ s.portAllowed k = true) ∧
    (∃ (s : State) (k : Fin 14) (id : Fin 64) (j : Fin 14), s.noLeftFailures ∧ (s.port k).st = 2 ∧
      id.val = facing s.ownId k ∧ j.val = farPort k) ∧
    (∃ (s : State) (k : Fin 14) (machine : Nat) (id : Fin 64) (j : Fin 14), s.noLeftFailures ∧ (s.port k).st = 2 ∧
      (machine ≠ s.img.machineId ∨ id.val ≠ facing s.ownId k ∨ j.val ≠ farPort k)) ∧
    (∃ (s : State) (k : Fin 14), s.noLeftFailures ∧ (s.port k).st = 2) ∧
    (∃ (s : State) (k : Fin 14) (p : Path), s.noLeftFailures ∧ s.writes p .nynPortCtrl k 0 0) ∧
    (∃ (s : State) (k : Fin 14) (p : Path), s.noLeftFailures ∧ s.writes p .nynPortCtrl k 0 0) ∧
    (∃ (s : State) (k : Fin 14) (p : Path), s.noLeftFailures ∧ s.writes p .nynPortCtrl k 0 1 ∧ (s.port k).st = 0 ∧
      s.domainOn (domPort k) = true ∧ bit s.portMask k = true ∧ s.slotPos ≤ 8) ∧
    (∃ (s : State) (p : Path) (v : W64), s.noLeftFailures ∧ s.writes p .nynFailed 0 0 v.toNat ∧ (∀ j : Fin 14,
      (s.port j).st = 3 → s.portAllowed j = true)) ∧
    (∃ (s : State) (j : Fin 14) (dev : Fin 64) (up : Bool), s.noLeftFailures ∧ s.fab.downLinks.contains (dev.val,
      j.val) = up ∧ dev.val ≠ s.ownId) ∧
    (∃ (s : State) (j : Fin 14) (dev : Fin 64) (up : Bool), s.noLeftFailures ∧ (s.fab.downLinks.contains (dev.val,
      j.val) ≠ up ∨ dev.val = s.ownId)) :=
  ⟨⟨Wport { portUp with retry := [(5, frame1)] }, 0, by decide +kernel⟩,
   ⟨Wport { portUp with retry := [(5, frame1)], resends := 8 }, 0, by decide +kernel⟩,
   ⟨Wport portUp, 0, by decide +kernel⟩,
   ⟨Wport { st := 1 }, 0, some (.fn 0), by decide +kernel⟩,
   ⟨Wport { st := 1 }, 0, none, by decide +kernel⟩,
   ⟨Wport { st := 2 }, 0, 1, 6, by decide +kernel⟩,
   ⟨Wport { st := 2 }, 0, 9, 1, 6, by decide +kernel⟩,
   ⟨Wport { st := 2 }, 0, by decide +kernel⟩,
   ⟨Wport portUp, 0, .fn 0, by decide +kernel⟩,
   ⟨Wport { st := 0 }, 0, .fn 0, by decide +kernel⟩,
   ⟨Wport { st := 0 }, 0, .fn 0, by decide +kernel⟩,
   ⟨Wport portUp, .fn 0, 2#64, by decide +kernel⟩,
   ⟨Wport portUp, 3, 2, false, by decide +kernel⟩,
   ⟨Wport portUp, 3, 2, true, by decide +kernel⟩⟩

theorem witness_PacketsPassedOn :
    (∃ (s : State) (k : Fin 14) (j : Fin 14) (m : Packet) (n : Nat), s.noLeftFailures ∧ m.dst ≠ s.ownId ∧
      s.headPacket k 1 = some (m, n) ∧ portTo s.ownId m.dst = some j.val ∧ s.portUp j = true) ∧
    (∃ (s : State) (k : Fin 14) (j : Fin 14) (m : Packet) (n : Nat), s.noLeftFailures ∧ m.dst ≠ s.ownId ∧
      s.headPacket k 3 = some (m, n) ∧ portTo s.ownId m.dst = some j.val ∧ s.portUp j = true) ∧
    (∃ (s : State) (k : Fin 14) (j : Fin 14) (m : Packet) (n : Nat), s.noLeftFailures ∧ m.dst ≠ s.ownId ∧
      s.headPacket k 5 = some (m, n) ∧ portTo s.ownId m.dst = some j.val ∧ s.portUp j = true) ∧
    (∃ (s : State) (k : Fin 14) (j : Fin 14) (m : Packet) (n : Nat), s.noLeftFailures ∧ m.dst ≠ s.ownId ∧
      s.headPacket k 7 = some (m, n) ∧ portTo s.ownId m.dst = some j.val ∧ s.portUp j = true) ∧
    (∃ (s : State) (k : Fin 14) (j : Fin 14) (m : Packet) (n : Nat), s.noLeftFailures ∧ m.dst ≠ s.ownId ∧
      s.headPacket k 9 = some (m, n) ∧ portTo s.ownId m.dst = some j.val ∧ s.portUp j = true) ∧
    (∃ (s : State) (k : Fin 14) (j : Fin 14) (m : Packet) (n : Nat), s.noLeftFailures ∧ m.dst ≠ s.ownId ∧
      s.headPacket k 2 = some (m, n) ∧ portTo s.ownId m.dst = some j.val ∧ s.portUp j = true) ∧
    (∃ (s : State) (k : Fin 14) (j : Fin 14) (m : Packet) (n : Nat), s.noLeftFailures ∧ m.dst ≠ s.ownId ∧
      s.headPacket k 4 = some (m, n) ∧ portTo s.ownId m.dst = some j.val ∧ s.portUp j = true) ∧
    (∃ (s : State) (k : Fin 14) (j : Fin 14) (m : Packet) (n : Nat), s.noLeftFailures ∧ m.dst ≠ s.ownId ∧
      s.headPacket k 6 = some (m, n) ∧ portTo s.ownId m.dst = some j.val ∧ s.portUp j = true) ∧
    (∃ (s : State) (k : Fin 14) (j : Fin 14) (m : Packet) (n : Nat), s.noLeftFailures ∧ m.dst ≠ s.ownId ∧
      s.headPacket k 8 = some (m, n) ∧ portTo s.ownId m.dst = some j.val ∧ s.portUp j = true) ∧
    (∃ (s : State) (k : Fin 14) (j : Fin 14) (m : Packet) (n : Nat), s.noLeftFailures ∧ m.dst ≠ s.ownId ∧
      s.headPacket k 10 = some (m, n) ∧ portTo s.ownId m.dst = some j.val ∧ s.portUp j = true) ∧
    (∃ (s : State) (k : Fin 14) (j : Fin 14) (m : Packet) (n : Nat), s.noLeftFailures ∧ m.dst ≠ s.ownId ∧
      s.headPacket k 11 = some (m, n) ∧ portTo s.ownId m.dst = some j.val ∧ s.portUp j = true) ∧
    (∃ (s : State) (k : Fin 14) (j : Fin 14) (m : Packet) (n : Nat), s.noLeftFailures ∧ m.dst ≠ s.ownId ∧
      s.headPacket k 12 = some (m, n) ∧ portTo s.ownId m.dst = some j.val ∧ s.portUp j = true) ∧
    (∃ (s : State) (k : Fin 14) (j : Fin 14) (m : Packet) (n : Nat) (alt : Bool), s.noLeftFailures ∧
      m.dst ≠ s.ownId ∧ s.headPacket k 1 = some (m, n) ∧ portTo s.ownId m.dst = some j.val ∧
      s.portUp j = false ∧ m.src ≠ s.ownId ∧ s.chooseRoute m.src = some alt) ∧
    (∃ (s : State) (k : Fin 14) (j : Fin 14) (m : Packet) (n : Nat) (alt : Bool), s.noLeftFailures ∧
      m.dst ≠ s.ownId ∧ s.headPacket k 3 = some (m, n) ∧ portTo s.ownId m.dst = some j.val ∧
      s.portUp j = false ∧ m.src ≠ s.ownId ∧ s.chooseRoute m.src = some alt) ∧
    (∃ (s : State) (k : Fin 14) (j : Fin 14) (m : Packet) (n : Nat) (alt : Bool), s.noLeftFailures ∧
      m.dst ≠ s.ownId ∧ s.headPacket k 5 = some (m, n) ∧ portTo s.ownId m.dst = some j.val ∧
      s.portUp j = false ∧ m.src ≠ s.ownId ∧ s.chooseRoute m.src = some alt) ∧
    (∃ (s : State) (k : Fin 14) (j : Fin 14) (m : Packet) (n : Nat) (alt : Bool), s.noLeftFailures ∧
      m.dst ≠ s.ownId ∧ s.headPacket k 7 = some (m, n) ∧ portTo s.ownId m.dst = some j.val ∧
      s.portUp j = false ∧ m.src ≠ s.ownId ∧ s.chooseRoute m.src = some alt) ∧
    (∃ (s : State) (k : Fin 14) (j : Fin 14) (m : Packet) (n : Nat) (alt : Bool), s.noLeftFailures ∧
      m.dst ≠ s.ownId ∧ s.headPacket k 9 = some (m, n) ∧ portTo s.ownId m.dst = some j.val ∧
      s.portUp j = false ∧ m.src ≠ s.ownId ∧ s.chooseRoute m.src = some alt) ∧
    (∃ (s : State) (k : Fin 14) (j : Fin 14) (m : Packet) (n : Nat) (alt : Bool), s.noLeftFailures ∧
      m.dst ≠ s.ownId ∧ s.headPacket k 2 = some (m, n) ∧ portTo s.ownId m.dst = some j.val ∧
      s.portUp j = false ∧ m.src ≠ s.ownId ∧ s.chooseRoute m.src = some alt) ∧
    (∃ (s : State) (k : Fin 14) (j : Fin 14) (m : Packet) (n : Nat) (alt : Bool), s.noLeftFailures ∧
      m.dst ≠ s.ownId ∧ s.headPacket k 4 = some (m, n) ∧ portTo s.ownId m.dst = some j.val ∧
      s.portUp j = false ∧ m.src ≠ s.ownId ∧ s.chooseRoute m.src = some alt) ∧
    (∃ (s : State) (k : Fin 14) (j : Fin 14) (m : Packet) (n : Nat) (alt : Bool), s.noLeftFailures ∧
      m.dst ≠ s.ownId ∧ s.headPacket k 6 = some (m, n) ∧ portTo s.ownId m.dst = some j.val ∧
      s.portUp j = false ∧ m.src ≠ s.ownId ∧ s.chooseRoute m.src = some alt) ∧
    (∃ (s : State) (k : Fin 14) (j : Fin 14) (m : Packet) (n : Nat) (alt : Bool), s.noLeftFailures ∧
      m.dst ≠ s.ownId ∧ s.headPacket k 8 = some (m, n) ∧ portTo s.ownId m.dst = some j.val ∧
      s.portUp j = false ∧ m.src ≠ s.ownId ∧ s.chooseRoute m.src = some alt) ∧
    (∃ (s : State) (k : Fin 14) (j : Fin 14) (m : Packet) (n : Nat) (alt : Bool), s.noLeftFailures ∧
      m.dst ≠ s.ownId ∧ s.headPacket k 10 = some (m, n) ∧ portTo s.ownId m.dst = some j.val ∧
      s.portUp j = false ∧ m.src ≠ s.ownId ∧ s.chooseRoute m.src = some alt) ∧
    (∃ (s : State) (k : Fin 14) (j : Fin 14) (m : Packet) (n : Nat) (alt : Bool), s.noLeftFailures ∧
      m.dst ≠ s.ownId ∧ s.headPacket k 11 = some (m, n) ∧ portTo s.ownId m.dst = some j.val ∧
      s.portUp j = false ∧ m.src ≠ s.ownId ∧ s.chooseRoute m.src = some alt) ∧
    (∃ (s : State) (k : Fin 14) (j : Fin 14) (m : Packet) (n : Nat), s.noLeftFailures ∧ m.dst ≠ s.ownId ∧
      s.headPacket k 12 = some (m, n) ∧ portTo s.ownId m.dst = some j.val ∧ s.portUp j = false) :=
  ⟨⟨Wtransit 1 2 portUp, 0, 1, packet 1 2, 1, by decide +kernel⟩,
   ⟨Wtransit 3 2 portUp, 0, 1, packet 3 2, 1, by decide +kernel⟩,
   ⟨Wtransit 5 2 portUp, 0, 1, packet 5 2, 1, by decide +kernel⟩,
   ⟨Wtransit 7 2 portUp, 0, 1, packet 7 2, 1, by decide +kernel⟩,
   ⟨Wtransit 9 2 portUp, 0, 1, packet 9 2, 1, by decide +kernel⟩,
   ⟨Wtransit 2 2 portUp, 0, 1, packet 2 2, 1, by decide +kernel⟩,
   ⟨Wtransit 4 2 portUp, 0, 1, packet 4 2, 1, by decide +kernel⟩,
   ⟨Wtransit 6 2 portUp, 0, 1, packet 6 2, 1, by decide +kernel⟩,
   ⟨Wtransit 8 2 portUp, 0, 1, packet 8 2, 1, by decide +kernel⟩,
   ⟨Wtransit 10 2 portUp, 0, 1, packet 10 2, 1, by decide +kernel⟩,
   ⟨Wtransit 11 2 portUp, 0, 1, packet 11 2, 1, by decide +kernel⟩,
   ⟨Wtransit 12 2 portUp, 0, 1, packet 12 2, 1, by decide +kernel⟩,
   ⟨Wtransit 1 2 {}, 0, 1, packet 1 2, 1, false, by decide +kernel⟩,
   ⟨Wtransit 3 2 {}, 0, 1, packet 3 2, 1, false, by decide +kernel⟩,
   ⟨Wtransit 5 2 {}, 0, 1, packet 5 2, 1, false, by decide +kernel⟩,
   ⟨Wtransit 7 2 {}, 0, 1, packet 7 2, 1, false, by decide +kernel⟩,
   ⟨Wtransit 9 2 {}, 0, 1, packet 9 2, 1, false, by decide +kernel⟩,
   ⟨Wtransit 2 2 {}, 0, 1, packet 2 2, 1, false, by decide +kernel⟩,
   ⟨Wtransit 4 2 {}, 0, 1, packet 4 2, 1, false, by decide +kernel⟩,
   ⟨Wtransit 6 2 {}, 0, 1, packet 6 2, 1, false, by decide +kernel⟩,
   ⟨Wtransit 8 2 {}, 0, 1, packet 8 2, 1, false, by decide +kernel⟩,
   ⟨Wtransit 10 2 {}, 0, 1, packet 10 2, 1, false, by decide +kernel⟩,
   ⟨Wtransit 11 2 {}, 0, 1, packet 11 2, 1, false, by decide +kernel⟩,
   ⟨Wtransit 12 2 {}, 0, 1, packet 12 2, 1, by decide +kernel⟩⟩

theorem witness_RequestsApplied :
    (∃ (s : State) (k : Fin 14) (m : Packet) (n : Nat) (alt : Bool), s.noLeftFailures ∧ s.canonical ∧ s.inTurn m ∧
      s.chooseRoute m.src = some alt ∧ s.arrives k 1 m n ∧
      (s.remoteCheck (bits m.addr 55 0) m.want 1).toOption.isSome = true) ∧
    (∃ (s : State) (k : Fin 14) (m : Packet) (n : Nat) (alt : Bool) (code : Nat), s.noLeftFailures ∧ s.canonical ∧
      s.inTurn m ∧ s.chooseRoute m.src = some alt ∧ s.arrives k 1 m n ∧
      (s.remoteCheck (bits m.addr 55 0) m.want 1).toOption = none ∧
      codeOf (s.remoteCheck (bits m.addr 55 0) m.want 1) = code) ∧
    (∃ (s : State) (k : Fin 14) (m : Packet) (n : Nat) (alt : Bool), s.noLeftFailures ∧ s.canonical ∧ s.inTurn m ∧
      s.chooseRoute m.src = some alt ∧ s.arrives k 3 m n ∧
      (s.remoteCheck (bits m.addr 55 0) m.data.length 2).toOption.isSome = true ∧ s.tier.reserves = []) ∧
    (∃ (s : State) (k : Fin 14) (m : Packet) (n : Nat) (alt : Bool) (code : Nat), s.noLeftFailures ∧ s.canonical ∧
      s.inTurn m ∧ s.chooseRoute m.src = some alt ∧ s.arrives k 3 m n ∧
      (s.remoteCheck (bits m.addr 55 0) m.data.length 2).toOption = none ∧
      codeOf (s.remoteCheck (bits m.addr 55 0) m.data.length 2) = code) ∧
    (∃ (s : State) (k : Fin 14) (m : Packet) (n : Nat) (alt : Bool), s.noLeftFailures ∧ s.canonical ∧ s.inTurn m ∧
      s.chooseRoute m.src = some alt ∧ s.arrives k 5 m n ∧ bits m.addr 47 32 < 1472 ∧
      s.cairnOn (bits m.addr 47 32) = true ∧ s.cairnOwner (bits m.addr 47 32) = some (bits m.addr 55 48)) ∧
    (∃ (s : State) (k : Fin 14) (m : Packet) (n : Nat) (alt : Bool), s.noLeftFailures ∧ s.canonical ∧ s.inTurn m ∧
      s.chooseRoute m.src = some alt ∧ s.arrives k 5 m n ∧ (1472 ≤ bits m.addr 47 32 ∨
      s.cairnOn (bits m.addr 47 32) = false ∨ s.cairnOwner (bits m.addr 47 32) ≠ some (bits m.addr 55 48))) ∧
    (∃ (s : State) (k : Fin 14) (m : Packet) (n : Nat) (alt : Bool), s.noLeftFailures ∧ s.canonical ∧ s.inTurn m ∧
      s.chooseRoute m.src = some alt ∧ s.arrives k 7 m n ∧ (∀ x ∈ s.coll.insts, x.e.tag ≠ bits m.addr 31 0)) ∧
    (∃ (s : State) (k : Fin 14) (m : Packet) (n : Nat) (alt : Bool) (p : Nat) (g : Region), s.noLeftFailures ∧
      s.canonical ∧ s.inTurn m ∧ s.chooseRoute m.src = some alt ∧ s.arrives k 9 m n ∧
      (s.decode (bits m.addr 55 0) m.want).toOption = some g ∧ (∀ w : Fin 64, g ≠ .valley w) ∧
      s.remotePart (bits m.addr 55 0) m.want 2 = some p ∧ inPool (bits m.addr 55 0) = true ∧
      bits m.addr 55 0 % granule = 0 ∧ s.rangeFree (bits m.addr 55 0) (ceilDiv m.want granule) = true ∧
      s.rangeClean p (bits m.addr 55 0) (ceilDiv m.want granule) = true ∧
      (isFoothill (bits m.addr 55 0) = false ∨ ceilDiv m.want granule ≤ s.quotaLeft p 2)) :=
  ⟨⟨Wrequest 1 0x1000, 0, request 1 0x1000, 1, false, by decide +kernel⟩,
   ⟨Wrequest 1 (2 ^ 40), 0, request 1 (2 ^ 40), 1, false, 0x0301, by decide +kernel⟩,
   ⟨Wrequest 3 0x1000, 0, request 3 0x1000, 1, false, by decide +kernel⟩,
   ⟨Wrequest 3 (2 ^ 40), 0, request 3 (2 ^ 40), 1, false, 0x0301, by decide +kernel⟩,
   ⟨Wrequest 5 0x500000002, 0, request 5 0x500000002, 1, false, by decide +kernel⟩,
   ⟨Wrequest 5 0x1000500000002, 0, request 5 0x1000500000002, 1, false, by decide +kernel⟩,
   ⟨Wrequest 7 5, 0, request 7 5, 1, false, by decide +kernel⟩,
   ⟨Wrequest 9 (slopeBase 0), 0, request 9 (slopeBase 0), 1, false, 0, .slope 0, by decide +kernel⟩⟩

theorem witness_AnswersAtTheSource :
    (∃ (s : State) (k : Fin 14) (m : Packet) (n : Nat) (r : FabReq) (d : Fin 4) (x : Fin 64) (e : Nat),
      s.noLeftFailures ∧ s.arrives k 2 m n ∧ s.findReq m.rtag = some r ∧ r.pkt.dst = m.src ∧ r.pkt.op = 1 ∧
      r.purpose = .read d x e ∧ (s.chan d x).pieces.contains e = true ∧ e ≠ 2 ^ 48 ∧
      (s.chan d x).pieces.filter (· != e) ≠ []) ∧
    (∃ (s : State) (k : Fin 14) (m : Packet) (n : Nat) (r : FabReq) (d : Fin 4) (x : Fin 64) (e : Nat) (i : Nat) (l : Nat),
      s.noLeftFailures ∧ s.arrives k 2 m n ∧ s.findReq m.rtag = some r ∧ r.pkt.dst = m.src ∧ r.pkt.op = 1 ∧
      r.purpose = .read d x e ∧ (s.chan d x).pieces = [e] ∧ e ≠ 2 ^ 48 ∧ (s.chan d x).desc.op = 1 ∧
      (s.target (s.chan d x).desc.src).toOption = some (.there i l) ∧ s.isHere (s.chan d x).desc.dst = true ∧
      (s.chanPart d x).isSome = true ∧ ((s.chan d x).withPiece e m.data).length = (s.chan d x).desc.length) ∧
    (∃ (s : State) (k : Fin 14) (m : Packet) (n : Nat) (r : FabReq) (d : Fin 4) (x : Fin 64) (e : Nat),
      s.noLeftFailures ∧ s.arrives k 4 m n ∧ s.findReq m.rtag = some r ∧ r.pkt.dst = m.src ∧ r.pkt.op = 3 ∧
      r.purpose = .write d x e ∧ (s.chan d x).pieces.contains e = true) ∧
    (∃ (s : State) (k : Fin 14) (m : Packet) (n : Nat) (r : FabReq) (q : Nat) (src : AddSrc), s.noLeftFailures ∧
      s.arrives k 6 m n ∧ s.findReq m.rtag = some r ∧ r.pkt.dst = m.src ∧ r.pkt.op = 5 ∧
      r.purpose = .signal q src ∧ m.status = 0 ∧ (src = .host ∨ src = .scaler ∨ src = .hardware)) ∧
    (∃ (s : State) (k : Fin 14) (m : Packet) (n : Nat) (r : FabReq) (q : Nat) (d : Fin 4) (x : Fin 64),
      s.noLeftFailures ∧ s.arrives k 6 m n ∧ s.findReq m.rtag = some r ∧ r.pkt.dst = m.src ∧ r.pkt.op = 5 ∧
      r.purpose = .signal q (.dma d x) ∧ m.status = 0 ∧ (s.chan d x).xfer = .signalling ∧
      (s.chan d x).desc.chain = false) ∧
    (∃ (s : State) (k : Fin 14) (m : Packet) (n : Nat) (r : FabReq) (q : Nat) (src : AddSrc), s.noLeftFailures ∧
      s.arrives k 6 m n ∧ s.findReq m.rtag = some r ∧ r.pkt.dst = m.src ∧ r.pkt.op = 5 ∧
      r.purpose = .signal q src ∧ m.status ≠ 0 ∧ (src = .host ∨ src = .scaler ∨ src = .hardware)) ∧
    (∃ (s : State) (k : Fin 14) (m : Packet) (n : Nat) (r : FabReq) (i : Nat), s.noLeftFailures ∧
      s.arrives k 8 m n ∧ s.findReq m.rtag = some r ∧ r.pkt.dst = m.src ∧ r.pkt.op = 7 ∧ r.purpose = .coll i ∧
      m.status ≠ 1) ∧
    (∃ (s : State) (k : Fin 14) (m : Packet) (n : Nat) (r : FabReq) (i : Nat) (x : Inst), s.noLeftFailures ∧
      s.arrives k 8 m n ∧ s.findReq m.rtag = some r ∧ r.pkt.dst = m.src ∧ r.pkt.op = 7 ∧ r.purpose = .coll i ∧
      m.status = 1 ∧ s.inst? i = some x ∧ x.e.carries = false ∧
      x.counted.contains (bits r.pkt.addr 63 32 / 2 ^ 18 % 8 * 65536 * b2n x.e.reduces + bits r.pkt.addr 63 32 / 16 % 2 ^ 14) = false) ∧
    (∃ (s : State) (k : Fin 14) (m : Packet) (n : Nat) (r : FabReq) (d : Fin 4) (x : Fin 64) (i : Nat) (l : Nat) (alt : Bool),
      s.noLeftFailures ∧ s.arrives k 10 m n ∧ s.findReq m.rtag = some r ∧ r.pkt.dst = m.src ∧ r.pkt.op = 9 ∧
      r.purpose = .reserve d x ∧ (s.chan d x).st = .run ∧ (s.chan d x).desc.op = 4 ∧
      0 < (s.chan d x).desc.length ∧ s.isHere (s.chan d x).desc.src = true ∧
      (s.target (s.chan d x).desc.dst).toOption = some (.there i l) ∧ (s.chanPart d x).isSome = true ∧
      s.chooseRoute i = some alt) ∧
    (∃ (s : State) (k : Fin 14) (m : Packet) (n : Nat), s.noLeftFailures ∧ s.arrives k 2 m n ∧
      s.findReq m.rtag = none) ∧
    (∃ (s : State) (k : Fin 14) (m : Packet) (n : Nat), s.noLeftFailures ∧ s.arrives k 4 m n ∧
      s.findReq m.rtag = none) ∧
    (∃ (s : State) (k : Fin 14) (m : Packet) (n : Nat), s.noLeftFailures ∧ s.arrives k 6 m n ∧
      s.findReq m.rtag = none) ∧
    (∃ (s : State) (k : Fin 14) (m : Packet) (n : Nat), s.noLeftFailures ∧ s.arrives k 8 m n ∧
      s.findReq m.rtag = none) ∧
    (∃ (s : State) (k : Fin 14) (m : Packet) (n : Nat), s.noLeftFailures ∧ s.arrives k 10 m n ∧
      s.findReq m.rtag = none) :=
  ⟨⟨Wanswer 2 (.read 0 5 0) { st := .run, pieces := [0, 1] }, 0, response 2 0, 1, asked 1 (.read 0 5 0), 0, 5, 0,
     by decide +kernel⟩,
   ⟨Wanswer 2 (.read 0 5 0) { st := .run, pieces := [0], desc := { (default : Desc) with op := 1, length := 3, src := 2 ^ 56 + 0x1000, dst := 0x2000 } },
     0, response 2 0, 1, asked 1 (.read 0 5 0), 0, 5, 0, 1, 0x1000, by decide +kernel⟩,
   ⟨Wanswer 4 (.write 0 5 0) { st := .run, pieces := [0], xfer := .pending }, 0, response 4 0, 1,
     asked 3 (.write 0 5 0), 0, 5, 0, by decide +kernel⟩,
   ⟨Wanswer 6 (.signal 0 .hardware) {}, 0, response 6 0, 1, asked 5 (.signal 0 .hardware), 0, .hardware,
     by decide +kernel⟩,
   ⟨Wanswer 6 (.signal 0 (.dma 0 5)) { st := .run, xfer := .signalling }, 0, response 6 0, 1,
     asked 5 (.signal 0 (.dma 0 5)), 0, 0, 5, by decide +kernel⟩,
   ⟨Wanswer2 6 (.signal 0 .hardware) {} 0x0505, 0, response 6 0x0505, 1, asked 5 (.signal 0 .hardware), 0,
     .hardware, by decide +kernel⟩,
   ⟨Wanswer 8 (.coll 2) {}, 0, response 8 0, 1, asked 7 (.coll 2), 2, by decide +kernel⟩,
   ⟨{ Wanswer2 8 (.coll 2) {} 1 with coll := { insts := [inst2] } }, 0, response 8 1, 1, asked 7 (.coll 2), 2,
     inst2, by decide +kernel⟩,
   ⟨Wanswer 10 (.reserve 0 5) { st := .run, xfer := .pending, pieces := [9], desc := { (default : Desc) with op := 4, length := 3, src := 0x1000, dst := 2 ^ 56 + slopeBase 0 } },
     0, response 10 0, 1, asked 9 (.reserve 0 5), 0, 5, 1, slopeBase 0, false, by decide +kernel⟩,
   ⟨{ Wanswer 2 (.signal 0 .hardware) {} with
  fab := { (Wanswer 2 (.signal 0 .hardware) {}).fab with reqs := [] } },
     0, response 2 0, 1, by decide +kernel⟩,
   ⟨{ Wanswer 4 (.signal 0 .hardware) {} with
  fab := { (Wanswer 4 (.signal 0 .hardware) {}).fab with reqs := [] } },
     0, response 4 0, 1, by decide +kernel⟩,
   ⟨{ Wanswer 6 (.signal 0 .hardware) {} with
  fab := { (Wanswer 6 (.signal 0 .hardware) {}).fab with reqs := [] } },
     0, response 6 0, 1, by decide +kernel⟩,
   ⟨{ Wanswer 8 (.signal 0 .hardware) {} with
  fab := { (Wanswer 8 (.signal 0 .hardware) {}).fab with reqs := [] } },
     0, response 8 0, 1, by decide +kernel⟩,
   ⟨{ Wanswer 10 (.signal 0 .hardware) {} with
  fab := { (Wanswer 10 (.signal 0 .hardware) {}).fab with reqs := [] } },
     0, response 10 0, 1, by decide +kernel⟩⟩

theorem witness_FailuresAndResends :
    (∃ (s : State) (k : Fin 14) (m : Packet) (n : Nat) (r : FabReq) (q : Nat) (src : AddSrc), s.noLeftFailures ∧
      s.arrives k 11 m n ∧ s.findReq m.rtag = some r ∧ r.pkt.dst = m.src ∧ m.status ≠ 0x0606 ∧
      r.purpose = .signal q src ∧ (src = .host ∨ src = .scaler ∨ src = .hardware)) ∧
    (∃ (s : State) (k : Fin 14) (m : Packet) (n : Nat) (r : FabReq) (q : Nat) (e : Nat) (d : Fin 4) (x : Fin 64),
      s.noLeftFailures ∧ s.arrives k 11 m n ∧ s.findReq m.rtag = some r ∧ r.pkt.dst = m.src ∧
      m.status ≠ 0x0606 ∧ (r.purpose = .read d x e ∨ r.purpose = .write d x e) ∧ (s.chan d x).st = .run ∧
      (s.chan d x).moving = none ∧ (s.chan d x).work = .chain ∧ s.chanPart d x = some q ∧ s.notServing q ∧
      r.pkt.addr < 2 ^ 64) ∧
    (∃ (s : State) (k : Fin 14) (m : Packet) (n : Nat) (x : Inst), s.noLeftFailures ∧ s.arrives k 11 m n ∧
      m.status = 0x0606 ∧ (s.coll.insts.find? (fun y => y.e.tag == bits m.addr 31 0)) = some x ∧
      s.inst? x.entry = some x ∧ (x.st = .waiting ∨ x.st = .running)) ∧
    (∃ (s : State) (k : Fin 14) (m : Packet) (n : Nat) (r : FabReq) (alt : Bool), s.noLeftFailures ∧
      s.arrives k 12 m n ∧ s.findReq m.rtag = some r ∧ r.pkt.alt = m.alt ∧
      r.resends < bits (s.rnat .nynE2eCfg) 23 16 ∧ s.chooseRoute r.pkt.dst = some alt ∧ alt ≠ m.alt) ∧
    (∃ (s : State) (k : Fin 14) (m : Packet) (n : Nat) (r : FabReq), s.noLeftFailures ∧ s.arrives k 12 m n ∧
      s.findReq m.rtag = some r ∧ (r.pkt.alt ≠ m.alt ∨ bits (s.rnat .nynE2eCfg) 23 16 ≤ r.resends)) ∧
    (∃ (s : State) (m : Packet) (r : FabReq) (alt : Bool), s.noLeftFailures ∧ s.findReq m.rtag = some r ∧
      r.resends < bits (s.rnat .nynE2eCfg) 23 16 ∧ s.chooseRoute r.pkt.dst = some alt) ∧
    (∃ (s : State) (m : Packet) (r : FabReq), s.noLeftFailures ∧ s.findReq m.rtag = some r ∧
      bits (s.rnat .nynE2eCfg) 23 16 ≤ r.resends) :=
  ⟨⟨Wanswer2 11 (.signal 0 .hardware) {} 0x0302, 0, response 11 0x0302, 1, asked 10 (.signal 0 .hardware), 0,
     .hardware, by decide +kernel⟩,
   ⟨Wanswer2 11 (.write 0 5 0) { st := .run, cur := 0x80, pieces := [0] } 0x0302, 0, response 11 0x0302, 1,
     asked 10 (.write 0 5 0), 0, 0, 0, 5, by decide +kernel⟩,
   ⟨{ Wanswer2 11 (.coll 2) {} 0x0606 with coll := { insts := [{ inst2 with e := { inst2.e with tag := 0 } }] } },
     0, response 11 0x0606, 1, { inst2 with e := { inst2.e with tag := 0 } }, by decide +kernel⟩,
   ⟨Wbounced, 0, { response 12 0 with alt := true }, 1,
     { asked 11 (.coll 2) with pkt := { (asked 11 (.coll 2)).pkt with alt := true } }, false, by decide +kernel⟩,
   ⟨(Wanswer 12 (.coll 2) {}).rputN .nynE2eCfg 0, 0, response 12 0, 1, asked 11 (.coll 2), by decide +kernel⟩,
   ⟨Wanswer 8 (.coll 2) {}, response 8 0, asked 7 (.coll 2), false, by decide +kernel⟩,
   ⟨(Wanswer 8 (.coll 2) {}).rputN .nynE2eCfg 0, response 8 0, asked 7 (.coll 2), by decide +kernel⟩⟩

theorem witness_CollectiveEntries :
    (∃ (s : State) (p : Path), s.noLeftFailures ∧ s.writes p .nynCollCtrl 0 0 1 ∧ s.coll.st = 0) ∧
    (∃ (s : State) (p : Path), s.noLeftFailures ∧ s.writes p .nynCollCtrl 0 0 2 ∧ s.coll.st = 1) ∧
    (∃ (s : State) (p : Path), s.noLeftFailures ∧ s.writes p .nynCollCtrl 0 0 2 ∧ s.coll.st = 2) ∧
    (∃ (s : State) (i : Nat) (x : Inst), s.noLeftFailures ∧ s.canStart i x ∧ (s.collAccess x.e).isNone = true ∧
      x.e.reduces = false ∧ x.e.givers.contains s.ownId = true) ∧
    (∃ (s : State) (i : Nat) (x : Inst), s.noLeftFailures ∧ s.canStart i x ∧ (s.collAccess x.e).isNone = true ∧
      x.e.reduces = false ∧ x.e.givers.contains s.ownId = false) ∧
    (∃ (s : State) (i : Nat) (x : Inst), s.noLeftFailures ∧ s.canStart i x ∧ (s.collAccess x.e).isNone = true ∧
      x.e.reduces = true) ∧
    (∃ (s : State) (i : Nat) (x : Inst), s.noLeftFailures ∧ s.canStart i x ∧ (s.collAccess x.e).isSome = true) ∧
    (∃ (s : State) (i : Nat) (x : Inst), s.noLeftFailures ∧ s.inst? i = some x ∧ x.deadlineDone = false ∧
      x.st ≠ .failed ∧ x.e.d ≤ s.phaseInt ∧ x.e.skip = false ∧ (s.lates x).isEmpty = false) ∧
    (∃ (s : State) (i : Nat) (x : Inst), s.noLeftFailures ∧ s.inst? i = some x ∧ x.deadlineDone = false ∧
      x.st ≠ .failed ∧ x.e.d ≤ s.phaseInt ∧ (s.lates x).isEmpty = true) ∧
    (∃ (s : State) (i : Nat) (x : Inst), s.noLeftFailures ∧ s.inst? i = some x ∧ x.deadlineDone = false ∧
      x.st = .waiting ∧ x.e.d ≤ s.phaseInt ∧ x.e.skip = true ∧ x.e.reduces = false ∧
      (s.lates x).isEmpty = false) ∧
    (∃ (s : State) (i : Nat) (w : Nat) (x : Inst), s.noLeftFailures ∧ s.inst? i = some x ∧
      s.cad.holdColl.contains i = true ∧ (s.lates x).head? = some w ∧ (x.st = .waiting ∨ x.st = .running)) ∧
    (∃ (s : State) (i : Nat) (w : Nat) (x : Inst), s.noLeftFailures ∧ s.inst? i = some x ∧ x.st = .running ∧
      x.e.d ≤ s.phaseInt ∧ x.e.reduces = false ∧ x.e.givers.find? (fun m => !x.got.contains m) = some w) ∧
    (∃ (s : State) (i : Nat) (j : Nat) (x : Inst), s.noLeftFailures ∧ s.inst? i = some x ∧ x.st = .running ∧
      x.e.d ≤ s.phaseInt ∧ x.e.reduces = true ∧ s.unheard x = some j) :=
  ⟨⟨W, .fn 1, by decide +kernel⟩,
   ⟨{ W with coll := { st := 1 } }, .fn 1, by decide +kernel⟩,
   ⟨{ W with coll := { st := 2 } }, .fn 1, by decide +kernel⟩,
   ⟨Wcoll { inst2 with st := .waiting, startReached := true, waitDone := true }, 2,
     { inst2 with st := .waiting, startReached := true, waitDone := true }, by decide +kernel⟩,
   ⟨Wcoll { inst2 with st := .waiting, startReached := true, waitDone := true, e := { inst2.e with op := 4, root := 1 } },
     2,
     { inst2 with st := .waiting, startReached := true, waitDone := true, e := { inst2.e with op := 4, root := 1 } },
     by decide +kernel⟩,
   ⟨Wcoll { inst2 with st := .waiting, startReached := true, waitDone := true, e := { inst2.e with op := 1, ifmt := 5 } },
     2,
     { inst2 with st := .waiting, startReached := true, waitDone := true, e := { inst2.e with op := 1, ifmt := 5 } },
     by decide +kernel⟩,
   ⟨Wcoll { inst2 with st := .waiting, startReached := true, waitDone := true, e := { inst2.e with src := 2 ^ 40 } },
     2,
     { inst2 with st := .waiting, startReached := true, waitDone := true, e := { inst2.e with src := 2 ^ 40 } },
     by decide +kernel⟩,
   ⟨Wcoll inst2, 2, inst2, by decide +kernel⟩,
   ⟨Wcoll { inst2 with got := [0, 1] }, 2, { inst2 with got := [0, 1] }, by decide +kernel⟩,
   ⟨Wcoll { inst2 with st := .waiting, e := { inst2.e with flags := 64 } }, 2,
     { inst2 with st := .waiting, e := { inst2.e with flags := 64 } }, by decide +kernel⟩,
   ⟨{ Wcoll inst2 with cad := { (Wcoll inst2).cad with holdColl := [2] } }, 2, 0, inst2, by decide +kernel⟩,
   ⟨Wcoll { inst2 with got := [0] }, 2, 1, { inst2 with got := [0] }, by decide +kernel⟩,
   ⟨Wcoll { inst2 with e := { inst2.e with op := 1, ifmt := 5 } }, 2, 0,
     { inst2 with e := { inst2.e with op := 1, ifmt := 5 } }, by decide +kernel⟩⟩

theorem witness_ModelCommands :
    (∃ (s : State) (a : Fin 8) (m : Fin 16) (p : Path) (rec : List Byte) (pcs : List Byte) (x : Model),
      s.noLeftFailures ∧ s.writes p .srvModelCmd a 0 (1 + m.val * 16) ∧ (s.model a m).state = 0 ∧
      s.defineCheck a m rec pcs = some x) ∧
    (∃ (s : State) (a : Fin 8) (m : Fin 16) (p : Path) (rec : List Byte) (pcs : List Byte), s.noLeftFailures ∧
      s.writes p .srvModelCmd a 0 (1 + m.val * 16) ∧ ((s.model a m).state ≠ 0 ∨
      s.defineCheck a m rec pcs = none)) ∧
    (∃ (s : State) (a : Fin 8) (m : Fin 16) (p : Path) (rec : List Byte) (pcs : List Byte), s.noLeftFailures ∧
      s.writes p .srvModelCmd a 0 (1 + m.val * 16) ∧ ((s.model a m).state ≠ 0 ∨
      s.defineCheck a m rec pcs = none)) ∧
    (∃ (s : State) (a : Fin 8) (m : Fin 16) (p : Path), s.noLeftFailures ∧
      s.writes p .srvModelCmd a 0 (2 + m.val * 16) ∧ s.undefineOk a m = true) ∧
    (∃ (s : State) (a : Fin 8) (m : Fin 16) (p : Path), s.noLeftFailures ∧
      s.writes p .srvModelCmd a 0 (2 + m.val * 16) ∧ s.undefineOk a m = false) ∧
    (∃ (s : State) (a : Fin 8) (m : Fin 16) (p : Path), s.noLeftFailures ∧
      s.writes p .srvModelCmd a 0 (3 + m.val * 16) ∧ ((s.model a m).state = 1 ∨ (s.model a m).state = 2 ∨
      (s.model a m).state = 4)) ∧
    (∃ (s : State) (a : Fin 8) (m : Fin 16) (p : Path), s.noLeftFailures ∧
      s.writes p .srvModelCmd a 0 (3 + m.val * 16) ∧ ((s.model a m).state = 0 ∨ (s.model a m).state = 3 ∨
      (s.model a m).state = 5)) ∧
    (∃ (s : State) (a : Fin 8) (m : Fin 16) (p : Path), s.noLeftFailures ∧
      s.writes p .srvModelCmd a 0 (4 + m.val * 16) ∧ ((s.model a m).state = 2 ∨ (s.model a m).state = 3 ∨
      (s.model a m).state = 4)) ∧
    (∃ (s : State) (a : Fin 8) (m : Fin 16) (p : Path), s.noLeftFailures ∧
      s.writes p .srvModelCmd a 0 (4 + m.val * 16) ∧ ((s.model a m).state = 0 ∨ (s.model a m).state = 1 ∨
      (s.model a m).state = 5)) ∧
    (∃ (s : State) (a : Fin 8) (m : Fin 16) (rest : List SwapReq) (auto : Bool), s.noLeftFailures ∧
      (s.srvPart a).swap = none ∧ (s.srvPart a).swaps = ⟨m, true, auto⟩ :: rest ∧ (s.model a m).state = 3 ∧
      s.modelBusy a m = false ∧ (s.model a m).pieces ≠ []) ∧
    (∃ (s : State) (a : Fin 8) (m : Fin 16) (rest : List SwapReq) (auto : Bool), s.noLeftFailures ∧
      (s.srvPart a).swap = none ∧ (s.srvPart a).swaps = ⟨m, false, auto⟩ :: rest ∧ (s.model a m).state = 1 ∧
      s.displaces a m = []) ∧
    (∃ (s : State) (a : Fin 8) (m : Fin 16) (d : Fin 4) (n : Fin 64) (i : Nat) (id : Nat) (b : Nat) (h : Holding) (g : PieceSt),
      s.noLeftFailures ∧ (s.chan d n).st = .run ∧ (s.chan d n).work = .piece a m i ∧
      (s.chan d n).moving = some id ∧ s.hold? id = some h ∧ h.dest = some b ∧ s.isHere (s.devAddr b) = true ∧
      localOf (s.devAddr b) = b ∧ isValley h.base = false ∧ id ∉ s.scl.dying ∧
      (s.model a m).pieces[i]? = some g) :=
  ⟨⟨Wmodel, 1, 2, .fn 2, recordOf 0x3000, pieceOf, definedModel, by decide +kernel⟩,
   ⟨W, 1, 2, .fn 2, [], [], by decide +kernel⟩,
   ⟨Wserve { defined with state := 1 } {}, 1, 2, .fn 2, [], [], by decide +kernel⟩,
   ⟨Wserve { defined with state := 1 } {}, 1, 2, .fn 2, by decide +kernel⟩,
   ⟨Wserve { defined with state := 2 } {}, 1, 2, .fn 2, by decide +kernel⟩,
   ⟨Wserve { defined with state := 1 } {}, 1, 2, .fn 2, by decide +kernel⟩,
   ⟨Wserve { defined with state := 3 } {}, 1, 2, .fn 2, by decide +kernel⟩,
   ⟨Wserve { defined with state := 3 } {}, 1, 2, .fn 2, by decide +kernel⟩,
   ⟨Wserve { defined with state := 1 } {}, 1, 2, .fn 2, by decide +kernel⟩,
   ⟨Wserve { defined with state := 3, pieces := [piece7] } { swaps := [⟨2, true, false⟩] }, 1, 2, [], false,
     by decide +kernel⟩,
   ⟨Wserve { defined with state := 1, pieces := [{ piece7 with inSlope := false }] } { swaps := [⟨2, false, false⟩] },
     1, 2, [], false, by decide +kernel⟩,
   ⟨Wpiece, 1, 2, 2, 6, 0, 7, slopeBase 2, heldMoving1, piece7, by decide +kernel⟩⟩

theorem witness_GenerationCommands :
    (∃ (s : State) (a : Fin 8) (p : Path) (on : Bool), s.noLeftFailures ∧ s.writes p .srvPartCtrl a 0 (b2n on)) ∧
    (∃ (s : State) (a : Fin 8) (p : Path) (v : W32), s.noLeftFailures ∧ s.writes p .srvSlots a 0 v.toNat ∧
      RegName.srvSlots.fieldOk a (v.toNat &&& RegName.srvSlots.row.mask) = true ∧
      s.rwAccept p.idx .srvSlots a 0 (v.toNat &&& RegName.srvSlots.row.mask) = true) ∧
    (∃ (s : State) (a : Fin 8) (i : Nat) (c : Chunk) (rest : List Chunk) (x : Req), s.noLeftFailures ∧
      (s.localRef a (bits (s.rnat .srvListCairns a) 47 32)).toOption = some i ∧
      s.cairn i = (s.srvPart a).pdSeen + 1 ∧ (s.srvPart a).pdSeen < 2 ^ 31 ∧ (s.srvPart a).out = c :: rest ∧
      s.req? c.req = some x ∧ x.serial = c.serial ∧ x.stage = .prefill ∧ c.last = false ∧
      s.rbit .srvTreeCfg 1 a = false ∧ (s.srvPart a).promptStop = true ∧ s.srv.left = [] ∧
      s.rbit .srvHandoverCfg 6 a = false) ∧
    (∃ (s : State) (a : Fin 8) (d : Fin 4) (n : Fin 64) (r : Nat) (page : Nat) (id : Nat) (b : Nat) (h : Holding) (x : Req) (g : KvPage),
      s.noLeftFailures ∧ (s.chan d n).st = .run ∧ (s.chan d n).work = .handover r page ∧
      (s.chan d n).moving = some id ∧ s.hold? id = some h ∧ h.owner = a.val ∧ h.dest = some b ∧
      s.isHere (s.devAddr b) = true ∧ localOf (s.devAddr b) = b ∧ isValley h.base = false ∧ id ∉ s.scl.dying ∧
      s.srv.left = [] ∧ s.req? r = some x ∧ page % 2 = 0 ∧ NMap.get? x.pages (page / 2) = some g ∧ g.hold = id ∧
      x.stage ≠ .handover ∧ x.hold ≠ some id ∧ (b + h.size * granule ≤ s.tableBase x ∨
      s.tableBase x + 144 + 16 * (page / 2) ≤ b)) ∧
    (∃ (s : State) (a : Fin 8), s.noLeftFailures ∧ (s.srvPart a).toSample = true ∧ s.logitsReady a = true ∧
      s.streamRoom a = false ∧ (s.fnSt (s.fnOf a)).streamWait = false) ∧
    (∃ (s : State) (a : Fin 8) (i : Nat), s.noLeftFailures ∧ (s.srvPart a).toSample = true ∧
      s.logitsReady a = true ∧ s.streamRoom a = true ∧ s.samples a = [] ∧
      (s.localRef a (bits (s.rnat .srvSampleCairns a) 31 16)).toOption = some i ∧
      bits (s.rnat .srvSampleCairns a) 31 31 = 0) ∧
    (∃ (s : State) (a : Fin 8) (i : Nat) (r : Nat) (x : Req) (o : Sampled), s.noLeftFailures ∧
      (s.srvPart a).toSample = true ∧ s.logitsReady a = true ∧ s.streamRoom a = true ∧ s.samples a = [(r, x,
      o)] ∧ s.req? r = some x ∧ o.code = 0 ∧ o.finished = false ∧ o.toks ≠ [] ∧ x.samp.specK = 0 ∧
      s.ptGet x false 40 8 = 0 ∧ s.rbit .hifRingVec 31 (s.fnOf a) = false ∧
      (s.fnSt (s.fnOf a)).strTail + alignUp (256 + 16 * o.toks.length) 256 ≤ s.rnat .hifStrLen (s.fnOf a) * 65536 ∧
      (s.localRef a (bits (s.rnat .srvSampleCairns a) 31 16)).toOption = some i ∧
      bits (s.rnat .srvSampleCairns a) 31 31 = 0) ∧
    (∃ (s : State) (a : Fin 8) (r : Nat) (x : Req), s.noLeftFailures ∧ s.nextWalk = some (a.val, r, x) ∧
      s.rbit .srvTreeCfg 0 a = false ∧ x.samp.penalised = false ∧ 2 ≤ x.plen ∧ (s.srvPart a).promptStop = true) ∧
    (∃ (s : State) (a : Fin 8) (r : Nat) (serial : Nat) (n : Nat) (rest : List (Nat × Nat × Nat)) (x : Req) (g : KvPage),
      s.noLeftFailures ∧ (s.srvPart a).inserts = (r, serial, n) :: rest ∧ s.req? r = some x ∧
      x.serial = serial ∧ NMap.get? x.pages n = some g ∧ g.kind = 1 ∧ g.pend = true ∧ n ≠ 0 ∧
      (NMap.get? x.pages (n - 1)).all (fun q => q.kind != 2) = true ∧ x.stage ≠ .handover ∧
      s.rbit .srvHandoverCfg 6 a = false) ∧
    (∃ (s : State) (a : Fin 8) (m : Fin 16) (p : Path), s.noLeftFailures ∧
      s.writes p .srvTreeCmd a 0 (1 + m.val * 16)) ∧
    (∃ (s : State) (a : Fin 8) (m : Fin 16) (p : Path) (n : Nat) (id : Nat) (root : Node) (x : Node) (h : Holding),
      s.noLeftFailures ∧ s.writes p .srvTreeCmd a 0 (2 + m.val * 16) ∧ (s.srvPart a).nodes = [(m.val, m.val),
      (n, m.val)] ∧ 16 ≤ n ∧ n < 2 ^ 32 - 1 ∧ s.node? a m = some root ∧ root.child = n ∧ s.node? a n = some x ∧
      x.hasPage = true ∧ x.refs = 0 ∧ x.child = noNode ∧ x.sibling = noNode ∧ s.nodeHold x = some id ∧
      s.hold? id = some h ∧ h.by_ = .tree m ∧ s.reqsOf a = [] ∧ s.srv.left = []) :=
  ⟨⟨W, 1, .fn 2, true, by decide +kernel⟩,
   ⟨W, 1, .fn 2, 5#32, by decide +kernel⟩,
   ⟨Wchunk, 1, 1440, chunk1, [], prefilling, by decide +kernel⟩,
   ⟨Whand, 1, 2, 6, 4, 0, 7, slopeBase 2, heldPage, prefilling0, { hold := 7 }, by decide +kernel⟩,
   ⟨Wsample 0 none, 1, by decide +kernel⟩,
   ⟨Wsample 4 none, 1, 1442, by decide +kernel⟩,
   ⟨Wsample 4 (some 0), 1, 1442, 4, generating, { toks := [1] }, by decide +kernel⟩,
   ⟨Wwalk, 1, 4, prefilling, by decide +kernel⟩,
   ⟨Winsert, 1, 4, 0, 1, [], prefilling1, { hold := 7, pend := true }, by decide +kernel⟩,
   ⟨Wtree, 1, 2, .fn 2, by decide +kernel⟩,
   ⟨Wtree, 1, 2, .fn 2, 20, 7, { parent := 2, child := 20, model := 2, key := List.replicate 64 0 }, leafNode,
     heldLeaf, by decide +kernel⟩⟩

theorem witness_HoldingCommands :
    (∃ (s : State) (f : Fin 9) (c : Taken) (rest : List Taken), s.noLeftFailures ∧ s.front f 0x00 c rest) ∧
    (∃ (s : State) (f : Fin 9) (c : Taken) (rest : List Taken) (p : Nat) (b : Nat), s.noLeftFailures ∧
      s.front f 0x01 c rest ∧
      (if f = 0 then (s.part? (fieldAt c.bytes 11 1)).map (·.id) else (s.partOfFn f).map (·.id)) = some p ∧
      s.tableFull = false ∧ ((fieldAt c.bytes 8 1) < 2 ∨
      (fieldAt c.bytes 12 4) ≤ s.quotaLeft p (fieldAt c.bytes 8 1)) ∧ (2 ≤ (fieldAt c.bytes 8 1) ∨
      (fieldAt c.bytes 9 1) ≠ 1 ∨ s.partUnits p + (fieldAt c.bytes 12 4) ≤ s.shareUnits p) ∧
      ((fieldAt c.bytes 16 8) = 0 ∧
      s.place p (fieldAt c.bytes 8 1) (fieldAt c.bytes 10 1) (fieldAt c.bytes 12 4) true = some b ∨
      (fieldAt c.bytes 16 8) ≠ 0 ∧ b = (fieldAt c.bytes 16 8) ∧
      (s.decode b ((fieldAt c.bytes 12 4) * granule)).toOption.isSome = true ∧ (f = 0 ∨
      s.windowOk p b ((fieldAt c.bytes 12 4) * granule) 0 = true) ∧
      s.rangeFree b (fieldAt c.bytes 12 4) = true ∧ s.rangeClean p b (fieldAt c.bytes 12 4) = true)) ∧
    (∃ (s : State) (f : Fin 9) (c : Taken) (rest : List Taken) (p : Nat) (b : Nat), s.noLeftFailures ∧
      s.front f 0x01 c rest ∧
      (if f = 0 then (s.part? (fieldAt c.bytes 11 1)).map (·.id) else (s.partOfFn f).map (·.id)) = some p ∧
      s.tableFull = false ∧ ((fieldAt c.bytes 8 1) < 2 ∨
      (fieldAt c.bytes 12 4) ≤ s.quotaLeft p (fieldAt c.bytes 8 1)) ∧ (2 ≤ (fieldAt c.bytes 8 1) ∨
      (fieldAt c.bytes 9 1) ≠ 1 ∨ s.partUnits p + (fieldAt c.bytes 12 4) ≤ s.shareUnits p) ∧
      ((fieldAt c.bytes 16 8) = 0 ∧
      s.place p (fieldAt c.bytes 8 1) (fieldAt c.bytes 10 1) (fieldAt c.bytes 12 4) true = some b ∨
      (fieldAt c.bytes 16 8) ≠ 0 ∧ b = (fieldAt c.bytes 16 8) ∧
      (s.decode b ((fieldAt c.bytes 12 4) * granule)).toOption.isSome = true ∧ (f = 0 ∨
      s.windowOk p b ((fieldAt c.bytes 12 4) * granule) 0 = true) ∧
      s.rangeFree b (fieldAt c.bytes 12 4) = true ∧ s.rangeClean p b (fieldAt c.bytes 12 4) = true)) ∧
    (∃ (s : State) (f : Fin 9) (c : Taken) (rest : List Taken) (h : Holding), s.noLeftFailures ∧
      s.front f 0x02 c rest ∧ s.namedHold f (fieldAt c.bytes 8 4) = some h ∧ h.by_ = .host ∧ h.state ≠ 2) ∧
    (∃ (s : State) (f : Fin 9) (c : Taken) (rest : List Taken), s.noLeftFailures ∧ s.front f 0x02 c rest ∧
      s.namedHold f (fieldAt c.bytes 8 4) = none) ∧
    (∃ (s : State) (f : Fin 9) (c : Taken) (rest : List Taken) (h : Holding), s.noLeftFailures ∧
      s.front f 0x02 c rest ∧ s.namedHold f (fieldAt c.bytes 8 4) = some h ∧ h.by_ = .host ∧ h.state = 2) ∧
    (∃ (s : State) (f : Fin 9) (c : Taken) (rest : List Taken) (d : Fin 4) (n : Fin 63) (h : Holding),
      s.noLeftFailures ∧ s.front f 0x03 c rest ∧ s.namedHold f (fieldAt c.bytes 8 4) = some h ∧ h.by_ = .host ∧
      (fieldAt c.bytes 12 1) = d ∧ (fieldAt c.bytes 13 1) = n ∧ s.scalerOwned d n = false ∧
      s.ownerChan d n = some h.owner ∧ (s.chan d n).st = .idle) ∧
    (∃ (s : State) (f : Fin 9) (c : Taken) (rest : List Taken) (h : Holding), s.noLeftFailures ∧
      s.front f 0x04 c rest ∧ s.namedHold f (fieldAt c.bytes 8 4) = some h) :=
  ⟨⟨Wcmd (W) 1 0x00 ([]), 1, cmd 0x00 ([]), [], by decide +kernel⟩,
   ⟨Wcmd (W) 1 0x01 ([1, 0, 0xFF, 0] ++ le 4 1 ++ le 8 (slopeBase 4)), 1, cmd 0x01 ([1, 0, 0xFF,
     0] ++ le 4 1 ++ le 8 (slopeBase 4)), [], 0, slopeBase 4, by decide +kernel⟩,
   ⟨Wcmd (W) 1 0x01 ([1, 0, 0, 0] ++ le 4 1 ++ le 8 0), 1, cmd 0x01 ([1, 0, 0, 0] ++ le 4 1 ++ le 8 0), [], 0,
     slopeBase 0, by decide +kernel⟩,
   ⟨Wcmd (Wheld7) 1 0x02 (le 4 7), 1, cmd 0x02 (le 4 7), [], { owner := 0, base := slopeBase 0, size := 1 },
     by decide +kernel⟩,
   ⟨Wcmd (W) 1 0x02 (le 4 7), 1, cmd 0x02 (le 4 7), [], by decide +kernel⟩,
   ⟨Wcmd (withHold W 7 heldMoving) 1 0x02 (le 4 7), 1, cmd 0x02 (le 4 7), [], heldMoving, by decide +kernel⟩,
   ⟨Wcmd (Wheld7) 1 0x03 (le 4 7 ++ [0, 5, 0, 0] ++ le 8 (slopeBase 2)), 1, cmd 0x03 (le 4 7 ++ [0, 5, 0,
     0] ++ le 8 (slopeBase 2)), [], 0, 5, { owner := 0, base := slopeBase 0, size := 1 }, by decide +kernel⟩,
   ⟨Wcmd (Wheld7) 1 0x04 (le 4 7), 1, cmd 0x04 (le 4 7), [], { owner := 0, base := slopeBase 0, size := 1 },
     by decide +kernel⟩⟩

theorem witness_DeviceCommands :
    (∃ (s : State) (f : Fin 9) (c : Taken) (rest : List Taken) (d : Fin 4) (n : Fin 64), s.noLeftFailures ∧
      s.front f 0x10 c rest ∧ (fieldAt c.bytes 8 1) = d ∧ (fieldAt c.bytes 9 1) = n ∧
      s.startRefusal ((s.partOfFn f).map (·.id)) d n (fieldAt c.bytes 16 8) = none) ∧
    (∃ (s : State) (f : Fin 9) (c : Taken) (rest : List Taken) (code : Nat), s.noLeftFailures ∧
      s.front f 0x10 c rest ∧
      s.startRefusal ((s.partOfFn f).map (·.id)) (fieldAt c.bytes 8 1) (fieldAt c.bytes 9 1) (fieldAt c.bytes 16 8) = some code) ∧
    (∃ (s : State) (f : Fin 9) (c : Taken) (rest : List Taken) (d : Fin 4) (n : Fin 63) (q : Nat),
      s.noLeftFailures ∧ s.front f 0x11 c rest ∧ (fieldAt c.bytes 8 1) = d ∧ (fieldAt c.bytes 9 1) = n ∧
      (f = 0 ∨ s.ownerChan d n = (s.partOfFn f).map (·.id)) ∧ ((s.chan d n).st = .fetch ∨
      (s.chan d n).st = .wait) ∧ (s.chan d n).moving = none ∧ (s.chan d n).work = .chain ∧
      s.chanPart d n = some q ∧ s.notServing q) ∧
    (∃ (s : State) (f : Fin 9) (c : Taken) (rest : List Taken) (d : Fin 4) (n : Fin 63), s.noLeftFailures ∧
      s.front f 0x12 c rest ∧ (fieldAt c.bytes 8 1) = d ∧ (fieldAt c.bytes 9 1) = n ∧ (f = 0 ∨
      s.ownerChan d n = (s.partOfFn f).map (·.id)) ∧ (s.chan d n).st = .stopped) ∧
    (∃ (s : State) (f : Fin 9) (c : Taken) (rest : List Taken) (x : Fin 24) (y : Fin 4), s.noLeftFailures ∧
      s.front f 0x18 c rest ∧ (fieldAt c.bytes 8 1) = x ∧ (fieldAt c.bytes 9 1) = y ∧
      s.ctxGoRefusal ((s.partOfFn f).map (·.id)) x y = none) ∧
    (∃ (s : State) (f : Fin 9) (c : Taken) (rest : List Taken) (code : Nat), s.noLeftFailures ∧
      s.front f 0x18 c rest ∧
      s.ctxGoRefusal ((s.partOfFn f).map (·.id)) (fieldAt c.bytes 8 1) (fieldAt c.bytes 9 1) = some code) ∧
    (∃ (s : State) (f : Fin 9) (c : Taken) (rest : List Taken) (x : Fin 24) (y : Fin 4) (q : Nat),
      s.noLeftFailures ∧ s.front f 0x19 c rest ∧ (fieldAt c.bytes 8 1) = x ∧ (fieldAt c.bytes 9 1) = y ∧
      f.val ≠ 0 ∧ (s.partOfFn f).map (·.id) = some q ∧ s.ownerTile x = some q ∧ ((s.ctx x y).st = .run ∨
      (s.ctx x y).st = .wait) ∧ s.notServing q ∧ (s.ledger q).inForce = none ∧
      s.rbit .tilCtxErrCairn 16 x y = false) ∧
    (∃ (s : State) (f : Fin 9) (c : Taken) (rest : List Taken) (x : Fin 24) (y : Fin 4) (q : Nat),
      s.noLeftFailures ∧ s.front f 0x1A c rest ∧ (fieldAt c.bytes 8 1) = x ∧ (fieldAt c.bytes 9 1) = y ∧
      f.val ≠ 0 ∧ (s.partOfFn f).map (·.id) = some q ∧ s.ownerTile x = some q ∧ (s.ctx x y).st = .fault) :=
  ⟨⟨Wcmd (W) 1 0x10 ([0, 5, 0, 0, 0, 0, 0, 0] ++ le 8 0x80), 1, cmd 0x10 ([0, 5, 0, 0, 0, 0, 0, 0] ++ le 8 0x80),
     [], 0, 5, by decide +kernel⟩,
   ⟨Wcmd (W) 1 0x10 ([0, 63, 0, 0, 0, 0, 0, 0] ++ le 8 0x80), 1, cmd 0x10 ([0, 63, 0, 0, 0, 0, 0, 0] ++ le 8 0x80),
     [], 0x0107, by decide +kernel⟩,
   ⟨Wcmd (withChan W 0 5 { st := .wait, cur := 0x80 }) 1 0x11 ([0, 5]), 1, cmd 0x11 ([0, 5]), [], 0, 5, 0,
     by decide +kernel⟩,
   ⟨Wcmd (withChan W 0 5 { st := .stopped, err := 0x0104 }) 1 0x12 ([0, 5]), 1, cmd 0x12 ([0, 5]), [], 0, 5,
     by decide +kernel⟩,
   ⟨Wcmd (W) 1 0x18 ([3, 2, 0, 0, 0, 0, 0, 0] ++ le 8 0x40), 1, cmd 0x18 ([3, 2, 0, 0, 0, 0, 0, 0] ++ le 8 0x40),
     [], 3, 2, by decide +kernel⟩,
   ⟨Wcmd (withCtx W { st := .run }) 1 0x18 ([3, 2, 0, 0, 0, 0, 0, 0] ++ le 8 0x40), 1, cmd 0x18 ([3, 2, 0, 0, 0, 0,
     0, 0] ++ le 8 0x40), [], 0x0A23, by decide +kernel⟩,
   ⟨Wcmd (withCtx W { st := .run, pc := 0x40, posted := [(0x5000, [1, 2])] }) 1 0x19 ([3, 2]), 1, cmd 0x19 ([3,
     2]), [], 3, 2, 0, by decide +kernel⟩,
   ⟨Wcmd (withCtx W { st := .fault }) 1 0x1A ([3, 2]), 1, cmd 0x1A ([3, 2]), [], 3, 2, 0, by decide +kernel⟩⟩

theorem witness_RequestAndWindowCommands :
    (∃ (s : State) (f : Fin 9) (c : Taken) (rest : List Taken) (q : Nat) (r : Nat) (ext : List Byte),
      s.noLeftFailures ∧ s.front f 0x20 c rest ∧ (s.partOfFn f).map (·.id) = some q ∧ s.fnOf q = f ∧
      (∀ e ∈ s.reqsOf q, e.2.tag ≠ c.tag) ∧ s.checkAccess q (fieldAt c.bytes 24 8) 64 1 = none ∧
      s.samplingOk q (fieldAt c.bytes 8 1) (s.devBytes (fieldAt c.bytes 24 8) 64 ext) = true ∧
      (fieldAt c.bytes 10 2) < s.rnat .admAccounts q ∧ s.online q = true ∧ s.freeReq q = some r ∧
      (s.waitingOf q (fieldAt c.bytes 10 2)).length < s.rnat .admQdepth q ∧
      s.neverFits q (fieldAt c.bytes 8 1) (fieldAt c.bytes 12 4) (parseSampling (s.devBytes (fieldAt c.bytes 24 8) 64 ext)) = false ∧
      s.overHard q (fieldAt c.bytes 10 2) = false ∧ (s.model q (fieldAt c.bytes 8 1)).state = 3 ∧
      s.toGo q (fieldAt c.bytes 8 1) = false) ∧
    (∃ (s : State) (f : Fin 9) (c : Taken) (rest : List Taken) (q : Nat) (ext : List Byte), s.noLeftFailures ∧
      s.front f 0x20 c rest ∧ (s.partOfFn f).map (·.id) = some q ∧ s.fnOf q = f ∧ (∀ e ∈ s.reqsOf q,
      e.2.tag ≠ c.tag) ∧ s.checkAccess q (fieldAt c.bytes 24 8) 64 1 = none ∧
      s.samplingOk q (fieldAt c.bytes 8 1) (s.devBytes (fieldAt c.bytes 24 8) 64 ext) = true ∧
      (fieldAt c.bytes 10 2) < s.rnat .admAccounts q ∧ s.online q = false) ∧
    (∃ (s : State) (f : Fin 9) (c : Taken) (rest : List Taken) (q : Nat) (r : Nat) (x : Req) (cell : Cell),
      s.noLeftFailures ∧ s.front f 0x21 c rest ∧ (s.partOfFn f).map (·.id) = some q ∧
      s.tagged q c.tag = some r ∧ s.req? r = some x ∧ x.part = q ∧ s.reqCell r 0 = some cell ∧ cell.action = 8) ∧
    (∃ (s : State) (f : Fin 9) (c : Taken) (rest : List Taken) (q : Nat) (r : Nat) (x : Req) (cell : Cell),
      s.noLeftFailures ∧ s.front f 0x22 c rest ∧ (s.partOfFn f).map (·.id) = some q ∧
      s.tagged q c.tag = some r ∧ s.req? r = some x ∧ x.part = q ∧ s.reqCell r 10 = some cell ∧
      cell.action = 5 ∧ s.scl.park.length < 16384) ∧
    (∃ (s : State) (f : Fin 9) (c : Taken) (rest : List Taken) (q : Nat) (r : Nat) (k : Nat) (x : Req) (cell : Cell) (y : Parked),
      s.noLeftFailures ∧ s.front f 0x23 c rest ∧ (s.partOfFn f).map (·.id) = some q ∧
      s.tagged q c.tag = some r ∧ s.req? r = some x ∧ x.part = q ∧ s.reqCell r 1 = some cell ∧ cell.action = 6 ∧
      s.freeSlotOf q = some k ∧ s.committed q + s.resumeNeed x ≤ s.kvLimit q ∧ s.parkOf q r = some y ∧
      s.parkLost y = false) ∧
    (∃ (s : State) (f : Fin 9) (c : Taken) (rest : List Taken), s.noLeftFailures ∧ s.front f 0x30 c rest ∧
      s.rnat .hifWinFunc (fieldAt c.bytes 8 1) = f ∧ NMap.get? s.hif.windows (fieldAt c.bytes 8 1) = none) ∧
    (∃ (s : State) (f : Fin 9) (c : Taken) (rest : List Taken), s.noLeftFailures ∧ s.front f 0x31 c rest ∧
      s.rnat .hifWinFunc (fieldAt c.bytes 8 1) = f ∧
      (NMap.get? s.hif.windows (fieldAt c.bytes 8 1)).isSome = true) ∧
    (∃ (s : State) (f : Fin 9) (w : Nat) (tag : Nat), s.noLeftFailures ∧
      s.hif.revoking.find? (fun r => r.1 == w) = some (w, f.val, some tag)) :=
  ⟨⟨Wsubmit 1 ([2, 0, 0, 0] ++ le 4 1 ++ le 8 0x9000 ++ le 8 0x6000), 2, cmd 0x20 ([2, 0, 0,
     0] ++ le 4 1 ++ le 8 0x9000 ++ le 8 0x6000), [], 1, 0, [], by decide +kernel⟩,
   ⟨Wsubmit 0 ([2, 0, 0, 0] ++ le 4 1 ++ le 8 0x9000 ++ le 8 0x6000), 2, cmd 0x20 ([2, 0, 0,
     0] ++ le 4 1 ++ le 8 0x9000 ++ le 8 0x6000), [], 1, [], by decide +kernel⟩,
   ⟨Wcmd (withFsm { Wreq { asking .queued [] with tag := 9 } {} with scl := {} } 3 (requestFsm 0 8)) 2 0x21 (le 4 6),
     2, cmd 0x21 (le 4 6), [], 1, 4, { asking .queued [] with tag := 9 },
     { next := 0, valid := true, log := false, action := 8, param := 0 }, by decide +kernel⟩,
   ⟨Wcmd (withFsm { Wreq { asking .generating [] with tag := 9 } {} with scl := {} } 3 (requestFsm 10 5)) 2 0x22 (le 4 6),
     2, cmd 0x22 (le 4 6), [], 1, 4, { asking .generating [] with tag := 9 },
     { next := 0, valid := true, log := false, action := 5, param := 0 }, by decide +kernel⟩,
   ⟨Wresuming, 2, cmd 0x23 (le 4 6), [], 1, 4, 0, { asking .paused [] with tag := 9 },
     { next := 0, valid := true, log := false, action := 6, param := 0 }, parked2, by decide +kernel⟩,
   ⟨Wcmd (W.rputN .hifWinFunc 1 3) 1 0x30 ([3, 0, 0, 0, 0, 0, 0, 0] ++ le 8 0x200000 ++ le 4 1), 1, cmd 0x30 ([3,
     0, 0, 0, 0, 0, 0, 0] ++ le 8 0x200000 ++ le 4 1), [], by decide +kernel⟩,
   ⟨{ Wcmd (W.rputN .hifWinFunc 1 3) 1 0x31 [3] with
  hif := { (Wcmd W 1 0x31 [3]).hif with windows := [(3, mirrorWin)] } },
     1, cmd 0x31 [3], [], by decide +kernel⟩,
   ⟨{ W with hif := { W.hif with revoking := [(3, 1, some 9)] } }, 1, 3, 9, by decide +kernel⟩⟩

theorem witness_AdmissionCommands :
    (∃ (s : State), s.noLeftFailures ∧ (∀ q : Fin 8, (s.srvPart q).evalDue = false)) ∧
    (∃ (s : State), s.noLeftFailures) ∧
    (∃ (s : State) (a : Fin 8) (r : Nat) (x : Req), s.noLeftFailures ∧ (s.srvPart a).evalDue = true ∧ (∀ q : Fin 8,
      q ≠ a → (s.srvPart q).evalDue = false) ∧ s.rbit .srvPartCtrl 0 a = false ∧
      (s.evalState a).visitOrder a = [r] ∧ s.req? r = some x ∧ s.reqCell r 4 = none) ∧
    (∃ (s : State) (a : Fin 8) (r : Nat) (k : Nat) (slot : Nat) (x : Req) (cell : Cell), s.noLeftFailures ∧
      (s.srvPart a).evalDue = true ∧ (∀ q : Fin 8, q ≠ a → (s.srvPart q).evalDue = false) ∧
      s.rbit .srvPartCtrl 0 a = true ∧ s.weighted a = false ∧ (s.evalState a).visitOrder a = [r] ∧
      s.req? r = some x ∧ x.waiting = true ∧ x.part = a ∧
      ((s.evalState a).judgeFits a r (fsmInitial (s.fsmBody a 2)) ((s.evalState a).checks a r x {}) none).1 = some (1,
      k) ∧ (s.evalState a).evalSlot a {} = some slot ∧ s.reqCell r 6 = some cell ∧ cell.action = 2) ∧
    (∃ (s : State) (a : Fin 8) (p : Path) (v : W32), s.noLeftFailures ∧ s.writes p .admKvLimit a 0 v.toNat ∧
      RegName.admKvLimit.fieldOk a (v.toNat &&& RegName.admKvLimit.row.mask) = true ∧
      s.rwAccept p.idx .admKvLimit a 0 (v.toNat &&& RegName.admKvLimit.row.mask) = true) ∧
    (∃ (s : State) (a : Fin 8) (p : Path), s.noLeftFailures ∧ s.writes p .admAcctCmd a 0 1) :=
  ⟨⟨W, by decide +kernel⟩,
   ⟨(Wreq (asking .queued []) { evalDue := true }).rputN .admKvLimit 7 1, by decide +kernel⟩,
   ⟨Wreq (asking .queued []) { evalDue := true }, 1, 4, asking .queued [], by decide +kernel⟩,
   ⟨Wadmit, 1, 4, 0, 0, waiting20, { next := 0, valid := true, log := false, action := 2, param := 0 },
     by decide +kernel⟩,
   ⟨W, 1, .fn 2, 0#32, by decide +kernel⟩,
   ⟨{ W with srv := { accts := [(4096, { spent := 5, refused := 2 })] } }, 1, .fn 2, by decide +kernel⟩⟩

theorem witness_IntakeControllers :
    (∃ (s : State) (p : Path), s.noLeftFailures ∧ s.writes p .intPortCmd 0 0 1 ∧ s.intake.jobs = []) ∧
    (∃ (s : State) (p : Path), s.noLeftFailures ∧ s.writes p .intPortCmd 0 0 1 ∧ s.intake.jobs ≠ []) ∧
    (∃ (s : State), s.noLeftFailures ∧ s.intake.scanning = true ∧ s.domainOn domIntake = true) ∧
    (∃ (s : State) (p : Path) (v : W32) (k : Fin 64), s.noLeftFailures ∧ s.writes p .intNsOwner 0 0 v.toNat ∧
      RegName.intNsOwner.fieldOk 0 (v.toNat &&& RegName.intNsOwner.row.mask) = true ∧
      s.pget p.idx .intNsSel = k ∧ bits v.toNat 13 8 = k) ∧
    (∃ (s : State) (p : Path) (v : W32), s.noLeftFailures ∧ s.writes p .intPortCfg 0 0 v.toNat ∧
      RegName.intPortCfg.fieldOk 0 (v.toNat &&& RegName.intPortCfg.row.mask) = true ∧
      s.rwAccept p.idx .intPortCfg 0 0 (v.toNat &&& RegName.intPortCfg.row.mask) = true) ∧
    (∃ (s : State) (c : Fin 16), s.noLeftFailures ∧ (s.ctrl c).st = 2 ∧ (∀ j ∈ s.intake.jobs, j.ctrl ≠ c)) ∧
    (∃ (s : State) (c : Fin 16), s.noLeftFailures ∧ (s.ctrl c).st ≠ 2) ∧
    (∃ (s : State) (l : Fin 4), s.noLeftFailures ∧ bit s.intake.links l = true ∧ s.intake.jobs = []) ∧
    (∃ (s : State) (c : Fin 16), s.noLeftFailures ∧ (s.ctrl c).st = 3 ∧ s.intake.jobs = []) ∧
    (∃ (s : State) (c : Fin 16), s.noLeftFailures ∧ (s.ctrl c).st = 2 ∧ s.logOpen) :=
  ⟨⟨Wintake [], .fn 0, by decide +kernel⟩,
   ⟨Wintake [readJob], .fn 0, by decide +kernel⟩,
   ⟨{ Wintake [] with intake := { (Wintake []).intake with scanning := true } }, by decide +kernel⟩,
   ⟨Wintake [], .fn 0, 3#32, 0, by decide +kernel⟩,
   ⟨Wintake [], .fn 0, 1#32, by decide +kernel⟩,
   ⟨Wintake [], 0, by decide +kernel⟩,
   ⟨Wintake [], 5, by decide +kernel⟩,
   ⟨Wintake [], 0, by decide +kernel⟩,
   ⟨{ Wintake [] with intake := { (Wintake []).intake with ctrls := [(0, { st := 3 })] } }, 0, by decide +kernel⟩,
   ⟨Wintake [], 0, by decide +kernel⟩⟩

theorem witness_IntakeJobs :
    (∃ (s : State) (a : Fin 8), s.noLeftFailures ∧ s.canTake a = false) ∧
    (∃ (s : State) (a : Fin 8) (j : IJob) (e : NsEntry), s.noLeftFailures ∧ s.canTake a = true ∧
      (s.rangeCheck a (s.rnat .intRingBase a + 64 * (NMap.getD s.intake.taken a 0 % max 1 (s.rnat .intRingLen a))) 64 1).isOk = true ∧
      (s.jobCheck a (s.rd (s.rnat .intRingBase a + 64 * (NMap.getD s.intake.taken a 0 % max 1 (s.rnat .intRingLen a))) 64) (parseJobRec (s.rd (s.rnat .intRingBase a + 64 * (NMap.getD s.intake.taken a 0 % max 1 (s.rnat .intRingLen a))) 64))).toOption = some e ∧
      parseJobRec (s.rd (s.rnat .intRingBase a + 64 * (NMap.getD s.intake.taken a 0 % max 1 (s.rnat .intRingLen a))) 64) = j.rec_ ∧
      (j.rec_.op ≠ 1 ∨ spaceOk j.rec_ {} 0 = true) ∧ bit j.rec_.flags 1 = true ∧
      s.stepPhase < (s.cad.step + b2n (bit j.rec_.flags 2)) * 65536 + j.rec_.s) ∧
    (∃ (s : State) (a : Fin 8) (n : Nat) (c : Fin 65536), s.noLeftFailures ∧ s.canTake a = true ∧
      n = NMap.getD s.intake.taken a 0 ∧
      (s.rangeCheck a (s.rnat .intRingBase a + 64 * (NMap.getD s.intake.taken a 0 % max 1 (s.rnat .intRingLen a))) 64 1).isOk = true ∧
      codeOf (s.jobCheck a (s.rd (s.rnat .intRingBase a + 64 * (NMap.getD s.intake.taken a 0 % max 1 (s.rnat .intRingLen a))) 64) (parseJobRec (s.rd (s.rnat .intRingBase a + 64 * (NMap.getD s.intake.taken a 0 % max 1 (s.rnat .intRingLen a))) 64))) = c.val ∧
      c.val ∈ [0x0901, 0x0902, 0x0903] ∧
      (s.rangeCheck a (s.rnat .intResultBase a + 32 * (n % max 1 (s.rnat .intRingLen a))) 32 2).isOk = true) ∧
    (∃ (s : State) (a : Fin 8) (n : Nat) (c : Fin 65536), s.noLeftFailures ∧ s.canTake a = true ∧
      n = NMap.getD s.intake.taken a 0 ∧
      (s.rangeCheck a (s.rnat .intRingBase a + 64 * (NMap.getD s.intake.taken a 0 % max 1 (s.rnat .intRingLen a))) 64 1).isOk = true ∧
      codeOf (s.jobCheck a (s.rd (s.rnat .intRingBase a + 64 * (NMap.getD s.intake.taken a 0 % max 1 (s.rnat .intRingLen a))) 64) (parseJobRec (s.rd (s.rnat .intRingBase a + 64 * (NMap.getD s.intake.taken a 0 % max 1 (s.rnat .intRingLen a))) 64))) = c.val ∧
      c.val ∈ [0x0901, 0x0902, 0x0903] ∧
      (s.rangeCheck a (s.rnat .intResultBase a + 32 * (n % max 1 (s.rnat .intRingLen a))) 32 2).isOk = true) ∧
    (∃ (s : State) (j : IJob) (k : Fin 4), s.noLeftFailures ∧ s.engineFree k = true ∧
      (s.intake.jobs.filter (fun x => decide (x.stage = .engine ∧ engineKind x.rec_ = k)) = [j]) ∧
      s.job? j.part j.num = some j ∧ (s.ctrl j.ctrl).st ≠ 4) ∧
    (∃ (s : State), s.noLeftFailures ∧ (∀ x ∈ s.intake.jobs, x.stage ≠ .engine)) ∧
    (∃ (s : State) (a : Fin 8) (n : Nat) (i : Nat), s.noLeftFailures ∧ (∀ x ∈ s.job? a n, ∀ r ∈ x.reads[i]?,
      r.st ≠ .outstanding)) ∧
    (∃ (s : State) (a : Fin 8) (n : Nat) (j : IJob) (i : Nat) (data : List Byte) (r : NvmeRead) (x : NvmeRead) (e : NsEntry),
      s.noLeftFailures ∧ s.job? a n = some j ∧ j.reads[i]? = some r ∧ r.st = .outstanding ∧
      s.nsAt j.rec_.ns = some e ∧ (s.ctrl j.ctrl).st ≠ 4 ∧ x = ⟨r.lba, r.count, .done, r.queue, r.tries,
      slice data 0 (r.count * e.lba)⟩ ∧ (j.rec_.op = 1 ∨ (soFar (j.withRead i x)).1 = [] ∨
      ((soFar (j.withRead i x)).2.unsupported = none ∧
      spaceOk j.rec_ (soFar (j.withRead i x)).2 (s.outSamples j (soFar (j.withRead i x)).2) = true))) ∧
    (∃ (s : State) (a : Fin 8) (n : Nat) (j : IJob) (i : Nat) (sct : Nat) (sc : Nat) (dnr : Bool) (r : NvmeRead),
      s.noLeftFailures ∧ s.job? a n = some j ∧ j.reads[i]? = some r ∧ r.st = .outstanding ∧ (sct ≠ 0 ∨ sc ≠ 0) ∧
      s.jobDue j = false ∧ (s.ringStall a = false ∨ dnr = true ∨ bits (s.rnat .intRetry) 23 16 ≤ r.tries)) ∧
    (∃ (s : State) (a : Fin 8) (n : Nat) (j : IJob) (i : Nat) (r : NvmeRead), s.noLeftFailures ∧
      s.job? a n = some j ∧ j.reads[i]? = some r ∧ r.st = .outstanding ∧ s.ringStall a = true ∧
      r.tries < bits (s.rnat .intRetry) 23 16 ∧ (s.ctrl j.ctrl).st ≠ 4 ∧
      (s.ctrl j.ctrl).tmo + 1 < s.rnat .intTmoLimit) ∧
    (∃ (s : State) (a : Fin 8) (n : Nat) (i : Nat), s.noLeftFailures ∧ (∀ x ∈ s.job? a n,
      (x.reads.getD i { lba := 0, count := 0 }).st ≠ .outstanding)) ∧
    (∃ (s : State) (a : Fin 8) (n : Nat) (j : IJob) (i : Nat) (r : NvmeRead), s.noLeftFailures ∧
      s.job? a n = some j ∧ j.reads[i]? = some r ∧ r.st = .gap ∧ (s.ctrl j.ctrl).st ≠ 4) ∧
    (∃ (s : State) (a : Fin 8) (n : Nat) (i : Nat), s.noLeftFailures ∧ (∀ x ∈ s.job? a n,
      (x.reads.getD i { lba := 0, count := 0 }).st ≠ .gap)) ∧
    (∃ (s : State) (a : Fin 8) (n : Nat) (j : IJob) (o : Nat), s.noLeftFailures ∧ s.job? a n = some j ∧
      j.rec_.op ≠ 1 ∧ (soFar j).1 ≠ [] ∧ (soFar j).2.unsupported = none ∧ (soFar j).2.fault = some o ∧
      s.jobDue j = false) ∧
    (∃ (s : State) (a : Fin 8) (n : Nat), s.noLeftFailures ∧ (∀ x ∈ s.job? a n, x.rec_.op = 1 ∨ (soFar x).1 = [] ∨
      ((soFar x).2.unsupported = none ∧ (soFar x).2.fault = none))) ∧
    (∃ (s : State) (a : Fin 8) (n : Nat), s.noLeftFailures ∧ (∀ x ∈ s.job? a n, x.stage ≠ .run ∨
      x.reads.any (fun r => decide (r.st ≠ .done)) = true)) ∧
    (∃ (s : State) (a : Fin 8) (n : Nat) (j : IJob), s.noLeftFailures ∧ s.job? a n = some j ∧ j.stage = .run ∧
      j.part = a ∧ j.num = n ∧ (∀ r ∈ j.reads, r.st = .done) ∧ j.rec_.op = 1 ∧
      j.rec_.length ≤ j.rec_.dstLen * granule ∧ s.intake.ended = [] ∧
      (s.rangeCheck a (s.rnat .intResultBase a + 32 * (n % max 1 (s.rnat .intRingLen a))) 32 2).isOk = true ∧
      ((s.rnat .intResultBase a + 32 * (n % max 1 (s.rnat .intRingLen a))) + 32 ≤ j.rec_.dst ∨
      j.rec_.dst + j.rec_.length ≤ (s.rnat .intResultBase a + 32 * (n % max 1 (s.rnat .intRingLen a))))) ∧
    (∃ (s : State) (a : Fin 8) (n : Nat) (j : IJob), s.noLeftFailures ∧ s.job? a n = some j ∧ j.stage = .run ∧
      j.part = a ∧ j.num = n ∧ (∀ r ∈ j.reads, r.st = .done) ∧ j.rec_.op ≠ 1 ∧ (soFar j).1 ≠ [] ∧
      (soFar j).2.unsupported = none ∧ (soFar j).2.fault = none ∧
      spaceOk j.rec_ (soFar j).2 (s.outSamples j (soFar j).2) = true ∧ ((soFar j).2.md5Bad = false ∨
      bit j.rec_.flags 4 = false ∨ j.rec_.codec ≠ 0x31) ∧
      (s.rangeCheck a (s.rnat .intResultBase a + 32 * (n % max 1 (s.rnat .intRingLen a))) 32 2).isOk = true) ∧
    (∃ (s : State) (a : Fin 8) (p : Path) (v : W32), s.noLeftFailures ∧ s.writes p .intRingCfg a 0 v.toNat ∧
      RegName.intRingCfg.fieldOk a (v.toNat &&& RegName.intRingCfg.row.mask) = true ∧
      s.rwAccept p.idx .intRingCfg a 0 (v.toNat &&& RegName.intRingCfg.row.mask) = true ∧ bit v.toNat 0 = false) ∧
    (∃ (s : State) (a : Fin 8) (p : Path) (v : W32), s.noLeftFailures ∧ s.writes p .intRingCfg a 0 v.toNat ∧
      RegName.intRingCfg.fieldOk a (v.toNat &&& RegName.intRingCfg.row.mask) = true ∧
      s.rwAccept p.idx .intRingCfg a 0 (v.toNat &&& RegName.intRingCfg.row.mask) = true ∧ bit v.toNat 0 = true) :=
  ⟨⟨Wintake [], 0, by decide +kernel⟩,
   ⟨Wring (phasedRead 0), 0, { readJob with rec_ := parseJobRec (phasedRead 0) },
     { ctrl := 0, nsid := 1, lba := 512, cap := 100, owner := 1 }, by decide +kernel⟩,
   ⟨Wring (phasedRead 5), 0, 0, 0x0902, by decide +kernel⟩,
   ⟨Wring (phasedRead 0 7), 0, 0, 0x0901, by decide +kernel⟩,
   ⟨Wintake [{ pcmJob with stage := .engine }], { pcmJob with stage := .engine }, 3, by decide +kernel⟩,
   ⟨Wintake [], by decide +kernel⟩,
   ⟨Wintake [readJob], 0, 0, 1, by decide +kernel⟩,
   ⟨Wintake [readJob], 0, 0, readJob, 0, List.replicate 512 7, { lba := 0, count := 1, st := .outstanding }, ⟨0, 1,
     .done, 0, 0, List.replicate 512 7⟩, { ctrl := 0, nsid := 1, lba := 512, cap := 100, owner := 1 },
     by decide +kernel⟩,
   ⟨Wintake [readJob], 0, 0, readJob, 0, 2, 0x81, false, { lba := 0, count := 1, st := .outstanding },
     by decide +kernel⟩,
   ⟨((Wintake [readJob]).rputN .intRingCfg 3 0).rputN .intRetry 0x30001 |>.rputN .intTmoLimit 5, 0, 0, readJob, 0,
     { lba := 0, count := 1, st := .outstanding }, by decide +kernel⟩,
   ⟨Wintake [readJob], 0, 1, 0, by decide +kernel⟩,
   ⟨Wintake [{ readJob with reads := [{ lba := 0, count := 1, st := .gap }] }], 0, 0,
     { readJob with reads := [{ lba := 0, count := 1, st := .gap }] }, 0, { lba := 0, count := 1, st := .gap },
     by decide +kernel⟩,
   ⟨Wintake [readJob], 0, 0, 0, by decide +kernel⟩,
   ⟨Wintake [pcmCut], 0, 0, pcmCut, 4, by decide +kernel⟩,
   ⟨Wintake [readJob], 0, 0, by decide +kernel⟩,
   ⟨Wintake [readJob], 0, 0, by decide +kernel⟩,
   ⟨Wring0 [readDone], 0, 0, readDone, by decide +kernel⟩,
   ⟨Wring0 [pcmDone], 0, 0, pcmDone, by decide +kernel⟩,
   ⟨Wring0 [readDone], 0, .fn 1, 0#32, by decide +kernel⟩,
   ⟨Wintake [], 0, .fn 1, 3#32, by decide +kernel⟩⟩

theorem witness_AlignmentGroups :
    (∃ (s : State) (g : Fin 4) (p : Path), s.noLeftFailures ∧ s.writes p .alnGCtrl g 0 1 ∧ (s.group g).st ≠ 1 ∧
      s.groupOk g = true) ∧
    (∃ (s : State) (g : Fin 4) (p : Path), s.noLeftFailures ∧ s.writes p .alnGCtrl g 0 1 ∧ (s.group g).st ≠ 1 ∧
      s.groupOk g = false) ∧
    (∃ (s : State) (g : Fin 4) (p : Path), s.noLeftFailures ∧ s.writes p .alnGCtrl g 0 1 ∧ (s.group g).st = 1) ∧
    (∃ (s : State) (g : Fin 4) (p : Path), s.noLeftFailures ∧ s.writes p .alnGCtrl g 0 2 ∧ (s.group g).st = 1) ∧
    (∃ (s : State) (g : Fin 4) (p : Path), s.noLeftFailures ∧ s.writes p .alnGCtrl g 0 2 ∧ (s.group g).st = 1) ∧
    (∃ (s : State) (g : Fin 4) (p : Path), s.noLeftFailures ∧ s.writes p .alnGCtrl g 0 2 ∧ (s.group g).st ≠ 1) ∧
    (∃ (s : State) (g : Fin 4) (i : Nat), s.noLeftFailures ∧ (s.group g).st = 1 ∧ (s.group g).ready = none ∧
      (s.waitRef (s.group g).part (bits (s.rnat .alnGCairns g) 15 0)).toOption = some i ∧
      holds (s.cairn i) ((s.group g).tick + 1) = true ∧ (∀ e ∈ (s.group g).streams,
      s.waitRefOk (s.group g).part e.ready = true)) ∧
    (∃ (s : State) (g : Fin 4) (i : Nat), s.noLeftFailures ∧
      (s.waitRef (s.group g).part (bits (s.rnat .alnGCairns g) 15 0)).toOption = some i ∧ ((s.group g).st ≠ 1 ∨
      (s.group g).ready.isSome = true ∨ holds (s.cairn i) ((s.group g).tick + 1) = false)) ∧
    (∃ (s : State) (g : Fin 4), s.noLeftFailures ∧ (s.group g).st = 1 ∧ (s.group g).ready.isSome = true ∧
      s.tickCheck (s.group g) = none) ∧
    (∃ (s : State) (g : Fin 4), s.noLeftFailures ∧ (s.group g).st = 1 ∧ (s.group g).ready.isSome = true ∧
      s.tickCheck (s.group g) = none) ∧
    (∃ (s : State) (g : Fin 4) (x : AlnStream) (r : Nat) (i : Int) (k : Nat), s.noLeftFailures ∧
      (s.group g).st = 1 ∧ (s.group g).ready = some [r] ∧ (s.group g).streams = [x] ∧ x.kind = 3 ∧
      s.tickCheck (s.group g) = none ∧ x.pickAudio (s.group g).time (s.group g).rate (s.group g).audioN r = (i,
      true) ∧ k < (s.group g).audioN ∧ 0 ≤ i + k) ∧
    (∃ (s : State) (g : Fin 4), s.noLeftFailures ∧ ((s.group g).st ≠ 1 ∨ (s.group g).ready = none)) ∧
    (∃ (s : State) (g : Fin 4), s.noLeftFailures ∧ (s.group g).st = 1 ∧ (s.group g).ready.isSome = true) :=
  ⟨⟨Waln, 1, .fn 0, by decide +kernel⟩,
   ⟨Wlock, 1, .fn 0, by decide +kernel⟩,
   ⟨Wgroup audioGroup, 1, .fn 0, by decide +kernel⟩,
   ⟨Wgroup audioGroup, 1, .fn 0, by decide +kernel⟩,
   ⟨Wgroup inTick, 1, .fn 0, by decide +kernel⟩,
   ⟨Wlock, 1, .fn 0, by decide +kernel⟩,
   ⟨Wgroup audioGroup, 1, 1408, by decide +kernel⟩,
   ⟨Wgroup { audioGroup with tick := 9 }, 1, 1408, by decide +kernel⟩,
   ⟨Wgroup inTick, 1, by decide +kernel⟩,
   ⟨Wgroup { inTick with stopping := true }, 1, by decide +kernel⟩,
   ⟨Wgroup inTick, 1, audioStream, 8, 0, 1, by decide +kernel⟩,
   ⟨Wgroup audioGroup, 1, by decide +kernel⟩,
   ⟨Wgroup inTick, 1, by decide +kernel⟩⟩

theorem witness_HostRingsAndAperture :
    (∃ (s : State) (f : Fin 9) (v : W32), s.noLeftFailures ∧ s.ringOn f 0 = true ∧ bits v.toNat 15 0 < s.cmdSize f) ∧
    (∃ (s : State) (f : Fin 9) (v : W32), s.noLeftFailures ∧ (s.ringOn f 0 = false ∨
      s.cmdSize f ≤ bits v.toNat 15 0) ∧ s.logOpen) ∧
    (∃ (s : State) (f : Fin 9) (v : W32), s.noLeftFailures ∧ (s.ringOn f 0 = false ∨
      s.cmdSize f ≤ bits v.toNat 15 0) ∧ s.logOpen) ∧
    (∃ (s : State) (f : Fin 9) (v : W32), s.noLeftFailures ∧ s.ringOn f 1 = true ∧ bits v.toNat 15 0 < s.cplSize f) ∧
    (∃ (s : State) (f : Fin 9) (v : W32), s.noLeftFailures ∧ (s.ringOn f 1 = false ∨
      s.cplSize f ≤ bits v.toNat 15 0) ∧ s.logOpen) ∧
    (∃ (s : State) (f : Fin 9) (v : W32), s.noLeftFailures ∧ (s.ringOn f 1 = false ∨
      s.cplSize f ≤ bits v.toNat 15 0) ∧ s.logOpen) ∧
    (∃ (s : State) (f : Fin 9) (v : W32), s.noLeftFailures ∧ s.ringOn f 2 = true ∧ v.toNat % 256 = 0 ∧
      v.toNat < s.rnat .hifStrLen f * 65536) ∧
    (∃ (s : State) (f : Fin 9) (v : W32), s.noLeftFailures ∧ (s.ringOn f 2 = false ∨ v.toNat % 256 ≠ 0 ∨
      s.rnat .hifStrLen f * 65536 ≤ v.toNat) ∧ s.logOpen) ∧
    (∃ (s : State) (f : Fin 9) (v : W32), s.noLeftFailures ∧ (s.ringOn f 2 = false ∨ v.toNat % 256 ≠ 0 ∨
      s.rnat .hifStrLen f * 65536 ≤ v.toNat) ∧ s.logOpen) ∧
    (∃ (s : State) (f : Fin 9) (v : W32), s.noLeftFailures ∧ (s.ringOn f 2 = false ∨ v.toNat % 256 ≠ 0 ∨
      s.rnat .hifStrLen f * 65536 ≤ v.toNat) ∧ s.logOpen) ∧
    (∃ (s : State) (f : Fin 9), s.noLeftFailures ∧ s.canTakeCmd f = false) ∧
    (∃ (s : State) (f : Fin 9) (entry : List Byte), s.noLeftFailures ∧ s.canTakeCmd f = true ∧
      malformed f (slice entry 0 64) = none ∧ s.opDenied f (fieldAt (slice entry 0 64) 0 1) = none) ∧
    (∃ (s : State) (f : Fin 9) (entry : List Byte) (k : Nat), s.noLeftFailures ∧ s.canTakeCmd f = true ∧
      malformed f (slice entry 0 64) = some k) ∧
    (∃ (s : State) (f : Fin 9) (entry : List Byte) (d : Nat), s.noLeftFailures ∧ s.canTakeCmd f = true ∧
      malformed f (slice entry 0 64) = none ∧ s.opDenied f (fieldAt (slice entry 0 64) 0 1) = some d) ∧
    (∃ (s : State) (f : Fin 9), s.noLeftFailures ∧ (s.ringOn f 1 = false ∨ s.cplFull f = true) ∧
      bit (s.rnat .hifRingVec f) 15 = false) ∧
    (∃ (s : State) (f : Fin 9) (c : Cpl), s.noLeftFailures ∧ s.ringOn f 1 = true ∧ s.cplFull f = false ∧
      (s.fnSt f).ready = [c] ∧ s.hif.seenEvents = s.hifEvents) ∧
    (∃ (s : State) (f : Fin 9) (c : Cpl), s.noLeftFailures ∧ s.ringOn f 1 = true ∧ s.cplFull f = false ∧
      (s.fnSt f).ready = [c] ∧ s.hif.seenEvents = s.hifEvents) ∧
    (∃ (s : State) (f : Fin 9) (p : Path) (v : W32), s.noLeftFailures ∧ s.writes p .hifRingCtrl f 0 v.toNat ∧
      RegName.hifRingCtrl.fieldOk f (v.toNat &&& RegName.hifRingCtrl.row.mask) = true ∧
      s.rwAccept p.idx .hifRingCtrl f 0 (v.toNat &&& RegName.hifRingCtrl.row.mask) = true) ∧
    (∃ (s : State) (f : Fin 9) (off : Nat) (d : List Byte), s.noLeftFailures ∧ d ≠ [] ∧ off + d.length ≤ 2 ^ 34 ∧
      f ≤ s.hif.numVfs ∧ s.apertureCode f (s.rnat .hifAptBase f + off) d.length 2 = 0) ∧
    (∃ (s : State) (f : Fin 9) (off : Nat) (size : Nat), s.noLeftFailures ∧ size ≠ 0 ∧ off + size ≤ 2 ^ 34 ∧
      f ≤ s.hif.numVfs ∧ s.apertureCode f (s.rnat .hifAptBase f + off) size 1 = 0) ∧
    (∃ (s : State) (f : Fin 9) (off : Nat) (size : Nat) (data : Option (List Byte)) (n : Nat) (code : Nat),
      s.noLeftFailures ∧ n = (data.map List.length).getD size ∧ n ≠ 0 ∧ off + n ≤ 2 ^ 34 ∧ f ≤ s.hif.numVfs ∧
      s.apertureCode f (s.rnat .hifAptBase f + off) n (if data.isSome then 2 else 1) = code ∧ code ≠ 0) ∧
    (∃ (s : State) (f : Fin 9) (off : Nat) (size : Nat) (data : Option (List Byte)) (n : Nat) (code : Nat),
      s.noLeftFailures ∧ n = (data.map List.length).getD size ∧ n ≠ 0 ∧ off + n ≤ 2 ^ 34 ∧ f ≤ s.hif.numVfs ∧
      s.apertureCode f (s.rnat .hifAptBase f + off) n (if data.isSome then 2 else 1) = code ∧ code ≠ 0) ∧
    (∃ (s : State), s.noLeftFailures) ∧
    (∃ (s : State), s.noLeftFailures) :=
  ⟨⟨Wrings, 2, 3#32, by decide +kernel⟩,
   ⟨Wlock, 2, 3#32, by decide +kernel⟩,
   ⟨Wrings, 2, 16#32, by decide +kernel⟩,
   ⟨Wrings, 2, 15#32, by decide +kernel⟩,
   ⟨Wlock, 2, 3#32, by decide +kernel⟩,
   ⟨Wrings, 2, 16#32, by decide +kernel⟩,
   ⟨Wrings, 2, 256#32, by decide +kernel⟩,
   ⟨Wlock, 2, 256#32, by decide +kernel⟩,
   ⟨Wrings, 2, 65536#32, by decide +kernel⟩,
   ⟨Wrings, 2, 128#32, by decide +kernel⟩,
   ⟨Wrings, 2, by decide +kernel⟩,
   ⟨Wtail, 2, [2, 0, 0, 0, 9, 0, 0, 0, 7], by decide +kernel⟩,
   ⟨Wtail, 2, [2, 0, 0, 0, 9, 0, 0, 0, 7, 0, 0, 0, 1], 12, by decide +kernel⟩,
   ⟨Wtail0, 0, [0x21, 0, 0, 0, 9], 2, by decide +kernel⟩,
   ⟨Wlock, 2, by decide +kernel⟩,
   ⟨Wcpl (Wrings.rputN .hifRingVec 0x8004 2) 15, 2, { tag := 9, kind := 1 }, by decide +kernel⟩,
   ⟨Wcpl Wrings 3, 2, { tag := 9, kind := 1 }, by decide +kernel⟩,
   ⟨Wcpl Wlock 3, 2, .fn 0, 3#32, by decide +kernel⟩,
   ⟨W, 2, 0x9000, [5, 6], by decide +kernel⟩,
   ⟨{ W with mem := [(0x9000, 4)] }, 2, 0x9000, 2, by decide +kernel⟩,
   ⟨W, 2, 2 ^ 33, 2, none, 2, 0x0301, by decide +kernel⟩,
   ⟨W, 2, 2 ^ 33, 0, some [1], 1, 0x0301, by decide +kernel⟩,
   ⟨{ Wcpl Wrings 3 with mem := [] }, by decide +kernel⟩,
   ⟨Wcpl Wrings 3, by decide +kernel⟩⟩

theorem witness_PowerStatesAndHostLink :
    (∃ (s : State), s.noLeftFailures ∧ s.pwr.perst = false ∧ s.pwr.st.running = true) ∧
    (∃ (s : State), s.noLeftFailures ∧ (s.pwr.perst = true ∨ s.pwr.st.running = false)) ∧
    (∃ (s : State), s.noLeftFailures ∧ s.hif.linkUp = true) ∧
    (∃ (s : State), s.noLeftFailures ∧ s.hif.linkUp = false) ∧
    (∃ (s : State) (p : Path), s.noLeftFailures ∧ s.writes p .pwrCmd 0 0 0 ∧ s.pwr.st = .idle) ∧
    (∃ (s : State) (p : Path), s.noLeftFailures ∧ s.writes p .pwrCmd 0 0 0 ∧ s.pwr.st = .run) ∧
    (∃ (s : State) (p : Path), s.noLeftFailures ∧ s.writes p .pwrCmd 0 0 0 ∧ (s.pwr.st = .doze ∨
      s.pwr.st = .keepPending)) ∧
    (∃ (s : State) (p : Path), s.noLeftFailures ∧ s.writes p .pwrCmd 0 0 1 ∧ s.pwr.st = .run ∧ s.quiescent = true) ∧
    (∃ (s : State) (p : Path), s.noLeftFailures ∧ s.writes p .pwrCmd 0 0 1 ∧ s.pwr.st = .run ∧ s.quiescent = false) ∧
    (∃ (s : State) (p : Path), s.noLeftFailures ∧ s.writes p .pwrCmd 0 0 1 ∧ s.pwr.st ≠ .run) ∧
    (∃ (s : State) (p : Path), s.noLeftFailures ∧ s.writes p .pwrCmd 0 0 2 ∧ (s.pwr.st = .run ∨ s.pwr.st = .idle) ∧
      s.quiescent = true) ∧
    (∃ (s : State) (p : Path), s.noLeftFailures ∧ s.writes p .pwrCmd 0 0 2 ∧ (s.pwr.st = .run ∨ s.pwr.st = .idle) ∧
      s.quiescent = false) ∧
    (∃ (s : State) (p : Path), s.noLeftFailures ∧ s.writes p .pwrCmd 0 0 2 ∧ s.pwr.st ≠ .run ∧ s.pwr.st ≠ .idle) ∧
    (∃ (s : State) (p : Path), s.noLeftFailures ∧ s.writes p .pwrCmd 0 0 3 ∧ s.pwr.st = .doze) ∧
    (∃ (s : State) (p : Path), s.noLeftFailures ∧ s.writes p .pwrCmd 0 0 3 ∧ s.pwr.st ≠ .doze) ∧
    (∃ (s : State), s.noLeftFailures ∧ s.pwr.st = .keepPending) ∧
    (∃ (s : State), s.noLeftFailures ∧ s.pwr.st ≠ .keepPending) ∧
    (∃ (s : State) (b : Fin 56), s.noLeftFailures ∧ b.val ∉ s.switchingOn) ∧
    (∃ (s : State) (b : Fin 56), s.noLeftFailures ∧ b.val ∈ s.switchingOn) ∧
    (∃ (s : State) (b : Fin 56), s.noLeftFailures ∧ b.val ∈ s.switchingOn) ∧
    (∃ (s : State) (b : Fin 56) (n : RegName) (i : Nat), s.noLeftFailures ∧ b.val ∈ s.switchingOn ∧
      recordOrder s.sectionList = [] ∧ (b.val < 32 ∨ 46 ≤ b.val) ∧ n.row.dom.bitOf i = some b.val ∧
      n ∈ regsOfDomain b ∧ i < 65536) ∧
    (∃ (s : State), s.noLeftFailures ∧ s.pwr.st.running = true) ∧
    (∃ (s : State) (mv : Nat), s.noLeftFailures ∧ s.pwr.st = .keep ∧ s.pwr.mainPg = false ∧
      vbakIsLow s.pwr.vbakLow mv = false) ∧
    (∃ (s : State) (mv : Nat), s.noLeftFailures ∧ s.pwr.st = .keep ∧ s.pwr.mainPg = false ∧
      vbakIsLow s.pwr.vbakLow mv = true) ∧
    (∃ (s : State), s.noLeftFailures ∧ s.pwr.st = .keep ∧ s.pwr.mainPg = true) ∧
    (∃ (s : State), s.noLeftFailures ∧ (s.pwr.st = .off ∨ s.pwr.st = .tripped)) ∧
    (∃ (s : State) (p : Path) (k : Fin 3) (v : W32), s.noLeftFailures ∧ s.writes p .pwrSsc k 0 v.toNat ∧
      RegName.pwrSsc.fieldOk k (v.toNat &&& RegName.pwrSsc.row.mask) = true ∧
      s.rwAccept p.idx .pwrSsc k 0 (v.toNat &&& RegName.pwrSsc.row.mask) = true) :=
  ⟨⟨Wlock, by decide +kernel⟩,
   ⟨State.reset, by decide +kernel⟩,
   ⟨Wlock, by decide +kernel⟩,
   ⟨State.reset, by decide +kernel⟩,
   ⟨{ Wlock with pwr := { Wlock.pwr with st := .idle } }, .fn 0, by decide +kernel⟩,
   ⟨Wlock, .fn 0, by decide +kernel⟩,
   ⟨{ Wlock with pwr := { Wlock.pwr with st := .doze, domains := 2 ^ domHost } }, .fn 0, by decide +kernel⟩,
   ⟨Wlock, .fn 0, by decide +kernel⟩,
   ⟨withCtx Wlock { st := .run }, .fn 0, by decide +kernel⟩,
   ⟨{ Wlock with pwr := { Wlock.pwr with st := .doze } }, .fn 0, by decide +kernel⟩,
   ⟨Wlock, .fn 0, by decide +kernel⟩,
   ⟨withCtx Wlock { st := .run }, .fn 0, by decide +kernel⟩,
   ⟨{ Wlock with pwr := { Wlock.pwr with st := .doze } }, .fn 0, by decide +kernel⟩,
   ⟨{ Wlock with pwr := { Wlock.pwr with st := .doze } }, .fn 0, by decide +kernel⟩,
   ⟨Wlock, .fn 0, by decide +kernel⟩,
   ⟨{ Wlock with pwr := { Wlock.pwr with st := .keepPending } }, by decide +kernel⟩,
   ⟨Wlock, by decide +kernel⟩,
   ⟨Wlock, 24, by decide +kernel⟩,
   ⟨{ Wlock with pwr := { Wlock.pwr with rising := 2 ^ 49, stage := 5 } }, 49, by decide +kernel⟩,
   ⟨{ Wlock with pwr := { Wlock.pwr with rising := 2 ^ 24 + 2 ^ 25 } }, 24, by decide +kernel⟩,
   ⟨{ Wlock with pwr := { Wlock.pwr with rising := 2 ^ 49 } }.rputN .intTmoLimit 5, 49, .intTmoLimit, 0,
     by decide +kernel⟩,
   ⟨Wlock, by decide +kernel⟩,
   ⟨{ Wlock with pwr := { Wlock.pwr with st := .keep, mainPg := false } }, 3000, by decide +kernel⟩,
   ⟨{ Wlock with pwr := { Wlock.pwr with st := .keep, mainPg := false } }, 2000, by decide +kernel⟩,
   ⟨{ Wlock with pwr := { Wlock.pwr with st := .keep } }, by decide +kernel⟩,
   ⟨{ Wlock with pwr := { Wlock.pwr with st := .tripped } }, by decide +kernel⟩,
   ⟨Wlock, .fn 0, 1, 0x3F05#32, by decide +kernel⟩⟩

theorem witness_LossTripAndBringUp :
    (∃ (s : State), s.noLeftFailures ∧ s.pwr.mainPg = true ∧ s.pwr.st.running = true ∧ s.pwr.vbakLow = false ∧
      s.logOpen) ∧
    (∃ (s : State), s.noLeftFailures ∧ s.pwr.mainPg = true ∧ s.pwr.st.running = true ∧ s.pwr.vbakLow = true) ∧
    (∃ (s : State), s.noLeftFailures ∧ s.pwr.mainPg = true ∧ s.pwr.st = .keep) ∧
    (∃ (s : State), s.noLeftFailures ∧ s.pwr.mainPg = true ∧ (s.pwr.st = .off ∨ s.pwr.st = .tripped)) ∧
    (∃ (s : State), s.noLeftFailures ∧ s.pwr.mainPg = false) ∧
    (∃ (s : State), s.noLeftFailures ∧ s.pwr.st.running = true ∧ s.logOpen) ∧
    (∃ (s : State), s.noLeftFailures ∧ s.pwr.st.running = false) ∧
    (∃ (s : State) (k : Fin 40) (x : Int), s.noLeftFailures ∧ s.pwr.st ≠ .off ∧ s.pwr.st ≠ .tripped ∧ (x < 1840 ∨
      ((NMap.get? s.pwr.temps k).map (·.2)).getD false = false)) ∧
    (∃ (s : State) (k : Fin 40) (x : Int), s.noLeftFailures ∧ s.pwr.st ≠ .off ∧ s.pwr.st ≠ .tripped ∧ 1840 ≤ x ∧
      ((NMap.get? s.pwr.temps k).map (·.2)).getD false = true) ∧
    (∃ (s : State), s.noLeftFailures ∧ (s.pwr.st = .off ∨ s.pwr.st = .tripped)) ∧
    (∃ (s : State), s.noLeftFailures ∧ s.pwr.st = .keepPending) ∧
    (∃ (s : State), s.noLeftFailures ∧ s.pwr.st ≠ .keepPending) ∧
    (∃ (s : State), s.noLeftFailures ∧ s.pwr.st.running = true) ∧
    (∃ (s : State) (n : RegName) (i : Nat) (j : Nat), s.noLeftFailures ∧ s.pwr.st.running = true ∧
      keptReg (n.key i j) = false) ∧
    (∃ (s : State), s.noLeftFailures ∧ s.pwr.perst = true ∧ s.pwr.mainPg = true ∧ s.pwr.st ≠ .tripped) ∧
    (∃ (s : State), s.noLeftFailures ∧ s.pwr.perst = true ∧ s.pwr.mainPg = true ∧ s.pwr.st ≠ .tripped) ∧
    (∃ (s : State) (id : Nat) (h : Holding), s.noLeftFailures ∧ s.pwr.perst = true ∧ s.pwr.mainPg = true ∧
      s.startKindNow = 1 ∧ s.hold? id = some h) ∧
    (∃ (s : State), s.noLeftFailures ∧ (s.pwr.perst = false ∨ s.pwr.mainPg = false ∨ s.pwr.st = .tripped)) ∧
    (∃ (s : State), s.noLeftFailures ∧ s.pwr.stage ≠ 2) ∧
    (∃ (s : State) (fault : Nat), s.noLeftFailures ∧ s.pwr.stage = 2 ∧ fault ≠ 0) ∧
    (∃ (s : State), s.noLeftFailures ∧ s.pwr.stage = 2 ∧ s.pwr.startKind ≠ 1 ∧ bit s.strapsWord 9 = false) ∧
    (∃ (s : State), s.noLeftFailures ∧ s.pwr.stage = 2 ∧ s.pwr.startKind = 1 ∧ bit s.strapsWord 9 = false) ∧
    (∃ (s : State), s.noLeftFailures ∧ s.pwr.stage = 2 ∧ bit s.strapsWord 9 = true) ∧
    (∃ (s : State), s.noLeftFailures ∧ 6 ≤ s.pwr.stage ∧ s.pwr.stage ≠ 15) ∧
    (∃ (s : State) (bad : Nat) (id : Nat) (k : Fin 8) (h : Holding), s.noLeftFailures ∧ 6 ≤ s.pwr.stage ∧
      s.pwr.stage ≠ 15 ∧ bit bad k = true ∧ s.domainOn (domStack k) = true ∧ s.hold? id = some h ∧
      overlaps h.base (h.size * granule) (slopeBase k) slopeSize = true) ∧
    (∃ (s : State), s.noLeftFailures ∧ (s.pwr.stage < 6 ∨ s.pwr.stage = 15)) ∧
    (∃ (s : State), s.noLeftFailures ∧ s.pwr.stage = 7 ∧ s.cad.state = .acquire ∧ s.cad.master = false) ∧
    (∃ (s : State), s.noLeftFailures ∧ s.pwr.stage = 7 ∧ s.rbit .cadCtrl 0 = true ∧ (s.cad.state = .locked ∨
      s.cad.master = true)) ∧
    (∃ (s : State), s.noLeftFailures ∧ s.pwr.stage ≠ 7) ∧
    (∃ (s : State) (k : Fin 2), s.noLeftFailures ∧ s.domainOn (domCxl k) = true) ∧
    (∃ (s : State) (k : Fin 2), s.noLeftFailures ∧ s.domainOn (domCxl k) = false) :=
  ⟨⟨{ Wlock with mem := [(5, 1), (slopeBase 3, 2)] }, by decide +kernel⟩,
   ⟨{ Wlock with pwr := { Wlock.pwr with vbakLow := true } }, by decide +kernel⟩,
   ⟨{ Wlock with pwr := { Wlock.pwr with st := .keep, keepByCmd := true } }, by decide +kernel⟩,
   ⟨{ Wlock with pwr := { Wlock.pwr with st := .tripped } }, by decide +kernel⟩,
   ⟨{ Wlock with pwr := { Wlock.pwr with mainPg := false } }, by decide +kernel⟩,
   ⟨Wlock, by decide +kernel⟩,
   ⟨{ Wlock with pwr := { Wlock.pwr with st := .keep } }, by decide +kernel⟩,
   ⟨Wlock, 3, 1900, by decide +kernel⟩,
   ⟨{ Wlock with pwr := { Wlock.pwr with temps := [(3, (1850, true))] } }, 3, 1900, by decide +kernel⟩,
   ⟨{ Wlock with pwr := { Wlock.pwr with st := .off } }, by decide +kernel⟩,
   ⟨{ Wlock with pwr := { Wlock.pwr with st := .keepPending, selfRefresh := 255 } }, by decide +kernel⟩,
   ⟨Wlock, by decide +kernel⟩,
   ⟨Wheld7, by decide +kernel⟩,
   ⟨Wlock, .cadCtrl, 0, 0, by decide +kernel⟩,
   ⟨State.reset, by decide +kernel⟩,
   ⟨{ Wlock with pwr := { Wlock.pwr with perst := true, st := .keep, resume := some { digest := [], parts := [], step := 7, phase := 5, byCommand := true } } },
     by decide +kernel⟩,
   ⟨{ Wheld7 with pwr := { W.pwr with perst := true, st := .keep, keepByCmd := true, selfRefresh := 255, resume := some { digest := [], parts := [], step := 7, phase := 5, byCommand := true } } },
     7, { owner := 0, base := slopeBase 0, size := 1 }, by decide +kernel⟩,
   ⟨Wlock, by decide +kernel⟩,
   ⟨Wlock, by decide +kernel⟩,
   ⟨{ Wlock with pwr := { Wlock.pwr with stage := 2 } }, 3, by decide +kernel⟩,
   ⟨{ Wheld7 with pwr := { W.pwr with stage := 2 }, mem := [(5, 1), (slopeBase 3, 2)] }, by decide +kernel⟩,
   ⟨{ Wlock with pwr := { Wlock.pwr with stage := 2, startKind := 1 } }, by decide +kernel⟩,
   ⟨{ Wlock with pwr := { Wlock.pwr with stage := 2, straps := some 0x200 } }, by decide +kernel⟩,
   ⟨{ Wlock with pwr := { Wlock.pwr with stage := 6 } }, by decide +kernel⟩,
   ⟨Wheld7, 1, 7, 0, { owner := 0, base := slopeBase 0, size := 1 }, by decide +kernel⟩,
   ⟨State.reset, by decide +kernel⟩,
   ⟨{ W with pwr := { W.pwr with stage := 7 } }, by decide +kernel⟩,
   ⟨{ Wlock with pwr := { Wlock.pwr with stage := 7 } }, by decide +kernel⟩,
   ⟨Wlock, by decide +kernel⟩,
   ⟨Wlock, 1, by decide +kernel⟩,
   ⟨State.reset, 1, by decide +kernel⟩⟩

theorem witness_LogTallyAndSidePorts :
    (∃ (s : State), s.noLeftFailures ∧ s.log.batch = [] ∧ (s.log.staged.map (fun e => e.seq % 131072)).Nodup) ∧
    (∃ (s : State), s.noLeftFailures ∧ NMap.sorted s.tally.acc = true ∧ s.log.batch = []) ∧
    (∃ (s : State), s.noLeftFailures ∧ NMap.sorted s.tally.acc = true ∧ s.log.batch = []) ∧
    (∃ (s : State), s.noLeftFailures ∧ s.pwr.st.running = true ∧ s.log.batch = []) ∧
    (∃ (s : State), s.noLeftFailures ∧ s.pwr.st.running = false) ∧
    (∃ (s : State) (p : Path) (v : W64), s.noLeftFailures ∧ s.writes p .logReadSeq 0 0 v.toNat ∧
      RegName.logReadSeq.fieldOk 0 v.toNat = true ∧ s.rwAccept p.idx .logReadSeq 0 0 v.toNat = true) ∧
    (∃ (s : State) (p : Path) (v : W64), s.noLeftFailures ∧ s.writes p .logReadSeq 0 0 v.toNat ∧
      RegName.logReadSeq.fieldOk 0 v.toNat = true ∧ s.rwAccept p.idx .logReadSeq 0 0 v.toNat = true) ∧
    (∃ (s : State) (p : Path) (v : W64), s.noLeftFailures ∧ s.writes p .logTimeSet 0 0 v.toNat) ∧
    (∃ (s : State) (p : Path) (v : W64), s.noLeftFailures ∧ s.writes p .logTimeSet 0 0 v.toNat) ∧
    (∃ (s : State) (off : Nat) (n : RegName) (i : Nat) (j : Nat), s.noLeftFailures ∧ s.pwr.st.running = true ∧
      accessAt off 4 = some (n, i, j, false) ∧ n.row.w64 = false ∧ n.row.acc ≠ .rc ∧ s.reaches .i2c n i ∧
      s.mayRead .i2c n i j = true) ∧
    (∃ (s : State) (whole : Bool), s.noLeftFailures ∧ (s.pwr.st.running = false ∨ whole = false)) ∧
    (∃ (s : State) (v : W32), s.noLeftFailures ∧ s.pwr.st.running = true ∧ s.writes .i2c .tlySel 0 0 v.toNat ∧
      RegName.tlySel.fieldOk 0 (v.toNat &&& RegName.tlySel.row.mask) = true ∧
      s.rwAccept Path.i2c.idx .tlySel 0 0 (v.toNat &&& RegName.tlySel.row.mask) = true) ∧
    (∃ (s : State) (off : Nat) (v : W32) (n : RegName) (i : Nat) (j : Nat), s.noLeftFailures ∧
      s.pwr.st.running = true ∧ accessAt off 4 = some (n, i, j, false) ∧ n.row.acc ≠ .ro ∧
      s.mayWrite .i2c n i j v.toNat = false ∧ notOwnedCode n v.toNat = 0 ∧ s.pwr.stage = 9) ∧
    (∃ (s : State), s.noLeftFailures ∧ s.pwr.st.running = true) ∧
    (∃ (s : State) (off : Nat) (n : RegName) (i : Nat) (j : Nat), s.noLeftFailures ∧ s.pwr.st.running = true ∧
      off < 0x40000000 ∧ accessAt off 4 = some (n, i, j, false) ∧ n.row.w64 = false ∧ n.row.acc ≠ .rc ∧
      s.reaches .jtag n i ∧ s.mayRead .jtag n i j = true) ∧
    (∃ (s : State) (off : Nat) (n : RegName) (i : Nat) (j : Nat) (v : W32), s.noLeftFailures ∧
      s.pwr.st.running = true ∧ off < 0x40000000 ∧ accessAt off 4 = some (n, i, j, false) ∧ n.row.w64 = false ∧
      n.row.acc = .rw ∧ n.plain = true ∧ s.writes .jtag n i j v.toNat ∧
      n.fieldOk i (v.toNat &&& n.row.mask) = true ∧
      s.rwAccept Path.jtag.idx n i j (v.toNat &&& n.row.mask) = true) :=
  ⟨⟨{ Wlock with log := { staged := [{ kind := 4, origin := 6, seq := 3 }, { kind := 4, origin := 6, seq := 4 }], nextSeq := 5, written := 3 } },
     by decide +kernel⟩,
   ⟨{ Wlock with tally := { mram := [(5, 2 ^ 64 - 2)], acc := [(5, 9)] } }, by decide +kernel⟩,
   ⟨{ Wlock with tally := { mram := [(5, 2)], acc := [(6, 9)] } }, by decide +kernel⟩,
   ⟨{ Wlock with pwr := { Wlock.pwr with temps := [(3, (900, false))] } }, by decide +kernel⟩,
   ⟨{ Wlock with pwr := { Wlock.pwr with st := .keep } }, by decide +kernel⟩,
   ⟨{ Wlock with log := { staged := [{ kind := 4, origin := 6, seq := 3, new := 77 }], nextSeq := 4, written := 3 } },
     .fn 0, 3, by decide +kernel⟩,
   ⟨Wlock, .fn 2, 9, by decide +kernel⟩,
   ⟨Wlock, .fn 0, 12345, by decide +kernel⟩,
   ⟨{ Wlock with log := { timeRuns := true } }, .fn 0, 12345, by decide +kernel⟩,
   ⟨Wlock, 0x200028, .cadHoldMax, 0, 0, by decide +kernel⟩,
   ⟨Wlock, false, by decide +kernel⟩,
   ⟨Wlock, 5#32, by decide +kernel⟩,
   ⟨Wlock, 0x200028, 5#32, .cadHoldMax, 0, 0, by decide +kernel⟩,
   ⟨Wlock, by decide +kernel⟩,
   ⟨Wlock, 0x200028, .cadHoldMax, 0, 0, by decide +kernel⟩,
   ⟨Wlock, 0x200028, .cadHoldMax, 0, 0, 0x1234, by decide +kernel⟩⟩

/-! ### Ill-formed commands: each check of Instr.wf refuses one -/

theorem test_wf_refuses_register_forms :
    (Instr.registerWrite .jtag 2 4 0 0).wf = false ∧ (Instr.registerWrite .jtag 4 8 0 0).wf = false ∧
    (Instr.rcRead .jtag 0 2).wf = false ∧ (Instr.lowerHalfRead .jtag 4).wf = false ∧ (Instr.upperHalfRead .jtag 12).wf = false ∧
    (Instr.lowerHalfWrite .jtag 4 0).wf = false ∧ (Instr.upperHalfWrite .jtag 4 0 0).wf = false ∧
    (Instr.i2cRead 2 true).wf = false ∧ (Instr.i2cWrite 2 0 true).wf = false ∧ (Instr.debug 3 0 true).wf = false := by decide

theorem test_wf_refuses_items_and_waiters :
    (Instr.phasePointReached (.scaler 0 131072)).wf = false ∧ (Instr.itemStart (.coll 256)).wf = false ∧
    (Instr.deadlineReached (.coll 256) 0 {}).wf = false ∧ (Instr.holdTimeout (.coll 256)).wf = false ∧
    (Instr.cairnWaitComplete (.tileCtx 24 0)).wf = false ∧ (Instr.cairnWaitComplete (.dmaCh 4 0)).wf = false ∧
    (Instr.waitTimeout (.update 8)).wf = false ∧ (Instr.waitTimeout (.hostWatch 64)).wf = false ∧
    (Instr.waitTimeout (.coll 256)).wf = false := by decide

theorem test_wf_refuses_lengths_and_ranges :
    (Instr.phaseAdvance 0).wf = false ∧ (Instr.phaseFrameReceive [] true).wf = false ∧ (Instr.keyProgram (.fn 0) 0 []).wf = false ∧
    (Instr.granuleZero 1).wf = false ∧ (Instr.patrolScrub 0 (.uncorrectable 0)).wf = false ∧ (Instr.patrolScrub 0 .poison).wf = false ∧
    (Instr.linkFrameReceive 0 []).wf = false ∧ (Instr.commandTake 0 []).wf = false := by decide

theorem test_wf_refuses_numbers :
    (Instr.outboundLegComplete 0 131072 {} .clean).wf = false ∧ (Instr.fetchBackStart 0 131072).wf = false ∧
    (Instr.fetchBackComplete 0 131072 {} .clean).wf = false ∧ (Instr.regrowStart 0 131072).wf = false ∧
    (Instr.regrowComplete 0 131072).wf = false ∧ (Instr.collEntryStart 256).wf = false ∧ (Instr.collDeadline 256).wf = false ∧
    (Instr.replaceWaitExpiry 256).wf = false ∧ (Instr.collGraceExpiry 256).wf = false ∧ (Instr.revokeComplete 64).wf = false := by
  decide

theorem test_wf_refuses_events_from_outside :
    (Instr.enumeration [] false 16).wf = false ∧ (Instr.enumeration (List.replicate 17 ⟨true, 1, 0, []⟩) false 0).wf = false ∧
    (Instr.nvmeCompletion 0 0 0 8 0 false []).wf = false ∧ (Instr.nvmeCompletion 0 0 0 0 256 false []).wf = false ∧
    (Instr.perstRelease 4096).wf = false ∧ (Instr.selfTestComplete (2 ^ 24) 0).wf = false ∧ (Instr.selfTestComplete 0 256).wf = false ∧
    (Instr.stackTrainingEnd 256).wf = false ∧ (Instr.hostLinkUp 16 1).wf = false ∧ (Instr.hostLinkUp 1 32).wf = false := by decide

/-! ### Values worked out by hand from the spec's own definitions -/

/-- The check value of CRC-32C over the digits 1 to 9. -/
theorem test_crc32c : crc32c [0x31, 0x32, 0x33, 0x34, 0x35, 0x36, 0x37, 0x38, 0x39] = 0xE3069283 := by decide +kernel

/-- α^8 in the field of Table 12.2, whose polynomial is x^8 + x^4 + x^3 + x^2 + 1. -/
theorem test_field_polynomial : gfMul 0x80 2 = 0x1D := by decide

/-- A condition on a cairn holds when (value − T) mod 2^32 is below 2^31 (R278): 1 is past 2^32 − 1, and 2^31 ahead is not. -/
theorem test_cairn_condition_wraps : holds 1 (2 ^ 32 - 1) = true ∧ holds 0 (2 ^ 31) = false ∧ holds (2 ^ 31 - 1) 0 = true := by decide

/-- Ties go to the even BF16: 1 + 2^-8 falls, 1 + 3 · 2^-8 rises. -/
theorem test_bf16_ties_to_even :
    (fBF16.round {} false 0x101 (-8)).v = 0x3F80 ∧ (fBF16.round {} false 0x103 (-8)).v = 0x3F82 := by decide +kernel

/-- The largest E4M3 is 448, 0x7E; it has no infinity. -/
theorem test_e4m3_largest : (fE4M3.round {} false 448 0).v = 0x7E := by decide +kernel

/-- 2^-126 over 2 is a subnormal FP32 and is kept. -/
theorem test_fp32_subnormal : (fFP32.round {} true 1 (-127)).v = 0x80400000 := by decide +kernel

/-! ### One step each -/

def next (s : State) (c : Instr) : State :=
  match step { s with pending := [c] } with | .next t => t | .fault _ => s | .refused _ => s

/-- STEP is a field of 48 bits (Table 2.1) and wraps. -/
theorem test_step_number_wraps :
    (next { Wlock with cad := { Wlock.cad with step := 2 ^ 48 - 1, phase := 2 ^ 56 - 1 } } .stepWrap).cad.step = 0 := by decide +kernel

/-- Writing one to an event bit clears that bit alone (R11). -/
theorem test_write_one_to_clear :
    (next (W.rputN .hifEvent 5) (.registerWrite (.fn 0) (RegName.hifEvent.row.base) 4 1 0)).rnat .hifEvent = 4 := by decide +kernel

/-- An RC counter reads its value and is 0 afterwards (R8). -/
theorem test_read_clears :
    let t := next (W.rputN .cadSlipCount 3) (.rcRead (.fn 0) 0x200044 4)
    t.readVal = 3 ∧ t.rnat .cadSlipCount = 0 := by decide +kernel

/-- A function does not read the registers of another one's rings (R470). -/
theorem test_other_functions_rings_read_zero :
    (next (W.rputN .hifRingSize 0x33 1) (.rcRead (.fn 2) (RegName.hifRingSize.row.base + RegName.hifRingSize.row.s1) 4)).readVal = 0 := by
  decide +kernel

/-- NOP of the command ring completes with OK under its tag. -/
theorem test_nop_completes :
    ((next (Wcmd W 1 0x00 []) (.nop 1)).fnSt 1).ready = [{ tag := 9, kind := 1 }] := by decide +kernel

/-- The code that IDCODE shifts out (R556). -/
theorem test_jtag_idcode : (next W .idcode).side.tdo = 0x11A64001 := by decide +kernel

/-- With PERST# asserted the release starts the ROM, which goes to stage 2. -/
theorem test_release_starts_the_rom : (next State.reset (.perstRelease 0)).pwr.stage = 2 := by decide +kernel

/-- No word spells a command, since the table gives its rows no bits. -/
theorem test_no_word_spells_a_command : decodeTableWord 32 0 = none ∧ (State.reset.withFetchWord 32 0) = State.reset := by decide +kernel

end Sys2Proof.Tests
end

section
/-! SUPPORT. An entry of the log made by a command: where the log is open it is staged at once, and beside the log it is no
change. -/
namespace Sys2Proof.Machine

/-! ### Staging one entry (R531, R532) -/

theorem LogUnit.makeRoom_of_room {l : LogUnit} (h : l.staged.length < 4096) (e : LogEntry) : l.makeRoom e = l := by
  have hf : l.full = false := decide_eq_false (by omega)
  simp [LogUnit.makeRoom, hf]

/-- With room and nothing dropped, an entry is staged under the next SEQ and nothing else happens to the log. -/
theorem State.stageEntry_log_of_room {s : State} (hr : s.log.staged.length < 4096) (hd : s.log.dropped = 0)
    (e : LogEntry) : (s.stageEntry e).log = s.log.push e := by
  have hf : s.log.full = false := decide_eq_false (by omega)
  simp [State.stageEntry, State.stageOrDrop, LogUnit.makeRoom_of_room hr, hd, hf]

/-- The event vector is judged after the log is staged, and does not touch it. -/
theorem State.settle_log (s : State) : s.settle.log = (if s.log.batch.isEmpty then s else s.flushBatch).log := by
  unfold State.settle
  generalize (if s.log.batch.isEmpty then s else s.flushBatch) = u
  simp only
  split
  · rfl
  · split
    · obtain ⟨o, h⟩ := State.sendVector_eq { u with hif := { u.hif with seenEvents := u.hifEvents } } 0
        (bits (u.rnat .hifEvtVec) 10 0)
      rw [h]
    · rfl

/-- The batch of one entry, settled where the log has room. -/
theorem State.settle_logAdd_log {s u : State} (ho : s.logOpen) (hu : u.log = s.log) (e : LogEntry) :
    (u.logAdd e).settle.log = s.log.push (u.stamped e) := by
  obtain ⟨hb, hr, hd⟩ := ho
  have hbatch : (u.logAdd e).log.batch = [[u.stamped e]] := by simp [State.logAdd, hu, hb]
  have hrest : { (u.logAdd e).log with batch := [] } = s.log := by
    rw [← hb]; simp [State.logAdd, hu]
  rw [State.settle_log, hbatch]
  simp only [List.isEmpty_cons, Bool.false_eq_true, if_false, State.flushBatch, hbatch, hrest]
  exact State.stageEntry_log_of_room (s := { u.logAdd e with log := s.log }) hr hd (u.stamped e)

/-- Exactly the entry made is staged. -/
theorem Logged.of_logAdd {P : LogEntry → Prop} {s u : State} (ho : s.logOpen) (hu : u.log = s.log) {e : LogEntry}
    (h : P { u.stamped e with seq := s.log.nextSeq }) : Logged P s (u.logAdd e).settle :=
  ⟨_, by rw [State.settle_logAdd_log ho hu]; rfl, rfl, h⟩

/-- The entry about a write to a register. -/
theorem Logged.of_logReg {s u : State} (ho : s.logOpen) (hu : u.log = s.log) (p : Path) (kind : Nat) (n : RegName)
    (i j old new : Nat) :
    Logged (fun e => e.kind = kind ∧ (e.origin, e.originIdx) = p.origin ∧ e.tkind = 0 ∧ e.target = n.localAddr i j ∧
      e.old = old ∧ e.new = new) s (u.logReg p kind n i j old new).settle :=
  Logged.of_logAdd ho hu ⟨rfl, rfl, rfl, rfl, rfl, rfl⟩

/-! ### Effects with at most one entry -/

/-- `t` is `u` with at most one entry made. -/
def Noted (u t : State) : Prop := t = u ∨ ∃ e, t = u.logAdd e

theorem Noted.onlyIn {u t : State} (h : Noted u t) (ps : List Area) : OnlyIn ps u t := by
  rcases h with rfl | ⟨e, rfl⟩
  · exact OnlyIn.refl ps t
  · exact OnlyIn.logAdd ps u e

/-- A frame of an effect that leaves the outputs alone is a frame of the command, its entry made. -/
theorem Noted.settled {s u t : State} (h : Noted u t) {ps : List Area} (hu : OnlyIn ps s u) (ho : u.outs = s.outs) :
    OnlyIn ps s t.settle := by
  have hout : t.outs = u.outs := by rcases h with rfl | ⟨e, rfl⟩ <;> rfl
  exact (hu.trans ho (h.onlyIn ps)).settled (hout.trans ho)

theorem Noted.settle_regs {u t : State} (h : Noted u t) : t.settle.regs = u.regs :=
  t.settle_regs.trans ((h.onlyIn []).2 .regs (by simp))

theorem Noted.settle_held {u t : State} (h : Noted u t) : t.settle.held = u.held :=
  t.settle_held.trans ((h.onlyIn []).2 .held (by simp))

theorem Noted.rget {u t : State} (h : Noted u t) (n : RegName) (i j : Nat) : t.settle.rget n i j = u.rget n i j :=
  State.rget_congr h.settle_regs n i j

theorem Noted.pget {u t : State} (h : Noted u t) (k : Nat) (n : RegName) (i j : Nat) :
    t.settle.pget k n i j = u.pget k n i j := by
  unfold State.pget State.rnat
  rw [h.rget]

theorem Noted.regsBut {s u t : State} (h : Noted u t) {ks : List Nat} (hu : RegsBut ks s u) : RegsBut ks s t.settle :=
  hu.trans (RegsBut.of h.settle_regs)

/-- A command whose effect `u` changes no channel and no context, its entry made. -/
theorem Noted.gives {c : Instr} {s u t : State} {P : State → Prop} (h : Noted u t) (e : exec c s = done s t)
    (hd : u.dma = s.dma) (ht : u.tiles = s.tiles) (hp : P t.settle) : Gives c s P := by
  have hdma : t.dma = u.dma := (h.onlyIn []).2 .dma (by simp)
  have htiles : t.tiles = u.tiles := (h.onlyIn []).2 .tiles (by simp)
  exact done_gives e (by rw [hdma, hd]) (htiles.trans ht) hp

end Sys2Proof.Machine
end

section
/-! SUPPORT. Accesses to registers: what a read and a write by bus come to, one lemma per form of access, and the frames
of the latches, the held halves and the copies of a path. -/
namespace Sys2Proof.Machine

/-! ### What a command gives -/

theorem Gives.mono {c : Instr} {s : State} {P Q : State → Prop} (h : Gives c s P) (hq : ∀ t, P t → Q t) : Gives c s Q := by
  obtain ⟨t, ht, hp⟩ := h
  exact ⟨t, ht, hq t hp⟩

/-- A command gives one state. -/
theorem Gives.both {c : Instr} {s : State} {P Q : State → Prop} (h : Gives c s P) (k : Gives c s Q) : ∃ t, P t ∧ Q t := by
  obtain ⟨t, ht, hp⟩ := h
  obtain ⟨u, hu, hq⟩ := k
  rw [ht] at hu
  cases hu
  exact ⟨t, hp, hq⟩

/-! ### What a path is given, latches and holds (R6) -/

/-- The state with `v` given to the path that reads. -/
def State.giveVal (s : State) (v : Nat) : State := { s with readVal := BitVec.ofNat 64 v }

/-- The state with these upper halves latched. -/
def State.withLatch (s : State) (m : NMap (Nat × W32)) : State := { s with latch := m }

/-- The state with these lower halves held. -/
def State.withHeld (s : State) (m : NMap (Nat × W32)) : State := { s with held := m }

@[simp] theorem State.giveVal_readVal (s : State) (v : Nat) : (s.giveVal v).readVal = BitVec.ofNat 64 v := rfl
@[simp] theorem State.giveVal_latch (s : State) (v : Nat) : (s.giveVal v).latch = s.latch := rfl
@[simp] theorem State.giveVal_rget (s : State) (v : Nat) (n : RegName) (i j : Nat) :
    (s.giveVal v).rget n i j = s.rget n i j := rfl
@[simp] theorem State.withLatch_latch (s : State) (m : NMap (Nat × W32)) : (s.withLatch m).latch = m := rfl
@[simp] theorem State.withLatch_rget (s : State) (m : NMap (Nat × W32)) (n : RegName) (i j : Nat) :
    (s.withLatch m).rget n i j = s.rget n i j := rfl
@[simp] theorem State.withHeld_held (s : State) (m : NMap (Nat × W32)) : (s.withHeld m).held = m := rfl

/-- Whether a value is taken does not depend on the halves that paths hold. -/
theorem State.withHeld_rwAccept (s : State) (m : NMap (Nat × W32)) (k : Nat) (n : RegName) (i j v : Nat) :
    (s.withHeld m).rwAccept k n i j v = s.rwAccept k n i j v := rfl

theorem OnlyIn.giveVal (s : State) (v : Nat) : OnlyIn [.readVal] s (s.giveVal v) := by
  refine ⟨rfl, fun p hp => ?_⟩
  cases p <;> first | rfl | exact Or.inl rfl | exact absurd (List.mem_singleton.mpr rfl) hp

theorem OnlyIn.withLatch (s : State) (m : NMap (Nat × W32)) : OnlyIn [.latch] s (s.withLatch m) := by
  refine ⟨rfl, fun p hp => ?_⟩
  cases p <;> first | rfl | exact Or.inl rfl | exact absurd (List.mem_singleton.mpr rfl) hp

theorem OnlyIn.withHeld (s : State) (m : NMap (Nat × W32)) : OnlyIn [.held] s (s.withHeld m) := by
  refine ⟨rfl, fun p hp => ?_⟩
  cases p <;> first | rfl | exact Or.inl rfl | exact absurd (List.mem_singleton.mpr rfl) hp

/-- A change of one part after a change of the parts `ps`. -/
theorem OnlyIn.andThen {ps : List Area} {a : Area} {s u t : State} (h : OnlyIn ps s u) (ho : u.outs = s.outs)
    (k : OnlyIn [a] u t) : OnlyIn (a :: ps) s t :=
  (h.mono (fun _ hp => List.mem_cons_of_mem _ hp)).trans ho
    (k.mono (fun _ hp => List.mem_singleton.mp hp ▸ List.mem_cons_self ..))

theorem OnlyIn.latchGiven (s : State) (m : NMap (Nat × W32)) (v : Nat) :
    OnlyIn [.readVal, .latch] s ((s.withLatch m).giveVal v) :=
  (OnlyIn.withLatch s m).andThen rfl (OnlyIn.giveVal _ v)

theorem State.pget_pput_same (s : State) (k : Nat) (n : RegName) (i j : Nat) {v : Nat} (h : v < 2 ^ 64) :
    (s.pput k n v i j).pget k n i j = v := by
  simp only [State.pget, State.pput, State.rnat_rputN_same, Nat.mod_eq_of_lt h]

theorem State.pput_log (s : State) (k : Nat) (n : RegName) (v i j : Nat) : (s.pput k n v i j).log = s.log := rfl

theorem OnlyIn.pput (s : State) (k : Nat) (n : RegName) (v i j : Nat) : OnlyIn [.regs] s (s.pput k n v i j) :=
  OnlyIn.rput s n _ _ _

theorem RegsBut.pput (s : State) (k : Nat) (n : RegName) (v i j : Nat) :
    RegsBut [n.key (n.copy i j k).1 (n.copy i j k).2] s (s.pput k n v i j) :=
  RegsBut.rput s n _ _ _

/-- No register is wider than 64 bits. -/
theorem RegName.mask_lt (n : RegName) : n.row.mask < 2 ^ 64 := by
  cases n <;> decide

/-! ### Reads (R6, R7) -/

/-- An access of a whole register is not one of its halves. -/
theorem whole_not_half {size : Nat} {n : RegName} (hs : size = 8 ∨ n.row.w64 = false) :
    ¬ (size = 4 ∧ n.row.w64 = true) := by
  rintro ⟨h4, hw⟩
  rcases hs with h8 | hn
  · omega
  · rw [hn] at hw; cases hw

theorem State.busRead_open {s : State} {p : Path} {n : RegName} {i j off size : Nat}
    (ha : accessAt off size = some (n, i, j, false)) (hs : size = 8 ∨ n.row.w64 = false) (hr : s.reaches p n i)
    (hm : s.mayRead p n i j = true) : s.busRead p off size = s.readWhole p n i j := by
  obtain ⟨h1, h2, h3⟩ := hr
  simp [State.busRead, ha, h1, h2, h3, hm, whole_not_half hs]

theorem State.busRead_half {s : State} {p : Path} {n : RegName} {i j off : Nat} {up : Bool}
    (ha : accessAt off 4 = some (n, i, j, up)) (hw : n.row.w64 = true) (hr : s.reaches p n i)
    (hm : s.mayRead p n i j = true) : s.busRead p off 4 = s.readHalf p n i j up := by
  obtain ⟨h1, h2, h3⟩ := hr
  simp [State.busRead, ha, h1, h2, h3, hm, hw]

theorem State.busRead_shut {s : State} {p : Path} {n : RegName} {i j off size : Nat} {up : Bool}
    (ha : accessAt off size = some (n, i, j, up)) (hr : ¬ s.reaches p n i) : s.busRead p off size = (0, s) := by
  have hc : (!s.pathExists p || !s.mayRead p n i j || !s.reach p n || !s.regOn n i) = true := by
    cases h1 : s.pathExists p with
    | false => rfl
    | true =>
      cases h2 : s.reach p n with
      | false => simp only [Bool.not_false, Bool.or_true, Bool.true_or]
      | true =>
        cases h3 : s.regOn n i with
        | false => simp only [Bool.not_false, Bool.or_true]
        | true => exact absurd ⟨h1, h2, h3⟩ hr
  simp only [State.busRead, ha, hc, if_true]

/-- What reading a register whole does: it gives the value, and an RC register takes its reset value (R8). -/
theorem State.readWhole_spec (s : State) (p : Path) (n : RegName) (i j : Nat) :
    ∃ u, s.readWhole p n i j = (s.regValue p n i j, u) ∧ u.dma = s.dma ∧ u.tiles = s.tiles ∧
      (n.row.acc ≠ .rc → u = s) ∧ (n.row.acc = .rc → n ≠ .pwrTempPeak → u = s.rput n (n.resetOf i j) i j) := by
  refine ⟨_, rfl, ?_⟩
  unfold State.rcClear
  split
  · next hrc =>
    split
    · next hpeak => exact ⟨rfl, rfl, absurd hrc, fun _ h => absurd hpeak h⟩
    · exact ⟨rfl, rfl, absurd hrc, fun _ _ => rfl⟩
  · next hrc => exact ⟨rfl, rfl, fun _ => rfl, fun h => absurd h hrc⟩

/-- The lower half read acts as a read of the whole, and latches the upper half. -/
theorem State.readHalf_lower {s u : State} {p : Path} {n : RegName} {i j v : Nat} (h : s.readWhole p n i j = (v, u)) :
    s.readHalf p n i j false =
      (v % 2 ^ 32, u.withLatch (NMap.put u.latch p.idx (n.key i j, BitVec.ofNat 32 (v / 2 ^ 32)))) := by
  simp only [State.readHalf, h, Bool.false_eq_true, if_false, State.withLatch]

/-- The upper half read gives the path's latch, and ends it. -/
theorem State.readHalf_latched {s : State} {p : Path} {n : RegName} {i j : Nat} {v : W32}
    (h : NMap.get? s.latch p.idx = some (n.key i j, v)) :
    s.readHalf p n i j true = (v.toNat, s.withLatch (NMap.del s.latch p.idx)) := by
  simp only [State.readHalf, h, if_true, State.withLatch]

theorem State.readHalf_unlatched {s : State} {p : Path} {n : RegName} {i j : Nat} (h : NMap.get? s.latch p.idx = none) :
    s.readHalf p n i j true = (s.regValue p n i j / 2 ^ 32, s) := by
  simp only [State.readHalf, h, if_true]

/-- What a command that reads by bus gives. -/
theorem read_gives {c : Instr} {s u : State} {p : Path} {off size v : Nat} {P : State → Prop}
    (e : exec c s = done s (s.readOut p off size)) (hb : s.busRead p off size = (v, u)) (hd : u.dma = s.dma)
    (ht : u.tiles = s.tiles) (h : P (u.giveVal v).settle) : Gives c s P := by
  have hu : s.readOut p off size = u.giveVal v := by simp only [State.readOut, hb, State.giveVal]
  rw [hu] at e
  exact done_gives e (congrArg Dma.chans hd) ht h

/-- A read that changes nothing but the value given. -/
theorem read_gives_only {c : Instr} {s : State} {p : Path} {off size v : Nat}
    (e : exec c s = done s (s.readOut p off size)) (hb : s.busRead p off size = (v, s)) :
    Gives c s (fun t => t.readVal = BitVec.ofNat 64 v ∧ OnlyIn [.readVal] s t) :=
  read_gives e hb rfl rfl ⟨State.settle_readVal _, (OnlyIn.giveVal s v).settled rfl⟩

/-! ### Writes (R6, R7) -/

/-- A path's copy takes an accepted value, whether or not the write is logged. -/
theorem State.writeWhole_noted {s : State} {p : Path} {n : RegName} {i j off v : Nat} (ha : n.row.acc = .rw)
    (hp : n.plain = true) (hf : n.fieldOk i (v &&& n.row.mask) = true)
    (hk : s.rwAccept p.idx n i j (v &&& n.row.mask) = true) :
    Noted (s.pput p.idx n (v &&& n.row.mask) i j) (s.writeWhole p n i j off v 0 [] []) := by
  rw [State.writeWhole_plain ha hp hf hk]
  split
  · exact .inl rfl
  · exact .inr ⟨_, rfl⟩

/-- What a command gives that writes an accepted value, having changed only the parts `ps` before it. -/
theorem accepted_gives {c : Instr} {s u : State} {p : Path} {n : RegName} {i j off v : Nat} {ps : List Area}
    (e : exec c s = done s (u.writeWhole p n i j off v 0 [] [])) (hv : v < 2 ^ 64) (ha : n.row.acc = .rw)
    (hp : n.plain = true) (hf : n.fieldOk i (v &&& n.row.mask) = true)
    (hk : u.rwAccept p.idx n i j (v &&& n.row.mask) = true) (hd : u.dma = s.dma) (ht : u.tiles = s.tiles)
    (hr : u.regs = s.regs) (ho : u.outs = s.outs) (hu : OnlyIn ps s u) :
    Gives c s (fun t => t.pget p.idx n i j = v &&& n.row.mask ∧ t.held = u.held ∧
      RegsBut [n.key (n.copy i j p.idx).1 (n.copy i j p.idx).2] s t ∧ OnlyIn (.regs :: ps) s t) := by
  have hn := State.writeWhole_noted (p := p) (off := off) ha hp hf hk
  refine hn.gives e hd ht ⟨?_, hn.settle_held, ?_, ?_⟩
  · exact (hn.pget p.idx n i j).trans (State.pget_pput_same u p.idx n i j (Nat.lt_of_le_of_lt Nat.and_le_left hv))
  · exact hn.regsBut ((RegsBut.of hr).trans (RegsBut.pput u p.idx n _ i j))
  · exact hn.settled (hu.andThen ho (OnlyIn.pput u p.idx n _ i j)) ho

/-- A refused write makes one REFUSED entry with the path's origin and the value refused. -/
theorem State.refuse_entry (s : State) (p : Path) (off v : Nat) :
    ∃ e : LogEntry, s.refuse p off v = s.logAdd e ∧ e.kind = 2 ∧ (e.origin, e.originIdx) = p.origin ∧ e.new = v := by
  unfold State.refuse
  split
  · exact ⟨_, rfl, rfl, rfl, rfl⟩
  · exact ⟨_, rfl, rfl, rfl, rfl⟩

theorem State.busWrite_unmapped {s : State} {p : Path} {off size : Nat} (hp : s.pathExists p = true)
    (ha : accessAt off size = none) (v raced : Nat) : s.busWrite p off size v raced = s.refuse p off v := by
  simp [State.busWrite, hp, ha]

/-- A write that the path may make but that the stage, the power state or the domain does not allow (R25, R510, R566). -/
theorem State.busWrite_shut {s : State} {p : Path} {n : RegName} {i j off size v : Nat} {up : Bool}
    (hp : s.pathExists p = true) (ha : accessAt off size = some (n, i, j, up)) (hm : s.mayWrite p n i j v = true)
    (hr : s.reach p n = false ∨ s.regOn n i = false) (raced : Nat) :
    s.busWrite p off size v raced = s.refuse p off v := by
  rcases hr with hr | hr <;> simp [State.busWrite, hp, ha, hm, hr]

theorem State.writeWhole_readOnly {n : RegName} (ha : n.row.acc = .ro ∨ n.row.acc = .rc) (s : State) (p : Path)
    (i j off v raced : Nat) : s.writeWhole p n i j off v raced [] [] = s.refuse p off v := by
  rcases ha with ha | ha <;> simp [State.writeWhole, ha]

theorem State.writeWhole_badField {n : RegName} {i v : Nat} (ha : n.row.acc = .rw ∨ n.row.acc = .wo)
    (hf : n.fieldOk i (v &&& n.row.mask) = false) (s : State) (p : Path) (j off raced : Nat) :
    s.writeWhole p n i j off v raced [] [] = s.refuse p off v := by
  rcases ha with ha | ha
  · simp [State.writeWhole, State.writeRw, ha, hf]
  · simp [State.writeWhole, State.writeWo, ha, hf]

theorem State.busWrite_lower {s : State} {p : Path} {n : RegName} {i j off v : Nat}
    (ha : accessAt off 4 = some (n, i, j, false)) (hw : n.row.w64 = true) (ho : s.writes p n i j v) (raced : Nat) :
    s.busWrite p off 4 v raced = s.withHeld (NMap.put s.held p.idx (n.key i j, BitVec.ofNat 32 v)) := by
  obtain ⟨⟨h1, h2, h3⟩, h4⟩ := ho
  simp [State.busWrite, State.withHeld, ha, h1, h2, h3, h4, hw]

/-- The upper half joins the lower half that the path holds. -/
theorem State.busWrite_upper {s : State} {p : Path} {n : RegName} {i j off v : Nat} {lo : W32}
    (ha : accessAt off 4 = some (n, i, j, true)) (hw : n.row.w64 = true) (ho : s.writes p n i j v)
    (hl : NMap.get? s.held p.idx = some (n.key i j, lo)) (raced : Nat) :
    s.busWrite p off 4 v raced =
      (s.withHeld (NMap.del s.held p.idx)).writeWhole p n i j off (v * 2 ^ 32 + lo.toNat) raced [] [] := by
  obtain ⟨⟨h1, h2, h3⟩, h4⟩ := ho
  simp [State.withHeld, State.busWrite, ha, h1, h2, h3, h4, hw, hl]

/-- An upper half with no lower half held is refused. -/
theorem State.busWrite_upper_alone {s : State} {p : Path} {n : RegName} {i j off v : Nat}
    (ha : accessAt off 4 = some (n, i, j, true)) (hw : n.row.w64 = true) (ho : s.writes p n i j v)
    (hl : NMap.get? s.held p.idx = none) (raced : Nat) : s.busWrite p off 4 v raced = s.refuse p off v := by
  obtain ⟨⟨h1, h2, h3⟩, h4⟩ := ho
  simp [State.busWrite, ha, h1, h2, h3, h4, hw, hl]

/-- What a command gives whose write by bus is refused. -/
theorem refused_gives {c : Instr} {s : State} {p : Path} {off size v raced : Nat}
    (e : exec c s = done s (s.busWrite p off size v raced))
    (h : s.busWrite p off size v raced = s.refuse p off v) :
    Gives c s (fun t => OnlyIn [] s t ∧
      (s.logOpen → Logged (fun e => e.kind = 2 ∧ (e.origin, e.originIdx) = p.origin ∧ e.new = v) s t)) := by
  obtain ⟨x, hx, hkind, horigin, hnew⟩ := s.refuse_entry p off v
  have hn : Noted s (s.logAdd x) := .inr ⟨x, rfl⟩
  rw [h, hx] at e
  exact hn.gives e rfl rfl
    ⟨hn.settled (OnlyIn.refl _ s) rfl, fun ho => Logged.of_logAdd ho rfl ⟨hkind, horigin, hnew⟩⟩

/-! ### Bits that a write clears (R11) -/

/-- Dropping bits is clearing them. -/
theorem dropBits_toNat (x y : W64) : dropBits x.toNat y.toNat = (x &&& ~~~y).toNat := by
  have hsum : (x &&& y) + (x &&& ~~~y) = x := by
    rw [BitVec.add_eq_or_of_and_eq_zero]
    · ext k hk; simp only [BitVec.getElem_or, BitVec.getElem_and, BitVec.getElem_not]; cases x[k] <;> cases y[k] <;> rfl
    · ext k hk; simp only [BitVec.getElem_and, BitVec.getElem_not, BitVec.getElem_zero]; cases x[k] <;> cases y[k] <;> rfl
  have hsub : x &&& ~~~y = x - (x &&& y) := by
    rw [eq_comm, BitVec.sub_eq_iff_eq_add, BitVec.add_comm, hsum]
  rw [hsub, BitVec.toNat_sub_of_le, BitVec.toNat_and, dropBits]
  rw [BitVec.le_def, BitVec.toNat_and]
  exact Nat.and_le_left

/-- Bits of `r` that are set in `x` are set in what a clear of `w`, but for `r`, leaves of it. -/
theorem cleared_keeps_set (x w r : W64) (h : r &&& ~~~x = 0) : r &&& ~~~(x &&& ~~~(w &&& ~~~r)) = 0 := by
  ext k hk
  have hbit : (r[k] && !x[k]) = false := by
    simpa using congrArg (fun y : W64 => y[k]) h
  cases hr : r[k] with
  | false => simp [hr]
  | true =>
    have hx : x[k] = true := by simpa [hr] using hbit
    simp [hr, hx]

/-- A W1C register after a write: the bits written as 1 are clear, but for those that hardware sets. -/
theorem State.writeW1c_noted (s : State) (p : Path) (n : RegName) (i j : Nat) (v raced : W64) :
    Noted (s.rput n (s.rget n i j &&& ~~~(v &&& BitVec.ofNat 64 n.row.mask &&& ~~~raced)) i j)
      (s.writeW1c p n i j v.toNat raced.toNat) := by
  have hmask : v.toNat &&& n.row.mask = (v &&& BitVec.ofNat 64 n.row.mask).toNat := by
    rw [BitVec.toNat_and, BitVec.toNat_ofNat, Nat.mod_eq_of_lt n.mask_lt]
  have hnew : dropBits (s.rnat n i j) (dropBits (v.toNat &&& n.row.mask) raced.toNat) =
      (s.rget n i j &&& ~~~(v &&& BitVec.ofNat 64 n.row.mask &&& ~~~raced)).toNat := by
    rw [hmask, dropBits_toNat, State.rnat, dropBits_toNat]
  unfold State.writeW1c State.logReg
  simp only [hnew, State.rputN, BitVec.ofNat_toNat, BitVec.setWidth_eq]
  exact .inr ⟨_, rfl⟩

end Sys2Proof.Machine
end

section
/-! SUPPORT. The statements about register accesses (R6 to R11, R16, R25), settled from what the commands come to. -/
namespace Sys2Proof.Machine

theorem exec_registerWrite (p : Path) (off size : Nat) (v raced : W64) (s : State) :
    exec (.registerWrite p off size v raced) s = done s (s.busWrite p off size v.toNat raced.toNat) := rfl

theorem exec_rcRead (p : Path) (off size : Nat) (s : State) :
    exec (.rcRead p off size) s = done s (s.readOut p off size) := rfl

theorem exec_lowerHalfRead (p : Path) (off : Nat) (s : State) :
    exec (.lowerHalfRead p off) s = done s (s.readOut p off 4) := rfl

theorem exec_upperHalfRead (p : Path) (off : Nat) (s : State) :
    exec (.upperHalfRead p off) s = done s (s.readOut p (off + 4) 4) := rfl

theorem exec_lowerHalfWrite (p : Path) (off : Nat) (v : W32) (s : State) :
    exec (.lowerHalfWrite p off v) s = done s (s.busWrite p off 4 v.toNat) := rfl

theorem exec_upperHalfWrite (p : Path) (off : Nat) (v : W32) (raced : W64) (s : State) :
    exec (.upperHalfWrite p off v raced) s = done s (s.busWrite p (off + 4) 4 v.toNat raced.toNat) := rfl

/-- Settles O9: an accepted write stores the value in the path's copy and makes at most the entry of the change. -/
theorem registerWriteStoresTheWritableBits : Obligations.RegisterWriteStoresTheWritableBits := by
  unfold Obligations.RegisterWriteStoresTheWritableBits
  intro s p n i j off size v ha hs hw hacc hplain hfield haccept
  have e : exec (.registerWrite p off size v 0) s = done s (s.writeWhole p n i j off v.toNat 0 [] []) := by
    rw [exec_registerWrite, State.busWrite_open ha hs hw]; rfl
  refine ⟨?_, fun hlog ho => ?_⟩
  · refine (accepted_gives e v.isLt hacc hplain hfield haccept rfl rfl rfl rfl (OnlyIn.refl [] s)).mono ?_
    rintro t ⟨hget, -, hregs, hframe⟩
    exact ⟨hget, hregs, hframe⟩
  · refine (State.writeWhole_noted (p := p) (off := off) hacc hplain hfield haccept).gives e rfl rfl ?_
    rw [State.writeWhole_plain hacc hplain hfield haccept, hlog, if_neg Bool.false_ne_true]
    exact Logged.of_logReg ho (State.pput_log ..) p 1 n i j _ _

/-- Settles O10: a read is the whole register's where the path reaches it, and no read where it does not. -/
theorem registerReadsGiveTheValue : Obligations.RegisterReadsGiveTheValue := by
  unfold Obligations.RegisterReadsGiveTheValue
  intro s p n i j off size ha hs
  refine ⟨fun hr hm => ?_, fun hr => read_gives_only (exec_rcRead ..) (State.busRead_shut ha hr)⟩
  obtain ⟨u, hu, hd, ht, hkeep, hclear⟩ := s.readWhole_spec p n i j
  refine read_gives (exec_rcRead ..) ((State.busRead_open ha hs hr hm).trans hu) hd ht
    ⟨State.settle_readVal _, fun hacc => ?_, fun hacc hpeak => ?_⟩
  · rw [hkeep hacc]
    exact (OnlyIn.giveVal s _).settled rfl
  · rw [hclear hacc hpeak]
    refine ⟨(State.settle_rget ..).trans (State.rget_rput_same ..), ?_, ?_⟩
    · exact (RegsBut.rput s n _ i j).trans (RegsBut.of (State.settle_regs _))
    · exact (((OnlyIn.rput s n _ i j).andThen rfl (OnlyIn.giveVal _ _)).mono (by simp)).settled rfl

/-- Settles O11: each half is read and written through the path's latch and held half. -/
theorem halvesOfASixtyFourBitRegister : Obligations.HalvesOfASixtyFourBitRegister := by
  unfold Obligations.HalvesOfASixtyFourBitRegister
  intro s p n i j off hw _ halo haup hr
  refine ⟨fun hm => ?_, fun v hm hl => ?_, fun hm hl => ?_, fun v hm => ?_, fun v lo hm hl hacc hplain hfield haccept => ?_,
    fun v hm hl => ?_⟩
  · obtain ⟨u, hu, hd, ht, hkeep, hclear⟩ := s.readWhole_spec p n i j
    refine read_gives (exec_lowerHalfRead ..) ((State.busRead_half halo hw hr hm).trans (State.readHalf_lower hu)) hd ht
      ⟨State.settle_readVal _, ?_, fun hacc => ?_, fun hacc => ?_⟩
    · rw [State.settle_latch]
      exact NMap.get?_put_same _ _ _
    · by_cases hpeak : n = .pwrTempPeak
      · exact .inr hpeak
      · rw [hclear hacc hpeak]
        exact .inl ((State.settle_rget ..).trans (State.rget_rput_same ..))
    · rw [hkeep hacc]
      exact (OnlyIn.latchGiven s _ _).settled rfl
  · have hb := (State.busRead_half haup hw hr hm).trans (State.readHalf_latched hl)
    refine read_gives (exec_upperHalfRead ..) hb rfl rfl ⟨State.settle_readVal _, ?_, ?_⟩
    · rw [State.settle_latch]
      exact NMap.get?_del_same _ _
    · exact (OnlyIn.latchGiven s _ _).settled rfl
  · exact read_gives_only (exec_upperHalfRead ..) ((State.busRead_half haup hw hr hm).trans (State.readHalf_unlatched hl))
  · have e : exec (.lowerHalfWrite p off v) s =
        done s (s.withHeld (NMap.put s.held p.idx (n.key i j, BitVec.ofNat 32 v.toNat))) := by
      rw [exec_lowerHalfWrite, State.busWrite_lower halo hw ⟨hr, hm⟩]
    refine done_gives e rfl rfl ⟨?_, (OnlyIn.withHeld s _).settled rfl⟩
    rw [State.settle_held, BitVec.ofNat_toNat, BitVec.setWidth_eq]
    exact NMap.get?_put_same _ _ _
  · have e : exec (.upperHalfWrite p off v 0) s =
        done s ((s.withHeld (NMap.del s.held p.idx)).writeWhole p n i j (off + 4)
          (v.toNat * 2 ^ 32 + lo.toNat) 0 [] []) := by
      rw [exec_upperHalfWrite, State.busWrite_upper haup hw ⟨hr, hm⟩ hl]; rfl
    refine (accepted_gives e (by omega) hacc hplain hfield ((s.withHeld_rwAccept _ ..).trans haccept) rfl rfl rfl rfl
      (OnlyIn.withHeld s _)).mono ?_
    rintro t ⟨hget, hheld, hregs, hframe⟩
    exact ⟨hget, (congrArg (NMap.get? · p.idx) hheld).trans (NMap.get?_del_same _ _), hregs, hframe⟩
  · exact (refused_gives (exec_upperHalfWrite ..) (State.busWrite_upper_alone haup hw ⟨hr, hm⟩ hl _)).mono (fun _ h => h.1)

/-- Settles O12: the bits that remain are those not written as 1 and those that hardware sets. -/
theorem writeOneToClear : Obligations.WriteOneToClear := by
  unfold Obligations.WriteOneToClear
  intro s p n i j off size v raced ha hs hw hacc
  have e : exec (.registerWrite p off size v raced) s = done s (s.writeW1c p n i j v.toNat raced.toNat) := by
    rw [exec_registerWrite, State.busWrite_open ha hs hw, State.writeWhole, hacc]
  have hn := s.writeW1c_noted p n i j v raced
  have hget := (hn.rget n i j).trans (State.rget_rput_same ..)
  refine ⟨hn.gives e rfl rfl ⟨hget, ?_, ?_⟩, fun hset => hn.gives e rfl rfl ?_⟩
  · exact hn.regsBut (RegsBut.rput s n _ i j)
  · exact hn.settled (OnlyIn.rput s n _ i j) rfl
  · rw [hget]
    exact cleared_keeps_set (s.rget n i j) (v &&& BitVec.ofNat 64 n.row.mask) raced hset

/-- Settles O13: each of these writes is refused, and a refused write is one entry of the log. -/
theorem refusedWritesChangeNothing : Obligations.RefusedWritesChangeNothing := by
  unfold Obligations.RefusedWritesChangeNothing
  intro s p off size v hp
  refine ⟨fun ha => ?_, fun n i j ha _ hm hr => ?_, fun n i j ha hs hw hacc => ?_, fun n i j ha hs hw hacc hf => ?_⟩
  · exact (refused_gives (exec_registerWrite ..) (State.busWrite_unmapped hp ha _ _)).mono (fun _ h => h.1)
  · exact refused_gives (exec_registerWrite ..) (State.busWrite_shut hp ha hm hr _)
  · exact refused_gives (exec_registerWrite ..)
      ((State.busWrite_open ha hs hw _ _ _).trans (State.writeWhole_readOnly hacc s p i j off _ _))
  · exact refused_gives (exec_registerWrite ..)
      ((State.busWrite_open ha hs hw _ _ _).trans (State.writeWhole_badField hacc hf s p j off _))

/-- READY with every domain on, and 0 listed for HIF_IDENT in the register store. -/
def identOverwritten : State :=
  { pwr := { perst := false, stage := 9, domains := 2 ^ 56 - 1 }, regs := [(RegName.hifIdent.key 0 0, 0)] }

/-- Refutes O15: the model keeps HIF_IDENT in the register store like any other register, and the statement speaks of every
state, whatever its store lists: in `identOverwritten` JTAG reads 0. -/
theorem not_identityRegisterReads : ¬ Obligations.IdentityRegisterReads := by
  unfold Obligations.IdentityRegisterReads
  intro h
  have hr : identOverwritten.reaches .jtag .hifIdent 0 := by decide
  have hzero := (registerReadsGiveTheValue identOverwritten .jtag .hifIdent 0 0 0 4 (by decide) (.inr rfl)).1 hr rfl
  obtain ⟨t, ⟨hid, -⟩, hval, -⟩ := (h identOverwritten .jtag hr rfl).both hzero
  rw [hid] at hval
  exact absurd hval (by decide)

end Sys2Proof.Machine
end

section
/-! SUPPORT. Effects by the parts and the registers they touch: `Touches` composes along the operations of a command, and
each shared operation has one lemma that says what it touches. -/
namespace Sys2Proof.Machine

/-- From `s` to `t` only the parts `ps` and the registers named in `ns` can differ, and nothing is given to the outside. -/
structure Touches (ps : List Area) (ns : List RegName) (s t : State) : Prop where
  only : OnlyIn ps s t
  outs : t.outs = s.outs
  regs : ∀ n, n ∉ ns → ∀ i j, t.rget n i j = s.rget n i j

namespace Touches

theorem refl (ps : List Area) (ns : List RegName) (s : State) : Touches ps ns s s :=
  ⟨OnlyIn.refl ps s, rfl, fun _ _ _ _ => rfl⟩

theorem mono {ps qs : List Area} {ns ms : List RegName} {s t : State} (h : Touches ps ns s t) (hp : ps ⊆ qs)
    (hn : ns ⊆ ms) : Touches qs ms s t :=
  ⟨h.only.mono (fun _ k => hp k), h.outs, fun n k => h.regs n (fun m => k (hn m))⟩

/-- One effect after another touches what either of them does. -/
theorem trans {ps qs : List Area} {ns ms : List RegName} {s t u : State} (h : Touches ps ns s t) (k : Touches qs ms t u) :
    Touches (ps ++ qs) (ns ++ ms) s u := by
  have h' := h.mono (List.subset_append_left ps qs) (List.subset_append_left ns ms)
  have k' := k.mono (List.subset_append_right ps qs) (List.subset_append_right ns ms)
  exact ⟨h'.only.trans h'.outs k'.only, k'.outs.trans h'.outs, fun n hn i j => (k'.regs n hn i j).trans (h'.regs n hn i j)⟩

/-- An effect on a part other than the register store. -/
theorem of_regs {ps : List Area} {s t : State} (h : OnlyIn ps s t) (ho : t.outs = s.outs) (hr : t.regs = s.regs) :
    Touches ps [] s t := ⟨h, ho, fun n _ => State.rget_congr hr n⟩

theorem rnat {ps : List Area} {ns : List RegName} {s t : State} (h : Touches ps ns s t) {n : RegName} (hn : n ∉ ns)
    (i j : Nat) : t.rnat n i j = s.rnat n i j := congrArg BitVec.toNat (h.regs n hn i j)

theorem area {ps : List Area} {ns : List RegName} {s t : State} (h : Touches ps ns s t) (p : Area) (hp : p ∉ ps) :
    Area.same s t p := h.only.2 p hp

end Touches

/-! ### Registers, tally and log -/

theorem State.rputN_touches (s : State) (n : RegName) (v i j : Nat) : Touches [.regs] [n] s (s.rputN n v i j) :=
  ⟨OnlyIn.rput s n _ i j, rfl, fun m hm a b => State.rget_rputN_ne s n m v i j a b (by simpa using hm)⟩

theorem State.raise_touches (s : State) (n : RegName) (b i : Nat) : Touches [.regs] [n] s (s.raise n b i) :=
  s.rputN_touches n _ i 0

theorem State.count_touches (s : State) (n : RegName) (k i j : Nat) : Touches [.regs] [n] s (s.count n k i j) :=
  s.rputN_touches n _ i j

theorem State.tally1_touches (s : State) (id k : Nat) : Touches [] [] s (s.tally1 id k) :=
  .of_regs (OnlyIn.tally1 [] s id k) rfl rfl

theorem State.observe_touches (s : State) (h b : Nat) : Touches [] [] s (s.observe h b) := s.tally1_touches _ 1

theorem State.logAdd_touches (s : State) (e : LogEntry) : Touches [] [] s (s.logAdd e) :=
  .of_regs (OnlyIn.logAdd [] s e) rfl rfl

/-- A raised event bit reads as set. -/
theorem State.rbit_raise_same (s : State) (n : RegName) {b : Nat} (hb : b < 64) : (s.raise n b).rbit n b = true := by
  have h : ((s.rnat n ||| 2 ^ b) % 2 ^ 64).testBit b = true := by
    rw [Nat.testBit_mod_two_pow, Nat.testBit_or, Nat.testBit_two_pow_self, Bool.or_true, Bool.and_true]
    exact decide_eq_true hb
  unfold State.rbit
  rw [State.raise_same]
  simpa [bit, Nat.testBit_eq_decide_div_mod_eq] using h

/-- A counter of 32 bits after one event more. -/
theorem State.rnat_count_same (s : State) {n : RegName} (hw : n.row.w64 = false) :
    (s.count n).rnat n = (s.rnat n + 1) % 2 ^ 32 := by
  simp only [State.count, hw, State.rnat_rputN_same, Bool.false_eq_true, if_false]
  omega

/-- A cadence code is recorded in CAD_LAST_ERR (Table 24.1). -/
theorem State.issue_cadence (s : State) {code : Nat} (hc : code / 256 = 0xD) (w : At) :
    s.issue code w = (s.tally1 code).rputN .cadLastErr code := by
  have h0 : code ≠ 0 := by rintro rfl; simp at hc
  simp only [State.issue, h0, if_false, State.recordClass, hc]

theorem State.issue_cadence_touches (s : State) {code : Nat} (hc : code / 256 = 0xD) (w : At) :
    Touches [.regs] [.cadLastErr] s (s.issue code w) := by
  rw [State.issue_cadence s hc]
  exact (s.tally1_touches code 1).trans (State.rputN_touches _ _ _ _ _)

theorem State.rnat_issue_cadence (s : State) {code : Nat} (hc : code / 256 = 0xD) (w : At) :
    (s.issue code w).rnat .cadLastErr = code := by
  rw [State.issue_cadence s hc, State.rnat_rputN_same]
  omega

/-- Codes of the cairns and of the fabric are recorded in CRN_LAST_ERR and NYN_LAST_ERR (Table 24.1). -/
theorem State.issue_cairn_touches (s : State) {code : Nat} (hc : code / 256 = 5 ∨ code / 256 = 6) (w : At) :
    Touches [.regs] [.crnLastErr, .nynLastErr] s (s.issue code w) := by
  have h0 : code ≠ 0 := by rintro rfl; simp at hc
  rcases hc with hc | hc <;> simp only [State.issue, h0, if_false, State.recordClass, hc]
  · exact ((s.tally1_touches code 1).trans (State.rputN_touches _ _ _ _ _)).mono (by simp) (by simp)
  · exact ((s.tally1_touches code 1).trans (State.rputN_touches _ _ _ _ _)).mono (by simp) (by simp)

/-! ### One part of the state -/

/-- A change of the cadence, the cairns, the fabric, the tiles or the update units, of those named in `ps`. -/
theorem State.withParts_touches (s : State) {ps : List Area} {c : Cad} {r : CairnUnit} {f : Fabric} {x : NMap TileSt}
    {u : Training} (hc : .cad ∉ ps → c = s.cad := by simp) (hr : .crn ∉ ps → r = s.crn := by simp)
    (hf : .fab ∉ ps → f = s.fab := by simp) (hx : .tiles ∉ ps → x = s.tiles := by simp)
    (hu : .upd ∉ ps → u = s.upd := by simp) :
    Touches ps [] s { s with cad := c, crn := r, fab := f, tiles := x, upd := u } := by
  refine .of_regs ⟨rfl, fun p hp => ?_⟩ rfl rfl
  cases p with
  | cad => exact hc hp
  | crn => exact hr hp
  | fab => exact hf hp
  | tiles => exact hx hp
  | upd => exact hu hp
  | outs => exact .inl rfl
  | _ => rfl

theorem State.withCad_touches (s : State) (c : Cad) : Touches [.cad] [] s { s with cad := c } := s.withParts_touches

theorem State.withCrn_touches (s : State) (r : CairnUnit) : Touches [.crn] [] s { s with crn := r } :=
  s.withParts_touches

theorem State.withFab_touches (s : State) (f : Fabric) : Touches [.fab] [] s { s with fab := f } := s.withParts_touches

theorem State.setTrain_touches (s : State) (p : Nat) (x : TrainPart) : Touches [.upd] [] s (s.setTrain p x) :=
  s.withParts_touches

theorem State.setCtx_touches (s : State) (x c : Nat) (k : Ctx) : Touches [.tiles] [] s (s.setCtx x c k) :=
  s.withParts_touches

theorem State.cancelWait_touches (s : State) (w : Waiter) : Touches [.crn] [] s (s.cancelWait w) := s.withCrn_touches _

theorem State.waitOf_cancelWait_same (s : State) (w : Waiter) : (s.cancelWait w).waitOf w = none := by
  simp [State.waitOf, State.cancelWait]

/-! ### HOLD_N (R66, R74) -/

theorem State.updateHold_touches (s : State) : Touches [.regs, .cad] [.cadHoldCount] s s.updateHold := by
  unfold State.updateHold
  split
  · exact (((s.withCad_touches _).trans (State.count_touches _ _ _ _ _)).trans (State.tally1_touches _ _ _)).mono
      (by simp) (by simp)
  · exact ((s.withCad_touches _).trans (State.observe_touches _ _ _)).mono (by simp) (by simp)
  · exact .refl _ _ s

theorem State.updateHold_holdItems (s : State) : s.updateHold.cad.holdItems = s.cad.holdItems := by
  unfold State.updateHold
  split <;> rfl

theorem State.holdFor_touches (s : State) (i : Item) : Touches [.regs, .cad] [.cadHoldCount] s (s.holdFor i) := by
  unfold State.holdFor
  split
  · exact .refl _ _ s
  · exact ((s.withCad_touches _).trans (State.updateHold_touches _)).mono (by simp) (by simp)

theorem State.mem_holdFor (s : State) (i : Item) : i ∈ (s.holdFor i).cad.holdItems := by
  unfold State.holdFor
  split
  · next h => exact List.contains_iff_mem.mp h
  · simp [State.updateHold_holdItems]

theorem State.holdEnd_touches (s : State) (i : Item) : Touches [.regs, .cad] [.cadHoldCount] s (s.holdEnd i) := by
  unfold State.holdEnd
  split
  · exact ((s.withCad_touches _).trans (State.updateHold_touches _)).mono (by simp) (by simp)
  · exact .refl _ _ s

theorem State.not_mem_holdEnd (s : State) (i : Item) : i ∉ (s.holdEnd i).cad.holdItems := by
  unfold State.holdEnd
  split
  · simp [State.updateHold_holdItems]
  · next h => exact fun k => h (List.contains_iff_mem.mpr k)

/-- The registers of a late item, but for CAD_LATE_COUNT (R64). -/
def lateRegs : List RegName := [.cadLastLate, .cadLastLateSrc, .cadEvent, .cadHoldCount]

/-- A late item is counted, its point and source are recorded, CAD_EVENT.LATE is raised, and then at most HOLD_N changes. -/
theorem State.late_spec (s : State) (i : Item) (stream : Nat) (part : Option Nat) (stall : Bool) (code d : Nat) :
    ∃ u, Touches [.regs] [.cadLastLate, .cadLastLateSrc] (s.count .cadLateCount) u ∧
      Touches [.regs, .cad] [.cadHoldCount] (u.raise .cadEvent 7) (s.late i stream part stall code d) := by
  unfold State.late
  extract_lets counted pointed sourced raised g
  have hsourced : Touches [.regs] [.cadLastLate, .cadLastLateSrc] (s.count .cadLateCount) sourced :=
    ((State.tally1_touches _ _ _).trans ((State.rputN_touches _ _ _ _ _).trans (State.rputN_touches _ _ _ _ _))).mono
      (by simp) (by simp)
  refine ⟨sourced, hsourced, ?_⟩
  have hg : Touches [] [] raised g := by
    unfold g
    split
    · dsimp only
      split
      · exact .refl _ _ _
      · exact State.observe_touches _ _ _
    · exact .refl _ _ _
  split
  · exact (hg.trans (State.holdFor_touches _ _)).mono (by simp) (by simp)
  · exact hg.mono (by simp) (by simp)

theorem State.late_touches (s : State) (i : Item) (stream : Nat) (part : Option Nat) (stall : Bool) (code d : Nat) :
    Touches [.regs, .cad] lateRegs (s.count .cadLateCount) (s.late i stream part stall code d) := by
  obtain ⟨u, hu, hlate⟩ := s.late_spec i stream part stall code d
  exact ((hu.trans (State.raise_touches _ _ _ _)).trans hlate).mono (by simp) (by simp [lateRegs])

theorem State.late_cadEvent (s : State) (i : Item) (stream : Nat) (part : Option Nat) (stall : Bool) (code d : Nat) :
    (s.late i stream part stall code d).rbit .cadEvent 7 = true := by
  obtain ⟨u, -, hlate⟩ := s.late_spec i stream part stall code d
  exact (congrArg (bit · 7) (hlate.rnat (by decide) 0 0)).trans (u.rbit_raise_same _ (by decide))

theorem State.late_stall_holds (s : State) (i : Item) (stream : Nat) (part : Option Nat) (code d : Nat) :
    i ∈ (s.late i stream part true code d).cad.holdItems := State.mem_holdFor _ i

/-! ### Adds by hardware (R277, R294) -/

/-- The registers of an add: those of refusals, and those of a destination without a route. -/
def addRegs : List RegName := [.crnRefused, .crnEvent, .crnLastErr, .nynLastErr, .nynEvent, .nynLastInfo]

theorem State.cairnAdd_touches (s : State) (i n : Nat) (src : AddSrc) : Touches [.crn] [] s (s.cairnAdd i n src) :=
  (s.tally1_touches _ 1).trans (State.withCrn_touches _ _)

theorem State.noRoute_touches (s : State) (dst : Nat) :
    Touches [.regs] [.crnLastErr, .nynLastErr, .nynEvent, .nynLastInfo] s (s.noRoute dst) := by
  have h := (s.raise_touches .nynEvent 3 0).trans (State.issue_cairn_touches _ (code := 0x0601) (.inr rfl) {})
  unfold State.noRoute
  dsimp only
  split
  · exact (h.trans (State.rputN_touches _ _ _ _ _)).mono (by simp) (by simp)
  · exact (h.trans (State.rputN_touches _ _ _ _ _)).mono (by simp) (by simp)

theorem State.enqueue_touches (s : State) (port : Nat) (p : Packet) : Touches [.fab] [] s (s.enqueue port p) :=
  s.withFab_touches _

/-- A request that is not sent leaves what the loss of its route does; one that is sent stands in line on a port. -/
theorem State.sendRequest_touches {s t : State} {p : Packet} {why : Purpose}
    (h : s.sendRequest p why = .ok t ∨ s.sendRequest p why = .error t) : Touches [.regs, .fab] addRegs s t := by
  unfold State.sendRequest at h
  split at h
  · rcases h with h | h <;> cases h
    exact (s.noRoute_touches _).mono (by simp) (by simp [addRegs])
  · rcases h with h | h <;> cases h
    exact ((s.withFab_touches _).trans (State.enqueue_touches _ _ _)).mono (by simp) (by simp)

/-- A failed add has a code of the cairns or of the fabric. -/
def AddRes.coded : AddRes → Prop
  | .failed c => c / 256 = 5 ∨ c / 256 = 6
  | _ => True

theorem State.remoteAdd_touches (s : State) (p e n : Nat) (src : AddSrc) :
    Touches [.regs, .fab] addRegs s (s.remoteAdd p e n src).2 ∧ (s.remoteAdd p e n src).1.coded := by
  unfold State.remoteAdd
  dsimp only
  split
  · exact ⟨.refl _ _ s, .inl rfl⟩
  split
  · exact ⟨.refl _ _ s, .inl rfl⟩
  split
  · exact ⟨.refl _ _ s, .inr rfl⟩
  split
  · next ht =>
    exact ⟨((State.sendRequest_touches (.inl ht)).trans (State.tally1_touches _ _ _)).mono (by simp) (by simp), trivial⟩
  · next ht => exact ⟨State.sendRequest_touches (.inr ht), .inr rfl⟩

theorem State.localRef_error {s : State} {p ref c : Nat} (h : s.localRef p ref = .error c) : c / 256 = 5 := by
  unfold State.localRef at h
  split at h
  · cases h; rfl
  split at h
  · cases h; rfl
  split at h
  · cases h; rfl
  · cases h

theorem State.addRef_touches (s : State) (p ref n : Nat) (src : AddSrc) :
    Touches [.regs, .crn, .fab] addRegs s (s.addRef p ref n src).2 ∧ (s.addRef p ref n src).1.coded := by
  unfold State.addRef
  split
  · split
    · exact ⟨.refl _ _ s, .inl rfl⟩
    · obtain ⟨ht, hc⟩ := s.remoteAdd_touches p (bits ref 9 0) n src
      exact ⟨ht.mono (by simp) (by simp), hc⟩
  · split
    · exact ⟨(s.cairnAdd_touches _ _ _).mono (by simp) (by simp), trivial⟩
    · next h => exact ⟨.refl _ _ s, .inl (State.localRef_error h)⟩

theorem State.hwAdd_touches (s : State) (p ref n : Nat) (src : AddSrc) :
    Touches [.regs, .crn, .fab] addRegs s (s.hwAdd p ref n src) := by
  obtain ⟨ht, hc⟩ := s.addRef_touches p ref n src
  unfold State.hwAdd
  split
  · next c t e =>
    rw [e] at ht hc
    have hr := (ht.trans (State.count_touches _ .crnRefused 1 0 0)).trans (State.raise_touches _ .crnEvent 1 0)
    split
    · exact hr.mono (by simp) (by simp [addRegs])
    · exact (hr.trans (State.issue_cairn_touches _ hc {})).mono (by simp) (by simp [addRegs])
  · next e => rw [e] at ht; exact ht

theorem State.errCairn_touches (s : State) (p : Option Nat) (v : Nat) :
    Touches [.regs, .crn, .fab] addRegs s (s.errCairn p v) := by
  unfold State.errCairn
  split
  · split
    · exact s.hwAdd_touches _ _ _ _
    · exact .refl _ _ s
  · exact .refl _ _ s

/-- The registers of a fault that reaches the training of its partition, and of the adds it makes. -/
def faultRegs : List RegName := [.updStepFault, .updEvent] ++ addRegs

theorem State.stepFault_touches (s : State) (p code : Nat) :
    Touches [.regs, .crn, .fab, .upd] faultRegs s (s.stepFault p code) := by
  unfold State.stepFault
  dsimp only
  split
  · exact .refl _ _ s
  · exact (((((s.setTrain_touches p _).trans (State.rputN_touches _ .updStepFault _ _ _)).trans
      (State.raise_touches _ .updEvent _ _)).trans (State.logAdd_touches _ _)).trans
      (State.errCairn_touches _ _ _)).mono (by simp) (by simp [faultRegs])

/-! ### A fault of a context (Table 9.6) -/

/-- The context in FAULT with a code, at the word it had reached. -/
def Ctx.faulted (x : Ctx) (code : Nat) : Ctx :=
  { x with st := .fault, err := code, errPc := x.pc, wait := .none, late := false, deadline := none, startAt := none }

theorem State.drainCtx_none {s : State} {x c : Nat} (h : (s.ctx x c).posted = []) : s.drainCtx x c = s := by
  simp [State.drainCtx, h]

/-- The context's waits and its hold have ended with it, and the fault has been counted. -/
def State.ctxStopped (s : State) (x c code : Nat) : State :=
  (((s.setCtx x c ((s.ctx x c).faulted code)).cancelWait (.tileCtx x c)).holdEnd (ctxItem x c)).count .tilFaults 1 x

theorem State.ctxStopped_touches (s : State) (x c code : Nat) :
    Touches [.regs, .cad, .crn] [.cadHoldCount, .tilFaults] (s.setCtx x c ((s.ctx x c).faulted code))
      (s.ctxStopped x c code) :=
  (((State.cancelWait_touches _ _).trans (State.holdEnd_touches _ _)).trans (State.count_touches _ _ _ _ _)).mono
    (by simp) (by simp)

/-- The stopped context's code has been issued, unless it had been before. -/
def State.ctxIssued (s : State) (x c code : Nat) (quiet : Bool) : State :=
  if quiet then s.ctxStopped x c code
  else (s.ctxStopped x c code).issue code { part := ((s.ctxStopped x c code).ownerTile x).getD 0 }

/-- What a fault then brings with it: it reaches the training of the partition, and the error cairns. -/
theorem State.ctxFault_touches {s : State} {x c : Nat} (hp : (s.ctx x c).posted = []) (code : Nat) (quiet : Bool) :
    Touches [.regs, .crn, .fab, .upd] faultRegs (s.ctxIssued x c code quiet) (s.ctxFault x c code quiet) := by
  unfold State.ctxFault
  rw [State.drainCtx_none hp]
  extract_lets _ _ _ _ issued spread
  have hspread : Touches [.regs, .crn, .fab, .upd] faultRegs issued spread := by
    clear_value issued
    unfold spread
    split
    · split
      · exact State.stepFault_touches _ _ _
      · exact .refl _ _ _
    · exact .refl _ _ _
  exact (hspread.trans (State.errCairn_touches _ _ _)).mono (by simp) (by simp [faultRegs])

end Sys2Proof.Machine
end

section
/-! SUPPORT. Scheduled items of tile contexts (R32, R61 to R72, R286): what a command gives that changes one context, and
what each of the four commands comes to for a context. -/
namespace Sys2Proof.Machine

theorem exec_phasePointReached (i : Item) (s : State) : exec (.phasePointReached i) s = done s (s.phasePoint i) := rfl

theorem exec_itemStart (i : Item) (s : State) : exec (.itemStart i) s = done s (s.itemStart i) := rfl

theorem exec_deadlineReached (i : Item) (units : Nat) (ext : Ext) (s : State) :
    exec (.deadlineReached i units ext) s = done s (s.deadline i units ext) := rfl

theorem exec_holdTimeout (i : Item) (s : State) : exec (.holdTimeout i) s = done s (s.holdTimeout i) := rfl

theorem ctxItem_fin (x : Fin 24) (c : Fin 4) : ctxItem x c = .tileCtx x c := by
  simp [ctxItem]

/-! ### Commands that change one context -/

theorem State.ctx_congr {s t : State} (h : t.tiles = s.tiles) (y e : Nat) : t.ctx y e = s.ctx y e := by
  simp [State.ctx, State.tile, h]

theorem State.ownerTile_congr {s t : State} (h : t.img = s.img) (y : Nat) : t.ownerTile y = s.ownerTile y := by
  simp [State.ownerTile, State.parts, h]

theorem State.notServing_congr {s t : State} (h : t.img = s.img) {p : Nat} (hn : s.notServing p) : t.notServing p := by
  simpa [State.notServing, State.part?, State.parts, h] using hn

theorem State.noLeftFailures_congr {s t : State} (h : t.dma = s.dma) (hn : s.noLeftFailures) : t.noLeftFailures := by
  simpa [State.noLeftFailures, State.chan, h] using hn

theorem CtxsBut.setCtx {s t : State} {x c : Nat} {k : Ctx} (h : t.tiles = (s.setCtx x c k).tiles) : CtxsBut x c s t := by
  intro y e hne
  rw [State.ctx_congr h, State.ctx_setCtx, if_neg (by omega)]

theorem ArraysSame.setCtx {s t : State} {x c : Nat} {k : Ctx} (h : t.tiles = (s.setCtx x c k).tiles) :
    ArraysSame s t := by
  intro y
  unfold State.tile
  rw [h]
  by_cases hy : y = x
  · subst hy
    simp [State.setCtx, State.setTile, State.tile]
  · simp [State.setCtx, State.setTile, NMap.getD_put_ne _ _ _ _ _ hy]

/-- Where one context has changed, a new failure can only be its own, and concerns its tile's partition. -/
theorem State.newErrors_setCtx {s u : State} {x c part : Nat} {k : Ctx} (ho : s.ownerTile x = some part)
    (ht : u.tiles = (s.setCtx x c k).tiles) (hd : u.dma = s.dma) (hi : u.img = s.img) :
    ∀ e ∈ u.newErrors s, e.1 = part := by
  intro e he
  simp only [State.newErrors, List.mem_append, List.mem_filterMap, List.mem_flatMap] at he
  rcases he with ⟨a, -, ha⟩ | ⟨a, -, f, -, hf⟩
  · have hsame (d n : Nat) : u.chan d n = s.chan d n := by simp [State.chan, hd]
    simp [hsame] at ha
  · by_cases hx : a.1 = x
    · rw [hx, State.ownerTile_congr hi, ho] at hf
      simp only [Option.map_some, Option.ite_none_right_eq_some, Option.some.injEq] at hf
      rw [← hf.2]
    · simp [CtxsBut.setCtx ht a.1 f.1 (.inl hx)] at hf

/-- What a command gives that changes one context, of a partition without a serving engine, and other parts than the
channels and the image. -/
theorem ctx_gives {i : Instr} {s u : State} {x c part : Nat} {k : Ctx} {ps : List Area} {P : State → Prop}
    (e : exec i s = done s u) (hq : s.noLeftFailures) (ho : s.ownerTile x = some part) (hn : s.notServing part)
    (ht : u.tiles = (s.setCtx x c k).tiles) (hu : OnlyIn ps s u) (hout : u.outs = s.outs) (hd : .dma ∉ ps)
    (hi : .img ∉ ps)
    (hp : ∀ t, t.ctx x c = k → CtxsBut x c s t ∧ ArraysSame s t ∧ OnlyIn ps s t → t.regs = u.regs → t.cad = u.cad →
      t.crn = u.crn → P t) : Gives i s P := by
  have hdma : u.dma = s.dma := hu.2 .dma hd
  have himg : u.img = s.img := hu.2 .img hi
  have htiles : u.settle.tiles = (s.setCtx x c k).tiles := u.settle_tiles.trans ht
  refine done_quiet e ?_ (State.noLeftFailures_congr hdma hq) (hp _ ?_ ⟨.setCtx htiles, .setCtx htiles, hu.settled hout⟩
    u.settle_regs u.settle_cad u.settle_crn)
  · intro y hy
    rw [State.newErrors_setCtx ho ht hdma himg y hy]
    exact State.notServing_congr himg hn
  · rw [State.ctx_congr htiles, State.ctx_setCtx, if_pos ⟨rfl, rfl⟩]

/-! ### Start points and waits (R32, R61, R286) -/

/-- The context goes on at the next word. -/
def Ctx.resumed (x : Ctx) : Ctx := { x with st := .run, wait := .none, pc := x.pc + 16 }

theorem State.phasePoint_ctx {s : State} {x : Fin 24} {c : Fin 4} (hst : (s.ctx x c).st = .wait)
    (hw : (s.ctx x c).wait = .phase) (hr : s.reached (s.ctx x c).startAt = true) (hdue : s.img.due = false) :
    s.phasePoint (.tileCtx x c) = s.setCtx x c (s.ctx x c).resumed := by
  simp [State.phasePoint, State.heldByCommit, State.ctxResume, Ctx.resumed, hst, hw, hr, hdue]

theorem State.itemStart_ctx {s : State} {x : Fin 24} {c : Fin 4} (hst : (s.ctx x c).st = .wait)
    (hw : (s.ctx x c).wait = .cairn) (hf : s.waitFired (.tileCtx x c) = true) :
    s.itemStart (.tileCtx x c) = (s.cancelWait (.tileCtx x c)).setCtx x c (s.ctx x c).resumed := by
  have hsame : (s.cancelWait (.tileCtx x c)).ctx x c = s.ctx x c := State.ctx_congr rfl x c
  simp [State.itemStart, State.ctxResume, Ctx.resumed, hst, hw, hf, hsame]

/-! ### Lateness and the limit of a hold (R62 to R66, R71, R72) -/

/-- The context's operator is late. -/
def Ctx.markedLate (x : Ctx) : Ctx := { x with late := true }

/-- The state in which the item of context `c` of tile `x` is late. -/
def State.ctxLate (s : State) (x : Fin 24) (c : Fin 4) (stall : Bool) : State :=
  s.late (.tileCtx x c) 0 (s.ownerTile x) stall 0x0D01 s.phaseInt

theorem State.ctxLate_touches (s : State) (x : Fin 24) (c : Fin 4) (stall : Bool) :
    Touches [.regs, .cad] lateRegs (s.count .cadLateCount) (s.ctxLate x c stall) := State.late_touches ..

theorem State.ctxLate_tiles (s : State) (x : Fin 24) (c : Fin 4) (stall : Bool) : (s.ctxLate x c stall).tiles = s.tiles :=
  (s.ctxLate_touches x c stall).area .tiles (by decide)

theorem State.deadline_ctx {s : State} {x : Fin 24} {c : Fin 4} {d : Nat} (hb : (s.ctx x c).busy = true)
    (hl : (s.ctx x c).late = false) (hd : (s.ctx x c).deadline = some d) (hr : d ≤ s.stepPhase) (units : Nat) (ext : Ext) :
    s.deadline (.tileCtx x c) units ext =
      if s.ctxStall x c then (s.ctxLate x c true).setCtx x c (s.ctx x c).markedLate
      else (s.ctxLate x c false).ctxFault x c 0x0D01 := by
  have hsame := State.ctx_congr (s.ctxLate_tiles x c true) x c
  have hnot : ¬ s.stepPhase < d := by omega
  simp only [State.deadline, State.ctxDeadline, hd, hb, hl, hnot, ctxItem_fin, Bool.not_true, Bool.false_or,
    decide_false, Bool.false_eq_true, if_false]
  cases hs : s.ctxStall x c with
  | true => exact congrArg (fun y => (s.ctxLate x c true).setCtx x c y.markedLate) hsame
  | false => rfl

theorem State.holdTimeout_ctx {s : State} {x : Fin 24} {c : Fin 4} (hb : (s.ctx x c).busy = true)
    (hh : .tileCtx x c ∈ s.cad.holdItems) :
    s.holdTimeout (.tileCtx x c) =
      (((s.holdEnd (.tileCtx x c)).issue 0x0D04).ctxFault x c 0x0D04 true).raise .cadEvent 4 := by
  have hsame : ((s.holdEnd (.tileCtx x c)).issue 0x0D04).ctx x c = s.ctx x c :=
    State.ctx_congr (((s.holdEnd_touches _).trans (State.issue_cadence_touches _ rfl {})).area .tiles (by simp)) x c
  simp [State.holdTimeout, State.endItem, hh, hb, hsame]

theorem State.ctxIssued_touches (s : State) (x c : Nat) {code : Nat} (hc : code / 256 = 0xD) (quiet : Bool) :
    Touches [.regs, .cad, .crn] ([.cadHoldCount, .tilFaults] ++ if quiet then [] else [.cadLastErr])
      (s.setCtx x c ((s.ctx x c).faulted code)) (s.ctxIssued x c code quiet) := by
  cases quiet with
  | true => exact s.ctxStopped_touches x c code
  | false =>
    exact ((s.ctxStopped_touches x c code).trans (State.issue_cadence_touches _ hc _)).mono (by simp) (by simp)

/-- From the context in FAULT on, a fault with a cadence code touches no other context. -/
theorem State.ctxFault_cadence_touches {s : State} {x c : Nat} (hp : (s.ctx x c).posted = []) {code : Nat}
    (hc : code / 256 = 0xD) (quiet : Bool) :
    Touches [.regs, .cad, .crn, .fab, .upd]
      (([.cadHoldCount, .tilFaults] ++ if quiet then [] else [.cadLastErr]) ++ faultRegs)
      (s.setCtx x c ((s.ctx x c).faulted code)) (s.ctxFault x c code quiet) :=
  ((s.ctxIssued_touches x c hc quiet).trans (State.ctxFault_touches hp code quiet)).mono (by simp) (by simp)

theorem State.ctxFault_cadLastErr {s : State} {x c : Nat} (hp : (s.ctx x c).posted = []) {code : Nat}
    (hc : code / 256 = 0xD) : (s.ctxFault x c code).rnat .cadLastErr = code :=
  ((State.ctxFault_touches hp code false).rnat (by decide) 0 0).trans (State.rnat_issue_cadence _ hc _)

/-- A context in FAULT holds the line no longer (R66). -/
theorem State.ctxFault_not_holding {s : State} {x c : Nat} (hp : (s.ctx x c).posted = []) (code : Nat) :
    ctxItem x c ∉ (s.ctxFault x c code true).cad.holdItems := by
  have hcad : (s.ctxFault x c code true).cad = (s.ctxStopped x c code).cad :=
    (State.ctxFault_touches hp code true).area .cad (by decide)
  rw [hcad]
  exact State.not_mem_holdEnd _ _

theorem State.setCtx_tiles_congr {s v : State} (h : v.tiles = s.tiles) (x c : Nat) (k : Ctx) :
    (v.setCtx x c k).tiles = (s.setCtx x c k).tiles := by
  simp [State.setCtx, State.setTile, State.tile, h]

/-- What a command gives by which a context faults with a cadence code: `v` is the state in which it faults, and after the
fault the command only writes registers. -/
theorem ctxFault_gives {i : Instr} {s v u : State} {x c part code : Nat} {quiet : Bool} {ns ms : List RegName}
    {P : State → Prop} (e : exec i s = done s u) (hq : s.noLeftFailures) (ho : s.ownerTile x = some part)
    (hn : s.notServing part) (hp : (s.ctx x c).posted = []) (hc : code / 256 = 0xD) (hv : Touches [.regs, .cad] ns s v)
    (hu : Touches [.regs] ms (v.ctxFault x c code quiet) u)
    (hP : ∀ t, t.ctx x c = (s.ctx x c).faulted code →
      CtxsBut x c s t ∧ ArraysSame s t ∧ OnlyIn [.regs, .cad, .crn, .fab, .tiles, .upd] s t →
      t.regs = u.regs → t.cad = u.cad → P t) : Gives i s P := by
  have hvt : v.tiles = s.tiles := hv.area .tiles (by decide)
  have hsame : v.ctx x c = s.ctx x c := State.ctx_congr hvt x c
  have hfault := (State.ctxFault_cadence_touches (hsame ▸ hp) hc quiet).trans hu
  have htiles : u.tiles = (s.setCtx x c ((s.ctx x c).faulted code)).tiles := by
    rw [← hsame, ← State.setCtx_tiles_congr hvt]
    exact hfault.area .tiles (by decide)
  have hall := ((hv.trans (v.setCtx_touches x c _)).trans hfault).mono
    (qs := [.regs, .cad, .crn, .fab, .tiles, .upd]) (by simp) (List.Subset.refl _)
  exact ctx_gives e hq ho hn htiles hall.only hall.outs (by decide) (by decide)
    (fun t hctx hframe hregs hcad _ => hP t hctx hframe hregs hcad)

end Sys2Proof.Machine
end

section
/-! SUPPORT. The statement about scheduled items of tile contexts, settled from what the commands come to. -/
namespace Sys2Proof.Machine

theorem phasePointReached_ctx_gives {s : State} {x : Fin 24} {c : Fin 4} {part : Nat} (hq : s.noLeftFailures)
    (ho : s.ownerTile x = some part) (hn : s.notServing part) (hst : (s.ctx x c).st = .wait)
    (hw : (s.ctx x c).wait = .phase) (hr : s.reached (s.ctx x c).startAt = true) (hdue : s.img.due = false) :
    Gives (.phasePointReached (.tileCtx x c)) s (fun t =>
      t.ctx x c = (s.ctx x c).resumed ∧ CtxsBut x c s t ∧ ArraysSame s t ∧ OnlyIn [.tiles] s t) := by
  have e : exec (.phasePointReached (.tileCtx x c)) s = done s (s.setCtx x c (s.ctx x c).resumed) := by
    rw [exec_phasePointReached, State.phasePoint_ctx hst hw hr hdue]
  exact ctx_gives e hq ho hn rfl (s.setCtx_touches _ _ _).only rfl (by decide) (by decide)
    (fun _ hctx hframe _ _ _ => ⟨hctx, hframe⟩)

theorem itemStart_ctx_gives {s : State} {x : Fin 24} {c : Fin 4} {part : Nat} (hq : s.noLeftFailures)
    (ho : s.ownerTile x = some part) (hn : s.notServing part) (hst : (s.ctx x c).st = .wait)
    (hw : (s.ctx x c).wait = .cairn) (hf : s.waitFired (.tileCtx x c) = true) :
    Gives (.itemStart (.tileCtx x c)) s (fun t =>
      t.ctx x c = (s.ctx x c).resumed ∧ t.waitOf (.tileCtx x c) = none ∧ CtxsBut x c s t ∧ ArraysSame s t ∧
      OnlyIn [.crn, .tiles] s t) := by
  have e : exec (.itemStart (.tileCtx x c)) s =
      done s ((s.cancelWait (.tileCtx x c)).setCtx x c (s.ctx x c).resumed) := by
    rw [exec_itemStart, State.itemStart_ctx hst hw hf]
  have hu := (s.cancelWait_touches (.tileCtx x c)).trans (State.setCtx_touches _ x c (s.ctx x c).resumed)
  refine ctx_gives e hq ho hn (State.setCtx_tiles_congr rfl ..) hu.only hu.outs (by decide) (by decide)
    (fun t hctx hframe _ _ hcrn => ⟨hctx, ?_, hframe⟩)
  have hwait : t.waitOf (.tileCtx x c) = (s.cancelWait (.tileCtx x c)).waitOf (.tileCtx x c) := by
    simp only [State.waitOf, hcrn]; rfl
  exact hwait.trans (s.waitOf_cancelWait_same _)

/-- The count of a late item, wherever the rest of the command leaves it. -/
theorem ctxLate_counted {s u t : State} {x : Fin 24} {c : Fin 4} {stall : Bool} {ps : List Area} {ns : List RegName}
    (h : Touches ps ns (s.ctxLate x c stall) u) (hn : .cadLateCount ∉ ns) (hr : t.regs = u.regs) :
    t.rnat .cadLateCount = (s.rnat .cadLateCount + 1) % 2 ^ 32 := by
  have hlate : (s.ctxLate x c stall).rnat .cadLateCount = (s.count .cadLateCount).rnat .cadLateCount :=
    (s.ctxLate_touches x c stall).rnat (by decide) 0 0
  rw [State.rnat_congr hr, h.rnat hn, hlate, s.rnat_count_same (by decide)]

theorem ctxLate_from_touches (s : State) (x : Fin 24) (c : Fin 4) (stall : Bool) :
    Touches [.regs, .cad] (.cadLateCount :: lateRegs) s (s.ctxLate x c stall) :=
  ((s.count_touches .cadLateCount 1 0 0).trans (s.ctxLate_touches x c stall)).mono (by simp) (by simp)

/-- STALL mode: the item is late and holds HOLD_N (R64, R66). -/
theorem deadlineReached_stall_gives {s : State} {x : Fin 24} {c : Fin 4} {part d : Nat} (hq : s.noLeftFailures)
    (ho : s.ownerTile x = some part) (hn : s.notServing part) (hb : (s.ctx x c).busy = true)
    (hl : (s.ctx x c).late = false) (hd : (s.ctx x c).deadline = some d) (hr : d ≤ s.stepPhase)
    (hs : s.ctxStall x c = true) :
    Gives (.deadlineReached (.tileCtx x c) 0 {}) s (fun t =>
      t.ctx x c = (s.ctx x c).markedLate ∧ .tileCtx x c ∈ t.cad.holdItems ∧
      t.rnat .cadLateCount = (s.rnat .cadLateCount + 1) % 2 ^ 32 ∧ t.rbit .cadEvent 7 = true ∧ CtxsBut x c s t ∧
      ArraysSame s t ∧ OnlyIn [.regs, .cad, .tiles] s t) := by
  have e : exec (.deadlineReached (.tileCtx x c) 0 {}) s =
      done s ((s.ctxLate x c true).setCtx x c (s.ctx x c).markedLate) := by
    rw [exec_deadlineReached, State.deadline_ctx hb hl hd hr, if_pos hs]
  have hset := (s.ctxLate x c true).setCtx_touches x c (s.ctx x c).markedLate
  have hu := (ctxLate_from_touches s x c true).trans hset
  refine ctx_gives e hq ho hn (State.setCtx_tiles_congr (s.ctxLate_tiles x c true) ..) hu.only hu.outs (by decide)
    (by decide) (fun t hctx hframe hregs hcad _ => ⟨hctx, ?_, ctxLate_counted hset (by simp) hregs, ?_, hframe⟩)
  · rw [hcad]
    exact s.late_stall_holds ..
  · exact (congrArg (bit · 7) (State.rnat_congr hregs ..)).trans (s.late_cadEvent ..)

/-- ERROR mode: the late item ends in FAULT (R65). -/
theorem deadlineReached_error_gives {s : State} {x : Fin 24} {c : Fin 4} {part d : Nat} (hq : s.noLeftFailures)
    (ho : s.ownerTile x = some part) (hn : s.notServing part) (hb : (s.ctx x c).busy = true)
    (hl : (s.ctx x c).late = false) (hd : (s.ctx x c).deadline = some d) (hr : d ≤ s.stepPhase)
    (hs : s.ctxStall x c = false) (hp : (s.ctx x c).posted = []) :
    Gives (.deadlineReached (.tileCtx x c) 0 {}) s (fun t =>
      t.ctx x c = (s.ctx x c).faulted 0x0D01 ∧ t.rnat .cadLateCount = (s.rnat .cadLateCount + 1) % 2 ^ 32 ∧
      t.rnat .cadLastErr = 0x0D01 ∧ CtxsBut x c s t ∧ ArraysSame s t ∧
      OnlyIn [.regs, .cad, .crn, .fab, .tiles, .upd] s t) := by
  have e : exec (.deadlineReached (.tileCtx x c) 0 {}) s = done s ((s.ctxLate x c false).ctxFault x c 0x0D01) := by
    rw [exec_deadlineReached, State.deadline_ctx hb hl hd hr, if_neg (by simp [hs])]
  have hpost : ((s.ctxLate x c false).ctx x c).posted = [] :=
    (congrArg Ctx.posted (State.ctx_congr (s.ctxLate_tiles x c false) x c)).trans hp
  have hfault := (State.setCtx_touches _ x c _).trans
    (State.ctxFault_cadence_touches hpost (code := 0x0D01) (by decide) false)
  exact ctxFault_gives e hq ho hn hp (by decide) (ctxLate_from_touches s x c false) (.refl [.regs] [] _)
    (fun t hctx hframe hregs _ => ⟨hctx, ctxLate_counted hfault (by decide) hregs,
      (State.rnat_congr hregs ..).trans (State.ctxFault_cadLastErr hpost (by decide)), hframe⟩)

/-- The hold has lasted CAD_HOLD_MAX: the line is released and the item ends in FAULT (R72). -/
theorem holdTimeout_ctx_gives {s : State} {x : Fin 24} {c : Fin 4} {part : Nat} (hq : s.noLeftFailures)
    (ho : s.ownerTile x = some part) (hn : s.notServing part) (hb : (s.ctx x c).busy = true)
    (hp : (s.ctx x c).posted = []) (hh : .tileCtx x c ∈ s.cad.holdItems) :
    Gives (.holdTimeout (.tileCtx x c)) s (fun t =>
      t.ctx x c = (s.ctx x c).faulted 0x0D04 ∧ .tileCtx x c ∉ t.cad.holdItems ∧ t.rnat .cadLastErr = 0x0D04 ∧
      t.rbit .cadEvent 4 = true ∧ CtxsBut x c s t ∧ ArraysSame s t ∧
      OnlyIn [.regs, .cad, .crn, .fab, .tiles, .upd] s t) := by
  have e := (exec_holdTimeout (.tileCtx x c) s).trans (congrArg (done s) (State.holdTimeout_ctx hb hh))
  have hv : Touches [.regs, .cad] [.cadHoldCount, .cadLastErr] s ((s.holdEnd (.tileCtx x c)).issue 0x0D04) :=
    ((s.holdEnd_touches _).trans (State.issue_cadence_touches _ (by decide) {})).mono (by simp) (by simp)
  have hcode := State.rnat_issue_cadence (s.holdEnd (.tileCtx x c)) (code := 0x0D04) (by decide) {}
  generalize (s.holdEnd (.tileCtx x c)).issue 0x0D04 = v at e hv hcode
  have hpost : (v.ctx x c).posted = [] :=
    (congrArg Ctx.posted (State.ctx_congr (hv.area .tiles (by decide)) x c)).trans hp
  have hraise := (v.ctxFault x c 0x0D04 true).raise_touches .cadEvent 4 0
  have hfault := ((v.setCtx_touches x c _).trans
    (State.ctxFault_cadence_touches hpost (code := 0x0D04) (by decide) true)).trans hraise
  refine ctxFault_gives e hq ho hn hp (by decide) hv hraise
    (fun t hctx hframe hregs hcad => ⟨hctx, ?_, ?_, ?_, hframe⟩)
  · rw [hcad, ← ctxItem_fin]
    exact State.ctxFault_not_holding hpost _
  · exact (State.rnat_congr hregs ..).trans ((hfault.rnat (by decide) 0 0).trans hcode)
  · exact (congrArg (bit · 4) (State.rnat_congr hregs ..)).trans (State.rbit_raise_same _ _ (by decide))

/-- Settles O19: each command changes the one context, and what it brings with it touches no other. -/
theorem scheduledItems : Obligations.ScheduledItems := by
  unfold Obligations.ScheduledItems
  intro s x c part hq ho hn
  refine ⟨phasePointReached_ctx_gives hq ho hn, itemStart_ctx_gives hq ho hn,
    fun _ hb hl hd hr hs => deadlineReached_stall_gives hq ho hn hb hl hd hr hs, fun _ hb hl hd hr hs hp => ?_,
    fun hb hp hh => ?_⟩
  · refine (deadlineReached_error_gives hq ho hn hb hl hd hr hs hp).mono ?_
    rintro t ⟨hctx, hrest⟩
    exact hctx ▸ ⟨rfl, rfl, rfl, hrest⟩
  · refine (holdTimeout_ctx_gives hq ho hn hb hp hh).mono ?_
    rintro t ⟨hctx, hrest⟩
    exact hctx ▸ ⟨rfl, rfl, hrest⟩

end Sys2Proof.Machine
end

section
/-! SUPPORT. The phase timebase (R41): what time passing comes to where nothing is due at the next clk, and the statement
about it. -/
namespace Sys2Proof.Machine

theorem exec_phaseAdvance (n : Nat) (s : State) : exec (.phaseAdvance n) s = done s (s.phaseAdvance n) := rfl

theorem exec_stepWrap (s : State) : exec .stepWrap s = done s s.stepWrap := rfl

/-- The end of a command leaves the clock as the command's effect left it. -/
theorem clock_gives {c : Instr} {s u : State} {P : State → Prop} (e : exec c s = done s u)
    (h : ∀ t : State, t.clock = u.clock → P t) : Gives c s P :=
  ⟨u.finish s, e, h _ State.finish_keeps.clock⟩

/-! ### Rounded-up division -/

theorem ceilDiv_le_iff {a b c : Nat} (hb : b ≠ 0) : ceilDiv a b ≤ c ↔ a ≤ c * b := by
  have hpos : 0 < b := Nat.pos_of_ne_zero hb
  rw [ceilDiv, if_neg hb, ← Nat.lt_succ_iff, Nat.div_lt_iff_lt_mul hpos, Nat.succ_mul]
  omega

theorem lt_ceilDiv_iff {a b c : Nat} (hb : b ≠ 0) : c < ceilDiv a b ↔ c * b < a := by
  rw [← Nat.not_le, ceilDiv_le_iff hb, Nat.not_le]

theorem ceilDiv_zero_left (b : Nat) : ceilDiv 0 b = 0 := by
  by_cases hb : b = 0
  · exact if_pos hb
  · exact Nat.le_zero.mp ((ceilDiv_le_iff hb).mpr (by omega))

/-! ### Posted writes and the next clk -/

theorem Touches.foldl {α : Type} {ps : List Area} {ns : List RegName} {f : State → α → State}
    (hf : ∀ u a, Touches ps ns u (f u a)) (l : List α) (s : State) : Touches ps ns s (l.foldl f s) := by
  induction l generalizing s with
  | nil => exact .refl ps ns s
  | cons a l ih => exact ((hf s a).trans (ih (f s a))).mono (by simp) (by simp)

/-- A change of the memory, the log, the power unit, the tiers or the tiles, of those named in `ps`. -/
theorem State.withStores_touches (s : State) {ps : List Area} {m : List Host.Cell} {l : LogUnit} {w : Pwr} {r : Tier}
    {x : NMap TileSt} (hm : .mem ∉ ps → m = s.mem := by simp) (hw : .pwr ∉ ps → w = s.pwr := by simp)
    (hr : .tier ∉ ps → r = s.tier := by simp) (hx : .tiles ∉ ps → x = s.tiles := by simp) :
    Touches ps [] s { s with mem := m, log := l, pwr := w, tier := r, tiles := x } := by
  refine .of_regs ⟨rfl, fun p hp => ?_⟩ rfl rfl
  cases p with
  | mem => exact hm hp
  | pwr => exact hw hp
  | tier => exact hr hp
  | tiles => exact hx hp
  | outs => exact .inl rfl
  | _ => rfl

theorem State.drainCtx_touches (s : State) (x c : Nat) : Touches [.mem, .tiles] [] s (s.drainCtx x c) := by
  unfold State.drainCtx
  dsimp only
  split
  · exact .refl _ _ s
  · exact s.withStores_touches

theorem State.drainAll_touches (s : State) : Touches [.mem, .tiles] [] s s.drainAll :=
  Touches.foldl (f := fun u e => e.2.ctxs.foldl (fun v f => v.drainCtx e.1 f.1) u)
    (fun u e => Touches.foldl (fun v f => v.drainCtx_touches e.1 f.1) e.2.ctxs u) s.tiles s

theorem State.nothingDue_congr {s u : State} (ht : u.tier = s.tier) (hu : u.upd = s.upd) (h : s.nothingDue) :
    u.nothingDue := by
  simpa [State.nothingDue, State.train, ht, hu] using h

/-- With nothing due, the next clk brings nothing. -/
theorem State.nextClk_of_nothingDue {s : State} (h : s.nothingDue) : s.nextClk = s := by
  obtain ⟨hevict, hqueue, hmirror⟩ := h
  have hscale : (List.range 8).foldl (fun u p => u.mirrorScale p) s = s := by
    refine List.foldlRecOn (motive := (· = s)) _ _ rfl ?_
    rintro u rfl p hp
    simp [State.mirrorScale, hmirror p (List.mem_range.mp hp)]
  simp [State.nextClk, hscale, State.evictPending, State.runVictims, State.startVictims, hevict, hqueue]

/-! ### Real time -/

theorem State.sscAdvance_touches (s : State) (later : Nat) : Touches [.pwr] [] s (s.sscAdvance later) := by
  refine Touches.foldl (fun u g => ?_) _ s
  dsimp only
  split
  · exact .refl _ _ u
  · exact u.withStores_touches

/-- The state `n` periods of 0.625 ns later, before its local phase has moved. -/
def State.later (s : State) (n : Nat) : State :=
  { s.sscAdvance (s.now + n) with now := s.now + n, cad := { s.cad with shadow := s.cad.shadow.map (shadowAdvance n) } }

theorem State.elapse_eq (s : State) (n : Nat) :
    s.elapse n = if s.cad.phaseValid && !s.cad.frozen then State.runPeriods (n + 1) n (s.later n) else s.later n := by
  have hnow : (s.sscAdvance (s.now + n)).now = s.now := (s.sscAdvance_touches _).area .now (by decide)
  have hcad : (s.sscAdvance (s.now + n)).cad = s.cad := (s.sscAdvance_touches _).area .cad (by decide)
  simp only [State.elapse, State.later, hnow, hcad]
  rfl

/-- Where nothing is due, an advance of the timebase is time passing, from a state with the same cadence. -/
theorem State.phaseAdvance_clock {s : State} {n : Nat} (h : s.nothingDue) (hn : n ≠ 0) :
    ∃ u : State, u.now = s.now ∧ u.cad = s.cad ∧ (s.phaseAdvance n).clock = (u.elapse n).clock := by
  have hd := s.drainAll_touches
  have hq : s.drainAll.nextClk = s.drainAll :=
    State.nextClk_of_nothingDue (State.nothingDue_congr (hd.area .tier (by decide)) (hd.area .upd (by decide)) h)
  refine ⟨s.drainAll, hd.area .now (by decide), hd.area .cad (by decide), ?_⟩
  rw [State.phaseAdvance, if_neg hn, hq]
  exact State.nextClk_keeps.clock

/-! ### The local phase -/

/-- Short of the wrap, each period adds the increment. -/
theorem State.runPeriods_short {u : State} {n fuel : Nat} (hn : n ≠ 0) (hb : u.cad.holdBack = 0)
    (hi : phaseIncr u.cad.period ≠ 0) (hlt : u.cad.phase + n * phaseIncr u.cad.period < fullStep) :
    (State.runPeriods (fuel + 1) n u).clock =
      (u.now, u.cad.step, u.cad.phase + n * phaseIncr u.cad.period, u.cad.period) := by
  have hk : n < ceilDiv (fullStep - u.cad.phase) (phaseIncr u.cad.period) := (lt_ceilDiv_iff hi).mpr (by omega)
  simp [State.runPeriods, hn, hb, hi, ceilDiv_zero_left, hk]

/-- A wrap counts the step and leaves the phase beyond it (R41); its actions leave the clock alone. -/
theorem State.wrapAt_clock (s : State) (phase : Nat) :
    (s.wrapAt phase).now = s.now ∧ (s.wrapAt phase).cad.step = (s.cad.step + 1) % 2 ^ 48 ∧
      (s.wrapAt phase).cad.phase = phase := by
  unfold State.wrapAt
  extract_lets c k stepped announced adopted counted logged
  have hannounced : announced.step = stepped.step ∧ announced.phase = stepped.phase := by
    unfold announced
    split
    · split <;> exact ⟨rfl, rfl⟩
    · exact ⟨rfl, rfl⟩
  have hadopted : adopted.step = announced.step ∧ adopted.phase = announced.phase := by
    unfold adopted
    split
    · split <;> exact ⟨rfl, rfl⟩
    · exact ⟨rfl, rfl⟩
  have hlogged : logged.now = s.now ∧ logged.cad = adopted := by
    unfold logged
    split <;> exact ⟨rfl, rfl⟩
  have hclock : logged.wrapActions.clock = logged.clock := State.wrapActions_keeps.clock
  simp only [State.clock, Prod.mk.injEq] at hclock
  obtain ⟨hnow, hstep, hphase, -⟩ := hclock
  refine ⟨hnow.trans hlogged.1, hstep.trans ?_, hphase.trans ?_⟩
  · rw [hlogged.2, hadopted.1, hannounced.1]
  · rw [hlogged.2, hadopted.2, hannounced.2]

/-- The periods left to the wrap end in it. -/
theorem State.runPeriods_wrap {u : State} {n fuel : Nat} (hb : u.cad.holdBack = 0) (hi : phaseIncr u.cad.period ≠ 0)
    (hp : u.cad.phase < fullStep) (hn : n = ceilDiv (fullStep - u.cad.phase) (phaseIncr u.cad.period)) :
    State.runPeriods (fuel + 2) n u = u.wrapAt (u.cad.phase + n * phaseIncr u.cad.period - fullStep) := by
  have hn0 : n ≠ 0 := by
    have := (lt_ceilDiv_iff (a := fullStep - u.cad.phase) (c := 0) hi).mpr (by omega)
    omega
  have hcad : { u.cad with holdBack := 0 } = u.cad := by rw [← hb]
  simp [State.runPeriods, hn0, hb, hi, ceilDiv_zero_left, ← hn, hcad]

/-! ### The statement -/

theorem State.later_now (s : State) (n : Nat) : (s.later n).now = s.now + n := rfl

theorem State.later_cad (s : State) (n : Nat) :
    (s.later n).cad = { s.cad with shadow := s.cad.shadow.map (shadowAdvance n) } := rfl

/-- Without a valid phase, or frozen, the phase stands still. -/
theorem phaseAdvance_still_gives {s : State} {n : Nat} (h : s.nothingDue) (hn : n ≠ 0)
    (hs : s.cad.phaseValid = false ∨ s.cad.frozen = true) :
    Gives (.phaseAdvance n) s (fun t => t.now = s.now + n ∧ t.cad.step = s.cad.step ∧ t.cad.phase = s.cad.phase) := by
  obtain ⟨u, hnow, hcad, hclock⟩ := State.phaseAdvance_clock h hn
  have hstill : u.elapse n = u.later n := by
    rw [State.elapse_eq, if_neg]
    rcases hs with hs | hs <;> simp [hcad, hs]
  refine clock_gives (exec_phaseAdvance n s) (fun t ht => ?_)
  rw [hclock, hstill] at ht
  simp only [State.clock, State.later_now, State.later_cad, hnow, hcad, Prod.mk.injEq] at ht
  exact ⟨ht.1, ht.2.1, ht.2.2.1⟩

/-- Running, and short of the wrap. -/
theorem phaseAdvance_running_gives {s : State} {n : Nat} (h : s.nothingDue) (hn : n ≠ 0) (hv : s.cad.phaseValid = true)
    (hf : s.cad.frozen = false) (hb : s.cad.holdBack = 0) (hi : phaseIncr s.cad.period ≠ 0)
    (hlt : s.cad.phase + n * phaseIncr s.cad.period < fullStep) :
    Gives (.phaseAdvance n) s (fun t => t.now = s.now + n ∧ t.cad.step = s.cad.step ∧
      t.cad.phase = s.cad.phase + n * phaseIncr s.cad.period) := by
  obtain ⟨u, hnow, hcad, hclock⟩ := State.phaseAdvance_clock h hn
  have hruns : u.elapse n = State.runPeriods (n + 1) n (u.later n) := by
    rw [State.elapse_eq, if_pos]
    simp [hcad, hv, hf]
  rw [← hcad] at hb hi hlt
  refine clock_gives (exec_phaseAdvance n s) (fun t ht => ?_)
  rw [hclock, hruns, State.runPeriods_short (u := u.later n) hn hb hi hlt] at ht
  simp only [State.clock, State.later_now, State.later_cad, hnow, hcad, Prod.mk.injEq] at ht
  exact ⟨ht.1, ht.2.1, ht.2.2.1⟩

/-- The periods to the wrap, and the wrap. -/
theorem stepWrap_gives {s : State} (h : s.nothingDue) (hv : s.cad.phaseValid = true) (hf : s.cad.frozen = false)
    (hb : s.cad.holdBack = 0) (hi : phaseIncr s.cad.period ≠ 0) (hp : s.cad.phase < fullStep) :
    Gives .stepWrap s (fun t => t.now = s.now + s.periodsToWrap ∧ t.cad.step = (s.cad.step + 1) % 2 ^ 48 ∧
      t.cad.phase + fullStep = s.cad.phase + s.periodsToWrap * phaseIncr s.cad.period) := by
  have hk : s.periodsToWrap = ceilDiv (fullStep - s.cad.phase) (phaseIncr s.cad.period) := by
    simp [State.periodsToWrap, hb, ceilDiv_zero_left]
  have hreach : fullStep - s.cad.phase ≤ s.periodsToWrap * phaseIncr s.cad.period := (ceilDiv_le_iff hi).mp (Nat.le_of_eq hk.symm)
  have hn : s.periodsToWrap ≠ 0 := by
    intro h0
    rw [h0] at hreach
    omega
  have e : exec .stepWrap s = done s (s.phaseAdvance s.periodsToWrap) := by
    simp [exec_stepWrap, State.stepWrap, hv, hf, hi]
  generalize s.periodsToWrap = n at *
  obtain ⟨u, hnow, hcad, hclock⟩ := State.phaseAdvance_clock h hn
  have hruns : u.elapse n = (u.later n).wrapAt (u.cad.phase + n * phaseIncr u.cad.period - fullStep) := by
    obtain ⟨m, rfl⟩ := Nat.exists_eq_succ_of_ne_zero hn
    rw [← hcad] at hb hi hp hk
    rw [State.elapse_eq, if_pos (by simp [hcad, hv, hf])]
    exact State.runPeriods_wrap (u := u.later (m + 1)) hb hi hp hk
  obtain ⟨hwnow, hwstep, hwphase⟩ := (u.later n).wrapAt_clock (s.cad.phase + n * phaseIncr s.cad.period - fullStep)
  refine clock_gives e (fun t ht => ?_)
  rw [hclock, hruns, hcad] at ht
  simp only [State.clock, hwnow, hwstep, hwphase, State.later_now, State.later_cad, hnow, hcad, Prod.mk.injEq] at ht
  obtain ⟨htnow, htstep, htphase, -⟩ := ht
  exact ⟨htnow, htstep, by omega⟩

/-- Settles O16: time passing moves the clock as the increments of the period in force say, and what else the command
brings with it leaves the clock alone. -/
theorem phaseTimebaseAdvances : Obligations.PhaseTimebaseAdvances := by
  unfold Obligations.PhaseTimebaseAdvances
  exact fun s h => ⟨fun n hn hs => phaseAdvance_still_gives h hn hs,
    fun n hn hv hf hb hi hlt => phaseAdvance_running_gives h hn hv hf hb hi hlt,
    fun hv hf hb hi hp => stepWrap_gives h hv hf hb hi hp⟩

end Sys2Proof.Machine
end

section
/-! SUPPORT. Frames of the cadence (R37 to R60): what their commands come to, and the statement about them. -/
namespace Sys2Proof.Machine

/-! ### What commands give that touch neither channels nor contexts -/

/-- What a command gives that gives nothing to the outside and changes neither a channel nor a context. -/
theorem touches_gives {c : Instr} {s u : State} {ps : List Area} {ns : List RegName} {P : State → Prop}
    (e : exec c s = done s u) (hu : Touches ps ns s u) (hd : .dma ∉ ps) (ht : .tiles ∉ ps)
    (hp : ∀ t, t.regs = u.regs → t.cad = u.cad → OnlyIn ps s t → P t) : Gives c s P :=
  done_gives e (congrArg Dma.chans (hu.area .dma hd)) (hu.area .tiles ht)
    (hp _ u.settle_regs u.settle_cad (hu.only.settled hu.outs))

/-- Frames compose where the outputs may differ. -/
theorem OnlyIn.trans_outs {ps : List Area} {s t u : State} (ho : .outs ∈ ps) (h : OnlyIn ps s t) (k : OnlyIn ps t u) :
    OnlyIn ps s u := by
  refine ⟨k.1.trans h.1, fun p hp => ?_⟩
  cases p with
  | outs => exact absurd ho hp
  | _ => exact Eq.trans (k.2 _ hp) (h.2 _ hp)

/-- The state with the cadence `c`. -/
def State.setCad (s : State) (c : Cad) : State := { s with cad := c }

@[simp] theorem State.setCad_cad (s : State) (c : Cad) : (s.setCad c).cad = c := rfl

theorem State.setCad_touches (s : State) (c : Cad) : Touches [.cad] [] s (s.setCad c) := s.withCad_touches c

/-! ### HOLD_N and the first lock -/

/-- Of the cadence, accounting for a hold changes when it began. -/
theorem State.updateHold_cad (s : State) : ∃ since, s.updateHold.cad = { s.cad with holdSince := since } := by
  unfold State.updateHold
  split
  · exact ⟨_, rfl⟩
  · exact ⟨_, rfl⟩
  · exact ⟨s.cad.holdSince, rfl⟩

/-- While the line is driven, a hold has begun (R74). -/
theorem State.updateHold_since {s : State} (h : s.holdDrive = true) : s.updateHold.cad.holdSince.isSome = true := by
  unfold State.updateHold
  rw [h]
  cases hs : s.cad.holdSince with
  | none => rfl
  | some w => simp [hs]

theorem State.setStage_touches (s : State) (n : Nat) : Touches [.pwr] [] s (s.setStage n) := s.withStores_touches

theorem State.firstLock_touches (s : State) : Touches [.pwr] [] s s.firstLock := by
  unfold State.firstLock
  extract_lets _ timed
  have htimed : Touches [] [] s timed := by
    unfold timed
    split
    · exact .refl _ _ s
    · exact s.withStores_touches
  split
  · exact htimed.trans (timed.setStage_touches 9)
  · exact htimed.mono (by simp) (by simp)

theorem State.keepAges_touches (s : State) (before : Nat) : Touches [.tier] [] s (s.keepAges before) :=
  s.withStores_touches

/-! ### Frames received (R38, R39, Table 2.3) -/

theorem exec_phaseFrameReceive (bs : List Byte) (ok : Bool) (s : State) :
    exec (.phaseFrameReceive bs ok) s = done s (s.receiveFrame bs ok) := rfl

/-- What a discarded frame leaves to be repeated. -/
def Cad.discarded (c : Cad) (f : Frame) : Cad := { c with lastRx := some (f, false) }

/-- A discarded frame is counted, and noted for repeating; a device that is not master does nothing else (R38). -/
theorem State.frameBad_eq {s : State} (hm : s.cad.master = false) (f : Frame) :
    s.frameBad f = (s.count .cadFrameErr).setCad (s.cad.discarded f) := by
  simp [State.frameBad, State.setCad, Cad.discarded, hm]

theorem State.frameBad_touches {s : State} (hm : s.cad.master = false) (f : Frame) :
    Touches [.regs, .cad] [.cadFrameErr] s (s.frameBad f) := by
  rw [State.frameBad_eq hm]
  exact (s.count_touches .cadFrameErr 1 0 0).trans (State.setCad_touches _ _)

/-- The cadence after the first frame of an acquisition. -/
def Cad.acquired (c : Cad) (f : Frame) (v256 : Nat) : Cad :=
  { c with
    state := .locking, agree := 1, phaseValid := true, step := v256 / 2 ^ 24 % 2 ^ 48, phase := v256 % 2 ^ 24 * 2 ^ 32,
    period := f.period, holdBack := 0, frozenHeld := f.held, frozenHold := c.holdIn }

/-- What the receiver makes of a frame from ACQUIRE, with the delay of its own link (R42). -/
def State.acquired (s : State) (f : Frame) : Cad :=
  s.cad.acquired f (compensated f (bits (s.rnat .cadInLink) 15 0) f.period)

/-- From ACQUIRE, a frame that announces no period loads the phase (Table 2.3). -/
theorem State.startLocking_eq {s : State} {f : Frame} (hl : s.cad.frozenLost = false) (hp : f.pnext = false) :
    s.startLocking f = (s.setCad (s.acquired f)).keepAges s.stepPhase := by
  simp [State.startLocking, State.takePnext, State.setCad, State.acquired, Cad.acquired, State.loadPhase, State.keepAges,
    State.shiftAges, State.stepPhase, State.phaseInt, hl, hp]

theorem State.receiveFrame_bad {s : State} {bs : List Byte} {ok : Bool} (he : s.rbit .cadCtrl 0 = true)
    (hw : frameWhole bs ok = false) : s.receiveFrame bs ok = s.frameBad (frameFields bs) := by
  simp [State.receiveFrame, he, hw]

/-- A PERIOD below the minimum is an event with its code (R39). -/
theorem State.receiveFrame_shortPeriod {s : State} {bs : List Byte} (he : s.rbit .cadCtrl 0 = true)
    (hw : frameWhole bs true = true) (hp : (frameFields bs).period < 0x200) :
    s.receiveFrame bs true = ((s.raise .cadEvent 5).issue 0x0D07).frameBad (frameFields bs) := by
  simp [State.receiveFrame, he, hw, hp]

theorem State.receiveFrame_good {s : State} {bs : List Byte} (he : s.rbit .cadCtrl 0 = true)
    (hw : frameWhole bs true = true) (hp : 0x200 ≤ (frameFields bs).period) :
    s.receiveFrame bs true = s.frameGood (frameFields bs) := by
  simp [State.receiveFrame, he, hw, Nat.not_lt.mpr hp]

/-- What every valid frame changes first. -/
def Cad.heard (c : Cad) (f : Frame) : Cad :=
  { c with lastRx := some (f, true), rxRank := f.rank, badRun := 0, backoff := false }

theorem State.frameGood_acquire {s : State} {f : Frame} (hm : s.cad.master = false) (ha : s.cad.state = .acquire)
    (hp : f.pnext = false) : s.frameGood f = (s.setCad (s.cad.heard f)).startLocking f := by
  simp [State.frameGood, State.setCad, Cad.heard, hm, ha, hp]

theorem receive_first_gives {s : State} {bs : List Byte} (he : s.rbit .cadCtrl 0 = true) (hw : frameWhole bs true = true)
    (hper : 0x200 ≤ (frameFields bs).period) (hp : (frameFields bs).pnext = false) (hm : s.cad.master = false)
    (ha : s.cad.state = .acquire) (hl : s.cad.frozenLost = false) :
    Gives (.phaseFrameReceive bs true) s (fun t =>
      t.cad = (s.setCad (s.cad.heard (frameFields bs))).acquired (frameFields bs)) := by
  have e := exec_phaseFrameReceive bs true s
  rw [State.receiveFrame_good he hw hper, State.frameGood_acquire hm ha hp,
    State.startLocking_eq (s := s.setCad (s.cad.heard _)) hl hp] at e
  exact touches_gives e (((s.setCad_touches _).trans (State.setCad_touches _ _)).trans (State.keepAges_touches _ _))
    (by simp) (by simp) (fun t _ ht _ => ht)

theorem receive_bad_gives {s : State} {bs : List Byte} {ok : Bool} (he : s.rbit .cadCtrl 0 = true)
    (hw : frameWhole bs ok = false) (hm : s.cad.master = false) :
    Gives (.phaseFrameReceive bs ok) s (fun t =>
      t.rnat .cadFrameErr = (s.rnat .cadFrameErr + 1) % 2 ^ 32 ∧
      t.cad = s.cad.discarded (frameFields bs) ∧
      RegsBut [RegName.cadFrameErr.key 0 0] s t ∧ OnlyIn [.regs, .cad] s t) := by
  have e := exec_phaseFrameReceive bs ok s
  rw [State.receiveFrame_bad he hw] at e
  refine touches_gives e (State.frameBad_touches hm _) (by simp) (by simp) (fun t hregs hcad hframe => ?_)
  have hcount : t.regs = (s.count .cadFrameErr).regs := by rw [hregs, State.frameBad_eq hm]; rfl
  refine ⟨?_, ?_, (RegsBut.rput s _ _ 0 0).trans (RegsBut.of hcount), hframe⟩
  · exact (State.rnat_congr hcount ..).trans (s.rnat_count_same rfl)
  · rw [hcad, State.frameBad_eq hm, State.setCad_cad]

theorem receive_shortPeriod_gives {s : State} {bs : List Byte} (he : s.rbit .cadCtrl 0 = true)
    (hw : frameWhole bs true = true) (hp : (frameFields bs).period < 0x200) (hm : s.cad.master = false) :
    Gives (.phaseFrameReceive bs true) s (fun t =>
      t.rbit .cadEvent 5 = true ∧ t.rnat .cadLastErr = 0x0D07 ∧
      t.cad = s.cad.discarded (frameFields bs) ∧ OnlyIn [.regs, .cad] s t) := by
  have e := exec_phaseFrameReceive bs true s
  rw [State.receiveFrame_shortPeriod he hw hp] at e
  have hissue := State.issue_cadence_touches (s.raise .cadEvent 5) (code := 0x0D07) rfl {}
  have hcode := State.rnat_issue_cadence (s.raise .cadEvent 5) (code := 0x0D07) rfl {}
  have hcad : ((s.raise .cadEvent 5).issue 0x0D07).cad = s.cad := State.issue_cad _ _ _
  generalize (s.raise .cadEvent 5).issue 0x0D07 = u at *
  have hm' : u.cad.master = false := by rw [hcad, hm]
  have hbad := State.frameBad_touches hm' (frameFields bs)
  refine touches_gives e (((s.raise_touches .cadEvent 5 0).trans hissue).trans hbad) (by simp) (by simp)
    (fun t hregs htcad hframe => ⟨?_, ?_, ?_, hframe.mono (by simp)⟩)
  · exact (congrArg (bit · 5) ((State.rnat_congr hregs ..).trans
      ((hissue.trans hbad).rnat (by decide) 0 0))).trans (s.rbit_raise_same .cadEvent (by decide))
  · exact (State.rnat_congr hregs ..).trans ((hbad.rnat (by decide) 0 0).trans hcode)
  · rw [htcad, State.frameBad_eq hm', State.setCad_cad, hcad]

/-! ### Frames driven (R37, R44) -/

theorem exec_frameRepeat (s : State) : exec .frameRepeat s = done s s.repeatFrame := rfl

theorem exec_phaseFrameSend (s : State) : exec .phaseFrameSend s = done s s.sendFrame := rfl

/-- What a command gives that drives a frame, having changed at most the cadence before it. -/
theorem driveFrame_gives {c : Instr} {s u : State} {f : Frame} {valid : Bool} {ps : List Area} {P : State → Prop}
    (e : exec c s = done s (u.driveFrame f valid)) (hu : Touches ps [] s u) (hd : .dma ∉ ps) (ht : .tiles ∉ ps)
    (hp : ∀ t, Sent (.cadFrame (if valid then f.bytes else []) valid) s t → t.cad = u.cad →
      OnlyIn (.outs :: .side :: ps) s t → P t) : Gives c s P := by
  have hdrive : OnlyIn (.outs :: .side :: ps) u (u.driveFrame f valid) := by
    refine ⟨rfl, fun p hp => ?_⟩
    cases p with
    | outs | side => simp at hp
    | _ => rfl
  have houts : (u.driveFrame f valid).outs = s.outs ++ [.cadFrame (if valid then f.bytes else []) valid] := by
    rw [← hu.outs]; rfl
  refine done_gives e (congrArg Dma.chans (hu.area .dma hd)) (hu.area .tiles ht) (hp _ ?_ (State.settle_cad _) ?_)
  · rcases (u.driveFrame f valid).settle_outs with h | ⟨g, v, h⟩
    · exact .inl (h.trans houts)
    · exact .inr ⟨g, v, by rw [h, houts, List.append_assoc]; rfl⟩
  · have hs : OnlyIn (.outs :: .side :: ps) s u := hu.only.mono (fun p hp => by simp [hp])
    exact (hs.trans_outs (by simp) hdrive).trans_outs (by simp) (OnlyIn.settle _ _)

theorem frameRepeat_gives {s : State} {f : Frame} {ok : Bool} (hr : s.cad.lastRx = some (f, ok))
    (he : s.rbit .cadCtrl 0 = true) (hrep : s.rbit .cadCtrl 1 = true) (hrank : s.rankOf = 0) :
    Gives .frameRepeat s (fun t =>
      Sent (.cadFrame (if ok then Frame.bytes { f with delay := (f.delay + bits (s.rnat .cadInLink) 15 0 + 480) % 65536 }
        else []) ok) s t ∧ t.cad = { s.cad with lastRx := none } ∧ OnlyIn [.outs, .cad, .side] s t) := by
  have e : exec .frameRepeat s = done s ((s.setCad { s.cad with lastRx := none }).driveFrame
      { f with delay := (f.delay + bits (s.rnat .cadInLink) 15 0 + 480) % 65536 } ok) := by
    have hcond : (s.rbit .cadCtrl 0 && s.rbit .cadCtrl 1 && decide (s.rankOf = 0)) = true := by simp [he, hrep, hrank]
    rw [exec_frameRepeat, State.repeatFrame, hr]
    exact congrArg (done s) (if_pos hcond)
  exact driveFrame_gives e (s.setCad_touches _) (by simp) (by simp)
    (fun t hsent hcad hframe => ⟨hsent, hcad, hframe.mono (by simp)⟩)

/-- With neither STOP nor RUN taken up and HOLD_N low, the reference instant of a frame changes nothing. -/
theorem State.masterInstant_none {s : State} (hs : s.cad.stopPending = false) (hr : s.cad.runPending = false)
    (hh : s.cad.holdIn = true) : s.masterInstant = s := by
  simp [State.masterInstant, hs, hr, hh]

theorem phaseFrameSend_gives {s : State} (hm : s.cad.master = true) (he : s.rbit .cadCtrl 0 = true)
    (hs : s.cad.stopPending = false) (hr : s.cad.runPending = false) (hn : s.cad.newPeriod = none)
    (hh : s.cad.holdIn = true) :
    Gives .phaseFrameSend s (fun t =>
      Sent (.cadFrame (Frame.bytes {
          rank := s.rankOf, held := s.cad.frozen, pnext := false, phase := s.cad.phase / 2 ^ 32,
          step := s.cad.step, period := s.cad.period, delay := bits (s.rnat .cadRootDelay) 15 0 }) true) s t ∧
      OnlyIn [.outs, .side] s t) := by
  have e : exec .phaseFrameSend s = done s (s.driveFrame {
      rank := s.rankOf, held := s.cad.frozen, pnext := false, phase := s.cad.phase / 2 ^ 32,
      step := s.cad.step, period := s.cad.period, delay := bits (s.rnat .cadRootDelay) 15 0 } true) := by
    simp [exec_phaseFrameSend, State.sendFrame, State.masterInstant_none hs hr hh, hm, he, hn]
  exact driveFrame_gives e (.refl [] [] s) (by simp) (by simp) (fun t hsent _ hframe => ⟨hsent, hframe⟩)

/-! ### Frames that stay away (R48, R49, R60) -/

theorem exec_frameLossTimeout (s : State) : exec .frameLossTimeout s = done s s.frameLoss := rfl

theorem exec_backoffExpiry (s : State) : exec .backoffExpiry s = done s s.backoffEnd := rfl

theorem exec_cadenceLost (s : State) : exec .cadenceLost s = done s s.cadenceLost := rfl

theorem frameLossTimeout_gives {s : State} (hm : s.cad.master = false) (hl : s.cad.state = .locked) :
    Gives .frameLossTimeout s (fun t =>
      t.cad = { s.cad with state := .flywheel, backoff := decide (s.rankOf ≠ 0), suspect := none } ∧ OnlyIn [.cad] s t) := by
  have e : exec .frameLossTimeout s = done s
      (s.setCad { s.cad with state := .flywheel, backoff := decide (s.rankOf ≠ 0), suspect := none }) := by
    simp [exec_frameLossTimeout, State.frameLoss, State.setCad, hm, hl]
  exact touches_gives e (s.setCad_touches _) (by simp) (by simp) (fun t _ hcad hframe => ⟨hcad, hframe⟩)

/-- The cadence of a device that becomes master without a valid phase (R49). -/
def Cad.elected (c : Cad) (start period : Nat) : Cad :=
  { c with
    backoff := false, master := true, badRun := 0, frozenLost := false, holdLost := false, shadow := none,
    state := .locked, phaseValid := true, step := start, phase := 0, holdBack := 0, period := period,
    frozenStop := true, frozenHeld := false, frozenHold := c.holdIn, firstRun := true }

/-- The device elected from the values of its master registers. -/
def State.elected (s : State) : State :=
  s.setCad (s.cad.elected (bits (s.rnat .cadMasterStart) 47 0) (bits (s.rnat .cadMasterPeriod) 23 0))

theorem State.backoffEnd_elected {s : State} (hb : s.cad.backoff = true) (he : s.rbit .cadCtrl 0 = true)
    (hr : s.rankOf ≠ 0) (hv : s.cad.phaseValid = false) :
    s.backoffEnd = (s.elected.updateHold.keepAges s.stepPhase).firstLock := by
  simp [State.backoffEnd, State.elected, State.setCad, Cad.elected, hb, he, hr, hv]

theorem backoffExpiry_gives {s : State} (hb : s.cad.backoff = true) (he : s.rbit .cadCtrl 0 = true) (hr : s.rankOf ≠ 0)
    (hv : s.cad.phaseValid = false) :
    Gives .backoffExpiry s (fun t => ∃ since, t.cad = { s.elected.cad with holdSince := since }) := by
  have e := exec_backoffExpiry s
  rw [State.backoffEnd_elected hb he hr hv] at e
  obtain ⟨since, hsince⟩ := s.elected.updateHold_cad
  have hlock := (s.elected.updateHold.keepAges_touches s.stepPhase).trans (State.firstLock_touches _)
  exact touches_gives e (((s.setCad_touches _).trans (State.updateHold_touches _)).trans hlock) (by simp) (by simp)
    (fun t _ hcad _ => ⟨since, hcad.trans ((hlock.area .cad (by simp)).trans hsince)⟩)

/-- The cadence of a device that has flown longer than CAD_FLY_MAX (R60). -/
def Cad.lost (c : Cad) (hold : Bool) : Cad := { c with state := .lost, frozenLost := true, holdLost := hold }

theorem cadenceLost_gives {s : State} (hf : s.cad.state = .flywheel) (hm : s.cad.master = false) :
    Gives .cadenceLost s (fun t =>
      (∃ since, t.cad = { s.cad.lost (s.rbit .cadCtrl 2) with holdSince := since }) ∧ t.rbit .cadEvent 2 = true ∧
      t.rnat .cadLastErr = 0x0D05 ∧ OnlyIn [.regs, .cad] s t) := by
  have e : exec .cadenceLost s = done s
      (((s.setCad (s.cad.lost (s.rbit .cadCtrl 2))).raise .cadEvent 2).issue 0x0D05).updateHold := by
    simp [exec_cadenceLost, State.cadenceLost, State.setCad, Cad.lost, hf, hm]
  have hcad := s.setCad_touches (s.cad.lost (s.rbit .cadCtrl 2))
  have hraise := (s.setCad (s.cad.lost (s.rbit .cadCtrl 2))).raise_touches .cadEvent 2 0
  have hevent := State.rbit_raise_same (s.setCad (s.cad.lost (s.rbit .cadCtrl 2))) .cadEvent (b := 2) (by decide)
  have hwas : ((s.setCad (s.cad.lost (s.rbit .cadCtrl 2))).raise .cadEvent 2).cad = s.cad.lost (s.rbit .cadCtrl 2) := rfl
  generalize (s.setCad (s.cad.lost (s.rbit .cadCtrl 2))).raise .cadEvent 2 = v at e hraise hevent hwas
  have hissue := v.issue_cadence_touches (code := 0x0D05) rfl {}
  have hcode := v.rnat_issue_cadence (code := 0x0D05) rfl {}
  have hhold := (v.issue 0x0D05).updateHold_touches
  obtain ⟨since, hsince⟩ := (v.issue 0x0D05).updateHold_cad
  refine touches_gives e (((hcad.trans hraise).trans hissue).trans hhold) (by simp) (by simp)
    (fun t hregs htcad hframe => ⟨⟨since, ?_⟩, ?_, ?_, hframe.mono (by simp)⟩)
  · rw [htcad, hsince, State.issue_cad, hwas]
  · exact (congrArg (bit · 2) ((State.rnat_congr hregs ..).trans ((hissue.trans hhold).rnat (by decide) 0 0))).trans hevent
  · exact (State.rnat_congr hregs ..).trans ((hhold.rnat (by decide) 0 0).trans hcode)

/-- Settles O17: each command comes to one change of the cadence, and what it brings with it leaves the rest alone. -/
theorem cadenceFrames : Obligations.CadenceFrames := by
  unfold Obligations.CadenceFrames
  refine fun s _ => ⟨fun bs he hw hper hp _ hm ha hl => ?_, fun bs ok he hw hm => receive_bad_gives he hw hm,
    fun bs he hw hp hm => receive_shortPeriod_gives he hw hp hm,
    fun f ok hr he hrep hrank => frameRepeat_gives hr he hrep hrank,
    fun hm he hs hr hn hh => phaseFrameSend_gives hm he hs hr hn hh, fun hm hl => frameLossTimeout_gives hm hl,
    fun hb he hr hv => ?_, fun hf hm => ?_⟩
  · refine (receive_first_gives he hw hper hp hm ha hl).mono (fun t ht => ?_)
    rw [ht]
    exact ⟨rfl, rfl, rfl, rfl, rfl, rfl⟩
  · refine (backoffExpiry_gives hb he hr hv).mono ?_
    rintro t ⟨since, ht⟩
    rw [ht]
    exact ⟨rfl, rfl, rfl, rfl, rfl, rfl, rfl, by simp [Cad.frozen, State.elected, Cad.elected]⟩
  · refine (cadenceLost_gives hf hm).mono ?_
    rintro t ⟨⟨since, ht⟩, hrest⟩
    rw [ht]
    exact ⟨rfl, by simp [Cad.frozen, Cad.lost], rfl, hrest⟩

end Sys2Proof.Machine
end

section
/-! SUPPORT. Writes by which software commands the cadence receiver, and HOLD_N (R52 to R55, R66 to R70): what a write of a
command's own register comes to, and the statement about them. -/
namespace Sys2Proof.Machine

/-! ### Writes of a register by its own command -/

/-- An accepted write of an RW register stores the value with what follows from it, and makes at most its entry. -/
theorem State.regWrite_noted {s : State} {p : Path} {n : RegName} {i j v : Nat} (h : s.writes p n i j v)
    (hn : n.found = true) (hi : i < n.row.c1) (hj : j < n.row.c2) (ha : n.row.acc = .rw)
    (hf : n.fieldOk i (v &&& n.row.mask) = true) (hk : s.rwAccept p.idx n i j (v &&& n.row.mask) = true)
    (hr : ∀ a b, ringRises n a b = false) :
    Noted (s.rwStore p.idx n i j (v &&& n.row.mask)) (s.regWrite p n i j v) := by
  rw [State.regWrite_open h hn hi hj]
  simp only [State.writeWhole, ha, State.writeRw, hf, hk, hr, dropBits, Nat.and_zero, Nat.sub_zero, Nat.zero_or,
    Bool.not_true, Bool.or_self, Bool.false_eq_true, if_false, ne_eq, not_true_eq_false]
  split
  · exact .inl rfl
  · exact .inr ⟨_, rfl⟩

/-- A command that its register takes makes at most its entry beside its effect. -/
theorem State.regWrite_command_noted {s t : State} {p : Path} {n : RegName} {i j v : Nat} (h : s.writes p n i j v)
    (hn : n.found = true) (hi : i < n.row.c1) (hj : j < n.row.c2) (ha : n.row.acc = .wo)
    (hf : n.fieldOk i (v &&& n.row.mask) = true) (ht : n ≠ .logTimeSet)
    (hc : s.regCommand p n i j (v &&& n.row.mask) [] [] = .ok t) : Noted t (s.regWrite p n i j v) := by
  rw [State.regWrite_open h hn hi hj]
  simp only [State.writeWhole, ha, State.writeWo, hf, hc, ht, Bool.not_true, Bool.false_eq_true, if_false, ne_eq,
    not_true_eq_false, decide_false, Bool.false_and]
  split
  · exact .inl rfl
  · exact .inr ⟨_, rfl⟩

/-- A command that its register does not take is a refused write. -/
theorem State.regWrite_refused_noted {s t : State} {p : Path} {n : RegName} {i j v : Nat} (h : s.writes p n i j v)
    (hn : n.found = true) (hi : i < n.row.c1) (hj : j < n.row.c2) (ha : n.row.acc = .wo)
    (hf : n.fieldOk i (v &&& n.row.mask) = true)
    (hc : s.regCommand p n i j (v &&& n.row.mask) [] [] = .error t) : Noted t (s.regWrite p n i j v) := by
  rw [State.regWrite_open h hn hi hj]
  simp only [State.writeWhole, ha, State.writeWo, hf, hc, Bool.not_true, Bool.false_eq_true, if_false, ne_eq,
    not_true_eq_false, decide_false, Bool.false_and]
  obtain ⟨e, he, -⟩ := t.refuse_entry p (n.row.base + i * n.row.s1 + j * n.row.s2) v
  exact .inr ⟨e, he⟩

/-- What a command gives whose effect `u` touches neither channels nor contexts, its entry made. -/
theorem Noted.touches_gives {c : Instr} {s u t : State} {ps : List Area} {ns : List RegName} {P : State → Prop}
    (h : Noted u t) (e : exec c s = done s t) (hu : Touches ps ns s u) (hd : .dma ∉ ps) (ht : .tiles ∉ ps)
    (hp : ∀ w, w.regs = u.regs → w.cad = u.cad → OnlyIn ps s w → P w) : Gives c s P := by
  have hcad : t.settle.cad = u.cad := t.settle_cad.trans ((h.onlyIn []).2 .cad (by simp))
  exact h.gives e (hu.area .dma hd) (hu.area .tiles ht) (hp _ h.settle_regs hcad (h.settled hu.only hu.outs))

/-! ### Bits of a number -/

theorem bit_eq_testBit (v i : Nat) : bit v i = v.testBit i := by
  rw [bit, Nat.testBit_eq_decide_div_mod_eq]
  rfl

theorem bits_or {v m hi lo : Nat} (h : bits m hi lo = 0) : bits (v ||| m) hi lo = bits v hi lo := by
  unfold bits at *
  rw [Nat.or_div_two_pow, Nat.or_mod_two_pow, h, Nat.or_zero]

/-- RANK lies in the bits that CAD_CTRL keeps. -/
theorem bits_rank_mod (v : Nat) : bits (v % 2 ^ 7) 6 4 = bits v 6 4 := by
  unfold bits
  omega

/-- A bit below 7 lies in the bits that CAD_CTRL keeps. -/
theorem bit_mod {i : Nat} (hi : i < 7) (v : Nat) : bit (v % 2 ^ 7) i = bit v i := by
  rw [bit_eq_testBit, bit_eq_testBit, Nat.testBit_mod_two_pow, decide_eq_true hi, Bool.true_and]

/-! ### CAD_CTRL (R38, R48, R55, R66) -/

/-- What a change of ENABLE makes of the cadence: going off resets the receiver, and going on starts the backoff of a
candidate in ACQUIRE. -/
structure Cad.Enabled (c d : Cad) (was now candidate : Bool) : Prop where
  off : was = true → now = false → d.state = .acquire ∧ d.phaseValid = false ∧ d.master = false
  on : was = false → now = true → d.backoff = (candidate && decide (c.state = .acquire))
  same : was = now → d = c

/-- What a RANK makes of the cadence: RANK 0 ends a master, and the backoff of a candidate (R48, R55). -/
def Cad.ranked (c : Cad) (rank : Nat) : Cad :=
  if c.master && decide (rank = 0) then { c with master := false, state := .flywheel, frozenStop := false }
  else if rank = 0 then { c with backoff := false }
  else c

theorem Cad.ranked_pos {rank : Nat} (h : rank ≠ 0) (c : Cad) : c.ranked rank = c := by
  simp [Cad.ranked, h]

theorem Cad.ranked_zero_master (c : Cad) : (c.ranked 0).master = false := by
  cases hm : c.master <;> simp [Cad.ranked, hm]

theorem Cad.ranked_zero_state {c : Cad} (h : c.master = true) : (c.ranked 0).state = .flywheel := by
  simp [Cad.ranked, h]

/-- A RANK leaves a receiver that is not master in its state. -/
theorem Cad.ranked_follower {c : Cad} (h : c.master = false) (rank : Nat) :
    (c.ranked rank).state = c.state ∧ (c.ranked rank).phaseValid = c.phaseValid ∧ (c.ranked rank).master = false := by
  by_cases hr : rank = 0 <;> simp [Cad.ranked, h, hr]

/-- A write of CAD_CTRL comes to a change of ENABLE, to that of RANK, and to HOLD_N being accounted for. -/
theorem State.cadCtrlWritten_spec (s : State) (old : Nat) :
    ∃ d : Cad, Cad.Enabled s.cad d (bit old 0) (s.rbit .cadCtrl 0) (decide (s.rankOf ≠ 0)) ∧
      s.cadCtrlWritten old = (s.setCad (d.ranked s.rankOf)).updateHold := by
  unfold State.cadCtrlWritten State.rbit State.rankOf Cad.ranked
  extract_lets new _ switched before ranked
  have hswitched : ∃ d : Cad, Cad.Enabled s.cad d (bit old 0) (bit new 0) (decide (bits new 6 4 ≠ 0)) ∧
      switched = s.setCad d := by
    unfold switched
    cases hwas : bit old 0 <;> cases hnow : bit new 0
    · exact ⟨s.cad, ⟨by simp, by simp, fun _ => rfl⟩, rfl⟩
    · exact ⟨_, ⟨by simp, fun _ _ => rfl, by simp⟩, rfl⟩
    · exact ⟨_, ⟨fun _ _ => ⟨rfl, rfl, rfl⟩, by simp, by simp⟩, rfl⟩
    · exact ⟨s.cad, ⟨by simp, by simp, fun _ => rfl⟩, rfl⟩
  obtain ⟨d, hd, hsd⟩ := hswitched
  refine ⟨d, hd, congrArg State.updateHold ?_⟩
  clear_value switched
  subst hsd
  by_cases hr : bits (s.rnat .cadCtrl) 6 4 = 0
  · rcases Bool.eq_false_or_eq_true d.master with hm | hm <;> simp [ranked, before, new, State.setCad, hr, hm]
  · simp [ranked, new, hr]

theorem State.holdDrive_congr {s t : State} {since : Option Nat} (hc : t.cad = { s.cad with holdSince := since })
    (hr : t.rnat .cadCtrl = s.rnat .cadCtrl) : t.holdDrive = s.holdDrive := by
  simp [State.holdDrive, State.rbit, hc, hr]

/-- The state after CAD_CTRL is written with `v`: the register, and the cadence `d` under its RANK. -/
def State.withCtrl (s : State) (v : Nat) (d : Cad) : State :=
  (s.rputN .cadCtrl (v % 2 ^ 7)).setCad (d.ranked (bits v 6 4))

theorem State.withCtrl_rnat (s : State) (v : Nat) (d : Cad) : (s.withCtrl v d).rnat .cadCtrl = v % 2 ^ 7 := by
  have hput : (s.withCtrl v d).rnat .cadCtrl = v % 2 ^ 7 % 2 ^ 64 := s.rnat_rputN_same .cadCtrl (v % 2 ^ 7) 0 0
  omega

theorem State.withCtrl_touches (s : State) (v : Nat) (d : Cad) : Touches [.regs, .cad] [.cadCtrl] s (s.withCtrl v d) :=
  (s.rputN_touches .cadCtrl (v % 2 ^ 7) 0 0).trans (State.setCad_touches _ _)

/-- What a path's write of CAD_CTRL comes to. -/
theorem State.regWrite_cadCtrl {s : State} {p : Path} {v : Nat} (hw : s.writes p .cadCtrl 0 0 v) :
    ∃ d : Cad, Cad.Enabled s.cad d (s.rbit .cadCtrl 0) (bit v 0) (decide (bits v 6 4 ≠ 0)) ∧
      Noted (s.withCtrl v d).updateHold (s.regWrite p .cadCtrl 0 0 v) := by
  have hmask : v &&& RegName.cadCtrl.row.mask = v % 2 ^ 7 := Nat.and_two_pow_sub_one_eq_mod v 7
  have hn := State.regWrite_noted hw (commandRegs_found (by simp [commandRegs1])) (by decide) (by decide) rfl rfl rfl
    (fun _ _ => rfl)
  obtain ⟨d, hd, hspec⟩ := (s.rputN .cadCtrl (v % 2 ^ 7)).cadCtrlWritten_spec (s.rnat .cadCtrl)
  have hput : (s.rputN .cadCtrl (v % 2 ^ 7)).rnat .cadCtrl = v % 2 ^ 7 := s.withCtrl_rnat v d
  simp only [State.rbit, State.rankOf, hput, bits_rank_mod, bit_mod (i := 0) (by decide)] at hd hspec
  have hstore : s.rwStore p.idx .cadCtrl 0 0 (v % 2 ^ 7) = (s.withCtrl v d).updateHold := hspec
  rw [hmask, hstore] at hn
  exact ⟨d, hd, hn⟩

/-- What a command gives that writes CAD_CTRL. -/
theorem cadCtrl_gives {c : Instr} {s : State} {p : Path} {v : Nat} (e : exec c s = done s (s.regWrite p .cadCtrl 0 0 v))
    (hw : s.writes p .cadCtrl 0 0 v) :
    Gives c s (fun t => (∀ i < 7, t.rbit .cadCtrl i = bit v i) ∧ t.rankOf = bits v 6 4 ∧
      (∃ d since, Cad.Enabled s.cad d (s.rbit .cadCtrl 0) (bit v 0) (decide (bits v 6 4 ≠ 0)) ∧
        t.cad = { d.ranked (bits v 6 4) with holdSince := since }) ∧
      (t.holdDrive = true → t.cad.holdSince.isSome = true) ∧ OnlyIn [.regs, .cad] s t) := by
  obtain ⟨d, hd, hn⟩ := State.regWrite_cadCtrl hw
  have hold := (s.withCtrl v d).updateHold_touches
  obtain ⟨since, hsince⟩ := (s.withCtrl v d).updateHold_cad
  refine hn.touches_gives e ((s.withCtrl_touches v d).trans hold) (by simp) (by simp) (fun t hregs hcad hframe => ?_)
  have hctrl : t.rnat .cadCtrl = (s.withCtrl v d).rnat .cadCtrl :=
    (State.rnat_congr hregs ..).trans (hold.rnat (by decide) 0 0)
  have hval := hctrl.trans (s.withCtrl_rnat v d)
  refine ⟨fun i hi => ?_, ?_, ⟨d, since, hd, hcad.trans hsince⟩, fun hdrive => ?_, hframe.mono (by simp)⟩
  · rw [State.rbit, hval, bit_mod hi]
  · rw [State.rankOf, hval, bits_rank_mod]
  · rw [State.holdDrive_congr (hcad.trans hsince) hctrl] at hdrive
    rw [hcad]
    exact State.updateHold_since hdrive

theorem exec_cadEnable (p : Path) (s : State) :
    exec (.cadEnable p) s = done s (s.regWrite p .cadCtrl 0 0 (s.rnat .cadCtrl ||| 1)) := rfl

theorem exec_cadDisable (p : Path) (s : State) :
    exec (.cadDisable p) s = done s (s.regWrite p .cadCtrl 0 0 (s.rnat .cadCtrl &&& 0x7E)) := rfl

theorem exec_swHold (p : Path) (on : Bool) (s : State) :
    exec (.swHold p on) s = done s (s.regWrite p .cadCtrl 0 0 ((s.rnat .cadCtrl &&& 0x77) + b2n on * 8)) := rfl

theorem exec_rankWrite (p : Path) (rank : Fin 8) (s : State) :
    exec (.rankWrite p rank) s = done s (s.regWrite p .cadCtrl 0 0 ((s.rnat .cadCtrl &&& 0x0F) + rank.val * 16)) := rfl

theorem cadEnable_gives {s : State} {p : Path} (hw : s.writes p .cadCtrl 0 0 (s.rnat .cadCtrl ||| 1))
    (he : s.rbit .cadCtrl 0 = false) (ha : s.cad.state = .acquire) (hr : s.rankOf ≠ 0) :
    Gives (.cadEnable p) s (fun t => t.rbit .cadCtrl 0 = true ∧ t.cad.backoff = true ∧ OnlyIn [.regs, .cad] s t) := by
  have hon : bit (s.rnat .cadCtrl ||| 1) 0 = true := by simp [bit_eq_testBit]
  have hrank : bits (s.rnat .cadCtrl ||| 1) 6 4 = s.rankOf := bits_or rfl
  refine (cadCtrl_gives (exec_cadEnable p s) hw).mono ?_
  rintro t ⟨hbits, -, ⟨d, since, hd, hcad⟩, -, hframe⟩
  rw [hrank] at hcad hd
  refine ⟨(hbits 0 (by decide)).trans hon, ?_, hframe⟩
  rw [hcad, Cad.ranked_pos hr]
  simpa [ha, hr] using hd.on he hon

theorem cadDisable_gives {s : State} {p : Path} (hw : s.writes p .cadCtrl 0 0 (s.rnat .cadCtrl &&& 0x7E))
    (he : s.rbit .cadCtrl 0 = true) :
    Gives (.cadDisable p) s (fun t => t.rbit .cadCtrl 0 = false ∧ t.cad.state = .acquire ∧ t.cad.phaseValid = false ∧
      t.cad.master = false ∧ OnlyIn [.regs, .cad] s t) := by
  have hoff : bit (s.rnat .cadCtrl &&& 0x7E) 0 = false := by simp [bit_eq_testBit]
  refine (cadCtrl_gives (exec_cadDisable p s) hw).mono ?_
  rintro t ⟨hbits, -, ⟨d, since, hd, hcad⟩, -, hframe⟩
  obtain ⟨hstate, hvalid, hmaster⟩ := hd.off he hoff
  obtain ⟨hstate', hvalid', hmaster'⟩ := Cad.ranked_follower hmaster (bits (s.rnat .cadCtrl &&& 0x7E) 6 4)
  rw [hcad]
  exact ⟨(hbits 0 (by decide)).trans hoff, hstate'.trans hstate, hvalid'.trans hvalid, hmaster', hframe⟩

theorem swHold_gives {s : State} {p : Path} {on : Bool}
    (hw : s.writes p .cadCtrl 0 0 ((s.rnat .cadCtrl &&& 0x77) + b2n on * 8)) :
    Gives (.swHold p on) s (fun t => t.rbit .cadCtrl 3 = on ∧
      (on = true → t.holdDrive = true ∧ t.cad.holdSince.isSome = true) ∧ OnlyIn [.regs, .cad] s t) := by
  have hclear : bit (s.rnat .cadCtrl &&& 0x77) 3 = false := by
    rw [bit_eq_testBit, Nat.testBit_and, show Nat.testBit 0x77 3 = false from rfl, Bool.and_false]
  have hon : bit ((s.rnat .cadCtrl &&& 0x77) + b2n on * 8) 3 = on := by
    generalize s.rnat .cadCtrl &&& 0x77 = x at hclear
    simp only [bit, beq_eq_false_iff_ne] at hclear
    cases on with
    | false => simp only [bit, b2n, Bool.false_eq_true, if_false, beq_eq_false_iff_ne]; omega
    | true => simp only [bit, b2n, if_true, beq_iff_eq]; omega
  refine (cadCtrl_gives (exec_swHold p on s) hw).mono ?_
  rintro t ⟨hbits, -, -, hsince, hframe⟩
  have hbit : t.rbit .cadCtrl 3 = on := (hbits 3 (by decide)).trans hon
  refine ⟨hbit, fun h => ?_, hframe⟩
  have hdrive : t.holdDrive = true := by simp [State.holdDrive, hbit, h]
  exact ⟨hdrive, hsince hdrive⟩

theorem rankWrite_gives {s : State} {p : Path} {rank : Fin 8}
    (hw : s.writes p .cadCtrl 0 0 ((s.rnat .cadCtrl &&& 0x0F) + rank.val * 16)) :
    Gives (.rankWrite p rank) s (fun t => t.rankOf = rank.val ∧
      (rank.val = 0 → t.cad.master = false ∧ (s.cad.master = true → t.cad.state = .flywheel)) ∧
      OnlyIn [.regs, .cad] s t) := by
  have hlow : s.rnat .cadCtrl &&& 0x0F = s.rnat .cadCtrl % 2 ^ 4 := Nat.and_two_pow_sub_one_eq_mod _ 4
  have hrank : bits ((s.rnat .cadCtrl &&& 0x0F) + rank.val * 16) 6 4 = rank.val := by
    rw [hlow, bits]
    omega
  have hsame : s.rbit .cadCtrl 0 = bit ((s.rnat .cadCtrl &&& 0x0F) + rank.val * 16) 0 := by
    rw [hlow, State.rbit, bit, bit]
    congr 1
    omega
  refine (cadCtrl_gives (exec_rankWrite p rank s) hw).mono ?_
  rintro t ⟨-, hrankOf, ⟨d, since, hd, hcad⟩, -, hframe⟩
  rw [hrank] at hrankOf hcad
  rw [hd.same hsame] at hcad
  refine ⟨hrankOf, fun h0 => ?_, hframe⟩
  rw [hcad, h0]
  exact ⟨Cad.ranked_zero_master _, fun hm => Cad.ranked_zero_state hm⟩

/-! ### CAD_MASTER_CMD and CAD_MASTER_PERIOD (R52, R53) -/

theorem exec_masterRun (p : Path) (s : State) : exec (.masterRun p) s = done s (s.regWrite p .cadMasterCmd 0 0 1) := rfl

theorem exec_masterStop (p : Path) (s : State) : exec (.masterStop p) s = done s (s.regWrite p .cadMasterCmd 0 0 2) := rfl

theorem exec_masterPeriodWrite (p : Path) (v : W32) (s : State) :
    exec (.masterPeriodWrite p v) s = done s (s.regWrite p .cadMasterPeriod 0 0 v.toNat) := rfl

/-- A command that the master takes for its next frame changes the cadence as `masterCmd` says (R53). -/
theorem masterCmd_gives {c : Instr} {s : State} {p : Path} {v : Nat} {d : Cad}
    (e : exec c s = done s (s.regWrite p .cadMasterCmd 0 0 v)) (hw : s.writes p .cadMasterCmd 0 0 v)
    (hm : s.masterCmd (v &&& RegName.cadMasterCmd.row.mask) = some (s.setCad d)) :
    Gives c s (fun t => t.cad = d ∧ OnlyIn [.cad] s t) := by
  have hc : s.regCommand p .cadMasterCmd 0 0 (v &&& RegName.cadMasterCmd.row.mask) [] [] = .ok (s.setCad d) := by
    simp only [State.regCommand, hm, orRefuse]
  have hn := State.regWrite_command_noted hw (commandRegs_found (by simp [commandRegs1])) (by decide) (by decide) rfl rfl
    (by decide) hc
  exact hn.touches_gives e (s.setCad_touches d) (by simp) (by simp) (fun t _ hcad hframe => ⟨hcad, hframe⟩)

/-- A device that is not master refuses the command. -/
theorem masterCmd_refused_gives {c : Instr} {s : State} {p : Path} {v : Nat}
    (e : exec c s = done s (s.regWrite p .cadMasterCmd 0 0 v)) (hw : s.writes p .cadMasterCmd 0 0 v)
    (hm : s.cad.master = false) : Gives c s (fun t => OnlyIn [] s t) := by
  have hc : s.regCommand p .cadMasterCmd 0 0 (v &&& RegName.cadMasterCmd.row.mask) [] [] = .error s := by
    simp [State.regCommand, State.masterCmd, hm, orRefuse]
  have hn := State.regWrite_refused_noted hw (commandRegs_found (by simp [commandRegs1])) (by decide) (by decide) rfl rfl hc
  exact hn.touches_gives e (.refl [] [] s) (by simp) (by simp) (fun t _ _ hframe => hframe)

theorem masterRun_gives {s : State} {p : Path} (hw : s.writes p .cadMasterCmd 0 0 1) (hm : s.cad.master = true) :
    Gives (.masterRun p) s (fun t =>
      t.cad = { s.cad with runPending := true, stopPending := false } ∧ OnlyIn [.cad] s t) := by
  refine masterCmd_gives (exec_masterRun p s) hw ?_
  rw [show 1 &&& RegName.cadMasterCmd.row.mask = 1 from rfl, State.masterCmd, hm]
  rfl

theorem masterStop_gives {s : State} {p : Path} (hw : s.writes p .cadMasterCmd 0 0 2) (hm : s.cad.master = true) :
    Gives (.masterStop p) s (fun t =>
      t.cad = { s.cad with stopPending := true, runPending := false } ∧ OnlyIn [.cad] s t) := by
  refine masterCmd_gives (exec_masterStop p s) hw ?_
  rw [show 2 &&& RegName.cadMasterCmd.row.mask = 2 from rfl, State.masterCmd, hm]
  rfl

/-- A master announces a new period for the end of this step, or of the next (R52). -/
theorem State.masterPeriodWritten_spec {s : State} (hm : s.cad.master = true) :
    ∃ k, (k = s.cad.step ∨ k = s.cad.step + 1) ∧
      s.masterPeriodWritten = s.setCad { s.cad with newPeriod := some (bits (s.rnat .cadMasterPeriod) 23 0, k) } := by
  unfold State.masterPeriodWritten
  rw [hm]
  refine ⟨_, ?_, rfl⟩
  split
  · exact .inr rfl
  · exact .inl rfl

theorem masterPeriodWrite_gives {s : State} {p : Path} {v : W32} (hw : s.writes p .cadMasterPeriod 0 0 v.toNat)
    (hmin : 0x200 ≤ v.toNat % 2 ^ 24) (hm : s.cad.master = true) :
    Gives (.masterPeriodWrite p v) s (fun t =>
      t.rnat .cadMasterPeriod = v.toNat % 2 ^ 24 ∧
      (t.cad.newPeriod = some (v.toNat % 2 ^ 24, s.cad.step) ∨ t.cad.newPeriod = some (v.toNat % 2 ^ 24, s.cad.step + 1)) ∧
      t.cad.period = s.cad.period ∧ RegsBut [RegName.cadMasterPeriod.key 0 0] s t ∧ OnlyIn [.regs, .cad] s t) := by
  have hmask : v.toNat &&& RegName.cadMasterPeriod.row.mask = v.toNat % 2 ^ 24 := Nat.and_two_pow_sub_one_eq_mod _ 24
  have hput : (s.rputN .cadMasterPeriod (v.toNat % 2 ^ 24)).rnat .cadMasterPeriod = v.toNat % 2 ^ 24 := by
    rw [State.rnat_rputN_same]
    omega
  have hfield : bits (v.toNat % 2 ^ 24) 23 0 = v.toNat % 2 ^ 24 := by
    unfold bits
    omega
  have hn := State.regWrite_noted hw (commandRegs_found (by simp [commandRegs1])) (by decide) (by decide) rfl
    (by rw [hmask]; exact decide_eq_true hmin) rfl (fun _ _ => rfl)
  obtain ⟨k, hk, hwritten⟩ := State.masterPeriodWritten_spec (s := s.rputN .cadMasterPeriod (v.toNat % 2 ^ 24)) hm
  have hstore : s.rwStore p.idx .cadMasterPeriod 0 0 (v.toNat % 2 ^ 24) = _ := hwritten
  rw [hmask, hstore, hput, hfield] at hn
  have hu := (s.rputN_touches .cadMasterPeriod (v.toNat % 2 ^ 24) 0 0).trans (State.setCad_touches _
    { s.cad with newPeriod := some (v.toNat % 2 ^ 24, k) })
  refine hn.touches_gives (exec_masterPeriodWrite p v s) hu (by simp) (by simp) (fun t hregs hcad hframe => ?_)
  rw [hcad]
  refine ⟨(State.rnat_congr hregs ..).trans hput, ?_, rfl, (RegsBut.rput s _ _ 0 0).trans (RegsBut.of hregs), hframe⟩
  rcases hk with rfl | rfl
  · exact .inl rfl
  · exact .inr rfl

/-! ### HOLD_N (R68, R70) -/

theorem exec_holdNFall (s : State) : exec .holdNFall s = done s s.holdFall := rfl

theorem exec_holdNRise (s : State) : exec .holdNRise s = done s s.holdRise := rfl

theorem holdNFall_gives (s : State) :
    Gives .holdNFall s (fun t => t.cad = { s.cad with holdIn := true, frozenHold := true } ∧ OnlyIn [.cad] s t) :=
  touches_gives (exec_holdNFall s) (s.setCad_touches _) (by simp) (by simp) (fun _ _ hcad hframe => ⟨hcad, hframe⟩)

theorem holdNRise_gives {s : State} (hv : s.cad.phaseValid = true) :
    Gives .holdNRise s (fun t => t.cad = { s.cad with holdIn := false, mismatch := 0 } ∧ OnlyIn [.cad] s t) := by
  have e : exec .holdNRise s = done s (s.setCad { s.cad with holdIn := false, mismatch := 0 }) := by
    rw [exec_holdNRise, State.holdRise, hv, Bool.and_true]
    rfl
  exact touches_gives e (s.setCad_touches _) (by simp) (by simp) (fun _ _ hcad hframe => ⟨hcad, hframe⟩)

/-- Settles O18: each write comes to its field of CAD_CTRL or to what the master has pending, and HOLD_N to its freeze. -/
theorem cadenceControl : Obligations.CadenceControl := by
  unfold Obligations.CadenceControl
  exact fun s p => ⟨fun hw he ha hr => cadEnable_gives hw he ha hr, fun hw he => cadDisable_gives hw he,
    fun _ hw => swHold_gives hw, fun _ hw => rankWrite_gives hw, fun hw hm => masterRun_gives hw hm,
    fun hw hm => masterStop_gives hw hm, fun hw hm => masterCmd_refused_gives (exec_masterRun p s) hw hm,
    fun hw hm => masterCmd_refused_gives (exec_masterStop p s) hw hm,
    fun _ hw hmin hm => masterPeriodWrite_gives hw hmin hm, holdNFall_gives s, fun hv => holdNRise_gives hv⟩

end Sys2Proof.Machine
end

section
/-! SUPPORT. Ledgers of the partitions (R136 to R155): what a change of one leaves alone, and what a submission, a failure, a
withdrawal and the end of a planning pass make of it. -/
namespace Sys2Proof.Machine

/-! ### One partition's ledger -/

@[simp] theorem State.ledger_setLedger_same (s : State) (q : Nat) (l : Ledger) : (s.setLedger q l).ledger q = l :=
  NMap.getD_put_same ..

theorem State.ledger_congr {s t : State} (h : t.scl = s.scl) (q : Nat) : t.ledger q = s.ledger q := by
  simp [State.ledger, h]

theorem LedgersBut.setLedger {s t : State} {q : Nat} {l : Ledger} (h : t.scl = (s.setLedger q l).scl) :
    LedgersBut q s t :=
  fun k hk => (State.ledger_congr h k).trans (NMap.getD_put_ne _ _ _ _ _ hk)

/-- The later of two values put under one key is the one held. -/
theorem NMap.put_put_same {α : Type} (m : NMap α) (k : Nat) (v w : α) :
    NMap.put (NMap.put m k v) k w = NMap.put m k w := by
  induction m with
  | nil => simp [NMap.put]
  | cons e m ih =>
    obtain ⟨a, b⟩ := e
    rcases Nat.lt_trichotomy k a with h | h | h
    · simp [NMap.put, h]
    · simp [NMap.put, h]
    · simp [NMap.put, ih, Nat.lt_asymm h, Nat.ne_of_lt h]

theorem State.setLedger_setLedger_same (s : State) (q : Nat) (l m : Ledger) :
    (s.setLedger q l).setLedger q m = s.setLedger q m := by
  simp only [State.setLedger, NMap.put_put_same]

theorem State.setLedger_touches (s : State) (q : Nat) (l : Ledger) : Touches [.scl] [] s (s.setLedger q l) := by
  refine .of_regs ⟨rfl, fun p hp => ?_⟩ rfl rfl
  cases p with
  | scl => exact absurd (List.mem_singleton.mpr rfl) hp
  | outs => exact .inl rfl
  | _ => rfl

theorem State.startOfWork_touches (s : State) : Touches [.pwr] [] s s.startOfWork := by
  unfold State.startOfWork
  split
  · exact s.withStores_touches
  · exact .refl _ _ s

/-! ### The read and the checks (R136, R138 to R141): they do not depend on the ledgers -/

theorem State.readLedger_setLedger (s : State) (k : Nat) (l : Ledger) (q addr : Nat) (ext : List Byte) :
    (s.setLedger k l).readLedger q addr ext = s.readLedger q addr ext := rfl

theorem State.entryBad_setLedger (s : State) (k : Nat) (l : Ledger) (q : Nat) (b : List Byte) (e : LEntry)
    (repeated : Bool) : (s.setLedger k l).entryBad q b e repeated = s.entryBad q b e repeated := rfl

theorem State.entriesCheck_setLedger (s : State) (k : Nat) (l : Ledger) (q : Nat) (all : List LEntry)
    (cs : List (List Byte)) (i : Nat) (seen : List Nat) :
    (s.setLedger k l).entriesCheck q all cs i seen = s.entriesCheck q all cs i seen := by
  induction cs generalizing i seen with
  | nil => rfl
  | cons b cs ih => simp only [State.entriesCheck, State.entryBad_setLedger, ih]

theorem State.ledgerCheck_setLedger (s : State) (k : Nat) (l : Ledger) (q : Nat) (bs : List Byte) :
    (s.setLedger k l).ledgerCheck q bs = s.ledgerCheck q bs := by
  simp only [State.ledgerCheck, State.entriesCheck_setLedger]

theorem eq_ok_of_toOption {ε α : Type} {x : Except ε α} {a : α} (h : x.toOption = some a) : x = .ok a := by
  cases x with
  | error _ => cases h
  | ok _ => cases h; rfl

/-! ### A failure (Table 5.4) -/

/-- The last-error registers of the classes (Table 24.1). -/
def classRegs : List RegName :=
  [.dmaLastErr, .xpcLastErr, .sclTierLastErr, .sclPlanLastErr, .sclRunLastErr, .crnLastErr, .nynLastErr, .srvLastErr,
   .admLastErr, .intLastErr, .updLastErr, .imgLastErr, .pwrLastErr, .cadLastErr, .alnLastErr]

/-- A code is recorded in the register of its class at most. -/
theorem State.recordClass_touches (s : State) (code : Nat) (w : At) :
    Touches [.regs] classRegs s (s.recordClass code w) := by
  have hput {n : RegName} (hn : n ∈ classRegs) (v i : Nat) : Touches [.regs] classRegs s (s.rputN n v i) :=
    (s.rputN_touches n v i 0).mono (List.Subset.refl _) (by simpa using hn)
  unfold State.recordClass
  split
  case h_4 => split <;> exact hput (by decide) _ _
  case h_10 =>
    split
    · exact hput (by decide) _ _
    · exact .refl _ _ s
  case h_15 => exact .refl _ _ s
  all_goals exact hput (by decide) _ _

theorem State.issue_touches (s : State) (code : Nat) (w : At) : Touches [.regs] classRegs s (s.issue code w) := by
  unfold State.issue
  split
  · exact .refl _ _ s
  · exact ((s.tally1_touches code 1).trans (State.recordClass_touches _ _ _)).mono (by simp) (by simp)

/-- A ledger that has failed. -/
def Ledger.rejected (l : Ledger) : Ledger := { l with st := .failed, planned := none, bytes := [] }

/-- The registers of a failed ledger. -/
def planRegs : List RegName := [.sclPlanInfo] ++ classRegs ++ [.sclPlanLastErr, .sclLedgerEvent]

theorem State.ledgerFailed_touches (s : State) (q code : Nat) (entry bucket : Option Nat) :
    Touches [.regs] planRegs (s.setLedger q (s.ledger q).rejected) (s.ledgerFailed q code entry bucket) :=
  ((((State.rputN_touches _ .sclPlanInfo _ _ _).trans (State.issue_touches _ code _)).trans
    (State.rputN_touches _ .sclPlanLastErr _ _ _)).trans (State.raise_touches _ .sclLedgerEvent _ _)).mono
    (by simp) (by simp [planRegs])

theorem State.ledgerFailed_scl (s : State) (q code : Nat) (entry bucket : Option Nat) :
    (s.ledgerFailed q code entry bucket).scl = (s.setLedger q (s.ledger q).rejected).scl :=
  (s.ledgerFailed_touches q code entry bucket).area .scl (by simp)

theorem State.ledgerFailed_lastErr (s : State) (q code : Nat) (entry bucket : Option Nat) :
    (s.ledgerFailed q code entry bucket).rnat .sclPlanLastErr = code % 2 ^ 64 :=
  ((State.raise_touches _ .sclLedgerEvent 1 0).rnat (by decide) 0 0).trans (State.rnat_rputN_same ..)

theorem State.ledgerFailed_event (s : State) (q code : Nat) (entry bucket : Option Nat) :
    (s.ledgerFailed q code entry bucket).rbit .sclLedgerEvent 1 = true := State.rbit_raise_same _ _ (by decide)

/-! ### SUBMIT and DRY_RUN (R136, R144) -/

/-- A ledger in planning, its bytes not yet read. -/
def Ledger.begun (l : Ledger) (dry : Bool) (period : Nat) : Ledger :=
  { l with st := .planning, dry := dry, period := period, planned := none }

/-- A ledger in planning with the bytes read. -/
def Ledger.read (l : Ledger) (bs : List Byte) : Ledger := { l with bytes := bs }

/-- The state in which the ledger of `q` is read. -/
def State.submitted (s : State) (q : Nat) (dry : Bool) : State :=
  s.setLedger q ((s.ledger q).begun dry s.cad.period)

theorem State.ledgerSubmit_passed {s : State} {q addr : Nat} {ext bs : List Byte}
    (hr : (s.readLedger q addr ext).toOption = some bs) (hc : s.ledgerCheck q bs = none) (dry : Bool) :
    s.ledgerSubmit q addr dry ext = s.setLedger q (((s.ledger q).begun dry s.cad.period).read bs) := by
  simp only [State.ledgerSubmit, State.readLedger_setLedger, State.ledgerCheck_setLedger, eq_ok_of_toOption hr, hc,
    State.ledger_setLedger_same, State.setLedger_setLedger_same, Ledger.begun, Ledger.read]

theorem State.ledgerSubmit_failed {s : State} {q addr code : Nat} {ext bs : List Byte} {entry : Option Nat}
    (hr : (s.readLedger q addr ext).toOption = some bs) (hc : s.ledgerCheck q bs = some (code, entry)) (dry : Bool) :
    s.ledgerSubmit q addr dry ext = (s.submitted q dry).ledgerFailed q code entry none := by
  simp only [State.ledgerSubmit, State.readLedger_setLedger, State.ledgerCheck_setLedger, eq_ok_of_toOption hr, hc,
    State.submitted, Ledger.begun]

/-! ### WITHDRAW (R143) -/

/-- The state with the ledger of `q` withdrawn (R143). -/
def State.withdrawn (s : State) (q : Nat) : State :=
  s.setLedger q { s.ledger q with st := .idle, withdraw := (s.ledger q).inForce.isSome }

theorem State.ledgerWithdraw_touches (s : State) (q : Nat) : Touches [] [] (s.withdrawn q) (s.ledgerWithdraw q) :=
  State.logAdd_touches _ _

/-! ### The end of a planning pass (R151, R154) -/

/-- The plan that a pass with these entries makes of a ledger. -/
def Ledger.plan (l : Ledger) (es : List PEntry) : Plan :=
  { id := fieldAt l.bytes 12 4, mode := fieldAt l.bytes 6 1, sendTier := fieldAt l.bytes 7 1,
    start := fieldAt l.bytes 16 6, period := l.period, entries := es.map (·.e), words := (passInfo es).words }

/-- The ledger after a pass without an error: planned, or for a dry run only with its results. -/
def Ledger.passed (l : Ledger) (es : List PEntry) : Ledger :=
  { l with st := if l.dry then .dryDone else .planned, planned := if l.dry then none else some (l.plan es),
           pass := passInfo es, bytes := [] }

theorem State.countOverride_touches (s : State) (n : Nat) :
    Touches [.regs] [.sclOverrideCount, .sclLedgerEvent] s (s.countOverride n) := by
  unfold State.countOverride
  split
  · exact .refl _ _ s
  · exact (((s.count_touches _ _ _ _).trans (State.tally1_touches _ _ _)).trans (State.raise_touches _ _ _ _)).mono
      (by simp) (by simp)

/-- Beside the ledger, a pass without an error counts and logs its overrides, and raises PLANNED. -/
theorem State.passEnd_ok {s : State} {q : Nat} {es : List PEntry} (hst : (s.ledger q).st = .planning)
    (hp : s.planPass q (s.ledger q).period (s.ledger q).bytes = .ok es) :
    ∃ u, Touches [.regs] [.sclOverrideCount, .sclLedgerEvent] (s.setLedger q ((s.ledger q).passed es)) u ∧
      s.passEnd q = u.raise .sclLedgerEvent 0 := by
  unfold State.passEnd
  simp only [hst, hp, ne_eq, not_true_eq_false, if_false]
  refine ⟨_, ?_, rfl⟩
  exact (((Touches.foldl (ps := []) (ns := []) (fun u _ => u.logAdd_touches _) _ _).trans
    (State.countOverride_touches _ _)).trans (State.logAdd_touches _ _)).mono (by simp) (by simp)

end Sys2Proof.Machine
end

section
/-! SUPPORT. The commands of the ledgers: what SCL_LEDGER_CMD, the end of a planning pass and a write of SCL_STREAM_CFG give,
and the statement about them. -/
namespace Sys2Proof.Machine

/-! ### SCL_LEDGER_CMD (Table 5.4, R142) -/

/-- What a command gives whose effect `u` touches neither channels nor contexts, its entry made; of the Scaler it leaves
what the effect does. -/
theorem Noted.scl_gives {c : Instr} {s u t : State} {ps : List Area} {ns : List RegName} {P : State → Prop}
    (h : Noted u t) (e : exec c s = done s t) (hu : Touches ps ns s u) (hd : .dma ∉ ps) (ht : .tiles ∉ ps)
    (hp : ∀ w, w.regs = u.regs → w.scl = u.scl → OnlyIn ps s w → P w) : Gives c s P := by
  have hscl : t.settle.scl = u.scl := t.settle_scl.trans ((h.onlyIn []).2 .scl (by simp))
  exact h.gives e (hu.area .dma hd) (hu.area .tiles ht) (hp _ h.settle_regs hscl (h.settled hu.only hu.outs))

/-- PART and OP of the register's value. -/
theorem ledgerCmd_fields {op : Nat} (ho : op < 16) (q : Fin 8) :
    (op + q.val * 16) &&& RegName.sclLedgerCmd.row.mask = op + q.val * 16 ∧ bits (op + q.val * 16) 6 4 = q ∧
      bits (op + q.val * 16) 3 0 = op := by
  have hmask : (op + q.val * 16) &&& RegName.sclLedgerCmd.row.mask = (op + q.val * 16) % 2 ^ 7 :=
    Nat.and_two_pow_sub_one_eq_mod _ 7
  have hq := q.isLt
  refine ⟨?_, ?_, ?_⟩
  · omega
  · unfold bits; omega
  · unfold bits; omega

/-- A ledger command that is not refused makes at most its entry beside its effect. -/
theorem State.ledgerCmd_noted {s : State} {p : Path} {q : Fin 8} {op : Nat} (ho : inRange op 1 3 = true)
    (hw : s.writes p .sclLedgerCmd 0 0 (op + q.val * 16)) (hr : s.ledgerRefused q op = false) (ext : List Byte) :
    Noted (if op = 2 then s.ledgerWithdraw q
        else (s.ledgerSubmit q (s.pget p.idx .sclLedgerAddr) (op == 3) ext).startOfWork)
      (s.regWrite p .sclLedgerCmd 0 0 (op + q.val * 16) 0 ext) := by
  have hlt : op < 16 := by
    simp only [inRange, Bool.and_eq_true, decide_eq_true_eq] at ho
    omega
  obtain ⟨hmask, hpart, hop⟩ := ledgerCmd_fields hlt q
  have hfield : RegName.sclLedgerCmd.fieldOk 0 (op + q.val * 16) = true :=
    (congrArg (inRange · 1 3) hop).trans ho
  have hc : s.regCommand p .sclLedgerCmd 0 0 (op + q.val * 16) ext [] =
      .ok (if op = 2 then s.ledgerWithdraw q
        else (s.ledgerSubmit q (s.pget p.idx .sclLedgerAddr) (op == 3) ext).startOfWork) := by
    simp only [State.regCommand, State.ledgerCtrl, hpart, hop, hr, Bool.false_eq_true, if_false]
    split <;> rfl
  rw [State.regWrite_open hw (commandRegs_found (by simp [commandRegs1])) (by decide) (by decide)]
  have hacc : RegName.sclLedgerCmd.row.acc = .wo := rfl
  simp only [State.writeWhole, hacc, State.writeWo, hmask, hfield, hc]
  exact .inr ⟨_, rfl⟩

theorem exec_submit (p : Path) (q : Fin 8) (ext : List Byte) (s : State) :
    exec (.submit p q ext) s = done s (s.regWrite p .sclLedgerCmd 0 0 (1 + q.val * 16) 0 ext) := rfl

theorem exec_dryRun (p : Path) (q : Fin 8) (ext : List Byte) (s : State) :
    exec (.dryRun p q ext) s = done s (s.regWrite p .sclLedgerCmd 0 0 (3 + q.val * 16) 0 ext) := rfl

theorem exec_withdraw (p : Path) (q : Fin 8) (s : State) :
    exec (.withdraw p q) s = done s (s.regWrite p .sclLedgerCmd 0 0 (2 + q.val * 16)) := rfl

/-- A ledger that is read and passes its checks is in planning, with its bytes. -/
theorem submit_passed_gives {c : Instr} {s : State} {p : Path} {q : Fin 8} {op : Nat} {ext bs : List Byte}
    (e : exec c s = done s (s.regWrite p .sclLedgerCmd 0 0 (op + q.val * 16) 0 ext)) (ho : op = 1 ∨ op = 3)
    (hw : s.writes p .sclLedgerCmd 0 0 (op + q.val * 16)) (hf : s.ledgerRefused q op = false)
    (hr : (s.readLedger q (s.pget p.idx .sclLedgerAddr) ext).toOption = some bs) (hc : s.ledgerCheck q bs = none) :
    Gives c s (fun t => t.ledger q = ((s.ledger q).begun (op == 3) s.cad.period).read bs ∧ LedgersBut q s t ∧
      OnlyIn [.scl, .pwr] s t) := by
  have hn := State.ledgerCmd_noted (by rcases ho with rfl | rfl <;> rfl) hw hf ext
  rw [if_neg (by omega), State.ledgerSubmit_passed hr hc] at hn
  have hset := s.setLedger_touches q (((s.ledger q).begun (op == 3) s.cad.period).read bs)
  have hwork := (s.setLedger q (((s.ledger q).begun (op == 3) s.cad.period).read bs)).startOfWork_touches
  refine hn.scl_gives e (hset.trans hwork) (by simp) (by simp) (fun t _ hscl hframe => ?_)
  have hledger := hscl.trans (hwork.area .scl (by simp))
  exact ⟨(State.ledger_congr hledger q).trans (State.ledger_setLedger_same ..), .setLedger hledger, hframe⟩

/-- A ledger whose checks fail ends FAILED with the code, and the plan in force is unchanged. -/
theorem submit_failed_gives {s : State} {p : Path} {q : Fin 8} {ext bs : List Byte} {code : Nat} {entry : Option Nat}
    (hw : s.writes p .sclLedgerCmd 0 0 (1 + q.val * 16)) (hf : s.ledgerRefused q 1 = false)
    (hr : (s.readLedger q (s.pget p.idx .sclLedgerAddr) ext).toOption = some bs)
    (hc : s.ledgerCheck q bs = some (code, entry)) :
    Gives (.submit p q ext) s (fun t => t.ledger q = ((s.ledger q).begun false s.cad.period).rejected ∧
      t.rnat .sclPlanLastErr = code % 2 ^ 64 ∧ t.rbit .sclLedgerEvent 1 = true ∧ OnlyIn [.regs, .scl, .pwr] s t) := by
  have hn := State.ledgerCmd_noted rfl hw hf ext
  rw [if_neg (by decide), State.ledgerSubmit_failed hr hc] at hn
  have hfail := (s.submitted q false).ledgerFailed_touches q code entry none
  have hwork := ((s.submitted q false).ledgerFailed q code entry none).startOfWork_touches
  have hall := (((s.setLedger_touches q _).trans (State.setLedger_touches _ q _)).trans hfail).trans hwork
  refine hn.scl_gives (exec_submit p q ext s) hall (by simp) (by simp) (fun t hregs hscl hframe => ?_)
  have hplan (n : RegName) : t.rnat n = ((s.submitted q false).ledgerFailed q code entry none).rnat n :=
    (State.rnat_congr hregs n 0 0).trans (hwork.rnat (by simp) 0 0)
  refine ⟨?_, (hplan _).trans (State.ledgerFailed_lastErr ..), ?_, hframe.mono (by simp)⟩
  · rw [State.ledger_congr (hscl.trans (hwork.area .scl (by simp))), State.ledger_congr (State.ledgerFailed_scl ..)]
    simp [State.submitted]
  · exact (congrArg (bit · 1) (hplan _)).trans (State.ledgerFailed_event ..)

theorem withdraw_gives {s : State} {p : Path} {q : Fin 8} (hw : s.writes p .sclLedgerCmd 0 0 (2 + q.val * 16))
    (hf : s.ledgerRefused q 2 = false) :
    Gives (.withdraw p q) s (fun t =>
      t.ledger q = { s.ledger q with st := .idle, withdraw := (s.ledger q).inForce.isSome } ∧ LedgersBut q s t ∧
      OnlyIn [.scl] s t) := by
  have hn := State.ledgerCmd_noted rfl hw hf []
  rw [if_pos rfl] at hn
  have hlog := s.ledgerWithdraw_touches q
  refine hn.scl_gives (exec_withdraw p q s) ((s.setLedger_touches q _).trans hlog) (by simp) (by simp)
    (fun t _ hscl hframe => ?_)
  have hledger : t.scl = (s.withdrawn q).scl := hscl.trans (hlog.area .scl (by simp))
  exact ⟨(State.ledger_congr hledger q).trans (State.ledger_setLedger_same ..), .setLedger hledger, hframe⟩

/-! ### PLANNING_PASS_END -/

theorem exec_planningPassEnd (q : Fin 8) (s : State) : exec (.planningPassEnd q) s = done s (s.passEnd q) := rfl

theorem planningPassEnd_gives {s : State} {q : Fin 8} {es : List PEntry} (hst : (s.ledger q).st = .planning)
    (hp : s.planPass q (s.ledger q).period (s.ledger q).bytes = .ok es) :
    Gives (.planningPassEnd q) s (fun t => t.ledger q = (s.ledger q).passed es ∧ LedgersBut q s t ∧
      t.rbit .sclLedgerEvent 0 = true ∧ OnlyIn [.regs, .scl] s t) := by
  obtain ⟨u, hu, hend⟩ := State.passEnd_ok hst hp
  have hraise := u.raise_touches .sclLedgerEvent 0 0
  have e := exec_planningPassEnd q s
  rw [hend] at e
  refine Noted.scl_gives (.inl rfl) e (((s.setLedger_touches q _).trans hu).trans hraise) (by simp) (by simp)
    (fun t hregs hscl hframe => ?_)
  have hledger := hscl.trans ((hu.trans hraise).area .scl (by simp))
  refine ⟨(State.ledger_congr hledger q).trans (State.ledger_setLedger_same ..), .setLedger hledger, ?_,
    hframe.mono (by simp)⟩
  exact (congrArg (bit · 0) (State.rnat_congr hregs ..)).trans (u.rbit_raise_same .sclLedgerEvent (by decide))

/-! ### SCL_STREAM_CFG (R217) -/

theorem exec_streamCfgWrite (p : Path) (st : Fin 64) (v : W64) (s : State) :
    exec (.streamCfgWrite p st v) s = done s (s.regWrite p .sclStreamCfg st 0 v.toNat) := rfl

theorem streamCfgWrite_gives {s : State} {p : Path} {st : Fin 64} {v : W64}
    (hw : s.writes p .sclStreamCfg st 0 v.toNat)
    (hf : RegName.sclStreamCfg.fieldOk st (v.toNat &&& RegName.sclStreamCfg.row.mask) = true)
    (hk : s.rwAccept p.idx .sclStreamCfg st 0 (v.toNat &&& RegName.sclStreamCfg.row.mask) = true) :
    Gives (.streamCfgWrite p st v) s (fun t =>
      t.rnat .sclStreamCfg st = v.toNat &&& RegName.sclStreamCfg.row.mask ∧
      RegsBut [RegName.sclStreamCfg.key st 0] s t ∧ OnlyIn [.regs] s t) := by
  have e := exec_streamCfgWrite p st v s
  rw [State.regWrite_open hw (commandRegs_found (by simp [commandRegs1])) st.isLt (by decide)] at e
  refine (accepted_gives e v.isLt rfl rfl hf hk rfl rfl rfl rfl (.refl [] s)).mono ?_
  rintro t ⟨hget, -, hregs, hframe⟩
  exact ⟨hget, hregs, hframe⟩

/-- Settles O24: each command comes to one change of the partition's ledger, and what it brings with it leaves the others
alone. -/
theorem ledgerCommands : Obligations.LedgerCommands := by
  unfold Obligations.LedgerCommands
  refine fun s => ⟨fun p q ext bs hw hf hr hc => submit_passed_gives (exec_submit p q ext s) (.inl rfl) hw hf hr hc,
    fun p q ext bs hw hf hr hc => submit_passed_gives (exec_dryRun p q ext s) (.inr rfl) hw hf hr hc,
    fun p q ext bs code entry hw hf hr hc => ?_, fun p q hw hf => withdraw_gives hw hf, fun q es hst hp => ?_,
    fun p st v hw hf hk => streamCfgWrite_gives hw hf hk⟩
  · refine (submit_failed_gives hw hf hr hc).mono ?_
    rintro t ⟨hledger, hrest⟩
    rw [hledger]
    exact ⟨rfl, rfl, rfl, hrest⟩
  · refine (planningPassEnd_gives hst hp).mono ?_
    rintro t ⟨hledger, hrest⟩
    rw [hledger]
    refine ⟨rfl, rfl, ?_, rfl, hrest⟩
    cases hdry : (s.ledger q).dry <;> simp [Ledger.passed, Ledger.plan, hdry]

end Sys2Proof.Machine
end

section
/-! SUPPORT. Channels of the DMA complexes (R213 to R239): what a change of one leaves alone, what a command gives that
changes channels, and what stopping a channel comes to. -/
namespace Sys2Proof.Machine

/-! ### One channel -/

theorem State.chan_congr {s t : State} (h : t.dma.chans = s.dma.chans) (e m : Nat) : t.chan e m = s.chan e m := by
  simp [State.chan, h]

@[simp] theorem State.chan_setChan_same (s : State) (d n : Nat) (c : Chan) : (s.setChan d n c).chan d n = c :=
  NMap.getD_put_same ..

theorem State.setChan_chans_congr {s t : State} (h : t.dma.chans = s.dma.chans) (d n : Nat) (c : Chan) :
    (t.setChan d n c).dma.chans = (s.setChan d n c).dma.chans := by
  simp [State.setChan, h]

theorem State.setChan_setChan_same (s : State) (d n : Nat) (b c : Chan) :
    (s.setChan d n b).setChan d n c = s.setChan d n c := by
  simp only [State.setChan, NMap.put_put_same]

theorem State.withDma_touches (s : State) (x : Dma) : Touches [.dma] [] s { s with dma := x } := by
  refine .of_regs ⟨rfl, fun p hp => ?_⟩ rfl rfl
  cases p with
  | dma => exact absurd (List.mem_singleton.mpr rfl) hp
  | outs => exact .inl rfl
  | _ => rfl

theorem State.setChan_touches (s : State) (d n : Nat) (c : Chan) : Touches [.dma] [] s (s.setChan d n c) :=
  s.withDma_touches _

/-- Channels are held apart by complex and number. -/
theorem ChansBut.setChan {s t : State} {d n : Nat} {c : Chan} (hn : n < 64)
    (h : t.dma.chans = (s.setChan d n c).dma.chans) : ChansBut d n s t := by
  intro e m hm hne
  rw [State.chan_congr h, State.chan_setChan, if_neg (by omega)]

/-- A channel of the chains makes the accesses of the partition that the image gives it to (R214). -/
theorem State.chanPart_congr {s t : State} (h : t.img = s.img) {n : Nat} (hn : n ≠ 63) (d : Nat) :
    t.chanPart d n = s.chanPart d n := by
  simp [State.chanPart, hn, State.ownerChan, State.parts, h]

/-! ### Commands that change channels -/

theorem NMap.mem_of_get? {α : Type} {m : NMap α} {k : Nat} {v : α} (h : NMap.get? m k = some v) : (k, v) ∈ m := by
  induction m with
  | nil => cases h
  | cons e m ih =>
    rw [NMap.get?] at h
    split at h
    · next hk => cases h; cases hk; exact List.mem_cons_self ..
    · exact List.mem_cons_of_mem _ (ih h)

/-- An unlisted channel is IDLE, so that a left-over failure is looked for in every channel. -/
theorem State.noLeftFailures_iff (s : State) : s.noLeftFailures ↔
    ∀ k, (s.chan (k / 64) (k % 64)).st = .stopped → (s.chan (k / 64) (k % 64)).work.owned = false := by
  refine ⟨fun h k hk => ?_, fun h e _ => h e.1⟩
  cases hget : NMap.get? s.dma.chans k with
  | none =>
    have hidle : s.chan (k / 64) (k % 64) = {} := by
      simp [State.chan, NMap.getD, Nat.div_add_mod', hget]
    simp [hidle] at hk
  | some c => exact h (k, c) (NMap.mem_of_get? hget) hk

/-- A channel that stops by a command, if one does, works for a chain or a host, and for no serving engine. -/
def State.StopsAlone (s u : State) (k : Nat) : Prop :=
  (u.chan (k / 64) (k % 64)).st = .stopped →
    ((s.chan (k / 64) (k % 64)).st = .stopped ∧ (u.chan (k / 64) (k % 64)).work = (s.chan (k / 64) (k % 64)).work) ∨
    ((u.chan (k / 64) (k % 64)).work.owned = false ∧ ∀ q, u.chanPart (k / 64) (k % 64) = some q → u.notServing q)

theorem State.newErrors_stopsAlone {s u : State} (h : ∀ k, s.StopsAlone u k) (ht : u.tiles = s.tiles) :
    ∀ e ∈ u.newErrors s, u.notServing e.1 := by
  intro e he
  simp only [State.newErrors, List.mem_append, List.mem_filterMap, List.mem_flatMap] at he
  rcases he with ⟨a, -, ha⟩ | ⟨a, -, f, -, hf⟩
  · simp only [Option.ite_none_right_eq_some, Bool.and_eq_true, decide_eq_true_eq, Option.map_eq_some_iff] at ha
    obtain ⟨⟨⟨hstop, hnew⟩, -⟩, q, hq, rfl⟩ := ha
    rcases h a.1 hstop with ⟨hold, -⟩ | ⟨-, halone⟩
    · exact absurd hold hnew
    · exact halone q hq
  · simp [State.ctx_congr ht] at hf

theorem State.noLeftFailures_stopsAlone {s u : State} (h : ∀ k, s.StopsAlone u k) (hq : s.noLeftFailures) :
    u.noLeftFailures := by
  refine u.noLeftFailures_iff.mpr fun k hk => ?_
  rcases h k hk with ⟨hold, hwork⟩ | ⟨howned, -⟩
  · rw [hwork]
    exact s.noLeftFailures_iff.mp hq k hold
  · exact howned

/-- What a command gives whose effect `u` changes channels, but no context, and lets no failure spread. -/
theorem chans_gives {i : Instr} {s u : State} {ps : List Area} {ns : List RegName} {P : State → Prop}
    (e : exec i s = done s u) (hq : s.noLeftFailures) (hstop : ∀ k, s.StopsAlone u k) (hu : Touches ps ns s u)
    (ht : .tiles ∉ ps) (hp : ∀ t, t.dma = u.dma → t.regs = u.regs → OnlyIn ps s t → P t) : Gives i s P :=
  done_quiet e (State.newErrors_stopsAlone hstop (hu.area .tiles ht)) (State.noLeftFailures_stopsAlone hstop hq)
    (hp _ u.settle_dma u.settle_regs (hu.only.settled hu.outs))

/-- Of channels of which one has changed, none but that one can have stopped. -/
theorem State.stopsAlone_setChan {s u : State} {d n : Nat} {c : Chan} (hn : n < 64)
    (hd : u.dma.chans = (s.setChan d n c).dma.chans)
    (hc : c.st = .stopped → c.work.owned = false ∧ ∀ q, u.chanPart d n = some q → u.notServing q) (k : Nat) :
    s.StopsAlone u k := by
  unfold State.StopsAlone
  rw [State.chan_congr hd, State.chan_setChan, Nat.div_add_mod']
  split
  · next h =>
    have hdiv : k / 64 = d := by omega
    have hmod : k % 64 = n := by omega
    rw [hdiv, hmod]
    exact fun hst => .inr (hc hst)
  · exact fun hst => .inl ⟨hst, rfl⟩

/-- What a command gives whose effect `u` gives one channel the value `c`, its entry made. -/
theorem Noted.chan_gives {i : Instr} {s u t : State} {d n : Nat} {c : Chan} {ps : List Area} {ns : List RegName}
    {P : State → Prop} (h : Noted u t) (e : exec i s = done s t) (hq : s.noLeftFailures) (hn : n < 64)
    (hd : u.dma.chans = (s.setChan d n c).dma.chans)
    (hc : c.st = .stopped → c.work.owned = false ∧ ∀ q, u.chanPart d n = some q → u.notServing q)
    (hu : Touches ps ns s u) (ht : .tiles ∉ ps)
    (hp : ∀ w, w.chan d n = c → ChansBut d n s w → w.regs = u.regs → OnlyIn ps s w → P w) : Gives i s P := by
  have hall : Touches ps ns s t := by
    rcases h with rfl | ⟨x, rfl⟩
    · exact hu
    · exact (hu.trans (u.logAdd_touches x)).mono (by simp) (by simp)
  have hdma : t.dma = u.dma := (h.onlyIn []).2 .dma (by simp)
  have himg : t.img = u.img := (h.onlyIn []).2 .img (by simp)
  have htier : t.tier = u.tier := (h.onlyIn []).2 .tier (by simp)
  have hregs : t.regs = u.regs := (h.onlyIn []).2 .regs (by simp)
  have hchans : t.dma.chans = (s.setChan d n c).dma.chans := by rw [hdma, hd]
  have hpart : t.chanPart d n = u.chanPart d n := by
    simp [State.chanPart, State.ownerChan, State.parts, State.hold?, hdma, himg, htier]
  refine chans_gives e hq (State.stopsAlone_setChan hn hchans fun hst => ?_) hall ht fun w hwd hwr hwo => ?_
  · obtain ⟨howned, hserve⟩ := hc hst
    exact ⟨howned, fun q hq => State.notServing_congr himg (hserve q (hpart ▸ hq))⟩
  · have hwc : w.dma.chans = (s.setChan d n c).dma.chans := by rw [hwd, hchans]
    exact hp w ((State.chan_congr hwc d n).trans (State.chan_setChan_same ..)) (.setChan hn hwc) (hwr.trans hregs) hwo

/-! ### Commands to a channel (Table 8.4) -/

/-- A command of DMA_CH_CTRL that is taken makes at most its entry beside its effect. -/
theorem State.chCtrl_noted {s t : State} {p : Path} {d : Fin 4} {n : Fin 64} {v : Nat}
    (hw : s.writes p .dmaChCtrl d n v) (hv : v = 1 ∨ v = 2 ∨ v = 4) (hc : s.chCtrl p d n v = .ok t) : Noted t (s.regWrite p .dmaChCtrl d n v) := by
  have hmask : v &&& RegName.dmaChCtrl.row.mask = v := by rcases hv with rfl | rfl | rfl <;> rfl
  have hfound := commandRegs_found (n := .dmaChCtrl) (by simp [commandRegs4])
  refine State.regWrite_command_noted hw hfound d.isLt n.isLt rfl ?_ (by decide) ?_
  · rw [hmask]
    rcases hv with rfl | rfl | rfl <;> rfl
  · rw [hmask]
    exact hc

/-! ### The start of a chain (R216) -/

/-- The channel reads the descriptor at `head`, with HOPS 0. -/
def Chan.started (c : Chan) (limit head : Nat) : Chan :=
  { c with st := .fetch, work := .chain, hops := 0, limit := limit, fetchAddr := head }

theorem State.startOfWork_regs (s : State) : s.startOfWork.regs = s.regs := s.startOfWork_touches.area .regs (by simp)

theorem State.startOfWork_chans (s : State) : s.startOfWork.dma.chans = s.dma.chans :=
  congrArg Dma.chans (s.startOfWork_touches.area .dma (by simp))

/-- DMA_CH_HEAD is set, work starts, and the channel reads its first descriptor. -/
theorem State.startChain_eq (s : State) (d n head : Nat) :
    s.startChain d n head = (s.rputN .dmaChHead head d n).startOfWork.setChan d n
      ((s.chan d n).started (bits (s.rnat .dmaHopLimit d) 15 0) head) := by
  have hchan : (s.rputN .dmaChHead head d n).startOfWork.chan d n = s.chan d n :=
    State.chan_congr (State.startOfWork_chans _) d n
  have hlimit : (s.rputN .dmaChHead head d n).startOfWork.rnat .dmaHopLimit d = s.rnat .dmaHopLimit d :=
    (State.rnat_congr (State.startOfWork_regs _) ..).trans (State.rnat_rputN_ne _ _ _ _ _ _ _ _ (by decide))
  simp [State.startChain, Chan.started, hchan, hlimit]

theorem State.startChain_touches (s : State) (d n head : Nat) :
    Touches [.regs, .pwr, .dma] [.dmaChHead] s (s.startChain d n head) := by
  rw [State.startChain_eq]
  exact (((s.rputN_touches _ _ _ _).trans (State.startOfWork_touches _)).trans (State.setChan_touches _ _ _ _)).mono
    (by simp) (by simp)

theorem State.startChain_chans (s : State) (d n head : Nat) :
    (s.startChain d n head).dma.chans =
      (s.setChan d n ((s.chan d n).started (bits (s.rnat .dmaHopLimit d) 15 0) head)).dma.chans := by
  rw [State.startChain_eq]
  exact State.setChan_chans_congr (State.startOfWork_chans _) ..

theorem State.startChain_regs (s : State) (d n head : Nat) :
    (s.startChain d n head).regs = (s.rputN .dmaChHead head d n).regs := by
  rw [State.startChain_eq]
  exact State.startOfWork_regs _

/-! ### A stop (R204, R230, R238) -/

/-- The channel without a slot, bays, XPC slots, waits and phase points. -/
def Chan.released (c : Chan) : Chan :=
  { c with slot := none, bays := 0, xpcSlots := 0, xpcWait := false, xfer := .none, retry := none, pieces := [],
           buf := [], waitDone := false, late := false, deadline := none, startAt := none, startReached := false }

/-- The channel in STOPPED with a code and the address of the descriptor concerned. -/
def Chan.stopped (c : Chan) (code errAddr : Nat) : Chan :=
  { c.released with st := .stopped, err := code, errAddr := errAddr, moving := none,
                    work := if c.work.isScaler then c.work else .chain }

/-- Beside the channel, its wait, its requests and its hold of the step go. -/
theorem State.releaseChan_touches (s : State) (d n : Nat) :
    Touches [.regs, .cad, .crn, .fab] [.cadHoldCount] (s.setChan d n (s.chan d n).released) (s.releaseChan d n) :=
  (((State.cancelWait_touches _ _).trans (State.holdEnd_touches _ _)).trans (State.withFab_touches _ _)).mono
    (by simp) (by simp)

theorem State.releaseChan_chans (s : State) (d n : Nat) :
    (s.releaseChan d n).dma.chans = (s.setChan d n (s.chan d n).released).dma.chans :=
  congrArg Dma.chans ((s.releaseChan_touches d n).area .dma (by simp))

theorem State.chan_releaseChan (s : State) (d n : Nat) : (s.releaseChan d n).chan d n = (s.chan d n).released :=
  (State.chan_congr (s.releaseChan_chans d n) d n).trans (State.chan_setChan_same ..)

/-- The channel has been released and stands in STOPPED. -/
def State.chanStopped (s : State) (d n code errAddr : Nat) : State :=
  (s.releaseChan d n).setChan d n ((s.chan d n).stopped code errAddr)

theorem State.chanStopped_chans (s : State) (d n code errAddr : Nat) :
    (s.chanStopped d n code errAddr).dma.chans = (s.setChan d n ((s.chan d n).stopped code errAddr)).dma.chans :=
  (State.setChan_chans_congr (s.releaseChan_chans d n) ..).trans
    (congrArg (fun u => u.dma.chans) (State.setChan_setChan_same ..))

theorem State.chanStopped_touches (s : State) (d n code errAddr : Nat) :
    Touches [.regs, .cad, .crn, .fab, .dma] [.cadHoldCount] s (s.chanStopped d n code errAddr) :=
  (((s.setChan_touches d n _).trans (s.releaseChan_touches d n)).trans (State.setChan_touches _ _ _ _)).mono
    (by simp) (by simp)

/-- The registers of a stop, and of the add to the channel's error cairn. -/
def stopRegs : List RegName := classRegs ++ ([.dmaLastErr, .dmaStopEvent, .dmaStopCount] ++ addRegs)

/-- What the stop of a chain's channel then brings with it: its code, its event and count, and the error cairn's add. -/
theorem State.stopChan_touches {s : State} {d n : Nat} (hw : (s.chan d n).work = .chain) (code errAddr : Nat)
    (quiet : Bool) :
    Touches [.regs, .crn, .fab] stopRegs (s.chanStopped d n code errAddr) (s.stopChan d n code errAddr quiet) := by
  unfold State.stopChan
  extract_lets c part released old stopped issued recorded counted answered
  have hstopped : stopped = s.chanStopped d n code errAddr := by
    unfold stopped State.chanStopped Chan.stopped
    rw [← State.chan_releaseChan]
  have hanswered : answered = counted := by
    unfold answered c
    rw [hw]
  have hissued : Touches [.regs] classRegs stopped issued := by
    unfold issued
    split
    · exact .refl _ _ _
    · exact State.issue_touches _ _ _
  have hrecorded : Touches [.regs] [.dmaLastErr] issued recorded := State.rputN_touches _ _ _ _ _
  have hcounted : Touches [.regs] [.dmaStopEvent, .dmaStopCount] recorded counted :=
    (((State.raise_touches _ _ _ _).trans (State.count_touches _ _ _ _ _)).trans (State.tally1_touches _ _ _)).mono
      (by simp) (by simp)
  rw [← hstopped, hanswered]
  exact (((hissued.trans hrecorded).trans hcounted).trans (State.errCairn_touches _ _ _)).mono (by simp)
    (by simp [stopRegs])

theorem State.stopChan_chans {s : State} {d n : Nat} (hw : (s.chan d n).work = .chain) (code errAddr : Nat)
    (quiet : Bool) :
    (s.stopChan d n code errAddr quiet).dma.chans = (s.setChan d n ((s.chan d n).stopped code errAddr)).dma.chans :=
  (congrArg Dma.chans ((State.stopChan_touches hw code errAddr quiet).area .dma (by simp))).trans
    (State.chanStopped_chans ..)

theorem State.abortChan_waiting {s : State} {d n : Nat} (hst : (s.chan d n).st = .fetch ∨ (s.chan d n).st = .wait)
    (hm : (s.chan d n).moving = none) :
    s.abortChan d n =
      some (s.stopChan d n 0x0104 (if (s.chan d n).st = .fetch then (s.chan d n).fetchAddr else (s.chan d n).cur)) := by
  rcases hst with hst | hst <;> simp [State.abortChan, hst, hm]

end Sys2Proof.Machine
end

section
/-! SUPPORT. The eviction machine (R126 to R128, R156) where it runs beside a command: it writes registers, completions,
the tiers and the queue of routes, and no channel. -/
namespace Sys2Proof.Machine

/-- The registers of an eviction. -/
def evictRegs : List RegName :=
  classRegs ++ [.sclTierEvent, .sclEvictCount, .sclEvictFail, .sclOverrideCount, .sclLedgerEvent, .imgFsmNotrans]

/-- What the eviction machine can do from `s` to `t`. -/
structure Evicts (s t : State) : Prop where
  touches : Touches [.regs, .hif, .tier, .dma] evictRegs s t
  chans : t.dma.chans = s.dma.chans

namespace Evicts

theorem refl (s : State) : Evicts s s := ⟨.refl _ _ s, rfl⟩

theorem trans {s t u : State} (h : Evicts s t) (k : Evicts t u) : Evicts s u :=
  ⟨(h.touches.trans k.touches).mono (by simp) (by simp), k.chans.trans h.chans⟩

theorem of_touches {ps : List Area} {ns : List RegName} {s t : State} (h : Touches ps ns s t)
    (hp : ps ⊆ [.regs, .hif, .tier] := by simp) (hn : ns ⊆ evictRegs := by simp [evictRegs]) : Evicts s t :=
  ⟨h.mono (List.Subset.trans hp (by simp)) hn, congrArg Dma.chans (h.area .dma (fun k => by simpa using hp k))⟩

theorem foldl {α : Type} {f : State → α → State} (hf : ∀ u a, Evicts u (f u a)) (l : List α) (s : State) :
    Evicts s (l.foldl f s) := by
  induction l generalizing s with
  | nil => exact refl s
  | cons a l ih => exact (hf s a).trans (ih (f s a))

end Evicts

theorem State.withTier_evicts (s : State) (r : Tier) : Evicts s { s with tier := r } :=
  .of_touches (ps := [.tier]) s.withStores_touches

theorem State.setHold_evicts (s : State) (id : Nat) (h : Holding) : Evicts s (s.setHold id h) := s.withTier_evicts _

theorem State.setEvict_evicts (s : State) (x : Evict) : Evicts s (s.setEvict x) := s.withTier_evicts _

theorem State.dropEvict_evicts (s : State) (id : Nat) : Evicts s (s.dropEvict id) := s.withTier_evicts _

theorem State.issue_evicts (s : State) (code : Nat) (w : At) : Evicts s (s.issue code w) :=
  .of_touches (s.issue_touches code w)

theorem State.count_evicts (s : State) {n : RegName} (hn : n ∈ evictRegs) (k i j : Nat) : Evicts s (s.count n k i j) :=
  .of_touches (s.count_touches n k i j) (hn := by simpa using hn)

theorem State.raise_evicts (s : State) {n : RegName} (hn : n ∈ evictRegs) (b i : Nat) : Evicts s (s.raise n b i) :=
  .of_touches (s.raise_touches n b i) (hn := by simpa using hn)

theorem State.logAdd_evicts (s : State) (e : LogEntry) : Evicts s (s.logAdd e) := .of_touches (s.logAdd_touches e)

theorem State.touchHold_evicts (s : State) (id : Nat) : Evicts s (s.touchHold id) := by
  unfold State.touchHold
  split
  · exact s.setHold_evicts _ _
  · exact .refl s

/-! ### Allocations that wait (R127) -/

theorem State.complete_touches (s : State) (f tag result detail code v32 v64 : Nat) :
    Touches [.hif] [] s (s.complete f tag result detail code v32 v64) := by
  refine .of_regs ⟨rfl, fun p hp => ?_⟩ rfl rfl
  cases p with
  | hif => exact absurd (List.mem_singleton.mpr rfl) hp
  | outs => exact .inl rfl
  | _ => rfl

theorem State.complete_evicts (s : State) (f tag result detail code v32 v64 : Nat) :
    Evicts s (s.complete f tag result detail code v32 v64) := .of_touches (s.complete_touches ..)

theorem State.makeHold_evicts (s : State) (h : Holding) : Evicts s (s.makeHold h).2 :=
  (s.withTier_evicts _).trans (State.setHold_evicts _ _ _)

theorem State.allocTry_evicts (s : State) (r : AllocReq) : Evicts s (s.allocTry r).2 := by
  unfold State.allocTry
  extract_lets mk
  have hmk (b : Nat) : Evicts s (mk b).2 := s.makeHold_evicts _
  clear_value mk
  split
  · exact .refl s
  split
  · exact .refl s
  split
  · exact .refl s
  split
  · split
    · exact .refl s
    · split
      · exact hmk _
      · exact .refl s
  · split
    · exact hmk _
    · split <;> exact .refl s

theorem State.exhausted_evicts (s : State) (p : Nat) : Evicts s (s.exhausted p) :=
  (s.issue_evicts _ _).trans (State.raise_evicts _ (by simp [evictRegs]) _ _)

theorem State.settleAlloc_evicts (s : State) (id : Nat) : Evicts s (s.settleAlloc id) := by
  unfold State.settleAlloc
  split
  · exact .refl s
  extract_lets drop
  have hdrop (u : State) : Evicts u (drop u) := u.withTier_evicts _
  clear_value drop
  split
  · exact .refl s
  have htry (r : AllocReq) {x : AllocRes} {u : State} (e : s.allocTry r = (x, u)) : Evicts s u := by
    simpa [e] using s.allocTry_evicts r
  split
  · next e => exact ((htry _ e).trans (hdrop _)).trans (State.complete_evicts ..)
  · next e => exact (((htry _ e).trans (hdrop _)).trans (State.issue_evicts ..)).trans (State.complete_evicts ..)
  · next e => exact htry _ e
  · next e =>
    split
    · exact htry _ e
    · exact (((htry _ e).trans (hdrop _)).trans (State.exhausted_evicts ..)).trans (State.complete_evicts ..)

theorem State.replaceVictim_evicts (s : State) (alloc : Nat) : Evicts s (s.replaceVictim alloc) := by
  unfold State.replaceVictim
  split
  · exact .refl s
  split
  · exact s.withTier_evicts _
  · exact s.settleAlloc_evicts _

/-! ### Instances of the machine (Table 5.8) -/

theorem State.countOverride_evicts (s : State) (n : Nat) : Evicts s (s.countOverride n) :=
  .of_touches (s.countOverride_touches n)

/-- START marks the holding and queues its route; the channels find it there (R215). -/
theorem State.startRoute_evicts {s t : State} {x : Evict} {h : Holding} {valley : Bool}
    (e : s.startRoute x h valley = some t) : Evicts s t := by
  unfold State.startRoute at e
  extract_lets go at e
  have hgo (d : Option Nat) : Evicts s (go d) :=
    (s.setHold_evicts _ _).trans ⟨(State.withDma_touches _ _).mono (by simp) (by simp), rfl⟩
  clear_value go
  split at e
  · cases e
    exact hgo _
  · obtain ⟨b, -, rfl⟩ := Option.map_eq_some_iff.mp e
    exact hgo _
  · obtain ⟨b, -, rfl⟩ := Option.map_eq_some_iff.mp e
    exact hgo _
  · obtain ⟨b, -, rfl⟩ := Option.map_eq_some_iff.mp e
    exact hgo _
  · cases e

theorem State.evictAction_evicts (s : State) (x : Evict) (h : Holding) (c : Cell) : Evicts s (s.evictAction x h c) := by
  unfold State.evictAction
  split
  · exact s.setEvict_evicts _
  · split
    · next e => exact State.startRoute_evicts e
    · exact s.setEvict_evicts _
  · refine .trans ?_ (State.settleAlloc_evicts _ _)
    have hcount : Evicts s (s.count .sclEvictCount) := s.count_evicts (by simp [evictRegs]) 1 0 0
    split
    · exact (hcount.trans (State.logAdd_evicts ..)).trans (State.countOverride_evicts ..)
    · exact hcount
  · exact (s.dropEvict_evicts _).trans (State.replaceVictim_evicts ..)
  · exact ((s.dropEvict_evicts _).trans (State.count_evicts _ (by simp [evictRegs]) _ _ _)).trans
      (State.replaceVictim_evicts ..)
  · exact .refl s

theorem State.fsmNoTransition_evicts (s : State) : Evicts s s.fsmNoTransition :=
  (s.count_evicts (by simp [evictRegs]) _ _ _).trans (State.issue_evicts ..)

theorem State.fsmLog_evicts (s : State) (p m inst st ev : Nat) (c : Cell) : Evicts s (s.fsmLog p m inst st ev c) := by
  unfold State.fsmLog
  split
  · exact s.logAdd_evicts _
  · exact .refl s

theorem State.evictEventOn_evicts (s : State) (x : Evict) (h : Holding) (ev : Nat) :
    Evicts s (s.evictEventOn x h ev) := by
  unfold State.evictEventOn
  dsimp only
  split
  · exact s.dropEvict_evicts _
  split
  · exact s.fsmNoTransition_evicts
  · have hact (y : Evict) (c : Cell) :
        Evicts s (((s.setEvict y).fsmLog h.owner 1 x.hold x.st ev c).evictAction y h c) :=
      ((s.setEvict_evicts y).trans (State.fsmLog_evicts ..)).trans (State.evictAction_evicts ..)
    split
    · exact (hact _ _).trans (State.dropEvict_evicts ..)
    · exact hact _ _

theorem State.evictEvent_evicts (s : State) (hold ev : Nat) : Evicts s (s.evictEvent hold ev) := by
  unfold State.evictEvent
  split
  · exact s.evictEventOn_evicts _ _ _
  · exact s.dropEvict_evicts _
  · exact .refl s

theorem State.startVictims_evicts (fuel : Nat) (s : State) : Evicts s (State.startVictims fuel s) := by
  induction fuel generalizing s with
  | zero => exact .refl s
  | succ fuel ih =>
    unfold State.startVictims
    split
    · exact .refl s
    split
    · exact .refl s
    · exact ((s.withTier_evicts _).trans (State.evictEvent_evicts ..)).trans (ih _)

theorem State.nameHold_evicts (s : State) (id : Nat) : Evicts s (s.nameHold id) := by
  unfold State.nameHold
  split
  · exact (s.evictEvent_evicts _ _).trans (State.startVictims_evicts _ _)
  · exact s.withTier_evicts _

/-- The ranges of a descriptor restart ages and end evictions of the holdings that they name (R124, R128). -/
theorem State.nameRanges_evicts (s : State) (x : Desc) : Evicts s (s.nameRanges x) := by
  refine .foldl (fun u r => ?_) _ s
  split
  · split
    · exact (u.touchHold_evicts _).trans (State.nameHold_evicts ..)
    · exact .refl u
  · exact .refl u

end Sys2Proof.Machine
end

section
/-! SUPPORT. The commands of the channels (R203, R216 to R231): what each comes to, and the statement about them. -/
namespace Sys2Proof.Machine

/-! ### DMA_CH_CTRL -/

theorem exec_dmaChGo (p : Path) (d : Fin 4) (n : Fin 64) (s : State) :
    exec (.dmaChGo p d n) s = done s (s.regWrite p .dmaChCtrl d n 1) := rfl

theorem exec_dmaChAbort (p : Path) (d : Fin 4) (n : Fin 64) (s : State) :
    exec (.dmaChAbort p d n) s = done s (s.regWrite p .dmaChCtrl d n 2) := rfl

theorem exec_dmaChClear (p : Path) (d : Fin 4) (n : Fin 64) (s : State) :
    exec (.dmaChClear p d n) s = done s (s.regWrite p .dmaChCtrl d n 4) := rfl

theorem dmaChGo_gives {s : State} {p : Path} {d : Fin 4} {n : Fin 64} (hq : s.noLeftFailures)
    (hw : s.writes p .dmaChCtrl d n 1)
    (hr : s.startRefusal (s.pathPart p) d n (s.rnat .dmaChHead d n) = none) :
    Gives (.dmaChGo p d n) s (fun t =>
      t.chan d n = (s.chan d n).started (bits (s.rnat .dmaHopLimit d) 15 0) (s.rnat .dmaChHead d n) ∧
      ChansBut d n s t ∧ RegsBut [RegName.dmaChHead.key d n] s t ∧ t.rget .dmaChHead d n = s.rget .dmaChHead d n ∧
      OnlyIn [.regs, .pwr, .dma] s t) := by
  have hc : s.chCtrl p d n 1 = .ok (s.startChain d n (s.rnat .dmaChHead d n)) := by
    simp [State.chCtrl, bit, hr]
  refine (State.chCtrl_noted hw (.inl rfl) hc).chan_gives (exec_dmaChGo p d n s) hq n.isLt (s.startChain_chans ..)
    (fun h => by cases h) (s.startChain_touches ..) (by simp) (fun t hchan hbut hregs honly => ?_)
  have hput : t.regs = (s.rputN .dmaChHead (s.rnat .dmaChHead d n) d n).regs := hregs.trans (s.startChain_regs ..)
  refine ⟨hchan, hbut, (RegsBut.rput s _ _ _ _).trans (.of hput), ?_, honly⟩
  rw [State.rget_congr hput]
  simp [State.rputN, State.rnat]

theorem dmaChAbort_gives {s : State} {p : Path} {d : Fin 4} {n : Fin 64} {q : Nat} (hq : s.noLeftFailures)
    (hw : s.writes p .dmaChCtrl d n 2) (hn : n.val ≠ 63) (ho : s.scalerOwned d n = false)
    (hst : (s.chan d n).st = .fetch ∨ (s.chan d n).st = .wait) (hm : (s.chan d n).moving = none)
    (hwork : (s.chan d n).work = .chain) (hp : s.chanPart d n = some q) (hs : s.notServing q) :
    Gives (.dmaChAbort p d n) s (fun t =>
      t.chan d n = (s.chan d n).stopped 0x0104
        (if (s.chan d n).st = .fetch then (s.chan d n).fetchAddr else (s.chan d n).cur) ∧
      ChansBut d n s t ∧ OnlyIn [.regs, .cad, .crn, .fab, .dma] s t) := by
  generalize haddr : (if (s.chan d n).st = .fetch then (s.chan d n).fetchAddr else (s.chan d n).cur) = addr
  have hc : s.chCtrl p d n 2 = .ok (s.stopChan d n 0x0104 addr) := by
    simp [State.chCtrl, bit, hn, ho, State.abortChan_waiting hst hm, orRefuse, haddr]
  have hu := (s.chanStopped_touches d n 0x0104 addr).trans (State.stopChan_touches hwork 0x0104 addr false)
  have himg : (s.stopChan d n 0x0104 addr).img = s.img := hu.area .img (by simp)
  refine (State.chCtrl_noted hw (.inr (.inl rfl)) hc).chan_gives (exec_dmaChAbort p d n s) hq n.isLt
    (State.stopChan_chans hwork 0x0104 addr false) (fun _ => ⟨?_, fun r hr => ?_⟩) hu (by simp)
    (fun t hchan hbut _ honly => ⟨hchan, hbut, honly.mono (by simp)⟩)
  · simp [Chan.stopped, hwork, Work.isScaler, Work.owned]
  · rw [State.chanPart_congr himg hn, hp] at hr
    cases hr
    exact State.notServing_congr himg hs

theorem dmaChClear_gives {s : State} {p : Path} {d : Fin 4} {n : Fin 64} (hq : s.noLeftFailures)
    (hw : s.writes p .dmaChCtrl d n 4) (hst : (s.chan d n).st = .stopped) (ho : s.scalerOwned d n = false)
    (hn : n.val ≠ 63) :
    Gives (.dmaChClear p d n) s (fun t =>
      t.chan d n = { s.chan d n with st := .idle } ∧ ChansBut d n s t ∧ OnlyIn [.dma] s t) := by
  have hc : s.chCtrl p d n 4 = .ok (s.setChan d n { s.chan d n with st := .idle }) := by
    simp [State.chCtrl, bit, State.clearChan, hst, ho, hn, orRefuse]
  exact (State.chCtrl_noted hw (.inr (.inr rfl)) hc).chan_gives (exec_dmaChClear p d n s) hq n.isLt rfl
    (fun h => by cases h) (s.setChan_touches ..) (by simp) (fun t hchan hbut _ honly => ⟨hchan, hbut, honly⟩)

/-! ### SLOT_GRANT (R203, R204) -/

/-- A fold whose every step leaves its state alone. -/
theorem foldl_eq_self {α β : Type} {f : β → α → β} {b : β} {l : List α} (h : ∀ a ∈ l, f b a = b) : l.foldl f b = b := by
  induction l with
  | nil => rfl
  | cons a l ih =>
    rw [List.foldl_cons, h a (List.mem_cons_self ..)]
    exact ih (fun x hx => h x (List.mem_cons_of_mem _ hx))

/-- The turn of channel `n` when slots are granted. -/
def State.grantSlot (s : State) (d n : Nat) : State :=
  let c := s.chan d n
  if c.xpcWait then
    match s.chanPart d n with
    | some p =>
      let want := s.wantSlots p c.desc
      let got := min (want - c.xpcSlots) (32 - s.busyXpc d)
      s.setChan d n { c with xpcSlots := c.xpcSlots + got, xpcWait := decide (c.xpcSlots + got < want) }
    | none => s
  else s

theorem State.grantSlots_eq (s : State) (d : Nat) :
    s.grantSlots d = (List.range 64).foldl (fun u n => u.grantSlot d n) s := rfl

/-- From `s` to `t` the slots of the channels `l` of complex `d`, and whether they wait for more, can differ. -/
structure SlotsOnly (d : Nat) (l : List Nat) (s t : State) : Prop where
  touches : Touches [.dma] [] s t
  slots : ∀ e m, ∃ k w, t.chan e m = { s.chan e m with xpcSlots := k, xpcWait := w }
  rest : ∀ m, m ∉ l → t.chan d m = s.chan d m

theorem SlotsOnly.refl (d : Nat) (l : List Nat) (s : State) : SlotsOnly d l s s :=
  ⟨.refl _ _ s, fun _ _ => ⟨_, _, rfl⟩, fun _ _ => rfl⟩

theorem SlotsOnly.setChan (s : State) (d n k : Nat) (w : Bool) :
    SlotsOnly d [n] s (s.setChan d n { s.chan d n with xpcSlots := k, xpcWait := w }) := by
  refine ⟨s.setChan_touches .., fun e m => ?_, fun m hm => ?_⟩
  · rw [State.chan_setChan]
    split
    · next h => exact ⟨k, w, by simp [State.chan, h]⟩
    · exact ⟨_, _, rfl⟩
  · have hne : m ≠ n := by simpa using hm
    rw [State.chan_setChan, if_neg (by omega)]

theorem SlotsOnly.trans {d : Nat} {l r : List Nat} {s t u : State} (h : SlotsOnly d l s t) (k : SlotsOnly d r t u) :
    SlotsOnly d (l ++ r) s u := by
  refine ⟨(h.touches.trans k.touches).mono (by simp) (by simp), fun e m => ?_, fun m hm => ?_⟩
  · obtain ⟨_, _, ht⟩ := h.slots e m
    obtain ⟨x, w, hu⟩ := k.slots e m
    exact ⟨x, w, by rw [hu, ht]⟩
  · obtain ⟨hl, hr⟩ : m ∉ l ∧ m ∉ r := by simpa using hm
    exact (k.rest m hr).trans (h.rest m hl)

theorem State.grantSlot_slotsOnly (s : State) (d n : Nat) : SlotsOnly d [n] s (s.grantSlot d n) := by
  unfold State.grantSlot
  dsimp only
  split
  · split
    · exact .setChan s d n _ _
    · exact .refl _ _ s
  · exact .refl _ _ s

theorem State.grantSlot_foldl_slotsOnly (d : Nat) (l : List Nat) (s : State) :
    SlotsOnly d l s (l.foldl (fun u n => u.grantSlot d n) s) := by
  induction l generalizing s with
  | nil => exact .refl d [] s
  | cons n l ih => exact (s.grantSlot_slotsOnly d n).trans (ih _)

/-- The lowest waiting channel has its turn with every slot that is free; the turns after it are those of others. -/
theorem State.chan_grantSlots_first {s : State} {d : Nat} {n : Fin 64}
    (hf : ∀ m : Fin 64, m < n → (s.chan d m).xpcWait = false) :
    (s.grantSlots d).chan d n = (s.grantSlot d n).chan d n := by
  obtain ⟨before, after, hsplit⟩ := List.append_of_mem (List.mem_range.mpr n.isLt)
  have hlt := List.pairwise_lt_range (n := 64)
  rw [hsplit, List.pairwise_append, List.pairwise_cons] at hlt
  obtain ⟨-, ⟨hafter, -⟩, hbefore⟩ := hlt
  have hidle : before.foldl (fun u n => u.grantSlot d n) s = s := by
    refine foldl_eq_self fun m hm => ?_
    have hm' : m < n := hbefore m hm n (List.mem_cons_self ..)
    have hwait : (s.chan d m).xpcWait = false := hf ⟨m, Nat.lt_trans hm' n.isLt⟩ hm'
    simp [State.grantSlot, hwait]
  rw [State.grantSlots_eq, hsplit, List.foldl_append, List.foldl_cons, hidle]
  exact (State.grantSlot_foldl_slotsOnly d after _).rest n (fun h => Nat.lt_irrefl _ (hafter n h))

theorem exec_slotGrant (d : Fin 4) (s : State) : exec (.slotGrant d) s = done s (s.grantSlots d) := rfl

theorem slotGrant_gives {s : State} {d : Fin 4} {n : Fin 64} {p : Nat} (hq : s.noLeftFailures)
    (hw : (s.chan d n).xpcWait = true) (hf : ∀ m : Fin 64, m < n → (s.chan d m).xpcWait = false)
    (hp : s.chanPart d n = some p) :
    Gives (.slotGrant d) s (fun t =>
      (t.chan d n).xpcSlots = (s.chan d n).xpcSlots +
        min (s.wantSlots p (s.chan d n).desc - (s.chan d n).xpcSlots) (32 - s.busyXpc d) ∧
      (t.chan d n).st = (s.chan d n).st ∧ OnlyIn [.dma] s t) := by
  obtain ⟨htouches, hslots, -⟩ := State.grantSlot_foldl_slotsOnly d (List.range 64) s
  refine chans_gives (exec_slotGrant d s) hq (fun k hst => .inl ?_) htouches (by simp) (fun t ht _ honly => ?_)
  · obtain ⟨x, w, hk⟩ := hslots (k / 64) (k % 64)
    rw [State.grantSlots_eq, hk] at hst ⊢
    exact ⟨hst, rfl⟩
  · have hchan : t.chan d n = (s.grantSlot d n).chan d n :=
      (State.chan_congr (congrArg Dma.chans ht) d n).trans (State.chan_grantSlots_first hf)
    simp only [hchan, State.grantSlot, hw, if_true, hp, State.chan_setChan_same]
    exact ⟨trivial, trivial, honly⟩

/-! ### DESCRIPTOR_FETCH (R218, R219) -/

/-- There are 64 Valley windows (Table 4.1). -/
theorem State.region?_valley {s : State} {a w : Nat} (h : s.region? a = some (.valley w)) : w < 64 := by
  unfold State.region? at h
  iterate 5
    split at h
    · cases h
  split at h
  · next hrange =>
    have : (a - valleyBase 0) / valleySize = w := by
      dsimp only at h
      split at h
      · split at h <;> cases h
        rfl
      · cases h
    simp only [Bool.and_eq_true, decide_eq_true_eq] at hrange
    simp only [valleyBase, valleySize] at hrange this
    omega
  · cases h

theorem State.decode_region {s : State} {a len : Nat} {r : Region} (h : s.decode a len = .ok r) :
    s.region? a = some r := by
  unfold State.decode at h
  split at h
  · next ha _ =>
    split at h
    · cases h
    split at h
    · cases h
    split at h
    · split at h <;> cases h
      exact ha
    · cases h
      exact ha
  · cases h

theorem State.rangeCheck_region {s : State} {p a len acc : Nat} {r : Region} (h : s.rangeCheck p a len acc = .ok r) :
    s.region? a = some r := by
  unfold State.rangeCheck at h
  split at h
  · cases h
  · next hd =>
    split at h
    · cases h
    split at h
    · split at h <;> cases h
      exact State.decode_region hd
    · cases h
      exact State.decode_region hd

/-- The bytes of a descriptor come from memory where it does not lie in Valley. -/
theorem State.fetchDesc_here {s : State} {d n p a : Nat} {r : Region} (hst : (s.chan d n).st = .fetch)
    (hpc : (s.chan d n).pieces = []) (ht : s.target (s.chan d n).fetchAddr = .ok (.here a))
    (hp : s.chanPart d n = some p) (hr : s.rangeCheck p a 64 1 = .ok r) (hv : ∀ w : Fin 64, r ≠ .valley w) :
    s.fetchDesc d n [] .clean = s.descRead d n (s.rd a 64) := by
  have hnot (w : Nat) : r ≠ .valley w := fun h =>
    hv ⟨w, State.region?_valley (h ▸ State.rangeCheck_region hr)⟩ h
  cases r with
  | valley w => exact absurd rfl (hnot w)
  | _ => simp [State.fetchDesc, hst, hpc, ht, hp, hr]

/-- The channel waits for the conditions of the descriptor it has read; of these its phase points are given. -/
def Chan.readied (c : Chan) (x : Desc) (startAt deadline : Option Nat) (reached : Bool) : Chan :=
  { c with st := .wait, desc := x, cur := c.fetchAddr, hops := c.hops + 1, startAt := startAt, deadline := deadline,
           startReached := reached, waitDone := true, done := 0, xfer := .none, late := false }

theorem State.descReady_unwaited {s : State} {x : Desc} (hx : x.waits = false) (d n : Nat) :
    ∃ startAt deadline, s.descReady d n x = s.setChan d n ((s.chan d n).readied x startAt deadline
      (!x.phased || decide ((s.cad.step + b2n x.nextStep) * 65536 + x.s ≤ s.stepPhase))) := by
  cases hp : x.phased <;> simp only [State.descReady, hx, hp] <;> exact ⟨_, _, rfl⟩

theorem exec_descriptorFetch (d : Fin 4) (n : Fin 64) (ext : List Byte) (ecc : Ecc) (s : State) :
    exec (.descriptorFetch d n ext ecc) s = done s (s.fetchDesc d n ext ecc) := rfl

theorem descriptorFetch_gives {s : State} {d : Fin 4} {n : Fin 64} {p a : Nat} {r : Region} (hq : s.noLeftFailures)
    (hst : (s.chan d n).st = .fetch) (hpc : (s.chan d n).pieces = [])
    (ht : s.target (s.chan d n).fetchAddr = .ok (.here a)) (hp : s.chanPart d n = some p)
    (hr : s.rangeCheck p a 64 1 = .ok r) (hv : ∀ w : Fin 64, r ≠ .valley w) (hc : (parseDesc (s.rd a 64)).check = none)
    (hw : (parseDesc (s.rd a 64)).waits = false) :
    Gives (.descriptorFetch d n [] .clean) s (fun t => ∃ startAt deadline,
      t.chan d n = (s.chan d n).readied (parseDesc (s.rd a 64)) startAt deadline
        (!(parseDesc (s.rd a 64)).phased || decide ((s.cad.step + b2n (parseDesc (s.rd a 64)).nextStep) * 65536
          + (parseDesc (s.rd a 64)).s ≤ s.stepPhase)) ∧
      ChansBut d n s t ∧ OnlyIn [.dma] s t) := by
  obtain ⟨startAt, deadline, hready⟩ := State.descReady_unwaited (s := s) hw d n
  have e := exec_descriptorFetch d n [] .clean s
  rw [State.fetchDesc_here hst hpc ht hp hr hv, State.descRead, hc] at e
  simp only [hready] at e
  exact Noted.chan_gives (.inl rfl) e hq n.isLt rfl (fun h => by cases h) (s.setChan_touches ..) (by simp)
    (fun t hchan hbut _ honly => ⟨startAt, deadline, hchan, hbut, honly⟩)

/-! ### DESCRIPTOR_START (R220, R233) -/

/-- The channel runs in a flight slot, with its bays. -/
def Chan.running (c : Chan) (slot bays : Nat) : Chan :=
  { c with st := .run, slot := some slot, bays := bays, xfer := .none, moving := none, done := 0 }

theorem State.takeXpcSlots_spec (s : State) (d n want : Nat) : ∃ k w,
    Touches [.regs] [.xpcSlotWait] (s.setChan d n { s.chan d n with xpcSlots := k, xpcWait := w })
      (s.takeXpcSlots d n want) := by
  unfold State.takeXpcSlots
  dsimp only
  split
  · exact ⟨_, _, State.count_touches ..⟩
  · exact ⟨_, _, .refl _ _ _⟩

/-- A transfer other than a MOVE that passes its checks names its holdings, runs, and takes XPC slots. -/
theorem State.beginXfer_eq {s : State} {d n p k b : Nat} (hop : (s.chan d n).desc.op ≠ 4)
    (hc : s.startCheck p (s.chan d n).desc = none) :
    s.beginXfer d n p k b = ((s.nameRanges (s.chan d n).desc).setChan d n ((s.chan d n).running k b)).takeXpcSlots d n
      ((s.nameRanges (s.chan d n).desc).wantSlots p (s.chan d n).desc) := by
  have hchan := State.chan_congr (s.nameRanges_evicts (s.chan d n).desc).chans d n
  simp only [State.beginXfer, hop, hc, if_false, hchan, Chan.running]

theorem State.beginXfer_spec {s : State} {d n p k b : Nat} (hop : (s.chan d n).desc.op ≠ 4)
    (hc : s.startCheck p (s.chan d n).desc = none) : ∃ x w,
    (s.beginXfer d n p k b).dma.chans =
      (s.setChan d n { (s.chan d n).running k b with xpcSlots := x, xpcWait := w }).dma.chans ∧
    Touches [.regs, .hif, .tier, .dma] (evictRegs ++ [.xpcSlotWait]) s (s.beginXfer d n p k b) := by
  rw [State.beginXfer_eq hop hc]
  obtain ⟨htouches, hchans⟩ := s.nameRanges_evicts (s.chan d n).desc
  generalize s.nameRanges (s.chan d n).desc = u at htouches hchans
  obtain ⟨x, w, htake⟩ := (u.setChan d n ((s.chan d n).running k b)).takeXpcSlots_spec d n
    (u.wantSlots p (s.chan d n).desc)
  rw [State.chan_setChan_same, State.setChan_setChan_same] at htake
  refine ⟨x, w, ?_, ((htouches.trans (u.setChan_touches d n _)).trans htake).mono (by simp) (by simp)⟩
  exact (congrArg Dma.chans (htake.area .dma (by simp))).trans (State.setChan_chans_congr hchans ..)

/-- Where one channel alone is ready and its grant is free, serving the ready ones starts its transfer. -/
theorem State.startReady_one {s : State} {d : Nat} {n : Fin 64} {p k : Nat} (hw : (s.chan d n).wantsGrant = true)
    (hn : n.val ≠ 63) (hothers : ∀ m : Fin 63, m.val ≠ n.val → (s.chan d m).st ≠ .wait)
    (hfired : ∀ m : Fin 64, s.waitFired (.dmaCh d m) = false) (hdue : s.img.due = false)
    (hp : s.chanPart d n = some p) (hk : s.freeSlot d = some k)
    (hb : s.baysOf p (s.chan d n).desc ≤ 128 - s.usedBays d) :
    s.startReady d = s.beginXfer d n p k (s.baysOf p (s.chan d n).desc) := by
  have hlt : n.val < 63 := by omega
  have hwaits : (List.range 63).foldl (fun u m => u.chanWaitEnd d m) s = s := by
    refine foldl_eq_self fun m hm => ?_
    have hm' : m < 63 := List.mem_range.mp hm
    have hwait : s.waitFired (.dmaCh d m) = false := hfired ⟨m, by omega⟩
    simp [State.chanWaitEnd, hwait]
  have hready : (List.range 63).filter (fun m =>
      (s.chan d m).wantsGrant && !s.heldByCommit (s.chanPart d m) (s.chan d m).startAt) = [n.val] := by
    have hone : ∀ m ∈ List.range 63, ((s.chan d m).wantsGrant &&
        !s.heldByCommit (s.chanPart d m) (s.chan d m).startAt) = (m == n.val) := by
      intro m hm
      by_cases hmn : m = n.val
      · simp [hmn, hw, State.heldByCommit, hdue]
      · have hst := hothers ⟨m, List.mem_range.mp hm⟩ hmn
        simp [Chan.wantsGrant, beq_false_of_ne hst, beq_false_of_ne hmn]
    rw [List.filter_congr hone, List.filter_beq, List.count_range, if_pos hlt, List.replicate_one]
  have hgrant : s.grantAll d [n.val] = s.beginXfer d n p k (s.baysOf p (s.chan d n).desc) := by
    simp [State.grantAll, hp, hk, Nat.not_lt.mpr hb]
  unfold State.startReady State.grant
  rw [hwaits]
  simp only [hready]
  cases hprio : s.rbit .dmaChCfg 2 d n <;> simp [hprio, hgrant]

theorem exec_descriptorStart (d : Fin 4) (s : State) : exec (.descriptorStart d) s = done s (s.startReady d) := rfl

theorem descriptorStart_gives {s : State} {d : Fin 4} {n : Fin 64} {p k b : Nat} (hq : s.noLeftFailures)
    (hs : s.startReady d = s.beginXfer d n p k b) (hop : (s.chan d n).desc.op ≠ 4)
    (hc : s.startCheck p (s.chan d n).desc = none) :
    Gives (.descriptorStart d) s (fun t => ∃ x w,
      t.chan d n = { (s.chan d n).running k b with xpcSlots := x, xpcWait := w } ∧ ChansBut d n s t ∧
      OnlyIn [.regs, .hif, .tier, .dma] s t) := by
  obtain ⟨x, w, hchans, htouches⟩ := State.beginXfer_spec (k := k) (b := b) hop hc
  have e := exec_descriptorStart d s
  rw [hs] at e
  exact Noted.chan_gives (.inl rfl) e hq n.isLt hchans (fun h => by cases h) htouches (by simp)
    (fun t hchan hbut _ honly => ⟨x, w, hchan, hbut, honly⟩)

/-- Settles O30: each command comes to one new value of one channel, or to slots for the channels that wait, and what it
brings with it leaves the other channels alone. -/
theorem channelCommands : Obligations.ChannelCommands := by
  unfold Obligations.ChannelCommands
  refine fun s d n hq => ⟨fun p hw hr => dmaChGo_gives hq hw hr,
    fun p q hw hn ho hst hm hwork hp hs => ?_, fun p hw hst ho hn => dmaChClear_gives hq hw hst ho hn,
    fun p hw hf hp => slotGrant_gives hq hw hf hp, fun p a r hst hpc ht hp hr hv hc hw => ?_,
    fun p k hw hn ho hf hdue hp hk hb hop hc => ?_⟩
  · refine (dmaChAbort_gives hq hw hn ho hst hm hwork hp hs).mono ?_
    rintro t ⟨hchan, hrest⟩
    rw [hchan]
    exact ⟨rfl, rfl, rfl, rfl, rfl, rfl, hrest⟩
  · refine (descriptorFetch_gives hq hst hpc (eq_ok_of_toOption ht) hp (eq_ok_of_toOption hr) hv hc hw).mono ?_
    rintro t ⟨startAt, deadline, hchan, hrest⟩
    rw [hchan]
    exact ⟨rfl, rfl, rfl, rfl, rfl, rfl, hrest⟩
  · refine (descriptorStart_gives hq (State.startReady_one hw hn ho hf hdue hp hk hb) hop hc).mono ?_
    rintro t ⟨x, w, hchan, hbut, honly⟩
    rw [hchan]
    exact ⟨rfl, rfl, rfl, rfl, hbut, honly.mono (by simp)⟩

end Sys2Proof.Machine
end

section
/-! SUPPORT. Bytes of memory as lists (R5): what is written is read back, and rows of a matrix written one after another
stand where their pitch puts them. -/
namespace Sys2Proof.Machine

theorem Memory.readList_eq_map (m : List Host.Cell) (a n : Nat) :
    Memory.readList m a n = (List.range n).map (fun i => Memory.read m (a + i)) := by
  induction n generalizing a with
  | zero => rfl
  | succ n ih =>
    simp [Memory.readList, ih, List.range_succ_eq_map, Nat.add_comm, Nat.add_left_comm]

@[simp] theorem State.length_rd (s : State) (a n : Nat) : (s.rd a n).length = n := by
  simp [State.rd, Memory.readList_eq_map]

theorem State.getElem_rd (s : State) (a n i : Nat) (h : i < (s.rd a n).length) :
    (s.rd a n)[i] = Memory.read s.mem (a + i) := by
  simp [State.rd, Memory.readList_eq_map]

/-- A range holds the bytes that it has at each place. -/
theorem State.rd_eq {s : State} {a n : Nat} {bs : List Byte} (hl : bs.length = n)
    (h : ∀ i (hi : i < bs.length), Memory.read s.mem (a + i) = bs[i]) : s.rd a n = bs :=
  List.ext_getElem (by simp [hl]) fun i _ hi => by rw [State.getElem_rd, h i hi]

theorem State.rd_congr {s t : State} (h : t.mem = s.mem) (a n : Nat) : t.rd a n = s.rd a n := by
  simp [State.rd, h]

/-- Bytes written are the bytes of their range. -/
theorem State.rd_wr_same {s : State} {a n : Nat} {bs : List Byte} (hl : bs.length = n) : (s.wr a bs).rd a n = bs :=
  State.rd_eq hl fun i hi => Memory.read_writeList_in bs s.mem a i hi

/-! ### Rows -/

/-- The first `k` of the rows `row`, `pitch` bytes apart. -/
def rowWrites (dst pitch : Nat) (row : Nat → List Byte) (k : Nat) : List (Nat × List Byte) :=
  (List.range k).map (fun c => (dst + c * pitch, row c))

theorem State.withWrites_rows_succ (s : State) (dst pitch : Nat) (row : Nat → List Byte) (k : Nat) :
    s.withWrites (rowWrites dst pitch row (k + 1)) =
      (s.withWrites (rowWrites dst pitch row k)).wr (localOf (dst + k * pitch)) (row k) := by
  simp [State.withWrites, rowWrites, List.range_succ]

section
variable {s : State} {dst pitch k : Nat} {row : Nat → List Byte}

theorem State.read_rows_out (ha : ∀ c < k, localOf (dst + c * pitch) = localOf dst + c * pitch)
    (hr : ∀ c < k, (row c).length ≤ pitch) {b : Nat} (hb : b < localOf dst ∨ localOf dst + k * pitch ≤ b) :
    Memory.read (s.withWrites (rowWrites dst pitch row k)).mem b = Memory.read s.mem b := by
  induction k with
  | zero => rfl
  | succ k ih =>
    have hlen := hr k (Nat.lt_succ_self k)
    rw [Nat.add_mul, Nat.one_mul] at hb
    rw [State.withWrites_rows_succ, ha k (Nat.lt_succ_self k)]
    refine (Memory.read_writeList_out _ _ _ _ (by omega)).trans ?_
    exact ih (fun c h => ha c (by omega)) (fun c h => hr c (by omega)) (by omega)

theorem State.rd_row (ha : ∀ c < k, localOf (dst + c * pitch) = localOf dst + c * pitch)
    (hr : ∀ c < k, (row c).length ≤ pitch) {c : Nat} (hc : c < k) :
    (s.withWrites (rowWrites dst pitch row k)).rd (localOf dst + c * pitch) (row c).length = row c := by
  induction k with
  | zero => omega
  | succ k ih =>
    rw [State.withWrites_rows_succ, ha k (Nat.lt_succ_self k)]
    by_cases hck : c = k
    · subst hck
      exact State.rd_wr_same rfl
    · have hlt : c < k := by omega
      have hnext : (c + 1) * pitch ≤ k * pitch := Nat.mul_le_mul_right _ hlt
      rw [Nat.add_mul, Nat.one_mul] at hnext
      have hlen := hr c hc
      have hrow := ih (fun c h => ha c (by omega)) (fun c h => hr c (by omega)) hlt
      refine State.rd_eq rfl fun i hi => ?_
      refine (Memory.read_writeList_out _ _ _ _ (by omega)).trans ?_
      rw [← State.getElem_rd _ _ (row c).length i (by simpa using hi)]
      simp only [hrow]

end

/-! ### Patterns (R223) -/

@[simp] theorem length_leBytes (n v : Nat) : (leBytes n v).length = n := by
  induction n generalizing v with
  | zero => rfl
  | succ n ih => simp [leBytes, ih]

theorem length_fillBytes (pat : List Byte) (n : Nat) : (fillBytes pat n).length = n * pat.length := by
  induction n with
  | zero => simp [fillBytes]
  | succ n ih => simp [fillBytes, ih, Nat.add_mul, Nat.add_comm]

/-- The pattern comes over and over. -/
theorem getElem_fillBytes (pat : List Byte) (n i : Nat) (h : i < (fillBytes pat n).length) :
    (fillBytes pat n)[i] = pat.getD (i % pat.length) 0 := by
  induction n generalizing i with
  | zero => simp [fillBytes] at h
  | succ n ih =>
    simp only [fillBytes, List.getElem_append]
    split
    · next hi => rw [Nat.mod_eq_of_lt hi, List.getD_eq_getElem?_getD, List.getElem?_eq_getElem hi, Option.getD_some]
    · next hi => rw [ih, ← Nat.mod_eq_sub_mod (by omega)]

end Sys2Proof.Machine
end

section
/-! SUPPORT. Operations of a descriptor on local ranges (R222, R223): what their data come from, and what a command gives
that carries one out. -/
namespace Sys2Proof.Machine

/-! ### Local device addresses (R105) -/

theorem State.target_here_iff {s : State} {a l : Nat} :
    s.target a = .ok (.here l) ↔ bits a 63 62 = 0 ∧ bits a 61 56 = s.ownId ∧ l = localOf a := by
  unfold State.target
  dsimp only
  by_cases htop : bits a 63 62 = 0
  · by_cases hid : bits a 61 56 = s.ownId
    · simp [htop, hid, localOf, eq_comm]
    · simp only [htop, hid, ne_eq, not_true_eq_false, if_false, false_and, and_false, iff_false]
      split <;> simp
  · simp [htop]

theorem State.isHere_iff {s : State} {a : Nat} :
    s.isHere a = true ↔ s.target a = .ok (.here (localOf a)) ∧ isValley (localOf a) = false := by
  unfold State.isHere
  split
  · next l ht =>
    obtain ⟨-, -, rfl⟩ := State.target_here_iff.mp ht
    simp [ht]
  · next hno => simpa using fun ht => absurd ht (hno _)

/-- Below Foothill an offset does not carry into the device's ID, so that the sum stays on the device and off Valley. -/
theorem State.isHere_add {s : State} {a k : Nat} (h : s.isHere a = true) (hk : localOf a + k < foothillBase 0) :
    s.isHere (a + k) = true ∧ localOf (a + k) = localOf a + k := by
  obtain ⟨ht, -⟩ := State.isHere_iff.mp h
  obtain ⟨htop, hid, -⟩ := State.target_here_iff.mp ht
  have hlocal : localOf (a + k) = localOf a + k := by
    simp only [localOf, bits, foothillBase] at hk ⊢
    omega
  have hvalley : isValley (localOf (a + k)) = false := by
    simp only [foothillBase] at hk
    simp only [hlocal, isValley, valleyBase, decide_eq_false_iff_not]
    omega
  refine ⟨State.isHere_iff.mpr ⟨State.target_here_iff.mpr ⟨?_, ?_, rfl⟩, hvalley⟩, hlocal⟩
  · simp only [localOf, bits, foothillBase] at hk htop ⊢
    omega
  · rw [← hid]
    simp only [localOf, bits, foothillBase] at hk ⊢
    omega

/-! ### Reads -/

/-- The bytes at an offset of a range of channel `n`'s descriptor. -/
def State.operand (s : State) (d n : Nat) (ext : Ext) (k o len : Nat) : List Byte :=
  let x := (s.chan d n).desc
  s.srcBytes (s.chan d n) ext k (if k = 0 then x.src else if k = 1 then x.dst else x.param64) o len

theorem State.srcBytes_here {s : State} {a : Nat} (h : s.isHere a = true) (c : Chan) (ext : Ext) (k o len : Nat) :
    s.srcBytes c ext k a o len = s.rd (localOf a + o) len := by
  obtain ⟨ht, hv⟩ := State.isHere_iff.mp h
  simp [State.srcBytes, ht, hv]

theorem State.operand_src {s : State} {d n : Nat} (h : s.isHere (s.chan d n).desc.src = true) (ext : Ext) (o len : Nat) :
    s.operand d n ext 0 o len = s.rd (localOf (s.chan d n).desc.src + o) len :=
  State.srcBytes_here h ..

theorem State.operand_dst {s : State} {d n : Nat} (h : s.isHere (s.chan d n).desc.dst = true) (ext : Ext) (o len : Nat) :
    s.operand d n ext 1 o len = s.rd (localOf (s.chan d n).desc.dst + o) len :=
  State.srcBytes_here h ..

/-- Nothing is asked of the fabric for local ranges. -/
theorem State.askAll_here {s : State} {l : List (Nat × Nat × Nat)} (h : ∀ r ∈ l, s.isHere r.2.1 = true) (d n : Nat)
    (ps : List Nat) : s.askAll d n l ps = .ok (s, ps) := by
  induction l with
  | nil => rfl
  | cons r l ih =>
    obtain ⟨ht, -⟩ := State.isHere_iff.mp (h r (List.mem_cons_self ..))
    simp only [State.askAll, ht]
    exact ih fun q hq => h q (List.mem_cons_of_mem _ hq)

/-! ### Writes -/

theorem State.writeOut_here {s : State} {a : Nat} (h : s.isHere a = true) (d n : Nat) (bs : List Byte) :
    s.writeOut d n a bs = s.wr (localOf a) bs := by
  obtain ⟨ht, hv⟩ := State.isHere_iff.mp h
  simp [State.writeOut, ht, hv]

theorem State.writeOut_foldl_here {s : State} {ws : List (Nat × List Byte)} (h : ∀ w ∈ ws, s.isHere w.1 = true)
    (d n : Nat) : ws.foldl (fun u w => u.writeOut d n w.1 w.2) s = s.withWrites ws := by
  induction ws generalizing s with
  | nil => rfl
  | cons w ws ih =>
    rw [List.foldl_cons, State.writeOut_here (h w (List.mem_cons_self ..))]
    exact ih fun v hv => h v (List.mem_cons_of_mem _ hv)

theorem State.wr_touches (s : State) (a : Nat) (bs : List Byte) : Touches [.mem] [] s (s.wr a bs) := s.withStores_touches

theorem State.withWrites_touches (s : State) (ws : List (Nat × List Byte)) : Touches [.mem] [] s (s.withWrites ws) := by
  induction ws generalizing s with
  | nil => exact .refl _ _ s
  | cons w ws ih => exact ((s.wr_touches _ _).trans (ih _)).mono (by simp) (by simp)

/-! ### The end of an operation (R226) -/

/-- The counters of the engines and of the codec. -/
def engineRegs : List RegName :=
  [.dmaBytesRead, .dmaBytesWritten, .xpcRawBytes, .xpcCodedBytes, .xpcBlocksCoded, .xpcBlocksRaw, .xpcBlocksDecoded]

/-- The channel has done all that its operation is to do. -/
def Chan.transferred (c : Chan) (o : OpOut) : Chan :=
  { c with done := o.done, cmp := o.cmp.getD c.cmp, xfer := .done }

/-- An operation that meets no error and writes only locally is done with its writes. -/
theorem State.commitOp_here {s : State} {d n : Nat} {o : OpOut} (hw : ∀ w ∈ o.writes, s.isHere w.1 = true)
    (he : o.err = none) (hp : (s.chan d n).pieces = []) (len : Nat) :
    (s.commitOp d n o len).dma.chans = (s.setChan d n ((s.chan d n).transferred o)).dma.chans ∧
    Touches [.regs, .dma] engineRegs (s.withWrites o.writes) (s.commitOp d n o len) := by
  unfold State.commitOp
  extract_lets c written moved packed blocks counted c' noted last
  have hwritten : written = s.withWrites o.writes := State.writeOut_foldl_here hw d n
  have hcounted : Touches [.regs] engineRegs (s.withWrites o.writes) counted := by
    rw [← hwritten]
    exact ((((((((written.count_touches _ _ _ _).trans (State.count_touches _ _ _ _ _)).trans
      (State.count_touches _ _ _ _ _)).trans (State.count_touches _ _ _ _ _)).trans
      (State.count_touches _ _ _ _ _)).trans (State.count_touches _ _ _ _ _)).trans
      (State.count_touches _ _ _ _ _))).mono (by simp) (by simp [engineRegs])
  have hchans : counted.dma.chans = s.dma.chans := by
    rw [hcounted.area .dma (by simp)]
    exact congrArg Dma.chans ((s.withWrites_touches o.writes).area .dma (by simp))
  have hc' : c' = s.chan d n := State.chan_congr hchans d n
  have hnoted : noted.chan d n = { c' with done := o.done, cmp := o.cmp.getD c'.cmp } := State.chan_setChan_same ..
  have hlast : last = noted.chan d n := rfl
  clear_value written moved packed blocks counted c' last
  subst hc' hlast
  simp only [he, hnoted, hp, List.contains_nil, List.isEmpty_nil, Bool.false_eq_true, if_false, if_true]
  refine ⟨?_, ((hcounted.trans (counted.setChan_touches d n _)).trans (noted.setChan_touches d n _)).mono (by simp)
    (by simp)⟩
  unfold noted
  rw [State.setChan_setChan_same]
  simpa only [Chan.transferred, hp] using State.setChan_chans_congr hchans d n ((s.chan d n).transferred o)

/-! ### The operations that read no object and no indices -/

/-- The bytes an operation reads lie at its source and, for a COMPARE, at its destination. -/
theorem Desc.reads_here {s : State} {x : Desc} (hop : x.op ∈ [1, 2, 3, 4, 7])
    (hs : x.op ≠ 2 → s.isHere x.src = true) (hd : s.isHere x.dst = true) (hdr : List Byte) :
    ∀ r ∈ x.reads hdr, s.isHere r.2.1 = true := by
  simp only [List.mem_cons, List.not_mem_nil, or_false] at hop
  rcases hop with h | h | h | h | h <;> simp [Desc.reads, h] at hs ⊢ <;> simp [hs, hd]

/-- A transfer none of which has moved carries its operation out at once where its ranges are local. -/
theorem State.opCommand_here {s : State} {d n op : Nat} (ht : s.transfers d n op) (hop : op ∈ [1, 2, 3, 4, 7])
    (hs : op ≠ 2 → s.isHere (s.chan d n).desc.src = true) (hd : s.isHere (s.chan d n).desc.dst = true) (ext : Ext) :
    ∃ preset len, s.opCommand d n op ext .clean =
      s.commitOp d n ((s.chan d n).desc.perform preset (s.operand d n ext)) len := by
  obtain ⟨hst, hdesc, hx, hwork, hretry, hpieces, hpart⟩ := ht
  obtain ⟨p, hp⟩ := Option.isSome_iff_exists.mp hpart
  obtain ⟨htarget, -⟩ := State.isHere_iff.mp hd
  have hobj (hdr : List Byte) : s.objCheck p (s.chan d n).desc hdr = none := by
    have hplain : op ≠ 6 ∧ op ≠ 8 := by
      constructor <;> (rintro rfl; simp at hop)
    simp [State.objCheck, hdesc, hplain]
  have hcodec : ((op = 5 || op = 6 || (op = 8 && (s.chan d n).desc.coded)) && (s.chan d n).xpcSlots = 0) = false := by
    have hplain : op ≠ 5 ∧ op ≠ 6 ∧ op ≠ 8 := by
      refine ⟨?_, ?_, ?_⟩ <;> (rintro rfl; simp at hop)
    simp [hplain]
  have hask (hdr : List Byte) := State.askAll_here
    (Desc.reads_here (hdesc ▸ hop) (hdesc ▸ hs) hd hdr) d n []
  have hrun : s.opCommand d n op ext .clean = s.runOp d n ext := by
    simp only [State.opCommand, hst, hdesc, hx, hwork, Work.isScaler, hretry, hcodec]
    simp only [ne_eq, not_true_eq_false, decide_false, Bool.or_self, Option.isSome_none, Bool.false_eq_true, if_false,
      reduceCtorEq]
    split
    · next hthere => cases htarget.symm.trans hthere
    · rfl
  rw [hrun]
  simp only [State.runOp, hp, hobj, hask, List.isEmpty_nil]
  exact ⟨_, _, rfl⟩

/-- What a command gives that carries such an operation out. -/
theorem transfer_gives {i : Instr} {s : State} {d : Fin 4} {n : Fin 64} {op : Nat} {ext : Ext} {P : State → Prop}
    (e : exec i s = done s (s.opCommand d n op ext .clean)) (hq : s.noLeftFailures) (ht : s.transfers d n op)
    (hop : op ∈ [1, 2, 3, 4, 7]) (hs : op ≠ 2 → s.isHere (s.chan d n).desc.src = true)
    (hd : s.isHere (s.chan d n).desc.dst = true)
    (hw : ∀ preset, ∀ w ∈ ((s.chan d n).desc.perform preset (s.operand d n ext)).writes, s.isHere w.1 = true)
    (he : ∀ preset, ((s.chan d n).desc.perform preset (s.operand d n ext)).err = none)
    (hp : ∀ t preset o, o = (s.chan d n).desc.perform preset (s.operand d n ext) → t.mem = (s.withWrites o.writes).mem →
      t.chan d n = (s.chan d n).transferred o → ChansBut d n s t → OnlyIn [.regs, .mem, .dma] s t → P t) :
    Gives i s P := by
  obtain ⟨preset, len, hrun⟩ := State.opCommand_here ht hop hs hd ext
  have ⟨hrunning, _, _, _, _, hpieces, _⟩ := ht
  obtain ⟨hchans, htouches⟩ := State.commitOp_here (hw preset) (he preset) hpieces len
  rw [hrun] at e
  generalize hu : s.commitOp d n _ len = u at e hchans htouches
  have hall : Touches [.regs, .mem, .dma] engineRegs s u :=
    ((s.withWrites_touches _).trans htouches).mono (by simp) (by simp)
  have hstop := State.stopsAlone_setChan n.isLt hchans fun hst => by
    rw [Chan.transferred, hrunning] at hst
    cases hst
  have hsettled : u.settle.dma.chans = (s.setChan d n ((s.chan d n).transferred _)).dma.chans :=
    (congrArg Dma.chans u.settle_dma).trans hchans
  refine done_quiet e (State.newErrors_stopsAlone hstop (hall.area .tiles (by simp)))
    (State.noLeftFailures_stopsAlone hstop hq) (hp _ preset _ rfl (u.settle_mem.trans (htouches.area .mem (by simp)))
    ?_ (.setChan n.isLt hsettled) (hall.only.settled hall.outs))
  exact (State.chan_congr hsettled d n).trans (State.chan_setChan_same ..)

end Sys2Proof.Machine
end

section
/-! SUPPORT. COPY, MOVE, FILL, COMPARE and TRANSPOSE (R223): the writes of each, what each gives, and the statement about
them. -/
namespace Sys2Proof.Machine

theorem exec_copy (d : Fin 4) (n : Fin 64) (ext : Ext) (s : State) :
    exec (.copy d n ext .clean) s = done s (s.opCommand d n 1 ext .clean) := rfl

theorem exec_move (d : Fin 4) (n : Fin 64) (ext : Ext) (s : State) :
    exec (.move d n ext .clean) s = done s (s.opCommand d n 4 ext .clean) := rfl

theorem exec_fill (d : Fin 4) (n : Fin 64) (s : State) :
    exec (.fill d n) s = done s (s.opCommand d n 2 {} .clean) := rfl

theorem exec_compare (d : Fin 4) (n : Fin 64) (ext : Ext) (s : State) :
    exec (.compare d n ext .clean) s = done s (s.opCommand d n 3 ext .clean) := rfl

theorem exec_transpose (d : Fin 4) (n : Fin 64) (ext : Ext) (s : State) :
    exec (.transpose d n ext .clean) s = done s (s.opCommand d n 7 ext .clean) := rfl

/-! ### The writes of each operation -/

section
variable {x : Desc} (preset : Nat × Bool) (get : Nat → Nat → Nat → List Byte)

theorem Desc.perform_copy (h : x.op = 1 ∨ x.op = 4) :
    x.perform preset get = { writes := [(x.dst, get 0 0 x.length)], done := x.length } := by
  rcases h with h | h <;> simp [Desc.perform, h]

theorem Desc.perform_fill (h : x.op = 2) :
    x.perform preset get =
      { writes := [(x.dst, fillBytes (leBytes x.elem x.src) (x.length / x.elem))], done := x.length } := by
  simp [Desc.perform, h]

theorem Desc.perform_compare (h : x.op = 3) (hs : x.stopOnMismatch = false) :
    x.perform preset get =
      { cmp := some ((firstDiff (get 0 0 x.length) (get 1 0 x.length) 0).getD 0xFFFFFFFFFFFFFFFF) } := by
  simp [Desc.perform, h, hs]

/-- Row `c` of the destination: element `c` of every source row. -/
def Desc.column (x : Desc) (get : Nat → Nat → Nat → List Byte) (c : Nat) : List Byte :=
  (List.range x.p0).flatMap (fun r => get 0 (r * x.p2 + c * x.elem) x.elem)

theorem Desc.perform_transpose (h : x.op = 7) :
    x.perform preset get = { writes := rowWrites x.dst x.p3 (x.column get) x.p1, done := x.p1 } := by
  simp only [Desc.perform, h]
  rfl

theorem Desc.length_column (hg : ∀ o, (get 0 o x.elem).length = x.elem) (c : Nat) :
    (x.column get c).length = x.p0 * x.elem := by
  simp only [Desc.column, List.length_flatMap, hg, List.map_const', List.length_range, List.sum_replicate_nat]

end

/-! ### What each gives -/

section
variable {s : State} {d : Fin 4} {n : Fin 64} {ext : Ext}

theorem copy_gives {i : Instr} {op : Nat} (e : exec i s = done s (s.opCommand d n op ext .clean)) (hop : op = 1 ∨ op = 4)
    (hq : s.noLeftFailures) (ht : s.transfers d n op) (hs : s.isHere (s.chan d n).desc.src = true)
    (hd : s.isHere (s.chan d n).desc.dst = true) :
    Gives i s (fun t =>
      t.rd (localOf (s.chan d n).desc.dst) (s.chan d n).desc.length =
        s.rd (localOf (s.chan d n).desc.src) (s.chan d n).desc.length ∧
      BytesBut (localOf (s.chan d n).desc.dst) (s.chan d n).desc.length s t ∧ (t.chan d n).xfer = .done ∧
      (t.chan d n).done = (s.chan d n).desc.length ∧ ChansBut d n s t ∧ OnlyIn [.regs, .mem, .dma] s t) := by
  have ⟨_, hdesc, _⟩ := ht
  have hperform (preset : Nat × Bool) :=
    Desc.perform_copy (x := (s.chan d n).desc) preset (s.operand d n ext) (hdesc ▸ hop)
  have hmem : op ∈ [1, 2, 3, 4, 7] := by
    rcases hop with rfl | rfl <;> simp
  refine transfer_gives e hq ht hmem (fun _ => hs) hd (fun preset w hw => ?_) (fun preset => by rw [hperform])
    (fun t preset o ho hm hc hbut honly => ?_)
  · rw [hperform, List.mem_singleton] at hw
    exact hw ▸ hd
  · rw [hperform, State.operand_src hs, Nat.add_zero] at ho
    subst ho
    have hwr : t.mem = (s.wr (localOf (s.chan d n).desc.dst)
      (s.rd (localOf (s.chan d n).desc.src) (s.chan d n).desc.length)).mem := hm
    refine ⟨(State.rd_congr hwr _ _).trans (State.rd_wr_same (State.length_rd ..)), fun b hb => ?_, by rw [hc]; rfl,
      by rw [hc]; rfl, hbut, honly⟩
    rw [hwr]
    exact BytesBut.wr s _ _ b (by rwa [State.length_rd])

theorem fill_gives (hq : s.noLeftFailures) (ht : s.transfers d n 2) (hd : s.isHere (s.chan d n).desc.dst = true)
    (hl : (s.chan d n).desc.length % (s.chan d n).desc.elem = 0) :
    Gives (.fill d n) s (fun t =>
      (∀ i < (s.chan d n).desc.length, Memory.read t.mem (localOf (s.chan d n).desc.dst + i) =
        (leBytes (s.chan d n).desc.elem (s.chan d n).desc.src).getD (i % (s.chan d n).desc.elem) 0) ∧
      BytesBut (localOf (s.chan d n).desc.dst) (s.chan d n).desc.length s t ∧ (t.chan d n).xfer = .done ∧
      ChansBut d n s t ∧ OnlyIn [.regs, .mem, .dma] s t) := by
  have ⟨_, hdesc, _⟩ := ht
  have hperform (preset : Nat × Bool) := Desc.perform_fill (x := (s.chan d n).desc) preset (s.operand d n {}) hdesc
  refine transfer_gives (exec_fill d n s) hq ht (by simp) (by simp) hd (fun preset w hw => ?_)
    (fun preset => by rw [hperform]) (fun t preset o ho hm hc hbut honly => ?_)
  · rw [hperform, List.mem_singleton] at hw
    exact hw ▸ hd
  · rw [hperform] at ho
    subst ho
    generalize hbs : fillBytes (leBytes (s.chan d n).desc.elem (s.chan d n).desc.src)
      ((s.chan d n).desc.length / (s.chan d n).desc.elem) = bs at hm
    have hlen : bs.length = (s.chan d n).desc.length := by
      rw [← hbs, length_fillBytes, length_leBytes, Nat.div_mul_cancel (Nat.dvd_of_mod_eq_zero hl)]
    have hwr : t.mem = (s.wr (localOf (s.chan d n).desc.dst) bs).mem := hm
    refine ⟨fun i hi => ?_, fun b hb => ?_, by rw [hc]; rfl, hbut, honly⟩
    · rw [hwr]
      refine (Memory.read_writeList_in bs s.mem _ i (hlen ▸ hi)).trans ?_
      subst hbs
      rw [getElem_fillBytes, length_leBytes]
    · rw [hwr]
      exact BytesBut.wr s _ _ b (by rwa [hlen])

/-- Where memory is as it was, it need not be named. -/
theorem OnlyIn.of_mem_same {s t : State} (h : OnlyIn [.regs, .mem, .dma] s t) (hm : t.mem = s.mem) :
    OnlyIn [.regs, .dma] s t := by
  refine ⟨h.1, fun p hp => ?_⟩
  by_cases hpm : p = .mem
  · subst hpm
    exact hm
  · exact h.2 p (by simpa [hpm] using hp)

theorem compare_gives (hq : s.noLeftFailures) (ht : s.transfers d n 3) (hx : (s.chan d n).desc.stopOnMismatch = false)
    (hs : s.isHere (s.chan d n).desc.src = true) (hd : s.isHere (s.chan d n).desc.dst = true) :
    Gives (.compare d n ext .clean) s (fun t =>
      (t.chan d n).cmp =
        (firstDiff (s.rd (localOf (s.chan d n).desc.src) (s.chan d n).desc.length)
          (s.rd (localOf (s.chan d n).desc.dst) (s.chan d n).desc.length) 0).getD 0xFFFFFFFFFFFFFFFF ∧
      (t.chan d n).xfer = .done ∧ ChansBut d n s t ∧ OnlyIn [.regs, .dma] s t) := by
  have ⟨_, hdesc, _⟩ := ht
  have hperform (preset : Nat × Bool) :=
    Desc.perform_compare (x := (s.chan d n).desc) preset (s.operand d n ext) hdesc hx
  refine transfer_gives (exec_compare d n ext s) hq ht (by simp) (fun _ => hs) hd (fun preset w hw => ?_)
    (fun preset => by rw [hperform]) (fun t preset o ho hm hc hbut honly => ?_)
  · rw [hperform] at hw
    cases hw
  · rw [hperform, State.operand_src hs, State.operand_dst hd, Nat.add_zero, Nat.add_zero] at ho
    subst ho
    exact ⟨by rw [hc]; rfl, by rw [hc]; rfl, hbut, honly.of_mem_same hm⟩

theorem transpose_gives (hq : s.noLeftFailures) (ht : s.transfers d n 7)
    (hs : s.isHere (s.chan d n).desc.src = true) (hd : s.isHere (s.chan d n).desc.dst = true)
    (hpitch : (s.chan d n).desc.p0 * (s.chan d n).desc.elem ≤ (s.chan d n).desc.p3)
    (hend : localOf (s.chan d n).desc.dst + (s.chan d n).desc.p1 * (s.chan d n).desc.p3 ≤ foothillBase 0) :
    Gives (.transpose d n ext .clean) s (fun t =>
      (∀ c < (s.chan d n).desc.p1,
        t.rd (localOf (s.chan d n).desc.dst + c * (s.chan d n).desc.p3) ((s.chan d n).desc.p0 * (s.chan d n).desc.elem) =
          (s.chan d n).desc.column (fun _ o len => s.rd (localOf (s.chan d n).desc.src + o) len) c) ∧
      BytesBut (localOf (s.chan d n).desc.dst) ((s.chan d n).desc.p1 * (s.chan d n).desc.p3) s t ∧
      (t.chan d n).xfer = .done ∧ ChansBut d n s t ∧ OnlyIn [.regs, .mem, .dma] s t) := by
  have ⟨_, hdesc, _⟩ := ht
  generalize hx : (s.chan d n).desc = x at *
  have hget : x.column (s.operand d n ext) = x.column (fun _ o len => s.rd (localOf x.src + o) len) := by
    subst hx
    funext c
    simp only [Desc.column, State.operand_src hs]
  have hperform (preset : Nat × Bool) := Desc.perform_transpose (x := x) preset (s.operand d n ext) hdesc
  have hlen (c : Nat) : (x.column (fun _ o len => s.rd (localOf x.src + o) len) c).length = x.p0 * x.elem :=
    Desc.length_column _ (fun o => State.length_rd ..) c
  generalize x.column (fun _ o len => s.rd (localOf x.src + o) len) = row at hget hlen ⊢
  have hrow (c : Nat) (hc : c < x.p1) : s.isHere (x.dst + c * x.p3) = true ∧
      localOf (x.dst + c * x.p3) = localOf x.dst + c * x.p3 := by
    by_cases hzero : x.p3 = 0
    · simp [hzero, hd]
    · have hnext : (c + 1) * x.p3 ≤ x.p1 * x.p3 := Nat.mul_le_mul_right _ hc
      rw [Nat.add_mul, Nat.one_mul] at hnext
      exact State.isHere_add hd (by omega)
  subst hx
  refine transfer_gives (exec_transpose d n ext s) hq ht (by simp) (fun _ => hs) hd (fun preset w hw => ?_)
    (fun preset => by rw [hperform]) (fun t preset o ho hm hc hbut honly => ?_)
  · rw [hperform] at hw
    obtain ⟨c, hc, rfl⟩ := List.mem_map.mp hw
    exact (hrow c (List.mem_range.mp hc)).1
  · rw [hperform, hget] at ho
    subst ho
    refine ⟨fun c hcol => ?_, fun b hb => ?_, by rw [hc]; rfl, hbut, honly⟩
    · rw [← hlen c, State.rd_congr hm]
      exact State.rd_row (fun c h => (hrow c h).2) (fun c _ => Nat.le_trans (Nat.le_of_eq (hlen c)) hpitch) hcol
    · rw [hm]
      exact State.read_rows_out (fun c h => (hrow c h).2) (fun c _ => Nat.le_trans (Nat.le_of_eq (hlen c)) hpitch) hb

end

/-- Settles O28: on local ranges each of the five operations comes to one list of writes, made from bytes read before any of
them, and the destination is read back through that list. -/
theorem transfersOfWholeRanges : Obligations.TransfersOfWholeRanges := by
  unfold Obligations.TransfersOfWholeRanges
  refine fun s d n hq _ => ⟨fun ext ht hs hd => copy_gives (exec_copy d n ext s) (.inl rfl) hq ht hs hd,
    fun ext ht hs hd => ?_, fun ht hd hl => fill_gives hq ht hd hl,
    fun ext ht hx hs hd => compare_gives hq ht hx hs hd,
    fun ext ht hs hd hpitch hend => transpose_gives hq ht hs hd hpitch hend⟩
  refine (copy_gives (exec_move d n ext s) (.inr rfl) hq ht hs hd).mono ?_
  rintro t ⟨hbytes, hrest, hdone, -, hbut, honly⟩
  exact ⟨hbytes, hrest, hdone, honly.2 .tier (by simp), hbut, honly⟩

end Sys2Proof.Machine
end

section
/-! SUPPORT. Program words of a running context (R242, Table 9.4): a word that is reached is carried out on the state in
which the PC has passed it, and what a command gives whose effect is one of them. -/
namespace Sys2Proof.Machine

/-! ### One context -/

theorem State.setCtx_setCtx_same (s : State) (x c : Nat) (j k : Ctx) :
    (s.setCtx x c j).setCtx x c k = s.setCtx x c k := by
  simp only [State.setCtx, State.setTile, State.tile, NMap.getD_put_same, NMap.put_put_same]

@[simp] theorem State.ctx_setCtx_same (s : State) (x c : Nat) (k : Ctx) : (s.setCtx x c k).ctx x c = k := by
  rw [State.ctx_setCtx, if_pos ⟨rfl, rfl⟩]

/-- Memory with other contents. -/
def State.withMem (s : State) (m : List Host.Cell) : State := { s with mem := m }

theorem State.withMem_touches (s : State) (m : List Host.Cell) : Touches [.mem] [] s (s.withMem m) := s.withStores_touches

/-- A context whose posted writes are performed leaves them in memory and has none (R268). -/
theorem State.drainCtx_setCtx (s : State) (x c : Nat) (k : Ctx) :
    (s.setCtx x c k).drainCtx x c = (s.withMem (k.overlay s.mem)).setCtx x c { k with posted := [] } := by
  unfold State.drainCtx
  rw [State.ctx_setCtx_same]
  dsimp only
  split
  · next h =>
    have hnone : k.posted = [] := List.isEmpty_iff.mp h
    have hsame : { k with posted := [] } = k := by rw [← hnone]
    rw [hsame, Ctx.overlay, hnone]
    rfl
  · exact State.setCtx_setCtx_same (s.withMem (k.overlay s.mem)) x c k _

/-! ### Words -/

/-- The PC has passed the word. -/
def Ctx.passed (k : Ctx) : Ctx := { k with pc := k.pc + 16 }

def State.passed (s : State) (x c : Nat) : State := s.setCtx x c (s.ctx x c).passed

theorem State.runWord_at {s u : State} {x c p w : Nat} {pick : Nat → Bool}
    {f : State → Nat → Nat → Except Nat State} (h : s.atWord x c p w) (hpick : pick w = true)
    (hf : f (s.passed x c) w p = .ok u) : s.runWord x c pick f = u := by
  obtain ⟨hst, hon, howner, hpc, haccess, rfl, hbad⟩ := h
  unfold State.runWord
  dsimp only
  rw [if_neg (by simp [hst, hon]), howner]
  dsimp only
  rw [if_neg (by simp [hpc]), haccess]
  dsimp only
  rw [if_neg (by simp [hbad]), if_neg (by simp [hpick])]
  unfold State.passed Ctx.passed at hf
  rw [hf]

/-- What a command gives whose effect changes one context, which it leaves unfaulted, and stops no channel. -/
theorem word_gives {i : Instr} {s u : State} {x c : Nat} {k : Ctx} {ps : List Area} {ns : List RegName}
    {P : State → Prop} (e : exec i s = done s u) (hq : s.noLeftFailures) (ht : u.tiles = (s.setCtx x c k).tiles)
    (hk : k.st ≠ .fault) (hd : ∀ d n, (u.chan d n).st = .stopped → u.chan d n = s.chan d n) (hu : Touches ps ns s u)
    (hp : u.settle.ctx x c = k → CtxsBut x c s u.settle → ArraysSame s u.settle → OnlyIn ps s u.settle → P u.settle) :
    Gives i s P := by
  have hsettled : u.settle.tiles = (s.setCtx x c k).tiles := u.settle_tiles.trans ht
  refine done_unfailed e (fun d n hst => hd d n hst ▸ hst) (fun y z hf => ?_) ?_
    (hp ?_ (.setCtx hsettled) (.setCtx hsettled) (hu.only.settled hu.outs))
  · rw [State.ctx_congr ht, State.ctx_setCtx] at hf
    split at hf
    · exact absurd hf hk
    · exact hf
  · refine u.noLeftFailures_iff.mpr fun m hm => ?_
    have hsame := hd _ _ hm
    rw [hsame] at hm ⊢
    exact s.noLeftFailures_iff.mp hq m hm
  · rw [State.ctx_congr hsettled, State.ctx_setCtx_same]

/-- The same of an effect that leaves the channels alone. -/
theorem word_gives_tiles {i : Instr} {s u : State} {x c : Nat} {k : Ctx} {ps : List Area} {ns : List RegName}
    {P : State → Prop} (e : exec i s = done s u) (hq : s.noLeftFailures) (ht : u.tiles = (s.setCtx x c k).tiles)
    (hk : k.st ≠ .fault) (hu : Touches ps ns s u) (hd : .dma ∉ ps)
    (hp : u.settle.ctx x c = k → CtxsBut x c s u.settle → ArraysSame s u.settle → OnlyIn ps s u.settle → P u.settle) :
    Gives i s P :=
  word_gives e hq ht hk (fun d n _ => State.chan_congr (congrArg Dma.chans (hu.area .dma hd)) d n) hu hp

end Sys2Proof.Machine
end

section
/-! SUPPORT. DMAGO, FENCE, END, OWN, CSIG and CWAIT (R216, R243, R264, R268 to R285): what each gives, and the statement
about them. -/
namespace Sys2Proof.Machine

theorem exec_dmago (x : Fin 24) (c : Fin 4) (s : State) :
    exec (.dmago x c) s = done s (s.runWord x c (isOp 0x20) (fun s w p => s.dmago x c w p)) := rfl

theorem exec_fence (x : Fin 24) (c : Fin 4) (s : State) :
    exec (.fence x c) s = done s (s.runWord x c (isOp 0x32) (fun s _ _ => .ok (s.drainCtx x c))) := rfl

theorem exec_endOp (x : Fin 24) (c : Fin 4) (s : State) :
    exec (.endOp x c) s = done s (s.runWord x c (isOp 0xFF) (fun s _ _ => .ok (s.endWord x c))) := rfl

theorem exec_own (x : Fin 24) (c : Fin 4) (s : State) :
    exec (.own x c) s = done s (s.runWord x c (isOp 0x34) (fun s w _ => s.ownWord x c w)) := rfl

theorem exec_csig (x : Fin 24) (c : Fin 4) (s : State) :
    exec (.csig x c) s = done s (s.runWord x c (isOp 0x30) (fun s w p => s.csig x c w p)) := rfl

theorem exec_cwait (x : Fin 24) (c : Fin 4) (s : State) :
    exec (.cwait x c) s = done s (s.runWord x c (isOp 0x31) (fun s w p => s.cwait x c w p)) := rfl

section
variable {s : State} {x : Fin 24} {c : Fin 4} {p w : Nat}

theorem State.atWord.unfaulted (h : s.atWord x c p w) : (s.ctx x c).passed.st ≠ .fault := by
  have ⟨hst, _⟩ := h
  simp [Ctx.passed, hst]

/-! ### DMAGO (R216) -/

/-- The codes of a refused start are those of a channel, and end its record (Table 24.1). -/
theorem State.startRefusal_code {part : Option Nat} {d n head code : Nat}
    (h : s.startRefusal part d n head = some code) : code / 256 = 1 := by
  unfold State.startRefusal at h
  split at h
  · cases h; rfl
  split at h
  · cases h; rfl
  split at h
  · cases h; rfl
  · cases h

theorem State.issue_channel (s : State) {code : Nat} (hc : code / 256 = 1) (a : At) :
    s.issue code a = (s.tally1 code).rputN .dmaLastErr (a.ch * 65536 + code) a.cx := by
  have h0 : code ≠ 0 := by rintro rfl; simp at hc
  simp only [State.issue, h0, if_false, State.recordClass, hc]

theorem dmago_gives (hq : s.noLeftFailures) (h : s.atWord x c p w) (hop : isOp 0x20 w = true)
    (hr : s.startRefusal (some p) (bits w 119 118) (bits w 117 112) (wAddr w) = none) :
    Gives (.dmago x c) s (fun t =>
      t.chan (bits w 119 118) (bits w 117 112) = (s.chan (bits w 119 118) (bits w 117 112)).started
        (bits (s.rnat .dmaHopLimit (bits w 119 118)) 15 0) (s.ownId * 2 ^ 56 + wAddr w) ∧
      ChansBut (bits w 119 118) (bits w 117 112) s t ∧ PassedWord x c s t ∧ ArraysSame s t ∧
      RegsBut [RegName.dmaChHead.key (bits w 119 118) (bits w 117 112)] s t ∧
      OnlyIn [.regs, .pwr, .dma, .tiles] s t) := by
  have hn : bits w 117 112 < 64 := Nat.mod_lt _ (by decide)
  have hf : (s.passed x c).dmago x c w p =
      .ok ((s.passed x c).startChain (bits w 119 118) (bits w 117 112) (s.ownId * 2 ^ 56 + wAddr w)) := by
    unfold State.dmago
    dsimp only
    rw [show (s.passed x c).startRefusal _ _ _ _ = none from hr]
    rfl
  have e := exec_dmago x c s
  rw [State.runWord_at h hop hf] at e
  generalize bits w 119 118 = d, bits w 117 112 = n, s.ownId * 2 ^ 56 + wAddr w = head at *
  have htouches := (s.passed x c).startChain_touches d n head
  have hchans : ((s.passed x c).startChain d n head).dma.chans = (s.setChan d n ((s.chan d n).started
      (bits (s.rnat .dmaHopLimit d) 15 0) head)).dma.chans := (s.passed x c).startChain_chans d n head
  refine word_gives e hq (htouches.area .tiles (by simp)) h.unfaulted (fun e m hst => ?_)
    ((s.setCtx_touches x c _).trans htouches) (fun hctx hctxs harrays honly => ?_)
  · rw [State.chan_congr hchans, State.chan_setChan] at hst ⊢
    split at hst
    · cases hst
    · next hne => rw [if_neg hne]
  · have hsettled := (congrArg Dma.chans (State.settle_dma _)).trans hchans
    refine ⟨(State.chan_congr hsettled d n).trans (State.chan_setChan_same ..), .setChan hn hsettled, ⟨hctx, hctxs⟩,
      harrays, ?_, honly.mono (by simp)⟩
    exact (RegsBut.rput (s.passed x c) _ _ _ _).trans (.of ((State.settle_regs _).trans (State.startChain_regs ..)))

theorem dmago_refused_gives {code : Nat} (hq : s.noLeftFailures) (h : s.atWord x c p w) (hop : isOp 0x20 w = true)
    (hr : s.startRefusal (some p) (bits w 119 118) (bits w 117 112) (wAddr w) = some code) :
    Gives (.dmago x c) s (fun t =>
      t.rnat .dmaLastErr (bits w 119 118) = bits w 117 112 * 65536 + code ∧ PassedWord x c s t ∧ ArraysSame s t ∧
      RegsBut [RegName.dmaLastErr.key (bits w 119 118) 0] s t ∧ OnlyIn [.regs, .tiles] s t) := by
  have hn : bits w 117 112 < 64 := Nat.mod_lt _ (by decide)
  have hcode := State.startRefusal_code hr
  have hf : (s.passed x c).dmago x c w p =
      .ok (((s.passed x c).issue code { cx := bits w 119 118, ch := bits w 117 112, part := p }).rputN .dmaLastErr
        (bits w 117 112 * 65536 + code) (bits w 119 118)) := by
    unfold State.dmago
    dsimp only
    rw [show (s.passed x c).startRefusal _ _ _ _ = some code from hr]
  have e := exec_dmago x c s
  rw [State.runWord_at h hop hf, State.issue_channel _ hcode] at e
  generalize bits w 119 118 = d, bits w 117 112 = n at *
  refine word_gives_tiles e hq rfl h.unfaulted (((s.setCtx_touches x c _).trans (State.tally1_touches _ _ _)).trans
    ((State.rputN_touches _ _ _ _ _).trans (State.rputN_touches _ _ _ _ _))) (by simp)
    (fun hctx hctxs harrays honly => ⟨?_, ⟨hctx, hctxs⟩, harrays, ?_, honly.mono (by simp)⟩)
  · rw [State.settle_rnat, State.rnat_rputN_same]
    omega
  · exact ((RegsBut.rput (s.passed x c) _ _ _ _).trans (RegsBut.rput _ _ _ _ _)).trans (.of (State.settle_regs _))

/-! ### FENCE and END (R264, R268) -/

theorem fence_gives (hq : s.noLeftFailures) (h : s.atWord x c p w) (hop : isOp 0x32 w = true) :
    Gives (.fence x c) s (fun t =>
      t.mem = (s.ctx x c).overlay s.mem ∧ t.ctx x c = { (s.ctx x c).passed with posted := [] } ∧
      CtxsBut x c s t ∧ ArraysSame s t ∧ OnlyIn [.mem, .tiles] s t) := by
  have e := exec_fence x c s
  rw [State.runWord_at h hop rfl, State.passed, State.drainCtx_setCtx] at e
  exact word_gives_tiles e hq (State.setCtx_tiles_congr rfl ..) h.unfaulted
    ((s.withMem_touches _).trans (State.setCtx_touches _ x c _)) (by simp)
    (fun hctx hctxs harrays honly => ⟨State.settle_mem _, hctx, hctxs, harrays, honly⟩)

/-- The operator in progress has completed: no start point, no deadline and no lateness are left of it (R286). -/
def Ctx.closed (k : Ctx) : Ctx := { k with posted := [], late := false, deadline := none, startAt := none }

/-- The program has ended. -/
def Ctx.ended (k : Ctx) : Ctx := { k.closed with st := .idle, scaler := false }

/-- The state in which an END gives up the context's hold of the step. -/
def State.closing (s : State) (x c : Nat) : State :=
  (s.withMem ((s.ctx x c).overlay s.mem)).setCtx x c (s.ctx x c).passed.closed

theorem State.endWord_passed (s : State) (x c : Nat) :
    (s.passed x c).endWord x c = ((s.closing x c).holdEnd (ctxItem x c)).setCtx x c (s.ctx x c).passed.ended := by
  unfold State.endWord State.operatorEnd State.passed
  rw [State.drainCtx_setCtx]
  dsimp only
  rw [State.ctx_setCtx_same, State.setCtx_setCtx_same,
    State.ctx_congr ((State.holdEnd_touches _ (ctxItem x c)).area .tiles (by simp)), State.ctx_setCtx_same]
  rfl

theorem State.holdEnd_none {i : Item} (h : i ∉ s.cad.holdItems) : s.holdEnd i = s := by
  simp [State.holdEnd, h]

theorem endOp_gives (hq : s.noLeftFailures) (h : s.atWord x c p w) (hop : isOp 0xFF w = true) :
    Gives (.endOp x c) s (fun t =>
      t.mem = (s.ctx x c).overlay s.mem ∧ t.ctx x c = (s.ctx x c).passed.ended ∧
      CtxsBut x c s t ∧ ArraysSame s t ∧ OnlyIn [.regs, .mem, .cad, .tiles] s t ∧
      (Item.tileCtx x c ∉ s.cad.holdItems → t.cad = s.cad ∧ t.regs = s.regs)) := by
  have e := exec_endOp x c s
  rw [State.runWord_at h hop rfl, State.endWord_passed, ctxItem_fin] at e
  have hclosing : Touches [.mem, .tiles] [] s (s.closing x c) :=
    (s.withMem_touches _).trans (State.setCtx_touches _ x c _)
  have hhold := State.holdEnd_touches (s.closing x c) (.tileCtx x c)
  refine word_gives_tiles e hq ?_ (by simp [Ctx.ended]) (hclosing.trans (hhold.trans (State.setCtx_touches _ x c _)))
    (by simp) (fun hctx hctxs harrays honly => ⟨?_, hctx, hctxs, harrays, honly.mono (by simp), fun hfree => ?_⟩)
  · rw [State.setCtx_tiles_congr (hhold.area .tiles (by simp)), State.closing, State.setCtx_setCtx_same]
    exact State.setCtx_tiles_congr rfl ..
  · exact (State.settle_mem _).trans (hhold.area .mem (by simp))
  · rw [State.holdEnd_none (s := s.closing x c) hfree]
    exact ⟨State.settle_cad _, State.settle_regs _⟩

/-! ### OWN (R285) -/

theorem own_gives (hq : s.noLeftFailures) (h : s.atWord x c p w) (hop : isOp 0x34 w = true)
    (ho : s.ownsArray x c = true) :
    Gives (.own x c) s (fun t =>
      t.rnat .tilArrayOwner x = 4 + bits w 113 112 ∧ PassedWord x c s t ∧ ArraysSame s t ∧
      RegsBut [RegName.tilArrayOwner.key x 0] s t ∧ OnlyIn [.regs, .tiles] s t) := by
  have hmode : bits w 113 112 < 4 := Nat.mod_lt _ (by decide)
  have hf : (s.passed x c).ownWord x c w = .ok ((s.passed x c).rputN .tilArrayOwner (4 + bits w 113 112) x) := by
    unfold State.ownWord
    rw [show (s.passed x c).ownsArray x c = true from ho]
    rfl
  have e := exec_own x c s
  rw [State.runWord_at h hop hf] at e
  generalize bits w 113 112 = m at *
  refine word_gives_tiles e hq rfl h.unfaulted ((s.setCtx_touches x c _).trans (State.rputN_touches _ _ _ _ _)) (by simp)
    (fun hctx hctxs harrays honly => ⟨?_, ⟨hctx, hctxs⟩, harrays, ?_, honly.mono (by simp)⟩)
  · rw [State.settle_rnat, State.rnat_rputN_same]
    omega
  · exact (RegsBut.rput (s.passed x c) _ _ _ _).trans (.of (State.settle_regs _))

/-! ### CSIG (R270, R282) -/

theorem State.cairn_congr {s t : State} (h : t.crn = s.crn) (k : Nat) : t.cairn k = s.cairn k := by
  simp [State.cairn, h]

theorem State.cairn_cairnPut (s : State) (i v k : Nat) :
    (s.cairnPut i v).cairn k = if k = i then v % 2 ^ 32 else s.cairn k := by
  unfold State.cairn State.cairnPut
  split
  · next h => rw [h]; exact NMap.getD_put_same ..
  · next h => exact NMap.getD_put_ne _ _ _ _ _ h

theorem State.cairnSet_touches (s : State) (i v origin idx : Nat) : Touches [.crn] [] s (s.cairnSet i v origin idx) :=
  (s.logAdd_touches _).trans (State.withCrn_touches _ _)

/-- The context past a CSIG, whose field FENCE asks for its posted writes or does not. -/
def Ctx.signalled (k : Ctx) (w : Nat) : Ctx :=
  { k.passed with posted := if bits w 119 118 = 0 then k.posted else [] }

/-- Memory as a CSIG leaves it. -/
def Ctx.fenced (k : Ctx) (w : Nat) (m : List Host.Cell) : List Host.Cell :=
  if bits w 119 118 = 0 then m else k.overlay m

/-- The state in which a CSIG makes its add or set: the context has fenced as asked. -/
def State.signalling (s : State) (x c w : Nat) : State :=
  (s.withMem ((s.ctx x c).fenced w s.mem)).setCtx x c ((s.ctx x c).signalled w)

/-- The fields of the word's flag byte. -/
theorem bits_flags (w : Nat) : bits (bits w 119 112) 7 6 = bits w 119 118 := by
  simp only [bits]
  omega

theorem bit_flags (w : Nat) : bit (bits w 119 112) 5 = bit w 117 := by
  have h : w / 2 ^ 112 % 2 ^ (119 - 112 + 1) / 2 ^ 5 % 2 = w / 2 ^ 117 % 2 := by omega
  simp only [bit, bits, h]

theorem State.signalling_eq (s : State) (x c w : Nat) :
    (if bits (bits w 119 112) 7 6 = 0 then s.passed x c else (s.passed x c).drainCtx x c) = s.signalling x c w := by
  rw [bits_flags]
  unfold State.signalling Ctx.fenced Ctx.signalled
  split
  · rfl
  · exact State.drainCtx_setCtx s x c (s.ctx x c).passed

theorem csig_gives {u : State} (hq : s.noLeftFailures) (h : s.atWord x c p w) (hop : isOp 0x30 w = true)
    (hf : (s.passed x c).csig x c w p = .ok u) (hu : Touches [.crn] [] (s.signalling x c w) u) :
    Gives (.csig x c) s (fun t =>
      t.crn = u.crn ∧ t.mem = (s.ctx x c).fenced w s.mem ∧ t.ctx x c = (s.ctx x c).signalled w ∧ CtxsBut x c s t ∧
      ArraysSame s t ∧ OnlyIn [.mem, .crn, .tiles] s t) := by
  have e := exec_csig x c s
  rw [State.runWord_at h hop hf] at e
  refine word_gives_tiles e hq ((hu.area .tiles (by simp)).trans (State.setCtx_tiles_congr rfl ..)) h.unfaulted
    (((s.withMem_touches _).trans (State.setCtx_touches _ x c _)).trans hu) (by simp)
    (fun hctx hctxs harrays honly => ⟨State.settle_crn _, ?_, hctx, hctxs, harrays, honly.mono (by simp)⟩)
  exact (State.settle_mem _).trans (hu.area .mem (by simp))

theorem csig_set_gives {i : Nat} (hq : s.noLeftFailures) (h : s.atWord x c p w) (hop : isOp 0x30 w = true)
    (hset : bit w 117 = true) (hr : s.localRef p (bits w 111 96) = .ok i) :
    Gives (.csig x c) s (fun t =>
      t.cairn i = bits w 63 32 ∧ CairnsBut i s t ∧ t.mem = (s.ctx x c).fenced w s.mem ∧
      t.ctx x c = (s.ctx x c).signalled w ∧ CtxsBut x c s t ∧ ArraysSame s t ∧ OnlyIn [.mem, .crn, .tiles] s t) := by
  have hf : (s.passed x c).csig x c w p =
      .ok ((s.signalling x c w).cairnSet i (bits w 63 32) 7 (x.val * 4 + c.val)) := by
    unfold State.csig
    dsimp only
    rw [State.signalling_eq, bit_flags, if_pos hset, show (s.signalling x c w).localRef _ _ = .ok i from hr]
  refine (csig_gives hq h hop hf (State.cairnSet_touches ..)).mono ?_
  rintro t ⟨hcrn, hrest⟩
  have hcairn (k : Nat) : t.cairn k = if k = i then bits w 63 32 % 2 ^ 32 else s.cairn k :=
    (State.cairn_congr hcrn k).trans (State.cairn_cairnPut ..)
  refine ⟨?_, fun k hk => ?_, hrest⟩
  · rw [hcairn, if_pos rfl]
    exact Nat.mod_mod ..
  · rw [hcairn, if_neg hk]

theorem csig_add_gives {i : Nat} (hq : s.noLeftFailures) (h : s.atWord x c p w) (hop : isOp 0x30 w = true)
    (hadd : bit w 117 = false) (hlocal : bit w 111 = false) (hr : s.localRef p (bits w 111 96) = .ok i) :
    Gives (.csig x c) s (fun t =>
      t.cairn i = (s.cairn i + bits w 63 32) % 2 ^ 32 ∧ CairnsBut i s t ∧ t.mem = (s.ctx x c).fenced w s.mem ∧
      t.ctx x c = (s.ctx x c).signalled w ∧ CtxsBut x c s t ∧ ArraysSame s t ∧ OnlyIn [.mem, .crn, .tiles] s t) := by
  have href : bit (bits w 111 96) 15 = false := by
    rw [← hlocal]
    have hfield : w / 2 ^ 96 % 2 ^ (111 - 96 + 1) / 2 ^ 15 % 2 = w / 2 ^ 111 % 2 := by omega
    simp only [bit, bits, hfield]
  have hf : (s.passed x c).csig x c w p =
      .ok ((s.signalling x c w).cairnAdd i (bits w 63 32) (.program x c)) := by
    unfold State.csig
    dsimp only
    rw [State.signalling_eq, bit_flags, hadd, State.addRef, href,
      show (s.signalling x c w).localRef _ _ = .ok i from hr]
    rfl
  refine (csig_gives hq h hop hf (State.cairnAdd_touches ..)).mono ?_
  rintro t ⟨hcrn, hrest⟩
  have hcairn (k : Nat) : t.cairn k = if k = i then (s.cairn i + bits w 63 32) % 2 ^ 32 else s.cairn k :=
    (State.cairn_congr hcrn k).trans (State.cairn_cairnPut ..)
  refine ⟨?_, fun k hk => ?_, hrest⟩
  · rw [hcairn, if_pos rfl]
  · rw [hcairn, if_neg hk]

/-! ### CWAIT (R281, R283, R284) -/

/-- The state in which a CWAIT registers its wait: it has passed the array on, if it says so and its context has it. -/
def State.arrayPassed (s : State) (x c w : Nat) : State :=
  if bit w 119 && s.ownsArray x c then (s.passed x c).rputN .tilArrayOwner (4 + bits w 118 117) x else s.passed x c

theorem State.arrayPassed_touches (s : State) (x c w : Nat) :
    Touches [.regs] [.tilArrayOwner] (s.passed x c) (s.arrayPassed x c w) := by
  unfold State.arrayPassed
  split
  · exact State.rputN_touches ..
  · exact .refl _ _ _

theorem State.arrayPassed_regsBut (s : State) (x c w : Nat) :
    RegsBut [RegName.tilArrayOwner.key x 0] s (s.arrayPassed x c w) := by
  unfold State.arrayPassed
  split
  · exact RegsBut.rput (s.passed x c) _ _ _ _
  · exact fun _ _ _ _ => rfl

theorem State.arrayPassed_owner (s : State) (x c w : Nat) : (s.arrayPassed x c w).rnat .tilArrayOwner x =
    if bit w 119 && s.ownsArray x c then 4 + bits w 118 117 else s.rnat .tilArrayOwner x := by
  have hmode : bits w 118 117 < 4 := Nat.mod_lt _ (by decide)
  unfold State.arrayPassed
  split
  · rw [State.rnat_rputN_same]
    omega
  · rfl

theorem State.registerWait_touches (s : State) (who : Waiter) (p ref target : Nat) :
    Touches [.crn] [] s (s.registerWait who p ref target) := s.withCrn_touches _

/-- The context waits for a cairn at the word. -/
def Ctx.waiting (k : Ctx) : Ctx := { k with st := .wait, wait := .cairn }

theorem State.cwait_local {i : Nat} (hr : s.waitRef p (bits w 111 96) = .ok i) :
    (s.passed x c).cwait x c w p = .ok (((s.arrayPassed x c w).registerWait (.tileCtx x c) p i (bits w 63 32)).setCtx x c
      (s.ctx x c).waiting) := by
  have hflag : bit (bits w 119 112) 7 = bit w 119 := by
    have h : w / 2 ^ 112 % 2 ^ (119 - 112 + 1) / 2 ^ 7 % 2 = w / 2 ^ 119 % 2 := by omega
    simp only [bit, bits, h]
  have hmode : bits (bits w 119 112) 6 5 = bits w 118 117 := by
    simp only [bits]
    omega
  have hctx : ((s.arrayPassed x c w).registerWait (.tileCtx x c) p i (bits w 63 32)).ctx x c = (s.ctx x c).passed :=
    (State.ctx_congr ((s.arrayPassed_touches x c w).area .tiles (by simp)) x c).trans (State.ctx_setCtx_same ..)
  unfold State.cwait
  dsimp only
  rw [show (s.passed x c).waitRef p _ = .ok i from hr, hflag, hmode]
  change Except.ok (State.ctxWaits ((s.arrayPassed x c w).registerWait (.tileCtx x c) p i (bits w 63 32)) x c .cairn) = _
  unfold State.ctxWaits
  rw [hctx]
  rfl

theorem cwait_gives {i : Nat} (hq : s.noLeftFailures) (h : s.atWord x c p w) (hop : isOp 0x31 w = true)
    (hr : s.waitRef p (bits w 111 96) = .ok i) :
    Gives (.cwait x c) s (fun t =>
      t.crn = { s.crn with waits := s.crn.waits ++
        [Wait.mk (.tileCtx x c) i (bits w 63 32) p (holds (s.cairn i) (bits w 63 32))] } ∧
      t.ctx x c = (s.ctx x c).waiting ∧
      t.rnat .tilArrayOwner x =
        (if bit w 119 && s.ownsArray x c then 4 + bits w 118 117 else s.rnat .tilArrayOwner x) ∧
      CtxsBut x c s t ∧ ArraysSame s t ∧ RegsBut [RegName.tilArrayOwner.key x 0] s t ∧
      OnlyIn [.regs, .crn, .tiles] s t) := by
  have e := exec_cwait x c s
  rw [State.runWord_at h hop (State.cwait_local hr)] at e
  have hpassed := s.arrayPassed_touches x c w
  have hcrn : (s.arrayPassed x c w).crn = s.crn := hpassed.area .crn (by simp)
  refine word_gives_tiles e hq ?_ (by simp [Ctx.waiting]) (((s.setCtx_touches x c _).trans hpassed).trans
    ((State.registerWait_touches ..).trans (State.setCtx_touches _ x c _))) (by simp)
    (fun hctx hctxs harrays honly => ⟨?_, hctx, ?_, hctxs, harrays, ?_, honly.mono (by simp)⟩)
  · have htiles : ((s.arrayPassed x c w).registerWait (.tileCtx x c) p i (bits w 63 32)).tiles = (s.passed x c).tiles :=
      hpassed.area .tiles (by simp)
    rw [State.setCtx_tiles_congr htiles, State.passed, State.setCtx_setCtx_same]
  · refine (State.settle_crn _).trans ?_
    change { (s.arrayPassed x c w).crn with waits := (s.arrayPassed x c w).crn.waits ++
      [Wait.mk (.tileCtx x c) i (bits w 63 32) p (holds ((s.arrayPassed x c w).cairn i) (bits w 63 32))] } = _
    rw [State.cairn_congr hcrn, hcrn]
  · rw [State.settle_rnat]
    exact s.arrayPassed_owner x c w
  · exact (s.arrayPassed_regsBut x c w).trans (.of (State.settle_regs _))

end

/-- Settles O36: each word comes to one new value of its context beside what the word says it does elsewhere, and leaves no
channel newly stopped and no context newly faulted. -/
theorem controlWords : Obligations.ControlWords := by
  unfold Obligations.ControlWords
  refine fun s x c p w hq h => ⟨fun hop hr => dmago_gives hq h hop hr, fun code hop hr => dmago_refused_gives hq h hop hr,
    fun hop => fence_gives hq h hop, fun hop => endOp_gives hq h hop, fun hop ho => own_gives hq h hop ho,
    fun i hop hset hr => csig_set_gives hq h hop hset (eq_ok_of_toOption hr), fun i hop hadd hlocal hr => ?_,
    fun i hop hr => ?_⟩
  · refine (csig_add_gives hq h hop hadd hlocal (eq_ok_of_toOption hr)).mono ?_
    rintro t ⟨hcairn, hcairns, hmem, hctx, hrest⟩
    exact ⟨hcairn, hcairns, hmem, by rw [hctx]; rfl, hrest⟩
  · refine (cwait_gives hq h hop (eq_ok_of_toOption hr)).mono ?_
    rintro t ⟨hcrn, hctx, howner, hrest⟩
    refine ⟨by rw [hcrn], hctx, howner, fun k _ => ?_, hrest⟩
    simp [State.cairn, hcrn]

end Sys2Proof.Machine
end

section
/-! SUPPORT. The command DMA_CLEAR of a ring (R230, R236, R479) for a channel that a fetch stream names, and what it means
for the statement about the device commands of a ring. -/
namespace Sys2Proof.Machine

theorem exec_dmaClear (f : Fin 9) (s : State) : exec (.dmaClear f) s = done s (s.cmdDmaClear f) := rfl

/-- The command at the front of its function's ring is taken, and the rest stays. -/
theorem State.takeCmd_front {s : State} {f op : Nat} {c : Taken} {rest : List Taken} (h : s.front f op c rest) :
    s.takeCmd f op = some (c, s.setFn f { s.fnSt f with taken := rest }) := by
  obtain ⟨htaken, hop⟩ := h
  simp [State.takeCmd, htaken, hop]

theorem State.clearChan_scalerOwned {s : State} {d n : Nat} (h : s.scalerOwned d n = true) :
    s.clearChan d n = none := by
  simp [State.clearChan, h]

/-- Software never clears a Scaler-owned channel (R236): the command is discarded, whoever gives it. -/
theorem State.cmdDmaClear_scalerOwned {s : State} {f d n : Nat} {c : Taken} {rest : List Taken}
    (h : s.front f 0x12 c rest) (hd : fieldAt c.bytes 8 1 = d) (hn : fieldAt c.bytes 9 1 = n)
    (ho : f = 0 ∨ s.ownerChan d n = (s.partOfFn f).map (·.id)) (hs : s.scalerOwned d n = true) :
    s.cmdDmaClear f =
      (s.setFn f { s.fnSt f with taken := rest }).cmdDiscarded f c.tag .dmaChCtrl d n 4 := by
  have hallowed : (f ≠ 0 && s.ownerChan d n != (s.partOfFn f).map (·.id)) = false := by
    rcases ho with ho | ho <;> simp [ho]
  have hclear : (s.setFn f { s.fnSt f with taken := rest }).clearChan d n = none := State.clearChan_scalerOwned hs
  unfold State.cmdDmaClear State.chanCmd
  rw [State.takeCmd_front h]
  dsimp only
  rw [hd, hn, hclear, ite_self]
  exact if_neg (Bool.eq_false_iff.mp hallowed)

theorem dmaClear_scalerOwned_gives {s : State} {f : Fin 9} {d n : Nat} {c : Taken} {rest : List Taken}
    (h : s.front f 0x12 c rest) (hd : fieldAt c.bytes 8 1 = d) (hn : fieldAt c.bytes 9 1 = n)
    (ho : f.val = 0 ∨ s.ownerChan d n = (s.partOfFn f).map (·.id)) (hs : s.scalerOwned d n = true) :
    Gives (.dmaClear f) s (fun t => t.chan d n = s.chan d n) := by
  have e := exec_dmaClear f s
  rw [State.cmdDmaClear_scalerOwned h hd hn ho hs] at e
  exact done_gives e rfl rfl (State.chan_congr (congrArg Dma.chans (State.settle_dma _)) d n)

/-- DMA_CLEAR for channel 0 of complex 0. -/
def clearChannelZero : Taken := { op := 0x12, tag := 0, bytes := List.replicate 64 0 }

/-- Fetch stream 0 is valid and names channel 0 of complex 0, which is STOPPED; PF0 has had its DMA_CLEAR taken. -/
def scalerChannelStopped : State :=
  { regs := [(RegName.sclStreamCfg.key 0 0, 2 ^ 56)], dma := { chans := [(0, { st := .stopped })] },
    hif := { fns := [(0, { taken := [clearChannelZero] })] } }

/-- Refutes O51: its clause for DMA_CLEAR does not say that the channel is no Scaler-owned one, and a CLEAR of such a channel
is discarded (R236): in `scalerChannelStopped` the channel stays STOPPED. -/
theorem not_deviceCommands : ¬ Obligations.DeviceCommands := by
  unfold Obligations.DeviceCommands
  intro h
  have hfront : scalerChannelStopped.front 0 0x12 clearChannelZero [] := by decide
  obtain ⟨-, -, -, hclear, -⟩ := h scalerChannelStopped 0 clearChannelZero [] (by decide)
  have hcleared := hclear 0 0 hfront (by decide) (by decide) (.inl rfl) (by decide)
  have hkept := dmaClear_scalerOwned_gives (f := 0) (d := 0) (n := 0) hfront (by decide) (by decide) (.inl rfl) (by decide)
  obtain ⟨t, ⟨hidle, -⟩, hstopped⟩ := hcleared.both hkept
  exact absurd (congrArg Chan.st (hstopped.symm.trans hidle)) (by decide)

end Sys2Proof.Machine
end

section
/-! SUPPORT. Words of the vector unit (R242, R258 to R262): the draws of a context are a function of its generators, a
word's lanes come to one new value of its context, and only the sticky flags are written beside it. -/
namespace Sys2Proof.Machine

@[simp] theorem State.ctx_passed (s : State) (x c : Nat) : (s.passed x c).ctx x c = (s.ctx x c).passed :=
  State.ctx_setCtx_same ..

/-! ### Lane generators (R261) -/

/-- The draws of a rounding under RMODE, as the context's generators stand. -/
def Ctx.laneDraws (k : Ctx) (x c mode : Nat) : List Nat :=
  if mode = 1 then (List.range 512).map (fun l => mix (laneKey k x c l) k.draws) else List.replicate 512 0

/-- The context after `n` draws per lane. -/
def Ctx.drawn (k : Ctx) (n : Nat) : Ctx := { k with draws := k.draws + n }

theorem Ctx.drawn_zero (k : Ctx) : k.drawn 0 = k := rfl

theorem Ctx.laneDraws_congr {j k : Ctx} (hseed : j.seed = k.seed) (hdraws : j.draws = k.draws) (x c mode : Nat) :
    j.laneDraws x c mode = k.laneDraws x c mode := by
  simp only [Ctx.laneDraws, laneKey, hseed, hdraws]

theorem State.drawFor_fst (s : State) (x c mode : Nat) : (s.drawFor x c mode).1 = (s.ctx x c).laneDraws x c mode := by
  unfold State.drawFor Ctx.laneDraws
  split
  · simp only [State.draw]
  · simp only

theorem State.draw_setCtx (s : State) (x c : Nat) (k : Ctx) :
    (s.setCtx x c k).draw x c = (k.laneDraws x c 1, s.setCtx x c (k.drawn 1)) := by
  simp only [State.draw, Ctx.laneDraws, Ctx.drawn, State.ctx_setCtx_same, State.setCtx_setCtx_same, if_true]

theorem State.drawFor_setCtx (s : State) (x c mode : Nat) (k : Ctx) :
    (s.setCtx x c k).drawFor x c mode =
      (k.laneDraws x c mode, s.setCtx x c (k.drawn (if mode = 1 then 1 else 0))) := by
  unfold State.drawFor
  split
  · next h => rw [State.draw_setCtx, h]
  · next h => simp only [Ctx.laneDraws, if_neg h, Ctx.drawn_zero]

theorem State.drawFor_ctx (s : State) (x c mode : Nat) :
    (s.drawFor x c mode).2.ctx x c = (s.ctx x c).drawn (if mode = 1 then 1 else 0) := by
  unfold State.drawFor
  split
  · exact State.ctx_setCtx_same ..
  · rfl

/-! ### Sticky flags (R260) -/

/-- From `s` to `u` only the sticky flags of context `c` of tile `x` can differ. -/
structure FlagsOnly (x c : Nat) (s u : State) : Prop where
  touches : Touches [.regs] [.tilCtxFlags] s u
  regs : RegsBut [RegName.tilCtxFlags.key x c] s u

theorem FlagsOnly.refl (x c : Nat) (s : State) : FlagsOnly x c s s := ⟨.refl _ _ s, .refl _ s⟩

theorem FlagsOnly.trans {x c : Nat} {s u v : State} (h : FlagsOnly x c s u) (k : FlagsOnly x c u v) :
    FlagsOnly x c s v := ⟨(h.touches.trans k.touches).mono (by simp) (by simp), h.regs.trans k.regs⟩

theorem State.flagsOf_flagsOnly (s : State) (x c : Nat) (rs : List FRes) : FlagsOnly x c s (s.flagsOf x c rs) :=
  ⟨s.rputN_touches _ _ _ _, RegsBut.rput s _ _ _ _⟩

theorem State.flagsOf_setCtx (s : State) (x c : Nat) (k : Ctx) (rs : List FRes) :
    (s.setCtx x c k).flagsOf x c rs = (s.flagsOf x c rs).setCtx x c k := rfl

/-- The flags that lane results raise: NV, OF and UF. -/
def flagBits (rs : List FRes) : Nat := b2n (rs.any (·.nv)) + 2 * b2n (rs.any (·.of)) + 4 * b2n (rs.any (·.uf))

theorem b2n_le_one (b : Bool) : b2n b ≤ 1 := by cases b <;> decide

theorem State.flagsOf_rnat (s : State) (x c : Nat) (rs : List FRes) :
    (s.flagsOf x c rs).rnat .tilCtxFlags x c = s.rnat .tilCtxFlags x c ||| flagBits rs := by
  have hnv := b2n_le_one (rs.any (·.nv))
  have hof := b2n_le_one (rs.any (·.of))
  have huf := b2n_le_one (rs.any (·.uf))
  have hbits : flagBits rs < 2 ^ 64 := by unfold flagBits; omega
  refine (State.rnat_rputN_same ..).trans (Nat.mod_eq_of_lt (Nat.or_lt_two_pow (BitVec.isLt _) hbits))

/-! ### Operands and results -/

/-- The context's vector register `v` holds `ls`. -/
def Ctx.withVreg (k : Ctx) (v : Nat) (ls : List Nat) : Ctx := { k with vregs := NMap.put k.vregs v ls }

theorem State.setVreg_setCtx (s : State) (x c v : Nat) (k : Ctx) (ls : List Nat) :
    (s.setCtx x c k).setVreg x c v ls = s.setCtx x c (k.withVreg v ls) := by
  simp only [State.setVreg, State.ctx_setCtx_same, State.setCtx_setCtx_same, Ctx.withVreg]

theorem State.vreg_setCtx {s : State} {x c : Nat} {k : Ctx} (hk : k.vregs = (s.ctx x c).vregs) (v : Nat) :
    (s.setCtx x c k).vreg x c v = s.vreg x c v := by
  simp only [State.vreg, State.ctx_setCtx_same, hk]

theorem State.vops_setCtx {s : State} {x c : Nat} {k : Ctx} (hk : k.vregs = (s.ctx x c).vregs) (w : Nat) :
    (s.setCtx x c k).vops x c w = s.vops x c w := by
  simp only [State.vops, State.vreg_setCtx hk]

/-- The context past a word of the vector unit that gave the lane results `rs` after `n` draws. -/
def Ctx.laned (k : Ctx) (w n : Nat) (rs : List FRes) : Ctx :=
  (k.passed.drawn n).withVreg (bits w 111 107) (rs.map (·.v))

/-- The state past such a word. -/
def State.laned (s : State) (x c w n : Nat) (rs : List FRes) : State :=
  (s.flagsOf x c rs).setCtx x c ((s.ctx x c).laned w n rs)

/-- A word with rounding: one draw per lane under SR, and the lanes of Table 9.5. -/
theorem State.vlane_passed (s : State) (x c w : Nat) (f : Rnd → Nat → Nat → Nat → FRes) :
    (s.passed x c).vlane x c w f = s.laned x c w (if bits w 91 90 = 1 then 1 else 0) (s.roundLanes x c w f) := by
  unfold State.vlane State.passed State.roundLanes
  dsimp only
  rw [State.drawFor_setCtx, State.drawFor_fst]
  dsimp only
  rw [State.vops_setCtx (by rfl), State.flagsOf_setCtx, State.setVreg_setCtx]
  rfl

/-- A word without rounding. -/
theorem State.vplain_passed (s : State) (x c w : Nat) (f : Nat → Nat → Nat → FRes) :
    (s.passed x c).vplain x c w f = s.laned x c w 0 ((s.vops x c w).map (fun q => f q.1 q.2.1 q.2.2)) := by
  unfold State.vplain State.passed
  dsimp only
  rw [State.vops_setCtx (by rfl), State.flagsOf_setCtx, State.setVreg_setCtx]
  rfl

/-! ### What a command gives -/

section
variable {i : Instr} {s u : State} {x : Fin 24} {c : Fin 4} {p w : Nat}

theorem exec_vopWord {fn : Nat} {f : State → Nat → State} (e : exec i s = done s (s.vopWord x c fn f))
    (h : s.atWord x c p w) (hop : isVop fn w = true) : exec i s = done s (f (s.passed x c) w) := by
  rw [e, State.vopWord, State.runWord_at h hop rfl]

/-- A word that gives its context a new value, running on, and writes no register but the context's sticky flags. -/
theorem flags_gives {v : State} {k : Ctx} {P : State → Prop} (e : exec i s = done s (v.setCtx x c k))
    (hq : s.noLeftFailures) (hk : k.st ≠ .fault) (hv : FlagsOnly x c s v)
    (hp : ∀ t, t.regs = v.regs → t.ctx x c = k → CtxsBut x c s t ∧ ArraysSame s t ∧
      RegsBut [RegName.tilCtxFlags.key x c] s t ∧ OnlyIn [.regs, .tiles] s t → P t) : Gives i s P :=
  word_gives_tiles e hq (State.setCtx_tiles_congr (hv.touches.area .tiles (by simp)) ..) hk
    (hv.touches.trans (State.setCtx_touches v x c k)) (by simp)
    (fun hctx hctxs harrays honly => hp _ (State.settle_regs _) hctx
      ⟨hctxs, harrays, hv.regs.trans (.of (State.settle_regs _)), honly⟩)

theorem vop_gives {fn n : Nat} {f : State → Nat → State} {rs : List FRes}
    (e : exec i s = done s (s.vopWord x c fn f)) (hq : s.noLeftFailures) (h : s.atWord x c p w)
    (hf : f (s.passed x c) w = s.laned x c w n rs) (hop : isVop fn w = true) : Gives i s (LaneResult x c w n rs s) := by
  have e := exec_vopWord e h hop
  rw [hf] at e
  exact flags_gives e hq h.unfaulted (s.flagsOf_flagsOnly x c rs) (fun t hregs hctx hrest =>
    ⟨hctx, (State.rnat_congr hregs ..).trans (s.flagsOf_rnat x c rs), hrest⟩)

end

/-- Settles O32: each word runs its lanes on the state that its PC has passed, which holds the same operands and
generators. -/
theorem vectorArithmetic : Obligations.VectorArithmetic := by
  unfold Obligations.VectorArithmetic
  exact fun s x c p w hq h => ⟨vop_gives rfl hq h (s.vlane_passed ..), vop_gives rfl hq h (s.vlane_passed ..),
    vop_gives rfl hq h (s.vlane_passed ..), vop_gives rfl hq h (s.vlane_passed ..),
    vop_gives rfl hq h (s.vplain_passed ..), vop_gives rfl hq h (s.vplain_passed ..),
    vop_gives rfl hq h (s.vlane_passed ..), vop_gives rfl hq h (s.vlane_passed ..),
    vop_gives rfl hq h (s.vlane_passed ..), vop_gives rfl hq h (s.vlane_passed ..),
    vop_gives rfl hq h (s.vlane_passed ..), vop_gives rfl hq h (s.vlane_passed ..),
    vop_gives rfl hq h (s.vplain_passed ..)⟩

end Sys2Proof.Machine
end

section
/-! SUPPORT. RAND, DROP, RSUM, KEYSET and SRSET (R258 to R262, R325): what each gives, and the statement about them. -/
namespace Sys2Proof.Machine

theorem exec_keyset (x : Fin 24) (c : Fin 4) (s : State) :
    exec (.keyset x c) s = done s (s.runWord x c (isOp 0x13) (fun s w _ => .ok (s.keysetWord x c w))) := rfl

theorem exec_srset (x : Fin 24) (c : Fin 4) (s : State) :
    exec (.srset x c) s = done s (s.runWord x c (isOp 0x14) (fun s w _ => .ok (s.srsetWord x c w))) := rfl

/-! ### RAND and DROP (R261, R262) -/

theorem State.randLanes_passed (s : State) (x c w : Nat) :
    (s.passed x c).randLanes x c w =
      s.setCtx x c ((s.ctx x c).laned w 1 ((s.draw x c).1.map (fun v => { v := v }))) := by
  have hdraw : (s.draw x c).1 = (s.ctx x c).laneDraws x c 1 := s.drawFor_fst x c 1
  have hlanes (ds : List Nat) : (ds.map (fun v => ({ v := v } : FRes))).map (·.v) = ds := by simp [Function.comp_def]
  unfold State.randLanes State.passed Ctx.laned
  rw [State.draw_setCtx, hdraw, hlanes]
  dsimp only
  rw [State.setVreg_setCtx]
  rfl

/-- Draws alone raise no flag. -/
theorem flagBits_values (ds : List Nat) : flagBits (ds.map (fun v => { v := v })) = 0 := by
  simp [flagBits, b2n]

/-- One lane of DROP: the product of VA and VC where the keyed draw reaches `limit`, else +0 (R262). -/
def dropLane (key ctr limit : Nat) (r : Rnd) (a b k : Nat) : FRes :=
  if limit ≤ mix key (ctr + b) then f32MulR r a k else { v := 0 }

theorem State.dropLanes_passed (s : State) (x c w : Nat) :
    (s.passed x c).dropLanes x c w = s.laned x c w (if bits w 91 90 = 1 then 1 else 0)
      (s.roundLanes x c w
        (dropLane (s.maskKey (s.ctx x c).keySel (s.ctx x c).maskStep) (s.ctx x c).ctr (bits w 63 32))) := by
  refine Eq.trans ?_ (s.vlane_passed x c w _)
  unfold State.dropLanes
  rw [State.ctx_passed]
  rfl

/-! ### RSUM (R258) -/

/-- The sum is a function of the lanes and of the context's generators. -/
theorem State.rsum_fst_congr {s u : State} {x c : Nat} (hseed : (u.ctx x c).seed = (s.ctx x c).seed)
    (hdraws : (u.ctx x c).draws = (s.ctx x c).draws) (mode n : Nat) (ls : List Nat) :
    (u.rsum x c mode n ls).1 = (s.rsum x c mode n ls).1 := by
  induction n generalizing s u ls with
  | zero => rfl
  | succ n ih =>
    have hlanes : (u.drawFor x c mode).1 = (s.drawFor x c mode).1 := by
      rw [State.drawFor_fst, State.drawFor_fst, Ctx.laneDraws_congr hseed hdraws]
    have hafter : ((u.drawFor x c mode).2.ctx x c).seed = ((s.drawFor x c mode).2.ctx x c).seed ∧
        ((u.drawFor x c mode).2.ctx x c).draws = ((s.drawFor x c mode).2.ctx x c).draws := by
      simp only [State.drawFor_ctx, Ctx.drawn, hseed, hdraws, and_self]
    obtain ⟨hseed', hdraws'⟩ := hafter
    simp only [State.rsum, hlanes]
    exact ih (s := State.flagsOf _ x c _) (u := State.flagsOf _ x c _) hseed' hdraws' _

/-- Its levels take their draws, and raise flags. -/
theorem State.rsum_setCtx (s : State) (x c mode n : Nat) (k : Ctx) (ls : List Nat) :
    ∃ v, FlagsOnly x c s v ∧
      ((s.setCtx x c k).rsum x c mode n ls).2 = v.setCtx x c (k.drawn (if mode = 1 then n else 0)) := by
  induction n generalizing s k ls with
  | zero => exact ⟨s, .refl .., by simp [State.rsum, Ctx.drawn_zero]⟩
  | succ n ih =>
    obtain ⟨v, hv, h⟩ := ih (s.flagsOf x c (sumLevel { mode := mode } ls (k.laneDraws x c mode)))
      (k.drawn (if mode = 1 then 1 else 0)) ((sumLevel { mode := mode } ls (k.laneDraws x c mode)).map (·.v))
    refine ⟨v, (s.flagsOf_flagsOnly x c _).trans hv, ?_⟩
    rw [State.rsum, State.drawFor_setCtx]
    dsimp only
    rw [State.flagsOf_setCtx, h]
    congr 1
    unfold Ctx.drawn
    split <;> simp [Nat.add_assoc, Nat.add_comm 1 n]

/-- The context past an RSUM of value `v`. -/
def Ctx.summed (k : Ctx) (w v : Nat) : Ctx :=
  (k.passed.drawn (if bits w 91 90 = 1 then 9 else 0)).withVreg (bits w 111 107) (List.replicate 512 v)

theorem State.sumLanes_passed (s : State) (x c w : Nat) :
    ∃ v, FlagsOnly x c s v ∧ (s.passed x c).sumLanes x c w =
      v.setCtx x c ((s.ctx x c).summed w (s.rsum x c (bits w 91 90) 9 (s.vreg x c (bits w 106 102))).1) := by
  have hvreg : (s.passed x c).vreg x c (bits w 106 102) = s.vreg x c (bits w 106 102) := State.vreg_setCtx (by rfl) _
  obtain ⟨v, hv, h⟩ := s.rsum_setCtx x c (bits w 91 90) 9 (s.ctx x c).passed (s.vreg x c (bits w 106 102))
  have hvalue := State.rsum_fst_congr (s := s) (u := s.passed x c) (by rw [State.ctx_passed]; rfl)
    (by rw [State.ctx_passed]; rfl) (bits w 91 90) 9 (s.vreg x c (bits w 106 102))
  refine ⟨v, hv, ?_⟩
  unfold State.sumLanes
  dsimp only
  rw [hvreg, hvalue, State.passed, h, State.setVreg_setCtx]
  rfl

/-! ### What each gives -/

section
variable {s : State} {x : Fin 24} {c : Fin 4} {p w : Nat}

theorem rand_gives (hq : s.noLeftFailures) (h : s.atWord x c p w) (hop : isVop 0x0D w = true) :
    Gives (.rand x c) s (LaneResult x c w 1 ((s.draw x c).1.map (fun v => { v := v })) s) := by
  have e := exec_vopWord (i := .rand x c) rfl h hop
  rw [State.randLanes_passed] at e
  refine flags_gives e hq h.unfaulted (.refl x c s) (fun t hregs hctx hrest => ⟨hctx, ?_, hrest⟩)
  refine (State.rnat_congr hregs ..).trans ?_
  exact ((congrArg _ (flagBits_values _)).trans (Nat.or_zero _)).symm

theorem rsum_gives (hq : s.noLeftFailures) (h : s.atWord x c p w) (hop : isVop 0x0F w = true) :
    Gives (.rsum x c) s (fun t =>
      t.ctx x c = (s.ctx x c).summed w (s.rsum x c (bits w 91 90) 9 (s.vreg x c (bits w 106 102))).1 ∧
      CtxsBut x c s t ∧ ArraysSame s t ∧ RegsBut [RegName.tilCtxFlags.key x c] s t ∧ OnlyIn [.regs, .tiles] s t) := by
  have e := exec_vopWord (i := .rsum x c) rfl h hop
  obtain ⟨v, hv, hsum⟩ := s.sumLanes_passed x c w
  rw [hsum] at e
  exact flags_gives e hq h.unfaulted hv (fun t _ hctx hrest => ⟨hctx, hrest⟩)

/-- A word that only gives its context a new value, running on. -/
theorem ctxWord_gives {i : Instr} {k : Ctx} (e : exec i s = done s (s.setCtx x c k)) (hq : s.noLeftFailures)
    (hk : k.st ≠ .fault) :
    Gives i s (fun t => t.ctx x c = k ∧ CtxsBut x c s t ∧ ArraysSame s t ∧ OnlyIn [.tiles] s t) :=
  word_gives_tiles e hq rfl hk (s.setCtx_touches x c k) (by simp)
    (fun hctx hctxs harrays honly => ⟨hctx, hctxs, harrays, honly⟩)

theorem keyset_gives (hq : s.noLeftFailures) (h : s.atWord x c p w) (hop : isOp 0x13 w = true) :
    Gives (.keyset x c) s (fun t =>
      t.ctx x c = { (s.ctx x c).passed with keySel := bits w 115 112, ctr := bits w 31 0, maskStep := s.cad.step } ∧
      CtxsBut x c s t ∧ ArraysSame s t ∧ OnlyIn [.tiles] s t) := by
  have e := exec_keyset x c s
  rw [State.runWord_at h hop rfl, State.keysetWord, State.passed, State.ctx_setCtx_same, State.setCtx_setCtx_same] at e
  exact ctxWord_gives e hq h.unfaulted

theorem srset_gives (hq : s.noLeftFailures) (h : s.atWord x c p w) (hop : isOp 0x14 w = true) :
    Gives (.srset x c) s (fun t =>
      t.ctx x c = { (s.ctx x c).passed with seed := some (s.rnat .tilSrSeed, bits w 31 0), draws := 0 } ∧
      CtxsBut x c s t ∧ ArraysSame s t ∧ OnlyIn [.tiles] s t) := by
  have e := exec_srset x c s
  rw [State.runWord_at h hop rfl, State.srsetWord, State.passed, State.ctx_setCtx_same, State.setCtx_setCtx_same] at e
  exact ctxWord_gives e hq h.unfaulted

end

/-- Settles O33: the streams are functions of the context's generators and key, which the PC's passing leaves alone. -/
theorem vectorStreams : Obligations.VectorStreams := by
  unfold Obligations.VectorStreams
  exact fun s x c p w hq h => ⟨rand_gives hq h, vop_gives rfl hq h (s.dropLanes_passed ..), rsum_gives hq h,
    keyset_gives hq h, srset_gives hq h⟩

end Sys2Proof.Machine
end

section
/-! SUPPORT. VLD and VST (R258, R259, R261, R268): the memory that a word reads and writes as its context sees it, and
what each of the two gives. -/
namespace Sys2Proof.Machine

theorem exec_vld (x : Fin 24) (c : Fin 4) (s : State) :
    exec (.vld x c .clean) s = done s (s.runWord x c (isOp 0x11) (fun s w p => s.vld x c w p)) := rfl

theorem exec_vst (x : Fin 24) (c : Fin 4) (s : State) :
    exec (.vst x c) s = done s (s.runWord x c (isOp 0x12) (fun s w p => s.vst x c w p)) := rfl

/-! ### Memory as a context sees it (R106, R172, R268) -/

/-- What a context may access depends on its segment, and on no other part of the contexts. -/
theorem State.rowsAccess_setCtx {s : State} {x c : Nat} {k : Ctx} (hk : k.seg = (s.ctx x c).seg) (p acc : Nat)
    (rows : List (Nat × Nat)) : (s.setCtx x c k).rowsAccess x c p acc rows = s.rowsAccess x c p acc rows := by
  have htile (a len : Nat) : (s.setCtx x c k).tileAccess p a len acc = s.tileAccess p a len acc := rfl
  have hentry (q e : Nat) : (s.setCtx x c k).entry? q e = s.entry? q e := rfl
  have hconfined (a len : Nat) : (s.setCtx x c k).segConfined x c a len = s.segConfined x c a len := by
    simp only [State.segConfined, State.ctx_setCtx_same, hk, hentry]
  simp only [State.rowsAccess, htile, hconfined]

/-- What a context reads depends on its posted writes. -/
theorem State.ctxRead_congr {s u : State} {x c : Nat} (hmem : u.mem = s.mem)
    (hposted : (u.ctx x c).posted = (s.ctx x c).posted) (a n : Nat) : u.ctxRead x c a n = s.ctxRead x c a n := by
  simp only [State.ctxRead, Ctx.overlay, hmem, hposted]

/-- The context has posted one write more. -/
def Ctx.withPost (k : Ctx) (a : Nat) (bs : List Byte) : Ctx := { k with posted := k.posted ++ [(a, bs)] }

theorem State.post_setCtx (s : State) (x c a : Nat) (k : Ctx) (bs : List Byte) :
    (s.setCtx x c k).post x c a bs = s.setCtx x c (k.withPost a bs) := by
  simp only [State.post, State.ctx_setCtx_same, State.setCtx_setCtx_same, Ctx.withPost]

theorem State.rowsAccess_passed (s : State) (x c p acc : Nat) (rows : List (Nat × Nat)) :
    (s.passed x c).rowsAccess x c p acc rows = s.rowsAccess x c p acc rows :=
  State.rowsAccess_setCtx (by rfl) p acc rows

theorem State.ctxRead_passed (s : State) (x c a n : Nat) : (s.passed x c).ctxRead x c a n = s.ctxRead x c a n :=
  State.ctxRead_congr (s := s) (u := s.passed x c) rfl (by rw [State.ctx_passed]; rfl) a n

/-! ### VLD -/

section
variable {s : State} {x : Fin 24} {c : Fin 4} {p w : Nat}

/-- The lanes that VLD loads: its elements as FP32. -/
def State.loaded (s : State) (x c w : Nat) : List Nat :=
  (elemsOf (fmtSize (bits w 119 116)) 512 (s.ctxRead x c (wAddr w) (512 * fmtSize (bits w 119 116)))).map
    (vldLane (bits w 119 116))

theorem State.vld_passed (s : State) {x c w p : Nat}
    (ha : s.rowsAccess x c p 1 [(wAddr w, 512 * fmtSize (bits w 119 116))] = none) :
    (s.passed x c).vld x c w p =
      .ok (s.setCtx x c ((s.ctx x c).passed.withVreg (bits w 55 51) (s.loaded x c w))) := by
  unfold State.vld
  dsimp only
  rw [State.rowsAccess_passed, ha, State.ctxRead_passed]
  dsimp only
  rw [State.passed, State.setVreg_setCtx]
  rfl

theorem vld_gives (hq : s.noLeftFailures) (h : s.atWord x c p w) (hop : isOp 0x11 w = true)
    (ha : s.rowsAccess x c p 1 [(wAddr w, 512 * fmtSize (bits w 119 116))] = none) :
    Gives (.vld x c .clean) s (fun t =>
      t.ctx x c = (s.ctx x c).passed.withVreg (bits w 55 51) (s.loaded x c w) ∧
      CtxsBut x c s t ∧ ArraysSame s t ∧ OnlyIn [.tiles] s t) := by
  have e := exec_vld x c s
  rw [State.runWord_at h hop (s.vld_passed ha)] at e
  exact ctxWord_gives e hq h.unfaulted

/-! ### VST -/

/-- One lane of VST: the result that is stored (R259). -/
def vstLane (w a draw : Nat) : FRes :=
  if bits w 119 116 = 5 then { v := a }
  else outRound (bits w 119 116) { mode := bits w 115 114, draw := draw, sat := bit w 113 } false (f32v a)

theorem vstLane_v (w a draw : Nat) : (vstLane w a draw).v = if bits w 119 116 = 5 then a else
    (outRound (bits w 119 116) { mode := bits w 115 114, draw := draw, sat := bit w 113 } false (f32v a)).v := by
  unfold vstLane
  split <;> rfl

/-- The lanes that VST stores. -/
def State.storeLanes (s : State) (x c w : Nat) : List FRes :=
  ((s.vreg x c (bits w 55 51)).zip (s.drawFor x c (bits w 115 114)).1).map (fun q => vstLane w q.1 q.2)

/-- The bytes of lane results in a format of size `n`. -/
def laneBytes (n : Nat) (rs : List FRes) : List Byte := rs.flatMap (fun f => leBytes n f.v)

theorem State.vst_passed (s : State) {x c w p : Nat}
    (ha : s.rowsAccess x c p 2 [(wAddr w, 512 * fmtSize (bits w 119 116))] = none) :
    (s.passed x c).vst x c w p = .ok ((s.flagsOf x c (s.storeLanes x c w)).setCtx x c
      (((s.ctx x c).passed.drawn (if bits w 115 114 = 1 then 1 else 0)).withPost (wAddr w)
        (laneBytes (fmtSize (bits w 119 116)) (s.storeLanes x c w)))) := by
  unfold State.vst
  dsimp only
  rw [State.rowsAccess_passed, ha]
  dsimp only
  rw [State.passed, State.drawFor_setCtx]
  dsimp only
  rw [State.vreg_setCtx (by rfl), State.flagsOf_setCtx, State.post_setCtx, State.storeLanes, State.drawFor_fst]
  rfl

theorem vst_gives (hq : s.noLeftFailures) (h : s.atWord x c p w) (hop : isOp 0x12 w = true)
    (ha : s.rowsAccess x c p 2 [(wAddr w, 512 * fmtSize (bits w 119 116))] = none) :
    Gives (.vst x c) s (fun t =>
      t.ctx x c = ((s.ctx x c).passed.drawn (if bits w 115 114 = 1 then 1 else 0)).withPost (wAddr w)
        (laneBytes (fmtSize (bits w 119 116)) (s.storeLanes x c w)) ∧
      CtxsBut x c s t ∧ ArraysSame s t ∧ RegsBut [RegName.tilCtxFlags.key x c] s t ∧ OnlyIn [.regs, .tiles] s t) := by
  have e := exec_vst x c s
  rw [State.runWord_at h hop (s.vst_passed ha)] at e
  exact flags_gives e hq h.unfaulted (s.flagsOf_flagsOnly x c _) (fun t _ hctx hrest => ⟨hctx, hrest⟩)

end

/-- Settles O35: the word's one range is read, or posted, as the context sees memory, and its lanes are those of
Table 9.5. -/
theorem vectorLoadsAndStores : Obligations.VectorLoadsAndStores := by
  unfold Obligations.VectorLoadsAndStores
  refine fun s x c p w hq h => ⟨fun hop ha => vld_gives hq h hop ha, fun hop ha => ?_⟩
  refine (vst_gives hq h hop ha).mono ?_
  rintro t ⟨hctx, hrest⟩
  refine ⟨?_, hrest⟩
  simp only [hctx, laneBytes, State.storeLanes, List.flatMap_map, vstLane_v]
  rfl

end Sys2Proof.Machine
end

section
/-! SUPPORT. TIL_CTX_GO, TIL_CTX_STOP and TIL_CTX_CLEAR (R264 to R266): what a command to a context comes to, and the
statement about them. -/
namespace Sys2Proof.Machine

theorem exec_tilCtxGo (p : Path) (x : Fin 24) (c : Fin 4) (s : State) :
    exec (.tilCtxGo p x c) s = done s (s.regWrite p .tilCtxCtrl x c 1) := rfl

theorem exec_tilCtxStop (p : Path) (x : Fin 24) (c : Fin 4) (s : State) :
    exec (.tilCtxStop p x c) s = done s (s.regWrite p .tilCtxCtrl x c 2) := rfl

theorem exec_tilCtxClear (p : Path) (x : Fin 24) (c : Fin 4) (s : State) :
    exec (.tilCtxClear p x c) s = done s (s.regWrite p .tilCtxCtrl x c 4) := rfl

/-! ### A command to a context (Table 9.6) -/

/-- A command of TIL_CTX_CTRL that is taken makes at most its entry beside its effect. -/
theorem State.ctxCtrl_noted {s u : State} {p : Path} {x : Fin 24} {c : Fin 4} {v : Nat}
    (hw : s.writes p .tilCtxCtrl x c v) (hv : v = 1 ∨ v = 2 ∨ v = 4) (hc : s.ctxCtrl p x c v = .ok u) :
    Noted u (s.regWrite p .tilCtxCtrl x c v) := by
  have hmask : v &&& RegName.tilCtxCtrl.row.mask = v := by rcases hv with rfl | rfl | rfl <;> rfl
  have hfound := commandRegs_found (n := .tilCtxCtrl) (by simp [commandRegs3])
  refine State.regWrite_command_noted hw hfound x.isLt c.isLt rfl ?_ (by decide) ?_
  · rw [hmask]
    rcases hv with rfl | rfl | rfl <;> rfl
  · rw [hmask]
    exact hc

/-- The entry of a command touches no part. -/
theorem Noted.touches {s u t : State} {ps : List Area} {ns : List RegName} (h : Noted u t) (hu : Touches ps ns s u) :
    Touches ps ns s t := by
  rcases h with rfl | ⟨e, rfl⟩
  · exact hu
  · exact (hu.trans (u.logAdd_touches e)).mono (by simp) (by simp)

theorem Noted.area {u t : State} (h : Noted u t) (a : Area) : Area.same u t a := (h.onlyIn []).2 a (by simp)

/-- What a command gives whose effect `u` changes one context, which it leaves unfaulted, its entry made. -/
theorem Noted.ctx_gives {i : Instr} {s u t : State} {x c : Nat} {k : Ctx} {ps : List Area} {ns : List RegName}
    {P : State → Prop} (h : Noted u t) (e : exec i s = done s t) (hq : s.noLeftFailures)
    (ht : u.tiles = (s.setCtx x c k).tiles) (hk : k.st ≠ .fault) (hu : Touches ps ns s u) (hd : .dma ∉ ps)
    (hp : ∀ w, w.ctx x c = k → CtxsBut x c s w ∧ ArraysSame s w → w.regs = u.regs → w.pwr = u.pwr →
      OnlyIn ps s w → P w) : Gives i s P :=
  word_gives_tiles e hq ((h.area .tiles).trans ht) hk (h.touches hu) hd (fun hctx hctxs harrays honly =>
    hp _ hctx ⟨hctxs, harrays⟩ h.settle_regs ((State.settle_pwr _).trans (h.area .pwr)) honly)

section
variable {s : State} {p : Path} {x : Fin 24} {c : Fin 4}

/-! ### GO (R264) -/

/-- The context runs from `pc`, by a GO. -/
def Ctx.gone (k : Ctx) (pc : Nat) : Ctx :=
  { k with
    st := .run, pc := pc, scaler := false, late := false, wait := .none, deadline := none, startAt := none,
    seg := none }

theorem State.ctxGo_eq (s : State) (x c pc : Nat) :
    s.ctxGo x c pc = (s.rputN .tilCtxPc pc x c).startOfWork.setCtx x c ((s.ctx x c).gone pc) := by
  have hctx : (s.rputN .tilCtxPc pc x c).startOfWork.ctx x c = s.ctx x c :=
    State.ctx_congr ((State.startOfWork_touches _).area .tiles (by simp)) x c
  unfold State.ctxGo
  dsimp only
  rw [hctx]
  rfl

theorem State.startOfWork_pwr (s : State) :
    s.startOfWork.pwr.st = if s.pwr.st = .idle then .run else s.pwr.st := by
  unfold State.startOfWork
  split <;> rfl

/-- A register that is set to its own value holds it, and no other changes. -/
theorem RegsBut.rputN_same (s : State) (n : RegName) (i j : Nat) (hreset : ∀ a b, n.resetOf a b = n.resetOf i j) :
    RegsBut [] s (s.rputN n (s.rnat n i j) i j) := by
  intro m a b _
  by_cases hkey : m.key a b = n.key i j
  · obtain rfl : m = n := Classical.byContradiction fun hne => RegName.key_ne hne _ _ _ _ hkey
    have hheld : s.rget m a b = s.rget m i j := by simp [State.rget, hkey, hreset]
    simp [State.rputN, State.rget_rput, State.rnat, hkey, hheld]
  · exact State.rget_rput_key _ _ _ _ _ _ _ _ hkey

theorem State.ctxGoRefusal_none {part : Option Nat} (h : s.ctxGoRefusal part x c = none) :
    part.isNone = false ∧ s.ownerTile x = part := by
  unfold State.ctxGoRefusal at h
  split at h
  · cases h
  · next hown => simpa [Option.isSome_iff_ne_none] using hown

theorem tilCtxGo_gives (hq : s.noLeftFailures) (hw : s.writes p .tilCtxCtrl x c 1)
    (hr : s.ctxGoRefusal (s.pathPart p) x c = none) :
    Gives (.tilCtxGo p x c) s (fun t =>
      t.ctx x c = (s.ctx x c).gone (s.rnat .tilCtxPc x c) ∧ CtxsBut x c s t ∧ ArraysSame s t ∧ RegsBut [] s t ∧
      t.pwr.st = (if s.pwr.st = .idle then .run else s.pwr.st) ∧ OnlyIn [.regs, .pwr, .tiles] s t) := by
  obtain ⟨hpart, howner⟩ := State.ctxGoRefusal_none hr
  have hc : s.ctxCtrl p x c 1 = .ok (s.ctxGo x c (s.rnat .tilCtxPc x c)) := by
    simp [State.ctxCtrl, bit, hr, hpart, howner]
  rw [State.ctxGo_eq] at hc
  have hwork := (s.rputN .tilCtxPc (s.rnat .tilCtxPc x c) x c).startOfWork_touches
  have hstart := (s.rputN_touches .tilCtxPc (s.rnat .tilCtxPc x c) x c).trans hwork
  refine (State.ctxCtrl_noted hw (.inl rfl) hc).ctx_gives (exec_tilCtxGo p x c s) hq
    (State.setCtx_tiles_congr (hstart.area .tiles (by simp)) ..) (by simp [Ctx.gone])
    (hstart.trans (State.setCtx_touches _ x c _)) (by simp)
    (fun t hctx ⟨hctxs, harrays⟩ hregs hpwr honly => ⟨hctx, hctxs, harrays, ?_, ?_, honly.mono (by simp)⟩)
  · exact (RegsBut.rputN_same s _ _ _ fun _ _ => rfl).trans (.of (hregs.trans (hwork.area .regs (by simp))))
  · rw [hpwr]
    exact State.startOfWork_pwr _

/-! ### CLEAR (R266) -/

theorem tilCtxClear_gives (hq : s.noLeftFailures) (hw : s.writes p .tilCtxCtrl x c 4) (hst : (s.ctx x c).st = .fault)
    (hpart : (s.pathPart p).isSome = true) (ho : s.ownerTile x = s.pathPart p) :
    Gives (.tilCtxClear p x c) s (fun t =>
      t.ctx x c = { s.ctx x c with st := .idle, scaler := false, seg := none } ∧
      CtxsBut x c s t ∧ ArraysSame s t ∧ OnlyIn [.tiles] s t) := by
  have hsome : (s.pathPart p).isNone = false := by simpa using hpart
  have hc : s.ctxCtrl p x c 4 = .ok (s.setCtx x c { s.ctx x c with st := .idle, scaler := false, seg := none }) := by
    simp [State.ctxCtrl, bit, State.ctxClear, orRefuse, hst, hsome, ho]
  exact (State.ctxCtrl_noted hw (.inr (.inr rfl)) hc).ctx_gives (exec_tilCtxClear p x c s) hq rfl (by simp)
    (s.setCtx_touches x c _) (by simp) (fun t hctx ⟨hctxs, harrays⟩ _ _ honly => ⟨hctx, hctxs, harrays, honly⟩)

/-! ### STOP (R264) -/

/-- A counter of 32 bits, of one of several units, after one event more. -/
theorem State.rnat_count_at {s : State} {n : RegName} {i j : Nat} (hw : n.row.w64 = false) :
    (s.count n 1 i j).rnat n i j = (s.rnat n i j + 1) % 2 ^ 32 := by
  simp only [State.count, hw, State.rnat_rputN_same, Bool.false_eq_true, if_false]
  omega

/-- A context whose posted writes are performed has none left (R268). -/
theorem State.drainCtx_ctx (s : State) (x c : Nat) : (s.drainCtx x c).ctx x c = { s.ctx x c with posted := [] } := by
  unfold State.drainCtx
  dsimp only
  split
  · next h => rw [← List.isEmpty_iff.mp h]
  · exact State.ctx_setCtx_same ..

theorem State.drainCtx_mem (s : State) (x c : Nat) : (s.drainCtx x c).mem = (s.ctx x c).overlay s.mem := by
  unfold State.drainCtx
  dsimp only
  split
  · next h => rw [Ctx.overlay, List.isEmpty_iff.mp h]; rfl
  · rfl

theorem State.drainCtx_setCtx_tiles (s : State) (x c : Nat) (k : Ctx) :
    ((s.drainCtx x c).setCtx x c k).tiles = (s.setCtx x c k).tiles := by
  unfold State.drainCtx
  dsimp only
  split
  · rfl
  · rw [State.setCtx_setCtx_same]
    exact State.setCtx_tiles_congr rfl ..

/-- The code of a STOP has no class register (Table 24.1). -/
theorem State.issue_stop (s : State) (a : At) : s.issue 0x0A24 a = s.tally1 0x0A24 := by
  simp [State.issue, State.recordClass]

/-- A stop that concerns no training and no error cairn: the posted writes are performed, and the code is counted. -/
theorem State.ctxFault_stopped {q : Nat} (ho : s.ownerTile x = some q) (hl : (s.ledger q).inForce = none)
    (he : s.rbit .tilCtxErrCairn 16 x c = false) :
    s.ctxFault x c 0x0A24 = ((s.drainCtx x c).ctxStopped x c 0x0A24).tally1 0x0A24 := by
  generalize hu : ((s.drainCtx x c).ctxStopped x c 0x0A24).tally1 0x0A24 = u
  have hstopped : Touches _ _ s u := hu ▸ ((s.drainCtx_touches x c).trans ((State.setCtx_touches _ x c _).trans
    (State.ctxStopped_touches _ x c 0x0A24))).trans (State.tally1_touches _ 0x0A24 1)
  have howner : u.ownerTile x = some q := (State.ownerTile_congr (hstopped.area .img (by simp)) x).trans ho
  have hledger : (u.ledger q).inForce = none :=
    (congrArg Ledger.inForce (State.ledger_congr (hstopped.area .scl (by simp)) q)).trans hl
  have hcairn : bit (u.rnat .tilCtxErrCairn x c) 16 = false :=
    (congrArg (bit · 16) (hstopped.rnat (by simp) x c)).trans he
  unfold State.ctxFault
  extract_lets _ _ _ _ issued spread
  have hissued : issued = u := by
    simp only [issued, Bool.false_eq_true, if_false, State.issue_stop]
    exact hu
  have hspread : spread = u := by
    unfold spread
    simp [hissued, howner, hledger]
  simp [hspread, howner, State.errCairn, hcairn]

theorem State.cairns_ctxStopped (s : State) (x c code : Nat) : (s.ctxStopped x c code).crn =
    { s.crn with waits := s.crn.waits.filter (fun y => decide (y.who ≠ .tileCtx x c)) } :=
  (State.holdEnd_touches _ _).area .crn (by simp)

theorem State.faults_ctxStopped (s : State) (x c code : Nat) :
    (s.ctxStopped x c code).rnat .tilFaults x = (s.rnat .tilFaults x + 1) % 2 ^ 32 := by
  have hbefore := ((s.setCtx_touches x c ((s.ctx x c).faulted code)).trans
    ((State.cancelWait_touches _ (.tileCtx x c)).trans (State.holdEnd_touches _ (ctxItem x c)))).rnat
    (n := .tilFaults) (by simp) x 0
  rw [State.ctxStopped, State.rnat_count_at rfl, hbefore]

/-- What a command gives whose effect is that one context faults, of a partition without a serving engine. -/
theorem ctxFailed_gives {i : Instr} {u : State} {k : Ctx} {q : Nat} {ps : List Area} {ns : List RegName}
    {P : State → Prop} (e : exec i s = done s u) (hq : s.noLeftFailures) (ho : s.ownerTile x = some q)
    (hn : s.notServing q) (ht : u.tiles = (s.setCtx x c k).tiles) (hu : Touches ps ns s u) (hd : .dma ∉ ps)
    (hi : .img ∉ ps)
    (hp : u.settle.ctx x c = k → CtxsBut x c s u.settle → ArraysSame s u.settle → OnlyIn ps s u.settle → P u.settle) :
    Gives i s P := by
  have himg : u.img = s.img := hu.area .img hi
  have hdma : u.dma = s.dma := hu.area .dma hd
  have hsettled : u.settle.tiles = (s.setCtx x c k).tiles := u.settle_tiles.trans ht
  refine done_quiet e (fun y hy => ?_) (State.noLeftFailures_congr hdma hq)
    (hp ?_ (.setCtx hsettled) (.setCtx hsettled) (hu.only.settled hu.outs))
  · rw [State.newErrors_setCtx ho ht hdma himg y hy]
    exact State.notServing_congr himg hn
  · rw [State.ctx_congr hsettled, State.ctx_setCtx_same]

theorem tilCtxStop_gives {q : Nat} (hq : s.noLeftFailures) (hw : s.writes p .tilCtxCtrl x c 2)
    (hst : (s.ctx x c).st = .run ∨ (s.ctx x c).st = .wait) (ho : s.ownerTile x = some q) (hpart : s.pathPart p = some q)
    (hn : s.notServing q) (hl : (s.ledger q).inForce = none) (he : s.rbit .tilCtxErrCairn 16 x c = false) :
    Gives (.tilCtxStop p x c) s (fun t =>
      t.ctx x c = { (s.ctx x c).faulted 0x0A24 with posted := [] } ∧ t.mem = (s.ctx x c).overlay s.mem ∧
      t.rnat .tilFaults x = (s.rnat .tilFaults x + 1) % 2 ^ 32 ∧ CairnsBut 1472 s t ∧
      t.crn.waits = s.crn.waits.filter (fun y => decide (y.who ≠ .tileCtx x c)) ∧
      CtxsBut x c s t ∧ ArraysSame s t ∧ OnlyIn [.regs, .mem, .cad, .crn, .tiles] s t) := by
  have hc : s.ctxCtrl p x c 2 = .ok (s.ctxFault x c 0x0A24) := by
    rcases hst with hst | hst <;> simp [State.ctxCtrl, bit, State.ctxStop, orRefuse, hst, hpart, ho]
  rw [State.ctxFault_stopped ho hl he] at hc
  have hdrain := s.drainCtx_touches x c
  have hnoted := State.ctxCtrl_noted hw (.inr (.inl rfl)) hc
  have hstop := (s.drainCtx x c).ctxStopped_touches x c 0x0A24
  have hstopped := (hdrain.trans ((State.setCtx_touches _ x c _).trans hstop)).trans (State.tally1_touches _ 0x0A24 1)
  rw [State.drainCtx_ctx] at hstop
  have hcrn := (State.settle_crn _).trans
    ((hnoted.area .crn).trans (State.cairns_ctxStopped (s.drainCtx x c) x c 0x0A24))
  rw [hdrain.area .crn (by simp)] at hcrn
  refine ctxFailed_gives (exec_tilCtxStop p x c s) hq ho hn
    ((hnoted.area .tiles).trans ((hstop.area .tiles (by simp)).trans (s.drainCtx_setCtx_tiles x c _)))
    (hnoted.touches hstopped) (by simp) (by simp) (fun hctx hctxs harrays honly =>
      ⟨hctx, ?_, ?_, fun k _ => ?_, by rw [hcrn], hctxs, harrays, honly.mono (by simp)⟩)
  · exact (State.settle_mem _).trans ((hnoted.area .mem).trans ((hstop.area .mem (by simp)).trans (s.drainCtx_mem x c)))
  · refine (State.rnat_congr hnoted.settle_regs ..).trans ((State.faults_ctxStopped ..).trans ?_)
    rw [hdrain.rnat (by simp)]
  · unfold State.cairn
    rw [hcrn]

end

/-- Settles O37: each command comes to one new value of the one context, and what it brings with it touches no other. -/
theorem contextCommands : Obligations.ContextCommands := by
  unfold Obligations.ContextCommands
  exact fun s x c p hq => ⟨fun hw hr => tilCtxGo_gives hq hw hr,
    fun q hw hst ho hpart hn hl he => tilCtxStop_gives hq hw hst ho hpart hn hl he,
    fun hw hst hpart ho => tilCtxClear_gives hq hw hst hpart ho⟩

end Sys2Proof.Machine
end

section
/-! SUPPORT. The matrix array of a tile (R243 to R257): its banks and accumulator rows beside its contexts, and what a
command gives that changes both. -/
namespace Sys2Proof.Machine

/-! ### One tile -/

theorem State.setTile_touches (s : State) (x : Nat) (v : TileSt) : Touches [.tiles] [] s (s.setTile x v) :=
  s.withParts_touches

theorem State.tile_congr {s t : State} (h : t.tiles = s.tiles) (y : Nat) : t.tile y = s.tile y := by
  simp [State.tile, h]

@[simp] theorem State.tile_setTile_same (s : State) (x : Nat) (v : TileSt) : (s.setTile x v).tile x = v :=
  NMap.getD_put_same ..

/-- A new value of a tile with the contexts it had leaves every context as it was. -/
theorem State.ctx_setTile {s : State} {x : Nat} {v : TileSt} (hv : v.ctxs = (s.tile x).ctxs) (y e : Nat) :
    (s.setTile x v).ctx y e = s.ctx y e := by
  unfold State.ctx
  by_cases hy : y = x
  · rw [hy, State.tile_setTile_same, hv]
  · rw [show (s.setTile x v).tile y = s.tile y from NMap.getD_put_ne _ _ _ _ _ hy]

@[simp] theorem State.acc_setCtx (s : State) (x c y : Nat) (k : Ctx) :
    ((s.setCtx x c k).tile y).acc = (s.tile y).acc := (ArraysSame.setCtx rfl y).2

@[simp] theorem State.banks_setCtx (s : State) (x c y : Nat) (k : Ctx) :
    ((s.setCtx x c k).tile y).banks = (s.tile y).banks := (ArraysSame.setCtx rfl y).1

@[simp] theorem State.accRow_setCtx (s : State) (x c y r : Nat) (k : Ctx) :
    (s.setCtx x c k).accRow y r = s.accRow y r := by simp [State.accRow]

theorem State.accRow_congr {s t : State} (h : t.tiles = s.tiles) (y r : Nat) : t.accRow y r = s.accRow y r := by
  simp [State.accRow, State.tile_congr h]

/-! ### Fields of an array word (Table 9.3) -/

theorem bits_flags_format (w : Nat) : bits (bits w 119 112) 7 4 = bits w 119 116 := by
  simp only [bits]
  omega

theorem bits_flags_loadBank (w : Nat) : bits (bits w 119 112) 2 2 = bits w 114 114 := by
  simp only [bits]
  omega

theorem bits_flags_passBank (w : Nat) : bits (bits w 119 112) 3 3 = bits w 115 115 := by
  simp only [bits]
  omega

theorem bits_flags_mode (w : Nat) : bits (bits w 119 112) 3 2 = bits w 115 114 := by
  simp only [bits]
  omega

theorem fmtSize_pos (f : Nat) : 0 < fmtSize f := by
  unfold fmtSize
  split <;> decide

@[simp] theorem length_elemsOf (e n : Nat) (bs : List Byte) : (elemsOf e n bs).length = n := by
  unfold elemsOf
  induction n generalizing bs with
  | zero => rfl
  | succ n ih => simp [Xpc.elems, ih]

/-! ### Rows -/

@[simp] theorem State.ctx_setAcc (s : State) (x r : Nat) (v : Option AccRow) (y e : Nat) :
    (s.setAcc x r v).ctx y e = s.ctx y e := State.ctx_setTile (by rfl) y e

@[simp] theorem State.banks_setAcc (s : State) (x r : Nat) (v : Option AccRow) :
    ((s.setAcc x r v).tile x).banks = (s.tile x).banks := by
  simp [State.setAcc]

theorem State.accRow_setAcc (s : State) (x r k : Nat) (v : Option AccRow) :
    (s.setAcc x r v).accRow x k = if k = r then v else s.accRow x k := by
  unfold State.accRow State.setAcc
  rw [State.tile_setTile_same]
  by_cases hk : k = r
  · subst hk
    cases v with
    | none => simp [NMap.get?_del_same]
    | some a => simp [NMap.get?_put_same]
  · cases v with
    | none => simp [hk, NMap.get?_del_ne _ _ _ hk]
    | some a => simp [hk, NMap.get?_put_ne _ _ _ _ hk]

theorem State.setAcc_touches (s : State) (x r : Nat) (v : Option AccRow) : Touches [.tiles] [] s (s.setAcc x r v) :=
  s.setTile_touches ..

/-- From `s` to `u` the `n` accumulator rows of tile `x` from `lo` on are set to the values `val`, and nothing else
changes. -/
structure RowsSet (x lo n : Nat) (val : Nat → Option AccRow) (s u : State) : Prop where
  set : ∀ m < n, u.accRow x (lo + m) = val m
  others : AccRowsBut x lo n s u
  banks : (u.tile x).banks = (s.tile x).banks
  ctxs : ∀ y e, u.ctx y e = s.ctx y e
  touches : Touches [.tiles] [] s u

theorem RowsSet.trans {x lo n : Nat} {val val' : Nat → Option AccRow} {s u v : State} (h : RowsSet x lo n val s u)
    (k : RowsSet x lo n val' u v) : RowsSet x lo n val' s v :=
  ⟨k.set, fun r hr => (k.others r hr).trans (h.others r hr), k.banks.trans h.banks,
    fun y e => (k.ctxs y e).trans (h.ctxs y e), (h.touches.trans k.touches).mono (by simp) (by simp)⟩

theorem RowsSet.succ {x lo n : Nat} {val : Nat → Option AccRow} {s u : State} (h : RowsSet x lo n val s u) :
    RowsSet x lo (n + 1) val s (u.setAcc x (lo + n) (val n)) := by
  refine ⟨fun m hm => ?_, fun r hr => ?_, (State.banks_setAcc ..).trans h.banks,
    fun y e => (State.ctx_setAcc ..).trans (h.ctxs y e),
    (h.touches.trans (u.setAcc_touches ..)).mono (by simp) (by simp)⟩
  · rw [State.accRow_setAcc]
    split
    · next he => rw [show m = n by omega]
    · next hne => exact h.set m (by omega)
  · rw [State.accRow_setAcc, if_neg (by omega)]
    exact h.others r (by omega)

/-- Rows set one after another, each to the value it is to have where those before it are set. -/
theorem State.foldl_setAcc {x lo n : Nat} {val : Nat → Option AccRow} {f : State → Nat → Option AccRow} {s : State}
    (hf : ∀ m < n, ∀ u, RowsSet x lo m val s u → f u m = val m) :
    RowsSet x lo n val s ((List.range n).foldl (fun u m => u.setAcc x (lo + m) (f u m)) s) := by
  induction n with
  | zero => exact ⟨fun m hm => by omega, fun _ _ => rfl, rfl, fun _ _ => rfl, .refl _ _ s⟩
  | succ n ih =>
    have hbefore := ih fun m hm => hf m (by omega)
    rw [List.range_succ, List.foldl_append, List.foldl_cons, List.foldl_nil, hf n (by omega) _ hbefore]
    exact hbefore.succ

/-- The row that is set next still holds what it held. -/
theorem RowsSet.next {x lo n : Nat} {val : Nat → Option AccRow} {s u : State} (h : RowsSet x lo n val s u) :
    u.accRow x (lo + n) = s.accRow x (lo + n) := h.others _ (.inr (Nat.le_refl _))

theorem RowsSet.ctxRead {x lo n : Nat} {val : Nat → Option AccRow} {s u : State} (h : RowsSet x lo n val s u)
    (y c a len : Nat) : u.ctxRead y c a len = s.ctxRead y c a len :=
  State.ctxRead_congr (h.touches.area .mem (by simp)) (congrArg Ctx.posted (h.ctxs y c)) a len

/-! ### What a command gives -/

/-- What a command gives whose effect changes a tile, and of the contexts one, which it leaves unfaulted. -/
theorem array_gives {i : Instr} {s u : State} {x c : Nat} {k : Ctx} {ps : List Area} {ns : List RegName}
    {P : State → Prop} (e : exec i s = done s u) (hq : s.noLeftFailures)
    (hctx : ∀ y f, u.ctx y f = (s.setCtx x c k).ctx y f) (hk : k.st ≠ .fault) (hu : Touches ps ns s u) (hd : .dma ∉ ps)
    (hp : ∀ t, t.tiles = u.tiles → t.regs = u.regs → t.ctx x c = k → CtxsBut x c s t → OnlyIn ps s t → P t) :
    Gives i s P := by
  have hdma : u.dma = s.dma := hu.area .dma hd
  have hsettled (y f : Nat) : u.settle.ctx y f = (s.setCtx x c k).ctx y f :=
    (State.ctx_congr u.settle_tiles y f).trans (hctx y f)
  refine done_unfailed e (fun d n hst => State.chan_congr (congrArg Dma.chans hdma) d n ▸ hst) (fun y f hf => ?_)
    (State.noLeftFailures_congr hdma hq) (hp _ u.settle_tiles u.settle_regs
      ((hsettled x c).trans (s.ctx_setCtx_same x c k)) (fun y f hne => ?_) (hu.only.settled hu.outs))
  · rw [hctx, State.ctx_setCtx] at hf
    split at hf
    · exact absurd hf hk
    · exact hf
  · rw [hsettled, State.ctx_setCtx, if_neg (by omega)]

end Sys2Proof.Machine
end

section
/-! SUPPORT. WLOAD, MMPASS and ACCIN (R243, R244, R250, R257): what each does to the array of its tile, and what it
gives. -/
namespace Sys2Proof.Machine

theorem exec_wload (x : Fin 24) (c : Fin 4) (s : State) :
    exec (.wload x c .clean) s = done s (s.runWord x c (isOp 0x01) (fun s w p => s.wload x c w p)) := rfl

theorem exec_mmpass (x : Fin 24) (c : Fin 4) (s : State) :
    exec (.mmpass x c .clean) s = done s (s.runWord x c (isOp 0x02) (fun s w p => s.mmpass x c w p)) := rfl

theorem exec_accin (x : Fin 24) (c : Fin 4) (s : State) :
    exec (.accin x c .clean) s = done s (s.runWord x c (isOp 0x05) (fun s w p => s.accin x c w p)) := rfl

/-- The ranges of `n` rows of `len` bytes that an array word names. -/
def wordRows (w n len : Nat) : List (Nat × Nat) := (List.range n).map (fun m => (wAddr w + m * wPitch w, len))

/-! ### WLOAD (R243) -/

/-- The ranges that a WLOAD reads: 128 rows of the bank, or its 512 columns where it is transposed. -/
def loadRows (w : Nat) : List (Nat × Nat) :=
  if bit (bits w 119 112) 3 then wordRows w 512 (128 * fmtSize (bits w 119 116))
  else wordRows w 128 (512 * fmtSize (bits w 119 116))

/-- The `n` elements of a word's memory row `m`, as the context reads them. -/
def State.rowElems (s : State) (x c w n m : Nat) : List Nat :=
  elemsOf (fmtSize (bits w 119 116)) n
    (s.ctxRead x c (wAddr w + m * wPitch w) (n * fmtSize (bits w 119 116)))

@[simp] theorem State.length_rowElems (s : State) (x c w n m : Nat) : (s.rowElems x c w n m).length = n :=
  length_elemsOf ..

/-- The elements of a weight bank loaded by rows, or transposed. -/
def State.loadedBank (s : State) (x c w : Nat) : List Nat :=
  if bit (bits w 119 112) 3 then
    (List.range 128).flatMap (fun k => (List.range 512).map (fun m => (s.rowElems x c w 128 m).getD k 0))
  else (List.range 128).flatMap (fun m => s.rowElems x c w 512 m)

/-- Weight bank `k` of tile `x` is `b`. -/
def State.setBank (s : State) (x k : Nat) (b : Bank) : State :=
  s.setTile x { s.tile x with banks := NMap.put (s.tile x).banks k b }

section
variable {s : State} {x : Fin 24} {c : Fin 4} {p w : Nat}

theorem State.wload_passed (ho : s.ownsArray x c = true)
    (ha : s.rowsAccess x c p 1 (loadRows w) = none) :
    (s.passed x c).wload x c w p = .ok ((s.passed x c).setBank x (bits w 114 114)
      { fmt := bits w 119 116, w := s.loadedBank x c w }) := by
  have howns : (s.passed x c).ownsArray x c = true := ho
  have hpos := fmtSize_pos (bits w 119 116)
  unfold State.wload
  simp only [howns, Bool.not_true, Bool.false_eq_true, if_false, bits_flags_format, bits_flags_loadBank,
    State.rowsAccess_passed, State.ctxRead_passed]
  unfold loadRows wordRows at ha
  unfold State.loadedBank State.rowElems
  by_cases ht : bit (bits w 119 112) 3 = true
  · simp only [ht, if_true, Nat.mul_div_cancel _ hpos] at ha ⊢
    rw [ha]
    simp [State.setBank, List.map_map, Function.comp_def]
  · simp only [ht, Bool.false_eq_true, if_false, Nat.mul_div_cancel _ hpos] at ha ⊢
    rw [ha]
    simp [State.setBank, List.map_map, Function.comp_def, List.flatMap]

theorem wload_gives (hq : s.noLeftFailures) (h : s.atWord x c p w) (ho : s.ownsArray x c = true)
    (hop : isOp 0x01 w = true)
    (ha : s.rowsAccess x c p 1 (loadRows w) = none) :
    Gives (.wload x c .clean) s (fun t =>
      t.bank x (bits w 114 114) = { fmt := bits w 119 116, w := s.loadedBank x c w } ∧
      (t.tile x).acc = (s.tile x).acc ∧ PassedWord x c s t ∧ OnlyIn [.tiles] s t) := by
  have e := exec_wload x c s
  rw [State.runWord_at h hop (State.wload_passed ho ha)] at e
  refine array_gives e hq (State.ctx_setTile (by rfl)) h.unfaulted
    ((s.setCtx_touches x c _).trans (State.setTile_touches ..)) (by simp)
    (fun t htiles _ hctx hctxs honly => ⟨?_, ?_, ⟨hctx, hctxs⟩, honly.mono (by simp)⟩)
  · unfold State.bank State.setBank at *
    rw [State.tile_congr htiles, State.tile_setTile_same, NMap.getD_put_same]
  · rw [State.tile_congr htiles, State.setBank, State.tile_setTile_same]
    exact State.acc_setCtx ..

/-- Rows of one length, one after another: row `m` stands at its own place. -/
theorem drop_take_flatMap {α β : Type} {f : α → List β} {k : Nat} (l : List α) (hf : ∀ a, (f a).length = k) {m : Nat}
    (hm : m < l.length) : ((l.flatMap f).drop (k * m)).take k = f l[m] := by
  induction l generalizing m with
  | nil => exact absurd hm (Nat.not_lt_zero m)
  | cons a l ih =>
    rw [List.flatMap_cons]
    cases m with
    | zero => simp [← hf a]
    | succ m =>
      rw [Nat.mul_succ, Nat.add_comm, ← List.drop_drop, ← hf a, List.drop_left, hf a]
      exact ih (Nat.lt_of_succ_lt_succ hm)

/-! ### MMPASS (R244, R250) -/

/-- The state in which a pass adds its products: its accumulator rows are EMPTY where the word says so. -/
def State.opened (s : State) (x w : Nat) : State :=
  if bit (bits w 119 112) 2 then (List.range (wRows w)).foldl (fun u m => u.setAcc x (wRow0 w + m) none) s else s

/-- What accumulator row `m` of a pass holds before it. -/
def State.passBase (s : State) (x w m : Nat) : Option AccRow :=
  if bit (bits w 119 112) 2 then none else s.accRow x (wRow0 w + m)

theorem State.opened_rowsSet (s : State) (x w : Nat) :
    RowsSet x (wRow0 w) (wRows w) (s.passBase x w) s (s.opened x w) := by
  unfold State.opened State.passBase
  split
  · exact State.foldl_setAcc (f := fun _ _ => none) (fun _ _ _ _ => rfl)
  · exact ⟨fun _ _ => rfl, fun _ _ => rfl, rfl, fun _ _ => rfl, .refl _ _ s⟩

/-- What accumulator row `m` holds after a pass with weight bank `b`. -/
def State.passResult (s : State) (x c w : Nat) (b : Bank) (m : Nat) : Option AccRow :=
  some (passRow (bits w 119 116) b.fmt (s.rowElems x c w 128 m) b.w (s.passBase x w m))

theorem State.mmpass_passed (ho : s.ownsArray x c = true)
    (hpair : pairOk (bits w 119 116) (s.bank x (bits w 115 115)).fmt = true)
    (ha : s.rowsAccess x c p 1 (wordRows w (wRows w) (128 * fmtSize (bits w 119 116))) = none)
    (hclass : bit (bits w 119 112) 2 = true ∨
      ∀ m < wRows w, classOk (isExactFmt (bits w 119 116)) (s.accRow x (wRow0 w + m)) = true) :
    ∃ u, RowsSet x (wRow0 w) (wRows w) (s.passResult x c w (s.bank x (bits w 115 115))) (s.passed x c) u ∧
      (s.passed x c).mmpass x c w p = .ok (u.count .tilPasses 1 x) := by
  have hopened := (s.passed x c).opened_rowsSet x w
  have hbase (m : Nat) : (s.passed x c).passBase x w m = s.passBase x w m := by
    simp [State.passBase, State.passed]
  have hok (m : Nat) (hm : m < wRows w) :
      classOk (isExactFmt (bits w 119 116)) (((s.passed x c).opened x w).accRow x (wRow0 w + m)) = true := by
    rw [hopened.set m hm, hbase, State.passBase]
    split
    · rfl
    · next hkeep => exact hclass.resolve_left hkeep m hm
  have hadd (m : Nat) (hm : m < wRows w) (u : State) (hu : RowsSet x (wRow0 w) m
      (s.passResult x c w (s.bank x (bits w 115 115))) ((s.passed x c).opened x w) u) :
      some (passRow (bits w 119 116) (s.bank x (bits w 115 115)).fmt (u.rowElems x c w 128 m)
        (s.bank x (bits w 115 115)).w (u.accRow x (wRow0 w + m))) =
      s.passResult x c w (s.bank x (bits w 115 115)) m := by
    have helems : u.rowElems x c w 128 m = s.rowElems x c w 128 m := by
      simp only [State.rowElems, hu.ctxRead, hopened.ctxRead, State.ctxRead_passed]
    rw [State.passResult, helems, hu.next, hopened.set m hm, hbase]
  refine ⟨_, hopened.trans (State.foldl_setAcc hadd), ?_⟩
  have howns : (s.passed x c).ownsArray x c = true := ho
  have hbank : NMap.getD ((s.passed x c).tile x).banks (bits w 115 115) {} = s.bank x (bits w 115 115) := by
    simp [State.passed, State.bank]
  unfold State.mmpass
  simp only [howns, Bool.not_true, Bool.false_eq_true, if_false, bits_flags_format, bits_flags_passBank, hbank, hpair,
    State.rowsAccess_passed, List.map_map, List.foldl_map]
  unfold wordRows at ha
  simp only [Function.comp_def, ha]
  refine (if_neg ?_).trans rfl
  simpa [State.opened] using hok

/-- Rows set by a word, as the state after it shows them. -/
theorem RowsSet.of_passed {x c lo n : Nat} {val : Nat → Option AccRow} {s u t : State}
    (h : RowsSet x lo n val (s.passed x c) u) (ht : t.tiles = u.tiles) :
    (∀ m < n, t.accRow x (lo + m) = val m) ∧ AccRowsBut x lo n s t ∧ (t.tile x).banks = (s.tile x).banks := by
  refine ⟨fun m hm => (State.accRow_congr ht x _).trans (h.set m hm), fun r hr => ?_, ?_⟩
  · exact ((State.accRow_congr ht x r).trans (h.others r hr)).trans (State.accRow_setCtx ..)
  · exact ((congrArg TileSt.banks (State.tile_congr ht x)).trans h.banks).trans (State.banks_setCtx ..)

theorem mmpass_gives {b : Bank} (hq : s.noLeftFailures) (h : s.atWord x c p w) (ho : s.ownsArray x c = true)
    (hop : isOp 0x02 w = true) (hb : s.bank x (bits w 115 115) = b) (hpair : pairOk (bits w 119 116) b.fmt = true)
    (ha : s.rowsAccess x c p 1 (wordRows w (wRows w) (128 * fmtSize (bits w 119 116))) = none)
    (hclass : bit (bits w 119 112) 2 = true ∨
      ∀ m < wRows w, classOk (isExactFmt (bits w 119 116)) (s.accRow x (wRow0 w + m)) = true) :
    Gives (.mmpass x c .clean) s (fun t =>
      (∀ m < wRows w, t.accRow x (wRow0 w + m) = s.passResult x c w b m) ∧ AccRowsBut x (wRow0 w) (wRows w) s t ∧
      (t.tile x).banks = (s.tile x).banks ∧ PassedWord x c s t ∧ RegsBut [RegName.tilPasses.key x 0] s t ∧
      OnlyIn [.regs, .tiles] s t) := by
  subst hb
  obtain ⟨u, hu, hpass⟩ := State.mmpass_passed ho hpair ha hclass
  have e := exec_mmpass x c s
  rw [State.runWord_at h hop hpass] at e
  refine array_gives e hq hu.ctxs h.unfaulted ((s.setCtx_touches x c _).trans (hu.touches.trans
    (State.count_touches _ _ _ _ _))) (by simp) (fun t htiles hregs hctx hctxs honly => ?_)
  obtain ⟨hset, hothers, hbanks⟩ := hu.of_passed (t := t) htiles
  have hsame : u.regs = s.regs := hu.touches.area .regs (by simp)
  exact ⟨hset, hothers, hbanks, ⟨hctx, hctxs⟩, (RegsBut.of hsame).trans ((RegsBut.rput u _ _ _ _).trans (.of hregs)),
    honly.mono (by simp)⟩

/-! ### ACCIN (R250, R257) -/

/-- Where no row is EMPTY, the form of each is told by what it holds. -/
theorem State.rowForms_listed {s : State} {x : Nat} {ids : List Nat} (h : ∀ r ∈ ids, (s.accRow x r).isSome = true) :
    s.rowForms x ids = (ids.map (fun r => classOk true (s.accRow x r)), s) := by
  induction ids with
  | nil => rfl
  | cons r ids ih =>
    obtain ⟨row, hrow⟩ := Option.isSome_iff_exists.mp (h r (by simp))
    have hrest := ih fun k hk => h k (by simp [hk])
    cases row <;> simp [State.rowForms, hrow, hrest, classOk]

/-- What accumulator row `m` holds after an ACCIN. -/
def State.accinResult (s : State) (x c w m : Nat) : Option AccRow :=
  some (accinRow (classOk true (s.accRow x (wRow0 w + m))) (bit w 112) (s.accRow x (wRow0 w + m))
    (s.ctxRead x c (wAddr w + m * wPitch w) (formBytes (classOk true (s.accRow x (wRow0 w + m))))))

/-- The accumulator rows that a word names. -/
def wordIds (w : Nat) : List Nat := (List.range (wRows w)).map (fun m => wRow0 w + m)

/-- The ranges of an ACCDUMP or ACCIN: one for each row, of the size of its form. -/
def State.formRows (s : State) (x w : Nat) : List (Nat × Nat) :=
  ((List.range (wRows w)).map (fun m => wAddr w + m * wPitch w)).zip ((s.rowForms x (wordIds w)).1.map formBytes)

theorem State.accin_passed (ho : s.ownsArray x c = true)
    (hsome : ∀ m < wRows w, (s.accRow x (wRow0 w + m)).isSome = true)
    (ha : s.rowsAccess x c p 1 (s.formRows x w) = none) :
    ∃ u, RowsSet x (wRow0 w) (wRows w) (s.accinResult x c w) (s.passed x c) u ∧
      (s.passed x c).accin x c w p = .ok u := by
  have hrow (r : Nat) : (s.passed x c).accRow x r = s.accRow x r := State.accRow_setCtx ..
  have hlisted : ∀ r ∈ wordIds w, (s.accRow x r).isSome = true := by simpa [wordIds] using hsome
  have hforms := State.rowForms_listed (s := s.passed x c) (x := x) (ids := wordIds w)
    (by simpa only [hrow] using hlisted)
  rw [State.formRows, State.rowForms_listed hlisted] at ha
  have hadd (m : Nat) (hm : m < wRows w) (u : State)
      (hu : RowsSet x (wRow0 w) m (s.accinResult x c w) (s.passed x c) u) :
      some (accinRow (classOk true (s.accRow x (wRow0 w + m))) (bit w 112) (u.accRow x (wRow0 w + m))
        (u.ctxRead x c (wAddr w + m * wPitch w) (formBytes (classOk true (s.accRow x (wRow0 w + m)))))) =
      s.accinResult x c w m := by
    rw [State.accinResult, hu.next, hu.ctxRead, State.ctxRead_passed, hrow]
  refine ⟨_, State.foldl_setAcc hadd, ?_⟩
  have howns : (s.passed x c).ownsArray x c = true := ho
  unfold State.accin
  unfold wordIds at hforms ha
  simp only [List.map_map, List.zip_map', Function.comp_def] at ha
  simp only [howns, Bool.not_true, Bool.false_eq_true, if_false, hforms, hrow, State.rowsAccess_passed, List.map_map,
    List.zip_map', Function.comp_def, ha, List.foldl_map]

theorem accin_gives (hq : s.noLeftFailures) (h : s.atWord x c p w) (ho : s.ownsArray x c = true)
    (hop : isOp 0x05 w = true)
    (ha : s.rowsAccess x c p 1 (s.formRows x w) = none)
    (hsome : ∀ m < wRows w, (s.accRow x (wRow0 w + m)).isSome = true) :
    Gives (.accin x c .clean) s (fun t =>
      (∀ m < wRows w, t.accRow x (wRow0 w + m) = s.accinResult x c w m) ∧ AccRowsBut x (wRow0 w) (wRows w) s t ∧
      (t.tile x).banks = (s.tile x).banks ∧ PassedWord x c s t ∧ OnlyIn [.tiles] s t) := by
  obtain ⟨u, hu, hin⟩ := State.accin_passed ho hsome ha
  have e := exec_accin x c s
  rw [State.runWord_at h hop hin] at e
  refine array_gives e hq hu.ctxs h.unfaulted ((s.setCtx_touches x c _).trans hu.touches) (by simp)
    (fun t htiles _ hctx hctxs honly => ?_)
  obtain ⟨hset, hothers, hbanks⟩ := hu.of_passed (t := t) htiles
  exact ⟨hset, hothers, hbanks, ⟨hctx, hctxs⟩, honly.mono (by simp)⟩

end

end Sys2Proof.Machine
end

section
/-! SUPPORT. ACCDUMP (R257): the writes that it posts for the rows of the array, and what it gives. -/
namespace Sys2Proof.Machine

theorem exec_accdump (x : Fin 24) (c : Fin 4) (s : State) :
    exec (.accdump x c) s = done s (s.runWord x c (isOp 0x04) (fun s w p => s.accdump x c w p)) := rfl

/-! ### Posted rows (R268) -/

/-- The context has posted the writes `ws` more. -/
def Ctx.withPosts (k : Ctx) (ws : List (Nat × List Byte)) : Ctx := { k with posted := k.posted ++ ws }

/-- Of `n` writes posted by row, write `m` stands `m` places after those posted before. -/
theorem Ctx.withPosts_get {k : Ctx} {ws : List (Nat × List Byte)} (m : Nat) :
    (k.withPosts ws).posted[k.posted.length + m]? = ws[m]? := by
  rw [Ctx.withPosts, List.getElem?_append_right (Nat.le_add_right ..), Nat.add_sub_cancel_left]

theorem Ctx.withPosts_length (k : Ctx) (ws : List (Nat × List Byte)) :
    (k.withPosts ws).posted.length = k.posted.length + ws.length := by
  simp [Ctx.withPosts]

/-- Writes posted one after another, whose bytes do not depend on what is posted. -/
theorem State.foldl_post {α : Type} {s : State} {x c : Nat} {a : α → Nat} {g : State → α → List Byte}
    {b : α → List Byte} (hg : ∀ k r, g (s.setCtx x c k) r = b r) (l : List α) (k : Ctx) :
    l.foldl (fun u r => u.post x c (a r) (g u r)) (s.setCtx x c k) =
      s.setCtx x c (k.withPosts (l.map (fun r => (a r, b r)))) := by
  induction l generalizing k with
  | nil => simp [Ctx.withPosts]
  | cons r l ih =>
    rw [List.foldl_cons, hg, State.post_setCtx, ih]
    simp [Ctx.withPosts, Ctx.withPost]

/-! ### ACCDUMP (R257) -/

/-- The numbers of the outside drawn so far. -/
def State.withFree (s : State) (n : Nat) : State := { s with free := n }

theorem State.withFree_touches (s : State) (n : Nat) : Touches [.free] [] s (s.withFree n) := by
  refine .of_regs ⟨rfl, fun p hp => ?_⟩ rfl rfl
  cases p with
  | free => exact absurd (List.mem_singleton.mpr rfl) hp
  | outs => exact .inl rfl
  | _ => rfl

/-- The forms of rows draw free numbers at most. -/
theorem State.rowForms_free (s : State) (x : Nat) (ids : List Nat) : ∃ n, (s.rowForms x ids).2 = s.withFree n := by
  induction ids generalizing s with
  | nil => exact ⟨s.free, rfl⟩
  | cons r ids ih =>
    unfold State.rowForms
    dsimp only
    split
    · exact ih s
    · exact ih s
    · obtain ⟨n, hn⟩ := ih s.freeForm.2
      exact ⟨n, hn⟩

theorem State.length_rowForms (s : State) (x : Nat) (ids : List Nat) : (s.rowForms x ids).1.length = ids.length := by
  induction ids generalizing s with
  | nil => rfl
  | cons r ids ih => simp [State.rowForms, ih]

/-- The forms do not depend on the contexts. -/
theorem State.rowForms_setCtx (s : State) (x c y : Nat) (k : Ctx) (ids : List Nat) :
    (s.setCtx x c k).rowForms y ids = ((s.rowForms y ids).1, (s.rowForms y ids).2.setCtx x c k) := by
  induction ids generalizing s with
  | nil => rfl
  | cons r ids ih =>
    have hdraw : (s.setCtx x c k).freeForm = (s.freeForm.1, s.freeForm.2.setCtx x c k) := rfl
    simp only [State.rowForms, State.accRow_setCtx]
    split <;> simp only [hdraw, ih]

/-- The bytes that ACCDUMP writes for a row of a form. -/
def dumpBytes (row : Option AccRow) (exact : Bool) : List Byte :=
  match row with
  | some (.exact es) => es.flatMap (fun q => (exactOf q).bytes)
  | some (.comp es) => es.flatMap (fun q => CompE.bytes { s := q.1, c := q.2 })
  | none => leBytes (formBytes exact) 0

theorem dumpBytes_some (r : AccRow) (exact : Bool) : dumpBytes (some r) exact = accBytes r := by cases r <;> rfl

/-- The rows that ACCDUMP writes: each with its address, and its form. -/
def State.dumpRows (s : State) (x w : Nat) : List ((Nat × Nat) × Bool) :=
  ((List.range (wRows w)).map (fun m => (wRow0 w + m, wAddr w + m * wPitch w))).zip (s.rowForms x (wordIds w)).1

/-- The writes of an ACCDUMP. -/
def State.dumped (s : State) (x w : Nat) : List (Nat × List Byte) :=
  (s.dumpRows x w).map (fun r => (r.1.2, dumpBytes (s.accRow x r.1.1) r.2))

section
variable {s : State} {x : Fin 24} {c : Fin 4} {p w : Nat}

theorem State.accdump_passed (ho : s.ownsArray x c = true)
    (ha : s.rowsAccess x c p 2 (s.formRows x w) = none) :
    (s.passed x c).accdump x c w p =
      .ok ((s.rowForms x (wordIds w)).2.setCtx x c ((s.ctx x c).passed.withPosts (s.dumped x w))) := by
  obtain ⟨n, hn⟩ := s.rowForms_free x (wordIds w)
  have howns : (s.passed x c).ownsArray x c = true := ho
  have hforms : (s.passed x c).rowForms x (wordIds w) =
      ((s.rowForms x (wordIds w)).1, (s.rowForms x (wordIds w)).2.setCtx x c (s.ctx x c).passed) :=
    State.rowForms_setCtx ..
  have haccess (rows : List (Nat × Nat)) :
      ((s.rowForms x (wordIds w)).2.setCtx x c (s.ctx x c).passed).rowsAccess x c p 2 rows =
        s.rowsAccess x c p 2 rows := by
    rw [hn]
    exact s.rowsAccess_passed x c p 2 rows
  have hbytes (k : Ctx) (r : (Nat × Nat) × Bool) :
      dumpBytes (((s.rowForms x (wordIds w)).2.setCtx x c k).accRow x r.1.1) r.2 =
        dumpBytes (s.accRow x r.1.1) r.2 := by
    rw [State.accRow_setCtx, hn]
    rfl
  have hrows : (s.dumpRows x w).map (fun r => (r.1.2, formBytes r.2)) = s.formRows x w := by
    simp [State.dumpRows, State.formRows, List.zip_map_left, List.zip_map_right, Function.comp_def]
  rw [← hrows] at ha
  unfold State.dumpRows at ha
  unfold wordIds at *
  unfold State.accdump
  simp only [howns, Bool.not_true, Bool.false_eq_true, if_false, hforms, haccess, ha]
  exact congrArg Except.ok (State.foldl_post (g := fun (u : State) (r : (Nat × Nat) × Bool) =>
    dumpBytes (u.accRow x r.1.1) r.2) hbytes _ _)

/-- The write that an ACCDUMP makes of a row that is not EMPTY. -/
theorem State.dumped_get {m : Nat} (hm : m < wRows w) {r : AccRow} (hr : s.accRow x (wRow0 w + m) = some r) :
    (s.dumped x w)[m]? = some (wAddr w + m * wPitch w, accBytes r) := by
  have hlen : m < (s.rowForms x (wordIds w)).1.length := by
    simpa [State.length_rowForms, wordIds] using hm
  have hrow : (s.dumpRows x w)[m]? = some ((wRow0 w + m, wAddr w + m * wPitch w), (s.rowForms x (wordIds w)).1[m]) :=
    List.getElem?_zip_eq_some.mpr ⟨by simp [hm], List.getElem?_eq_getElem hlen⟩
  rw [State.dumped, List.getElem?_map, hrow, Option.map_some, hr, dumpBytes_some]

theorem State.length_dumped : (s.dumped x w).length = wRows w := by
  simp [State.dumped, State.dumpRows, State.length_rowForms, wordIds]

theorem accdump_gives (hq : s.noLeftFailures) (h : s.atWord x c p w) (ho : s.ownsArray x c = true)
    (hop : isOp 0x04 w = true)
    (ha : s.rowsAccess x c p 2 (s.formRows x w) = none) :
    Gives (.accdump x c) s (fun t =>
      t.ctx x c = (s.ctx x c).passed.withPosts (s.dumped x w) ∧ CtxsBut x c s t ∧ ArraysSame s t ∧
      OnlyIn [.free, .tiles] s t) := by
  have e := exec_accdump x c s
  obtain ⟨n, hn⟩ := s.rowForms_free x (wordIds w)
  rw [State.runWord_at h hop (State.accdump_passed ho ha), hn] at e
  exact word_gives_tiles e hq (State.setCtx_tiles_congr rfl ..) h.unfaulted
    ((s.withFree_touches n).trans (State.setCtx_touches _ x c _)) (by simp)
    (fun hctx hctxs harrays honly => ⟨hctx, hctxs, harrays, honly⟩)

end

end Sys2Proof.Machine
end

section
/-! SUPPORT. ACCOUT (R254 to R256): a row at a time, each with its own draws, flags and post, and the row it then
clears. -/
namespace Sys2Proof.Machine

theorem exec_accout (x : Fin 24) (c : Fin 4) (s : State) :
    exec (.accout x c) s = done s (s.runWord x c (isOp 0x03) (fun s w p => s.accout x c w p)) := rfl

/-! ### One row -/

/-- The lanes of a row as ACCOUT rounds them, with the draws `ds`. -/
def outLanes (w : Nat) (row : Option AccRow) (ds : List Nat) : List FRes :=
  ((rowValues row (signed 8 (bits w 7 0))).zip ds).map (fun q =>
    let f := outRound (bits w 119 116) { mode := bits w 115 114, draw := q.2, sat := bit (bits w 119 112) 1 } true q.1.1
    { f with nv := f.nv || q.1.2 })

/-- An EMPTY row raises no flag. -/
def State.rowFlags (s : State) (x c : Nat) (row : Option AccRow) (rs : List FRes) : State :=
  if row.isNone then s else s.flagsOf x c rs

theorem State.rowFlags_flagsOnly (s : State) (x c : Nat) (row : Option AccRow) (rs : List FRes) :
    FlagsOnly x c s (s.rowFlags x c row rs) := by
  unfold State.rowFlags
  split
  · exact .refl x c s
  · exact s.flagsOf_flagsOnly x c rs

/-- A row that the word clears is EMPTY afterwards. -/
def State.rowClear (s : State) (x w m : Nat) : State :=
  if bit (bits w 119 112) 0 then s.setAcc x (wRow0 w + m) none else s

@[simp] theorem State.ctx_rowClear (s : State) (x w m y e : Nat) : (s.rowClear x w m).ctx y e = s.ctx y e := by
  unfold State.rowClear
  split
  · exact State.ctx_setAcc ..
  · rfl

@[simp] theorem State.banks_rowClear (s : State) (x w m : Nat) :
    ((s.rowClear x w m).tile x).banks = (s.tile x).banks := by
  unfold State.rowClear
  split
  · exact State.banks_setAcc ..
  · rfl

theorem State.rowClear_touches (s : State) (x w m : Nat) : Touches [.tiles] [] s (s.rowClear x w m) := by
  unfold State.rowClear
  split
  · exact s.setAcc_touches ..
  · exact .refl _ _ s

theorem State.rowClear_kept {w : Nat} (h : bit (bits w 119 112) 0 = false) (s : State) (x m : Nat) :
    s.rowClear x w m = s := by
  simp [State.rowClear, h]

theorem State.accRow_rowClear (s : State) (x w m r : Nat) : (s.rowClear x w m).accRow x r =
    if bit (bits w 119 112) 0 = true ∧ r = wRow0 w + m then none else s.accRow x r := by
  unfold State.rowClear
  split
  · next h => simp only [State.accRow_setAcc, h, true_and]
  · next h => rw [if_neg fun k => h k.1]

/-- What ACCOUT does for row `m`. -/
def State.outRow (s : State) (x c w m : Nat) : State :=
  let row := s.accRow x (wRow0 w + m)
  let d := s.drawFor x c (bits w 115 114)
  let rs := outLanes w row d.1
  ((d.2.rowFlags x c row rs).post x c (wAddr w + m * wPitch w) (laneBytes (fmtSize (bits w 119 116)) rs)).rowClear x w m

/-- The draws and the post of a row come to one new value of the context. -/
theorem State.drawFor_post (s : State) (x c mode a : Nat) (row : Option AccRow) (rs : List FRes) (bs : List Byte) :
    ((s.drawFor x c mode).2.rowFlags x c row rs).post x c a bs =
      (s.rowFlags x c row rs).setCtx x c (((s.ctx x c).drawn (if mode = 1 then 1 else 0)).withPost a bs) := by
  have hflags (u : State) (k : Ctx) : (u.setCtx x c k).rowFlags x c row rs = (u.rowFlags x c row rs).setCtx x c k := by
    unfold State.rowFlags
    split <;> rfl
  have hctx : (s.rowFlags x c row rs).ctx x c = s.ctx x c :=
    State.ctx_congr ((s.rowFlags_flagsOnly x c row rs).touches.area .tiles (by simp)) x c
  unfold State.drawFor
  split
  · exact (congrArg (State.post · x c a bs) (hflags s _)).trans (State.post_setCtx ..)
  · rw [State.post, hctx]
    rfl

theorem State.outRow_eq (s : State) (x c w m : Nat) : s.outRow x c w m =
    ((s.rowFlags x c (s.accRow x (wRow0 w + m))
      (outLanes w (s.accRow x (wRow0 w + m)) ((s.ctx x c).laneDraws x c (bits w 115 114)))).setCtx x c
      (((s.ctx x c).drawn (if bits w 115 114 = 1 then 1 else 0)).withPost (wAddr w + m * wPitch w)
        (laneBytes (fmtSize (bits w 119 116))
          (outLanes w (s.accRow x (wRow0 w + m)) ((s.ctx x c).laneDraws x c (bits w 115 114)))))).rowClear x w m := by
  unfold State.outRow
  dsimp only
  rw [State.drawFor_post, State.drawFor_fst]

/-! ### All rows -/

/-- The write that ACCOUT posts for row `m`: one draw per lane has been made for each row before it. -/
def State.outWrite (s : State) (x c w m : Nat) : Nat × List Byte :=
  (wAddr w + m * wPitch w, laneBytes (fmtSize (bits w 119 116)) (outLanes w (s.accRow x (wRow0 w + m))
    (((s.ctx x c).drawn (if bits w 115 114 = 1 then m else 0)).laneDraws x c (bits w 115 114))))

/-- The context past an ACCOUT of which `n` rows are done. -/
def State.outCtx (s : State) (x c w n : Nat) : Ctx :=
  ((s.ctx x c).passed.drawn (if bits w 115 114 = 1 then n else 0)).withPosts ((List.range n).map (s.outWrite x c w))

/-- From `s`, in which the PC has not passed the word, to `u` the first `n` rows of an ACCOUT are done. -/
structure RowsOut (x c w n : Nat) (s u : State) : Prop where
  ctxs : ∀ y e, u.ctx y e = (s.setCtx x c (s.outCtx x c w n)).ctx y e
  rows : ∀ r, u.accRow x r =
    if bit (bits w 119 112) 0 = true ∧ wRow0 w ≤ r ∧ r < wRow0 w + n then none else s.accRow x r
  kept : bit (bits w 119 112) 0 = false → (u.tile x).acc = (s.tile x).acc
  banks : (u.tile x).banks = (s.tile x).banks
  touches : Touches [.regs, .tiles] [.tilCtxFlags] s u
  regs : RegsBut [RegName.tilCtxFlags.key x c] s u

theorem RowsOut.zero (s : State) (x c w : Nat) : RowsOut x c w 0 s (s.passed x c) := by
  have hctx : s.outCtx x c w 0 = (s.ctx x c).passed := by simp [State.outCtx, Ctx.drawn, Ctx.withPosts]
  refine ⟨fun y e => by rw [hctx, State.passed], fun r => ?_, fun _ => State.acc_setCtx .., State.banks_setCtx ..,
    (State.setCtx_touches ..).mono (by simp) (by simp), .refl _ s⟩
  rw [if_neg (by omega)]
  exact State.accRow_setCtx ..

theorem State.outCtx_succ (s : State) (x c w n : Nat) : s.outCtx x c w (n + 1) =
    ((s.outCtx x c w n).drawn (if bits w 115 114 = 1 then 1 else 0)).withPost (s.outWrite x c w n).1
      (s.outWrite x c w n).2 := by
  unfold State.outCtx Ctx.drawn Ctx.withPosts Ctx.withPost
  split <;> simp [List.range_succ, Nat.add_assoc]

theorem RowsOut.succ {x c w n : Nat} {s u : State} (h : RowsOut x c w n s u) :
    RowsOut x c w (n + 1) s (u.outRow x c w n) := by
  have hctx : u.ctx x c = s.outCtx x c w n := (h.ctxs x c).trans (State.ctx_setCtx_same ..)
  have hrow : u.accRow x (wRow0 w + n) = s.accRow x (wRow0 w + n) := by rw [h.rows, if_neg (by omega)]
  have hdraws : (s.outCtx x c w n).laneDraws x c (bits w 115 114) =
      ((s.ctx x c).drawn (if bits w 115 114 = 1 then n else 0)).laneDraws x c (bits w 115 114) :=
    Ctx.laneDraws_congr rfl rfl x c _
  rw [State.outRow_eq, hctx, hrow, hdraws]
  change RowsOut x c w (n + 1) s (((u.rowFlags x c _ _).setCtx x c (((s.outCtx x c w n).drawn _).withPost
    (s.outWrite x c w n).1 (s.outWrite x c w n).2)).rowClear x w n)
  rw [← State.outCtx_succ]
  have hflags := u.rowFlags_flagsOnly x c (s.accRow x (wRow0 w + n)) (outLanes w (s.accRow x (wRow0 w + n))
    (((s.ctx x c).drawn (if bits w 115 114 = 1 then n else 0)).laneDraws x c (bits w 115 114)))
  generalize u.rowFlags x c _ _ = v at hflags ⊢
  have htiles : v.tiles = u.tiles := hflags.touches.area .tiles (by simp)
  refine ⟨fun y e => ?_, fun r => ?_, fun hkeep => ?_, ?_, ?_, ?_⟩
  · rw [State.ctx_rowClear, State.ctx_setCtx, State.ctx_setCtx, State.ctx_congr htiles, h.ctxs, State.ctx_setCtx]
    split <;> rfl
  · rw [State.accRow_rowClear, State.accRow_setCtx, State.accRow_congr htiles, h.rows]
    by_cases hr : r = wRow0 w + n
    · simp [hr]
    · have hbelow : r < wRow0 w + (n + 1) ↔ r < wRow0 w + n := by omega
      simp [hr, hbelow]
  · rw [State.rowClear_kept hkeep, State.acc_setCtx, State.tile_congr htiles, h.kept hkeep]
  · rw [State.banks_rowClear, State.banks_setCtx, State.tile_congr htiles, h.banks]
  · exact (h.touches.trans (hflags.touches.trans ((State.setCtx_touches _ x c _).trans
      (State.rowClear_touches ..)))).mono (by simp) (by simp)
  · exact h.regs.trans (hflags.regs.trans (.of ((State.rowClear_touches ..).area .regs (by simp))))

theorem State.foldl_outRow (s : State) (x c w n : Nat) :
    RowsOut x c w n s ((List.range n).foldl (fun u m => u.outRow x c w m) (s.passed x c)) := by
  induction n with
  | zero => exact .zero s x c w
  | succ n ih =>
    rw [List.range_succ, List.foldl_append]
    exact ih.succ

section
variable {s : State} {x : Fin 24} {c : Fin 4} {p w : Nat}

/-- An integer format takes no stochastic rounding and no compensated row (R255). -/
def State.outAllowed (s : State) (x w : Nat) : Prop :=
  (bits w 119 116 ≠ 6 ∧ bits w 119 116 ≠ 8) ∨
    (bits w 115 114 ≠ 1 ∧ ∀ m < wRows w, classOk true (s.accRow x (wRow0 w + m)) = true)

theorem State.accout_passed (ho : s.ownsArray x c = true) (hout : s.outAllowed x w)
    (ha : s.rowsAccess x c p 2 (wordRows w (wRows w) (512 * fmtSize (bits w 119 116))) = none) :
    (s.passed x c).accout x c w p =
      .ok ((List.range (wRows w)).foldl (fun u m => u.outRow x c w m) (s.passed x c)) := by
  have howns : (s.passed x c).ownsArray x c = true := ho
  have hrow (r : Nat) : (s.passed x c).accRow x r = s.accRow x r := State.accRow_setCtx ..
  unfold State.accout
  unfold wordRows at ha
  simp only [howns, Bool.not_true, Bool.false_eq_true, if_false, bits_flags_format, bits_flags_mode, hrow,
    State.rowsAccess_passed, List.map_map, List.foldl_map, Function.comp_def, ha]
  refine (if_neg ?_).trans rfl
  rcases hout with ⟨hint8, hint32⟩ | ⟨hmode, hexact⟩
  · simp [hint8, hint32]
  · simp only [hmode, decide_false, Bool.false_or, Bool.and_eq_true, List.any_eq_true, List.mem_map, List.mem_range]
    rintro ⟨-, _, ⟨m, hm, rfl⟩, hcomp⟩
    have hok := hexact m hm
    split at hcomp
    · next hr => rw [hr] at hok; cases hok
    · cases hcomp

/-- The write of row `m`, for a row before which no draw is made. -/
theorem State.outWrite_undrawn {m : Nat} (hm : bits w 115 114 ≠ 1 ∨ m = 0) : s.outWrite x c w m =
    (wAddr w + m * wPitch w, laneBytes (fmtSize (bits w 119 116)) (outLanes w (s.accRow x (wRow0 w + m))
      (s.drawFor x c (bits w 115 114)).1)) := by
  have hnone : (if bits w 115 114 = 1 then m else 0) = 0 := by
    rcases hm with hm | hm <;> simp [hm]
  rw [State.outWrite, hnone, Ctx.drawn_zero, State.drawFor_fst]

theorem accout_gives (hq : s.noLeftFailures) (h : s.atWord x c p w) (ho : s.ownsArray x c = true)
    (hop : isOp 0x03 w = true) (hout : s.outAllowed x w)
    (ha : s.rowsAccess x c p 2 (wordRows w (wRows w) (512 * fmtSize (bits w 119 116))) = none) :
    Gives (.accout x c) s (fun t =>
      t.ctx x c = s.outCtx x c w (wRows w) ∧
      (∀ r, t.accRow x r =
        if bit (bits w 119 112) 0 = true ∧ wRow0 w ≤ r ∧ r < wRow0 w + wRows w then none else s.accRow x r) ∧
      (bit (bits w 119 112) 0 = false → (t.tile x).acc = (s.tile x).acc) ∧ (t.tile x).banks = (s.tile x).banks ∧
      CtxsBut x c s t ∧ RegsBut [RegName.tilCtxFlags.key x c] s t ∧ OnlyIn [.regs, .tiles] s t) := by
  have e := exec_accout x c s
  rw [State.runWord_at h hop (State.accout_passed ho hout ha)] at e
  have hrows := s.foldl_outRow x c w (wRows w)
  refine array_gives e hq hrows.ctxs h.unfaulted hrows.touches (by simp) (fun t htiles hregs hctx hctxs honly =>
    ⟨hctx, fun r => (State.accRow_congr htiles x r).trans (hrows.rows r), fun hkeep => ?_, ?_, hctxs,
      hrows.regs.trans (.of hregs), honly⟩)
  · rw [State.tile_congr htiles, hrows.kept hkeep]
  · rw [State.tile_congr htiles, hrows.banks]

end

end Sys2Proof.Machine
end

section
/-! SUPPORT. The statement about the array words, settled from what each does to the rows and banks of its tile. -/
namespace Sys2Proof.Machine

/-- Row `m` of a weight bank that was loaded by rows (R243). -/
theorem State.loadedBank_row {s : State} {x c w m : Nat} (ht : bit (bits w 119 112) 3 = false) (hm : m < 128) :
    ((s.loadedBank x c w).drop (512 * m)).take 512 = s.rowElems x c w 512 m := by
  rw [State.loadedBank, if_neg (by simp [ht]),
    drop_take_flatMap _ (fun _ => State.length_rowElems ..) (by simpa using hm), List.getElem_range]

/-- Settles O34: each word's effect is a fold over its rows, none of which another row of the same word reads. -/
theorem arrayWords : Obligations.ArrayWords := by
  unfold Obligations.ArrayWords
  refine fun s x c p w hq h ho => ⟨fun hop ht ha => ?_, fun hop ht ha => ?_, fun b hop hb hpair ha hclass => ?_,
    fun hop _ hout ha => ?_, fun hop ha => ?_, fun hop ha hsome => ?_⟩
  · refine (wload_gives hq h ho hop (by rw [loadRows, if_neg (by simp [ht])]; exact ha)).mono ?_
    rintro t ⟨hbank, hrest⟩
    rw [hbank]
    exact ⟨rfl, fun m hm => State.loadedBank_row ht hm, hrest⟩
  · refine (wload_gives hq h ho hop (by rw [loadRows, if_pos ht]; exact ha)).mono ?_
    rintro t ⟨hbank, hrest⟩
    rw [hbank]
    exact ⟨rfl, if_pos ht, hrest⟩
  · exact mmpass_gives hq h ho hop hb hpair ha hclass
  · refine (accout_gives hq h ho hop hout ha).mono ?_
    rintro t ⟨hctx, hrows, hkept, hbanks, hrest⟩
    rw [hctx]
    refine ⟨fun m hm => ?_, ?_, rfl, hkept, fun m hm => ?_, fun r hr => ?_, hbanks, hrest⟩
    · by_cases hdrawn : bits w 115 114 = 1 ∧ m ≠ 0
      · exact .inl hdrawn
      · refine .inr ((Ctx.withPosts_get m).trans ?_)
        rw [List.getElem?_map, List.getElem?_range hm, Option.map_some, State.outWrite_undrawn (by omega)]
        simp only [laneBytes, outLanes, List.flatMap_map]
    · exact (Ctx.withPosts_length ..).trans (by rw [List.length_map, List.length_range]; rfl)
    · cases hclear : bit (bits w 119 112) 0 with
      | false => exact .inl rfl
      | true => exact .inr ((hrows _).trans (if_pos ⟨hclear, by omega, by omega⟩))
    · exact (hrows r).trans (if_neg (by omega))
  · refine (accdump_gives hq h ho hop ha).mono ?_
    rintro t ⟨hctx, hrest⟩
    rw [hctx]
    refine ⟨fun m hm => ?_, ?_, rfl, hrest⟩
    · cases hr : s.accRow x (wRow0 w + m) with
      | none => exact .inl rfl
      | some r => exact .inr ((Ctx.withPosts_get m).trans (State.dumped_get hm hr))
    · exact (Ctx.withPosts_length ..).trans (congrArg _ State.length_dumped)
  · exact accin_gives hq h ho hop ha hsome

end Sys2Proof.Machine
end
